-- ==== Sys2Proof/Word.lean ====
section
/-!
DEFINITION. The words of the Vezan (Table 0-1): byte, word, pair and quad, and the index types the commands' operands use.
-/
namespace Sys2Proof

/-- One byte of a frame, a message or memory. -/
abbrev Byte := BitVec 8
/-- One 16-bit word: what one word address names (Table 0-1). -/
abbrev Word := BitVec 16
/-- 32 bits. -/
abbrev Pair := BitVec 32
/-- 64 bits. -/
abbrev Quad := BitVec 64
/-- A local index, 0…262,143 (R11). -/
abbrev Lix := BitVec 18
/-- A queue number, 0x0000–0x1FFF (R89). -/
abbrev QNum := BitVec 13
/-- A shard, 0…8,191 (R11). -/
abbrev Shard := BitVec 13
/-- A function index, 0…63 (R13). -/
abbrev Fn := Fin 64
/-- A field port FP0–FP3. -/
abbrev Port := Fin 4
/-- A hoop, 0…31. -/
abbrev Hoop := Fin 32
/-- A stake core, 0…47. -/
abbrev Core := Fin 48
/-- A stake cluster, 0…11. -/
abbrev Cluster := Fin 12
/-- A rim link RL0 or RL1. -/
abbrev Link := Fin 2
/-- A physical word address. -/
abbrev PAddr := BitVec 44

/-- Who makes a register access: the requesters of Table 17-2, and a function through its own BAR0 page (R186, R391). -/
inductive Requester where
  /-- The PF through BAR0. -/
  | pf
  /-- Stake core c. -/
  | stake (c : Core)
  /-- The handle core, on its 32-bit path. -/
  | handle
  /-- Debug transport 0, on its 32-bit path. -/
  | dbg0
  /-- The debug access engine, for transport t. -/
  | accEngine (t : Fin 2)
  /-- Function f through the function page of its own BAR0; the offset is a word offset in the page. -/
  | fnPage (f : Fn)
  deriving DecidableEq, Repr

/-- The threads that execute Plait: the handle core, a context of a strand engine (16h + e), a stake core (R224). -/
inductive ThreadId where
  | handle
  | engine (e : Fin 512) (ctx : Fin 4)
  | stake (c : Core)
  deriving DecidableEq, Repr

/-- A request on the weave whose target does not answer (R104): a queue-access port's, the debug access engine's, or a store in a core's
merging (false) or combining buffer, counted from the oldest. -/
inductive WeaveWaiter where
  | qaPort (c : Core)
  | access
  | store (c : Core) (combining : Bool) (i : Nat)
  deriving DecidableEq, Repr

/-- What a debug register access names (R370): core c, with 48 for the handle core, or a context of an engine. -/
inductive DbgTarget where
  | core (c : Fin 49)
  | engine (e : Fin 512) (ctx : Fin 4)
  deriving DecidableEq, Repr

/-- How a DMA read or a memory access ends: data, or one of the failures of R193. -/
inductive DmaErr where
  /-- Unsupported Request. -/
  | ur
  /-- Completer Abort. -/
  | ca
  /-- Poisoned completion data. -/
  | poison
  /-- Completion timeout. -/
  | timeout
  deriving DecidableEq, Repr

/-- The further fields of a function's configuration space that the host writes (Tables 8-1, 8-3 and 8-4), at the reset values of the PCI
Express Base Specification (PRESUMED, log entry 88): the encodings of Max_Payload_Size, Max_Read_Request_Size and ASPM Control, the error
reporting enables of Device Control (correctable, non-fatal, fatal, Unsupported Request), the Completion Timeout fields, AER's severity, masks
and ECRC enables, the BARs, and of the SR-IOV capability System Page Size, VF BAR0 and VF 10-Bit Tag Requester Enable. -/
structure DevCtl where
  mps : BitVec 3 := 0
  mrrs : BitVec 3 := 2
  extTag : Bool := true
  noSnoop : Bool := true
  report : BitVec 4 := 0
  aspm : BitVec 2 := 0
  ctoVal : BitVec 4 := 0
  ctoDis : Bool := false
  ecrcGen : Bool := false
  ecrcChk : Bool := false
  sev : BitVec 32 := 0x00462010
  maskU : BitVec 32 := 0x00400000
  maskC : BitVec 32 := 0x0000A000
  bar0 : BitVec 64 := 0
  bar2 : BitVec 64 := 0
  vfBar0 : BitVec 64 := 0
  sysPage : BitVec 32 := 1
  vfTag10 : Bool := false
  deriving DecidableEq, Repr

/-- The fields that an FLR leaves as they are: Max_Payload_Size, ASPM Control and the sticky fields of AER (PRESUMED, log entry 88). -/
def DevCtl.sticky (c : DevCtl) : DevCtl :=
  { mps := c.mps, aspm := c.aspm, ecrcGen := c.ecrcGen, ecrcChk := c.ecrcChk, sev := c.sev, maskU := c.maskU, maskC := c.maskC }

/-- What configuration writes set in a function: Bus Master Enable, Memory Space Enable, Enable Relaxed Ordering, MSI-X Enable and Function
Mask, in the PF the 10-Bit Tag Requester Enable, and the fields of `DevCtl`; and the ones written to the AER uncorrectable and correctable status
and to the error bits of Device Status, which they clear. A VF's Memory Space Enable lies in the PF's SR-IOV capability instead. -/
structure HostCtl where
  bme : Bool
  mse : Bool
  ero : Bool
  msixEn : Bool
  fmask : Bool
  tag10 : Bool
  cfg : DevCtl := {}
  clrU : BitVec 32 := 0
  clrC : BitVec 32 := 0
  clrDet : BitVec 4 := 0
  deriving DecidableEq, Repr

/-- What a link brings up, in the order of Table 3-3: signal, clock recovery, receiver adaptation, block lock, alignment-marker lock,
RS-FEC lock. -/
inductive LinkStage where
  | signal | cdr | adapt | block | am | fec
  deriving DecidableEq, Repr

/-- A link of a port and the stage it reaches or loses. -/
structure LinkAt where
  link : Fin 4
  stage : LinkStage
  deriving DecidableEq, Repr

/-- A rim link and the stage it reaches or loses. -/
structure RimAt where
  link : Link
  stage : LinkStage
  deriving DecidableEq, Repr

/-- What a rim frame comes with: the RS-FEC codewords corrected in it, and whether its first bit came before an OUT that is being carried
out. -/
structure RimRxLine where
  cw : BitVec 16
  begun : Bool
  deriving DecidableEq, Repr

/-- The stage a link loses, if it loses one: with none, a codeword is uncorrectable and no lock is lost. -/
abbrev StageO := Option LinkStage

/-- A link of the field ports or of the rim. -/
inductive LinkId where
  | field (p : Port) (l : Fin 4)
  | rim (i : Link)
  deriving DecidableEq, Repr

/-- The errors AER reports that the link itself detects (Table 8-9). -/
inductive AerErr where
  | receiver | badTlp | badDllp | rollover | replayTimer | advisory | headerOverflow
  | dlProtocol | poisoned | flowControl | compTimeout | compAbort | unexpected | overflow | malformed | ecrc | unsupported | internal
  deriving DecidableEq, Repr

/-- A physical line of 32 words: bits [43:5] of a word address. -/
abbrev Line := BitVec 39

/-- Bits of a symbol that a DRAM device gives inverted when a burst is read (R298): codeword, symbol, the bits. -/
structure DramFlip where
  cw : Fin 8
  sym : Fin 10
  bits : BitVec 8
  deriving DecidableEq, Repr

/-- What a DRAM burst meets when it is read: nothing, or symbols given wrong. -/
abbrev DramEnv := List DramFlip

/-- The same of the bursts of several lines. -/
abbrev DramEnvs := List (Line × DramEnv)

/-- What the Basket's code shows where an entry or a cell is read (R106, R107): good quads, one corrected quad, an uncorrectable quad of
a cell, an uncorrectable quad of the queue's structure, or a corrected one. -/
inductive CellEnv where
  | good
  | corrected
  | bad
  | structCorrected
  | structBad
  deriving DecidableEq, Repr

/-- The SIZE of an access of the debug access engine, and what the DRAM burst it may read meets. -/
structure AccSize where
  size : Fin 3
  env : DramEnv := []
  deriving DecidableEq, Repr

/-- A load that an instruction further on in a core's program order will make, performed ahead of its place (R292): the base registers its
address comes from, its physical address, and its size, 2^`sz` words. -/
structure LookAhead where
  ra : BitVec 5
  rb : BitVec 5
  pa : PAddr
  sz : Fin 3
  deriving DecidableEq, Repr

/-- What the memory system meets while one access runs: lines of the L1I and L1D with a parity error, lines of the cluster's L2 with a quad that is
corrected (false) or uncorrectable (true), DRAM errors, a target that answers "absent" (R104); for an instruction of a strand engine, an
uncorrectable error in its hoop's stores (R134). For a stake core's order of loads (R292): the loads performed ahead here, and whether this
instruction's load takes the value it was given ahead. -/
structure MemEnv where
  l1i : List Line := []
  l1d : List Line := []
  l2 : List (Line × Bool) := []
  dram : DramEnvs := []
  absent : Bool := false
  hoopStore : Bool := false
  ahead : List LookAhead := []
  early : Bool := false
  deriving DecidableEq, Repr

/-- The fields of a Plait instruction whose class uses RA, RB and FN (Table 10-5): `sub` is the part of FN its mnemonic leaves open
(SZ of the MEM and ATOM classes, PT of the LONG and DEC classes), `imm` counts when L = 1. -/
structure PReg where
  gp : BitVec 3
  gs : Bool
  l : Bool
  rd : BitVec 5
  x : Bool
  ra : BitVec 5
  rb : BitVec 5
  sub : BitVec 3
  imm : BitVec 16
  env : MemEnv := {}
  deriving DecidableEq, Repr

/-- The fields of a Plait instruction whose class uses bits [31:16] as one operand (branch, short absolute, immediate, system). -/
structure PArg where
  gp : BitVec 3
  gs : Bool
  l : Bool
  rd : BitVec 5
  x : Bool
  arg : BitVec 16
  imm : BitVec 16
  env : MemEnv := {}
  deriving DecidableEq, Repr

/-- A watchdog (Table 13-3). -/
inductive Watchdog where
  | core (c : Core)
  | hoop (h : Hoop)
  | trial
  | handle
  deriving DecidableEq, Repr

/-- Its class. -/
def Watchdog.cls : Watchdog → Nat
  | .core _ => 0
  | .hoop _ => 1
  | .trial => 2
  | .handle => 3

/-- Its unit. -/
def Watchdog.unit : Watchdog → Nat
  | .core c => c.val
  | .hoop h => h.val
  | _ => 0

/-- How the host read of a command's buffer failed, and where. -/
abbrev FailO := Option (DmaErr × BitVec 32)

/-- The bytes of a write; none for a read. -/
abbrev BytesO := Option (List Byte)

/-- The header of a TLP that AER logs. -/
abbrev HdrO := Option (BitVec 128)

/-- What a converter sweep measures, by sensor: 12 temperatures in quarter degrees, then 8 voltages. -/
abbrev Sensors := List (BitVec 12)

/-- How a DMA read failed, if it did. -/
abbrev DmaErrO := Option DmaErr

end Sys2Proof
end

