-- ==== Sys2Proof/Syntax.lean ====
section
/-!
DEFINITION. The commands of the Vezan: one constructor for each row of the opcode table.
-/
namespace Sys2Proof

/-- A command. -/
inductive Instr where
  /-- REGISTER_WRITE (R6). A write to a control-space or function-page register that has no row of its own sets its fields as their types state. -/
  | registerWrite (r : Requester) (off : BitVec 23) (bytes : Fin 16) (v : BitVec 64)
  /-- RC_FIELD_READ (R8). A read without PEEK of a register holding RC fields returns them and clears them to 0. -/
  | rcFieldRead (r : Requester) (off : BitVec 23) (bytes : Fin 16) (peek : Bool)
  /-- SPLIT_LOW_PAIR_READ (R309). A 32-bit requester reads the low pair of a 64-bit register, which latches the high half of the same instant. -/
  | splitLowPairRead (h : Bool) (off : BitVec 20) (peek : Bool)
  /-- SPLIT_LOW_PAIR_WRITE (R310). A 32-bit requester writes the low pair of a 64-bit register into its write latch. -/
  | splitLowPairWrite (h : Bool) (off : BitVec 20) (v : BitVec 32)
  /-- SPLIT_HIGH_PAIR_WRITE (R310). A high-pair write commits the latched quad in one control cycle, or is refused when no low pair is held. -/
  | splitHighPairWrite (h : Bool) (off : BitVec 20) (v : BitVec 32)
  /-- BLOCK_LOCK_SET (R7). Writing 1 to a block's LOCK freezes its RWL fields until device reset and activates any protected region the block
  defines. -/
  | blockLockSet (r : Requester) (k : Fin 8)
  /-- POWER_ON_RESET (R402). Power applied, a rail below its reset level or RESET_N low for 1 µs resets everything, the sticky log included. -/
  | powerOnReset
  /-- RESET_RELEASE (R402). RESET_N is released after the rails and reference are good, starting the boot ROM. -/
  | resetRelease
  /-- DEVICE_WARM_RESET (R23). A device warm reset resets everything except fuses and the sticky log and restarts boot. -/
  | deviceWarmReset
  /-- HOST_INTERFACE_RESET (R201). PERST#, a hot reset or DL_Down resets the host interface and every function's rings and begins island
  operation. -/
  | hostInterfaceReset (cause : Fin 3)
  /-- SLOT_BOUNDARY (R308). A tick that passes a multiple of 1,000,000 above TB_HWM produces one slot boundary for the largest such multiple. -/
  | slotBoundary
  /-- MANAGEMENT_TICK (R308). A tick that passes a multiple of 40,000,000 above TB_HWM produces one management-tick boundary and its periodic
  work. -/
  | managementTick
  /-- MLP_DATAGRAM_RECEIVE (R59). The message layer checks a received datagram in order, dropping it at the first failing check or admitting it. -/
  | mlpDatagramReceive
  /-- MLP_EGRESS_TAKE (R63). The message layer takes the next egress message by priority, resolves its lantern, assigns SEQ and seals it or
  withholds it. -/
  | mlpEgressTake
  /-- REKEY_RESEND (R54). MLE_REKEY.INTERVAL after a REKEY send without promotion, another REKEY becomes due while sends remain. -/
  | rekeyResend (lix : Lix)
  /-- REKEY_EXHAUSTED (R54). MLE_REKEY.INTERVAL after the last allowed send without promotion, the rekey ends with event 0x0206 and the next key
  kept. -/
  | rekeyExhausted (lix : Lix)
  /-- OLD_SLOT_RETIRE (R54). MLE_GRACE.MS after promotion, the old key slot is retired and accepts nothing. -/
  | oldSlotRetire (lix : Lix)
  /-- REGISTER (R58). Inventory command REGISTER enters a UID at a local index with owner and gateway. -/
  | register
  /-- UPDATE (R58). Inventory command UPDATE changes OWNER and GW of a registered UID whose LIX matches. -/
  | update
  /-- SUSPEND (R58). Inventory command SUSPEND keeps keys and windows but refuses the lantern's messages and withholds its egress. -/
  | suspend
  /-- RESUME (R58). Inventory command RESUME returns a suspended lantern to active. -/
  | resume
  /-- REMOVE (R58). Inventory command REMOVE erases the lantern's slots and windows, cancels any rekey and frees UID and index. -/
  | remove
  /-- LOOKUP (R58). Inventory command LOOKUP loads a UID's entry into MLE_INV_ENTRY or reports it not registered. -/
  | lookup
  /-- LOAD_CURRENT (R58). Key command LOAD_CURRENT unwraps a key as current under MLE_KEY_EPOCH, erasing the other slot and resetting windows. -/
  | loadCurrent (lix : Lix)
  /-- LOAD_NEXT (R58). Key command LOAD_NEXT unwraps a next key into the slot that is not current, with epoch current + 1. -/
  | loadNext (lix : Lix)
  /-- LOAD_NEXT_AND_REKEY (R54). Key command LOAD_NEXT_AND_REKEY loads a next key and starts a rekey that sends REKEY. -/
  | loadNextAndRekey (lix : Lix)
  /-- START_REKEY (R54). Key command START_REKEY starts a rekey with the loaded next key. -/
  | startRekey (lix : Lix)
  /-- ERASE_NEXT (R58). Key command ERASE_NEXT empties the next slot and ends resends. -/
  | eraseNext (lix : Lix)
  /-- ERASE_ALL (R58). Key command ERASE_ALL empties both key slots of a lantern. -/
  | eraseAll (lix : Lix)
  /-- KEY_UNWRAP_COMPLETE (R58). The handle core finishes unwrapping a key blob, installs or refuses it and clears MLE_KEY_STATUS.BUSY. -/
  | keyUnwrapComplete
  /-- INV_COMMAND_COMPLETE (R56). An inventory command's result becomes final and MLE_INV_STATUS.BUSY clears. -/
  | invCommandComplete
  /-- MLE_GW_READ (R57). MLE_GW_CMD READ loads gateway entry INDEX into the gateway operand registers. -/
  | mleGwRead (ix : BitVec 12)
  /-- MLE_GW_WRITE (R58). MLE_GW_CMD WRITE stores the gateway operand registers as entry INDEX, applying to the next message sent. -/
  | mleGwWrite (ix : BitVec 12)
  /-- FP_FRAME_RECEIVE (R69). A received frame is classified and passed to the message layer buffer, to the slow lane, or dropped by reason. -/
  | fpFrameReceive (p : Port) (l : Fin 4) (bytes : List Byte) (cw : BitVec 16) (sym : BitVec 16) (begun : Bool)
  /-- OUT (R82). FP_SVC.OP OUT stops accepting frames, drains the buffers and turns the port's lanes off. -/
  | fpOut (r : Requester) (p : Port)
  /-- FP_OUT_COMPLETE (R82). The port's drain ends, lanes turn off and FP_SVC goes out of service with BUSY cleared. -/
  | fpOutComplete (p : Port)
  /-- IN (R67). FP_SVC.OP IN on an out-of-service or parked port starts bring-up as returning. -/
  | fpIn (p : Port)
  /-- PARK (R83). FP_SVC.OP PARK on an out-of-service port parks its domain and arms its wake detector. -/
  | fpPark (r : Requester) (p : Port)
  /-- FP_FEC_LOCK (R67). A link's RS-FEC acquires lock and its hold-off starts. -/
  | fpFecLock (p : Port) (l : LinkAt)
  /-- FP_HOLDOFF_END (R67). A link's FEC hold-off expires without error, making the link usable and the port in service. -/
  | fpHoldoffEnd (p : Port) (l : Fin 4)
  /-- FP_LOCK_LOSS (R68). A usable link loses lock, drops the frame in reception, counts it and raises event 0x0302. -/
  | fpLockLoss (p : Port) (l : LinkAt)
  /-- FP_RETURN_TIMEOUT (R67). A port still returning 500 ms after IN or wake raises event 0x0307. -/
  | fpReturnTimeout (p : Port)
  /-- FP_WAKE_DETECT (R83). A parked port's wake detector recognises link activity or the wake pattern and the port returns. -/
  | fpWakeDetect (p : Port) (pattern : Bool)
  /-- FP_CFG_WRITE (R84). A write to FP_CFG is ignored when it would change MODE outside out of service, otherwise applies at the next frame
  boundary. -/
  | fpCfgWrite (r : Requester) (p : Port) (v : BitVec 32)
  /-- FP_NH_READ (R74). FP_NH_CMD READ loads next-hop entry INDEX into FP_NH_ENTRY. -/
  | fpNhRead (ix : BitVec 12)
  /-- FP_NH_WRITE (R74). FP_NH_CMD WRITE stores FP_NH_ENTRY as next-hop entry INDEX. -/
  | fpNhWrite (ix : BitVec 12)
  /-- FP_FRAME_TRANSMIT (R76). The port picks MLP or slow-lane egress by deficit round-robin and sends one frame on a link. -/
  | fpFrameTransmit (p : Port)
  /-- SLOW_LANE_SEND (R78). The port takes a slow-lane egress entry and sends the frame with FCS, or discards a malformed one. -/
  | slowLaneSend (p : Port)
  /-- FP_TXTS_INFO_READ (R81). A read of FP_TXTS_INFO without PEEK moves the oldest timestamp FIFO entry into the latch. -/
  | fpTxtsInfoRead (p : Port) (peek : Bool)
  /-- UNCORRECTABLE_CODEWORD (R67). An uncorrectable RS-FEC codeword, or a loss of any lock, on a link in its hold-off restarts the hold-off at
  the next FEC lock. -/
  | uncorrectableCodeword (x : LinkId) (loss : StageO)
  /-- BSK_ENQUEUE (R94). An entry commits at a queue's ingress and is placed on die, in TAIL, held, or refused, discarding old entries as policy
  allows. -/
  | bskEnqueue (q : QNum) (ws : List Word)
  /-- HELD_RETRY (R99). A held producer retries the entry no sooner than 64 weave cycles later. -/
  | heldRetry (q : QNum)
  /-- BSK_DEQUEUE (R98). A consumer dequeues the oldest whole entry of a queue, or receives empty or empty for now. -/
  | bskDequeue (q : QNum) (env : CellEnv)
  /-- SPILL (R95). A full 16-cell block of TAIL is written to LOW in the lower tier. -/
  | spill (q : QNum)
  /-- SPILL_WRITE_COMPLETE (R94). A spill block's write to the lower tier completes and its cells are freed. -/
  | spillWriteComplete (q : QNum)
  /-- REFILL (R95). LOW's oldest block is requested into HEAD when HEAD has room. -/
  | refill (q : QNum)
  /-- REFILL_ARRIVE (R97). A refill block arrives in HEAD, or loses entries whose boundaries are uncorrectable. -/
  | refillArrive (q : QNum) (env : DramEnv) (bounds : Bool)
  /-- JOIN (R95). With LOW empty and nothing in flight, TAIL is relinked to HEAD and the queue returns to on die. -/
  | join (q : QNum)
  /-- BSK_SCRUB_READ (R108). The scrubber reads and corrects the next cell in its pass. -/
  | bskScrubRead (q : QNum) (env : CellEnv)
  /-- BSK_Q_READ (R110). BSK_Q_CMD READ loads the selected queue's configuration and state. -/
  | bskQRead
  /-- BSK_Q_WRITE (R96). BSK_Q_CMD WRITE configures the selected queue, refused for HOLD on shared queues, small ODQ with LTQ, or owner changes. -/
  | bskQWrite
  /-- FLUSH (R105). BSK_Q_CMD FLUSH discards every entry of the queue once blocks in flight complete. -/
  | flush
  /-- FLUSH_COMPLETE (R105). A FLUSH waiting on a spill or refill block discards the entries and clears BUSY. -/
  | flushComplete
  /-- COUNTS (R110). BSK_Q_CMD COUNTS loads the selected queue's counts into BSK_Q_CNT. -/
  | counts
  /-- COUNTS_AND_CLEAR (R110). BSK_Q_CMD COUNTS and clear loads the queue's counts and clears them. -/
  | countsAndClear
  /-- BSK_SHARDQ_READ (R90). BSK_SHARDQ READ loads a shard's map entry. -/
  | bskShardqRead (sh : Shard)
  /-- BSK_SHARDQ_WRITE (R90). BSK_SHARDQ WRITE maps a shard to a lantern queue for every later admission. -/
  | bskShardqWrite (r : Requester) (sh : Shard) (q : QNum) (valid : Bool)
  /-- ENQ (R109). A stake core's queue-access port enqueues an entry from memory to a queue. -/
  | enq (c : Core) (q : QNum) (len : BitVec 12)
  /-- DEQ (R109). A stake core's queue-access port dequeues an entry into memory, up to LEN words. -/
  | deq (c : Core) (q : QNum) (len : BitVec 12)
  /-- QUEUE_ACCESS_COMPLETE (R109). A queue-access command's result becomes final, BUSY clears and interrupt source 56 is raised. -/
  | queueAccessComplete (c : Core) (cell : CellEnv) (env : DramEnvs)
  /-- WEAVE_REQUEST_TIMEOUT (R104). A request unanswered for 2^WV_TIMEOUT.EXP weave cycles receives an absent response. -/
  | weaveRequestTimeout (w : WeaveWaiter)
  /-- HOOP_DISPATCH (R116). A hoop's dispatcher takes one entry round-robin and hands it to a free context, discards it, or forwards a hand-off. -/
  | hoopDispatch (h : Hoop)
  /-- STOCK_PROGRAM_MESSAGE (R118). A context runs the stock program on one admitted message or hand-off entry. -/
  | stockProgramMessage (h : Hoop) (e : Fin 16) (c : Fin 4)
  /-- TRACK_END (R120). A track's last expectation passes ETA plus WIN unmatched and an OD record is written. -/
  | trackEnd (track : BitVec 48)
  /-- WAVE_SNAPSHOT_TIMEOUT (R122). 60 s after a WAVE snapshot's first part, the incomplete snapshot is written with event 0x0509. -/
  | waveSnapshotTimeout (lix : Lix) (snap : BitVec 16)
  /-- PAIRING_JOB (R123). A context submits a pairing job of a query and up to 16 candidates to its hoop's pairing unit. -/
  | pairingJob (h : Hoop) (e : Fin 16) (c : Fin 4)
  /-- PAIRING_RESULT (R124). The pairing unit writes the scores of a job to the context's result words and the context resumes. -/
  | pairingResult (h : Hoop)
  /-- CUSTOMER_INVOCATION (R125). Context 3 runs one queued invocation of a customer program after the stock program completes a declared
  message. -/
  | customerInvocation (h : Hoop) (e : Fin 16) (cycles : BitVec 16)
  /-- INVOCATION_BUDGET_EXPIRE (R126). An invocation running beyond HOOP_CUST.BUDGET hoop cycles is abandoned. -/
  | invocationBudgetExpire (g : Fin 512)
  /-- OUT_CMD (R126). An invocation's OUT_CMD write commits its output buffer to its function's record or bulk-in queue. -/
  | outCmd (g : Fin 512) (v : BitVec 32)
  /-- REFLEX_RECORD (R129). The reflex unit computes orders for the neighbours of one DETECT record and emits local and remote entries. -/
  | reflexRecord
  /-- RFX_TBL_READ (R136). RFX_TBL_CMD READ loads a local index's reflex entry into RFX_ENT. -/
  | rfxTblRead (lix : Lix)
  /-- RFX_TBL_WRITE (R133). RFX_TBL_CMD WRITE stores RFX_ENT as a reflex entry unless its counts are invalid. -/
  | rfxTblWrite (lix : Lix)
  /-- RFX_TBL_CLEAR (R136). RFX_TBL_CMD CLEAR sets VALID of a reflex entry to 0. -/
  | rfxTblClear (lix : Lix)
  /-- RFX_CRV_READ (R128). RFX_CRV_CMD READ loads a response curve into RFX_CRV. -/
  | rfxCrvRead (c : BitVec 8)
  /-- RFX_CRV_WRITE (R128). RFX_CRV_CMD WRITE stores a response curve unless NPTS or T is invalid. -/
  | rfxCrvWrite (c : BitVec 8)
  /-- HOOP_OUT (R134). HOOP_SVC OUT takes a hoop with no shards out of service. -/
  | hoopOut (r : Requester) (h : Hoop)
  /-- HOOP_IN (R134). HOOP_SVC IN reloads the instruction store, clears state and returns the hoop to service. -/
  | hoopIn (h : Hoop)
  /-- HOOP_IN_COMPLETE (R134). A returning hoop enters service within 200 µs and forwards its hand-off queue. -/
  | hoopInComplete (h : Hoop)
  /-- HOOP_PARK (R134). HOOP_SVC PARK parks an out-of-service hoop. -/
  | hoopPark (r : Requester) (h : Hoop)
  /-- HOOP_SHARD_READ (R115). HOOP_SHARD READ loads a shard's hoop and state. -/
  | hoopShardRead (sh : Shard)
  /-- HOOP_SHARD_WRITE (R115). HOOP_SHARD WRITE reassigns a shard whose queue is empty and unheld, or sets REFUSED. -/
  | hoopShardWrite (r : Requester) (sh : Shard) (h : Hoop)
  /-- QMOVE (R135). Migration QMOVE moves a lantern queue's shards to DHOOP after its source drains and writes back. -/
  | qmove
  /-- SMOVE (R135). Migration SMOVE remaps one shard to DQUEUE, commits drain markers and moves it once the old queue drains. -/
  | smove
  /-- QMOVE_FORCED (R135). Forced QMOVE reassigns a queue's shards from an out-of-service hoop at once. -/
  | qmoveForced
  /-- SMOVE_FORCED (R135). Forced SMOVE completes a pending SMOVE at once. -/
  | smoveForced
  /-- MIGRATION_COMPLETE (R135). A migration finishes its write-back, reassigns the shards and raises event 0x0505. -/
  | migrationComplete
  /-- MIGRATION_TIMEOUT (R135). A migration not complete within MIGTO ms is undone or left pending with event 0x0506. -/
  | migrationTimeout
  /-- ORDER_SWEEP (R140). At the cut-off of a slot the merge computes one level per registered lantern and enqueues due ORDERs. -/
  | orderSweep
  /-- ORD_CFG_WRITE (R140). A write to ORD_CFG changes LEAD so that the pending slot is swept once, at the new or old cut-off. -/
  | ordCfgWrite (lead : BitVec 10) (ack : BitVec 2) (refresh : BitVec 10)
  /-- REFLEX_APPLY (R146). The merge takes a reflex entry from queue 0x1588 and updates the reflex registers of its targets. -/
  | reflexApply
  /-- COMPENSATION_APPLY (R173). The merge applies a compensation entry from queue 0x1588 to the remote compensation table. -/
  | compensationApply
  /-- COMPENSATION_EXPIRE (R173). A remote compensation entry past its expiry is freed at the management tick and counted. -/
  | compensationExpire
  /-- FAULT_APPLY (R147). The merge takes a FAULT from queue 0x1589 and updates the lantern's dark set. -/
  | faultApply
  /-- ORDER_ACK_APPLY (R152). The merge matches an ORDER-ACK from queue 0x158A to the lantern's LSLOT. -/
  | orderAckApply
  /-- ORD_TBL_READ (R162). ORD_TBL_CMD READ loads an order-merge table entry into ORD_DATA. -/
  | ordTblRead
  /-- ORD_TBL_WRITE (R162). ORD_TBL_CMD WRITE stores the writable fields of a table entry under its checks. -/
  | ordTblWrite
  /-- ORD_TBL_CLEAR (R162). ORD_TBL_CMD CLEAR empties a lantern entry's dark and reflex state or cancels an order record. -/
  | ordTblClear
  /-- LEDGER_STATUS_APPLY (R156). The ledger applies a STATUS to the lantern's record, detecting swaps and accumulating life. -/
  | ledgerStatusApply
  /-- LEDGER_ENERGY_APPLY (R159). The ledger applies an ENERGY reading to the lantern and owner totals in decimal. -/
  | ledgerEnergyApply
  /-- ENERGY_PERIOD_BOUNDARY (R160). The time base passes a multiple of EPERIOD minutes, ending an energy period. -/
  | energyPeriodBoundary
  /-- LDG_TBL_READ (R161). LDG_TBL_CMD READ loads a ledger table entry into LDG_DATA. -/
  | ldgTblRead
  /-- LDG_TBL_WRITE (R161). LDG_TBL_CMD WRITE stores a ledger record, type or ageing table, refused for energy totals. -/
  | ldgTblWrite
  /-- LDG_TBL_CLEAR (R158). LDG_TBL_CMD CLEAR archives both parts with event 0x0616 and zeroes the ledger record. -/
  | ldgTblClear
  /-- RIM_OUT (R166). RIM_SVC OUT takes a rim link out of service. -/
  | rimOut (r : Requester) (ix : Link)
  /-- RIM_IN (R165). RIM_SVC IN brings a rim link up, refused while DVALID or NBRV is 0. -/
  | rimIn (r : Requester) (ix : Link)
  /-- RIM_PARK (R166). RIM_SVC PARK parks an out-of-service rim link. -/
  | rimPark (r : Requester) (ix : Link)
  /-- RIM_HOLDOFF_END (R166). A rim link's FEC hold-off ends and it enters the returning state exchanging IDENT. -/
  | rimHoldoffEnd (ix : Link)
  /-- RIM_LOCK_LOSS (R177). A rim link loses lock and returns to the returning state. -/
  | rimLockLoss (ix : RimAt)
  /-- RIM_RETURN_TIMEOUT (R166). A rim link still returning 500 ms after IN raises event 0x0704. -/
  | rimReturnTimeout (ix : Link)
  /-- IDENT_TIMER (R166). Every 10 µs while returning, or 1 ms in service, a link sends an IDENT frame. -/
  | identTimer (ix : Link)
  /-- SYNC_TIMER (R168). Every 1 µs each side of a link sends a SYNC frame. -/
  | syncTimer (ix : Link)
  /-- RIM_FRAME_RECEIVE (R174). A rim frame is checked and its entry filtered by boundary set and delivered, or its IDENT or SYNC acted on. -/
  | rimFrameReceive (ix : Link) (bytes : List Byte) (line : RimRxLine)
  /-- RIM_ENTRY_SEND (R168). A rim link takes an entry from its egress queue and sends it as a frame when its pool has credit, or discards it
  when not in service. -/
  | rimEntrySend (ix : Link)
  /-- RIM_BSET_READ (R174). RIM_BSET READ loads a local index's boundary bit. -/
  | rimBsetRead (lix : Lix)
  /-- RIM_BSET_WRITE (R174). RIM_BSET WRITE stores a local index's boundary bit. -/
  | rimBsetWrite (lix : Lix) (b : Bool)
  /-- RIM_FEC_LOCK (R166). A rim link's RS-FEC acquires lock during bring-up and its RIM_LCFG hold-off starts. -/
  | rimFecLock (ix : RimAt)
  /-- RIM_OUT_COMPLETE (R166). A rim link taken OUT finishes its drain, turns its lanes off and goes out of service with BUSY cleared. -/
  | rimOutComplete (ix : Link)
  /-- VF_ENABLE_WRITE (R185). A configuration write of VF Enable enables VFs or acts as FLR on every VF it disables. -/
  | vfEnableWrite (en : Bool) (mse : Bool) (ari : Bool)
  /-- NUMVFS_WRITE (R185). A configuration write of NumVFs while VF Enable is 0 sets the VF count and raises event 0x0805. -/
  | numvfsWrite (n : BitVec 16)
  /-- INITIATE_FLR (R199). A configuration write initiating FLR stops the function, increments GEN and clears its interrupts and ad hoc orders. -/
  | initiateFlr (f : Fn)
  /-- FLR_READS_ABANDON (R199). Reads of an FLR still outstanding 90 ms after it began are abandoned. -/
  | flrReadsAbandon (f : Fn)
  /-- FLR_COMPLETE (R199). With no read outstanding, the function page and configuration reset, STATE becomes idle and event 0x0802 is raised. -/
  | flrComplete (f : Fn)
  /-- BUS_MASTER_ENABLE_CHANGE (R194). A change of Bus Master Enable stops or resumes a function's DMA and pending interrupts. -/
  | busMasterEnableChange (f : Fn) (ctl : HostCtl)
  /-- D3HOT_TRANSITION (R195). A power-state write moves the PF between D0 and D3hot, where functions act as if bus mastering were off. -/
  | d3hotTransition (d3 : Bool)
  /-- HOST_LINK_UP (R201). The link is up again after a host-interface reset and event 0x0801 is queued. -/
  | hostLinkUp (speed : BitVec 3) (width : BitVec 4)
  /-- LINK_SPEED_CHANGE (R182). The link retrains to another speed or width without DL_Down and raises event 0x0803. -/
  | linkSpeedChange (speed : BitVec 3) (width : BitVec 4)
  /-- DMA_READ_COMPLETE (R193). A DMA read's completion arrives and its data is used, or on error the function error bit and event 0x0804 are
  raised. -/
  | dmaReadComplete (f : Fn) (n : BitVec 7) (bytes : List Byte) (err : DmaErrO)
  /-- DMA_COMPLETION_TIMEOUT (R193). A DMA read reaches its completion timeout and is treated as failed. -/
  | dmaCompletionTimeout (f : Fn) (n : BitVec 7)
  /-- DMA_ROUND (R189). The ring engine serves functions' DMA work by deficit round-robin on bytes. -/
  | dmaRound
  /-- DLL_ACK_RECEIVE (R197). A data-link acknowledgement of a status-record write releases the entries it published. -/
  | dllAckReceive (f : Fn)
  /-- MSIX_SEND (R191). A due interrupt cause past its moderation floor sends its vector's MSI-X message or sets its pending bit. -/
  | msixSend (f : Fn)
  /-- DOORBELL_FETCH (R208). The ring engine issues a read of a function's doorbell record at its polling time or on fetch_now. -/
  | doorbellFetch (f : Fn)
  /-- DOORBELL_RETURN (R210). The doorbell record returns, host indices are checked and new descriptors are scheduled for reading. -/
  | doorbellReturn (f : Fn) (bytes : List Byte)
  /-- RING_ENABLE (R209). Setting a RING_CTRL.EN bit enables a ring, zeroes its indices, writes status and fetches the doorbell, or is refused. -/
  | ringEnable (f : Fn) (k : Fin 6)
  /-- RING_DISABLE (R209). Clearing a RING_CTRL.EN bit stops the ring. -/
  | ringDisable (f : Fn) (k : Fin 6)
  /-- COMMAND_FETCH (R212). A command descriptor read returns, is tagged with GEN and commits to the function's command queue. -/
  | commandFetch (f : Fn) (bytes : List Byte)
  /-- CMD_NOP (R212). Command NOP completes with no effect. -/
  | cmdNop (f : Fn)
  /-- CMD_TIME (R212). Command TIME returns the time base at execution. -/
  | cmdTime (f : Fn)
  /-- INV (R212). PF command INV runs an inventory operation and returns the UID's entry. -/
  | cmdInv (f : Fn)
  /-- KEY (R212). PF command KEY runs a key operation with its blobs and epoch. -/
  | cmdKey (f : Fn)
  /-- GATEWAY (R212). PF command GATEWAY reads or writes a gateway table entry. -/
  | cmdGateway (f : Fn)
  /-- TWRITE (R213). Command TWRITE writes consecutive table entries from host memory, stopping at the first refusal. -/
  | cmdTwrite (f : Fn) (buf : List Byte) (fail : FailO)
  /-- TREAD (R213). Command TREAD writes consecutive table entries to host memory. -/
  | cmdTread (f : Fn)
  /-- TCLEAR (R213). PF command TCLEAR clears consecutive ORD lantern entries or ledger records. -/
  | cmdTclear (f : Fn)
  /-- PLACE (R142). Command PLACE places an ad hoc or lockout order record with the next CSEQ, or refuses it. -/
  | cmdPlace (f : Fn)
  /-- CANCEL (R142). Command CANCEL frees one order record of the function or, for the PF, any record. -/
  | cmdCancel (f : Fn)
  /-- SCHEDULE (R212). Command SCHEDULE sets SCHCAL on the function's registered lanterns in a range, checked whole. -/
  | cmdSchedule (f : Fn)
  /-- COMPLETION_WRITE (R214). The ring engine writes a completion descriptor from the completion queue into the completion ring. -/
  | completionWrite (f : Fn)
  /-- EVENT_WRITE (R215). The ring engine writes an event descriptor from the event queue into the event ring. -/
  | eventWrite (f : Fn)
  /-- RECORD_WRITE (R216). The ring engine writes a record into NSLOT free slots of the record ring. -/
  | recordWrite (f : Fn)
  /-- BULK_OUT_FETCH (R217). A bulk-out descriptor and its data are read and committed as one entry, or consumed with event 0x0902. -/
  | bulkOutFetch (f : Fn) (desc : List Byte) (bytes : List Byte) (err : DmaErrO)
  /-- BULK_IN_WRITE (R218). The ring engine writes the oldest bulk-in entry into a posted buffer and rewrites its descriptor. -/
  | bulkInWrite (f : Fn)
  /-- STATUS_RECORD_WRITE (R207). The ring engine writes the function's status record, publishing the entries its indices cover. -/
  | statusRecordWrite (f : Fn)
  /-- BAR2_ACCESS (R186). A host memory request to PF BAR2 reads or writes DRAM, or recovery staging, coherently, and is refused with Completer
  Abort inside a protected region. -/
  | bar2Access (a : BitVec 28) (n : BitVec 13) (wr : BytesO) (env : DramEnvs)
  /-- AER_LINK_ERROR (R192). The PCIe link detects a link error such as Receiver Error, Bad TLP or Malformed TLP and logs it in AER of the PF. -/
  | aerLinkError (e : AerErr) (hdr : HdrO)
  /-- ADD (R236). Integer ADD writes RA plus RB or the immediate. -/
  | add (t : ThreadId) (a : PReg)
  /-- SUB (R236). Integer SUB writes RA minus RB. -/
  | sub (t : ThreadId) (a : PReg)
  /-- AND (R236). Integer AND writes the bitwise and. -/
  | and (t : ThreadId) (a : PReg)
  /-- OR (R236). Integer OR writes the bitwise or. -/
  | or (t : ThreadId) (a : PReg)
  /-- XOR (R236). Integer XOR writes the bitwise exclusive or. -/
  | xor (t : ThreadId) (a : PReg)
  /-- ANDN (R236). Integer ANDN writes RA and not RB. -/
  | andn (t : ThreadId) (a : PReg)
  /-- SHL (R236). Integer SHL shifts left. -/
  | shl (t : ThreadId) (a : PReg)
  /-- SHR (R236). Integer SHR shifts right logically. -/
  | shr (t : ThreadId) (a : PReg)
  /-- SAR (R236). Integer SAR shifts right arithmetically. -/
  | sar (t : ThreadId) (a : PReg)
  /-- ROL (R236). Integer ROL rotates left. -/
  | rol (t : ThreadId) (a : PReg)
  /-- MIN (R236). Integer MIN writes the signed minimum. -/
  | min (t : ThreadId) (a : PReg)
  /-- MAX (R236). Integer MAX writes the signed maximum. -/
  | max (t : ThreadId) (a : PReg)
  /-- MINU (R236). Integer MINU writes the unsigned minimum. -/
  | minu (t : ThreadId) (a : PReg)
  /-- MAXU (R236). Integer MAXU writes the unsigned maximum. -/
  | maxu (t : ThreadId) (a : PReg)
  /-- SEXTW (R236). SEXTW sign-extends a word. -/
  | sextw (t : ThreadId) (a : PReg)
  /-- SEXTP (R236). SEXTP sign-extends a pair. -/
  | sextp (t : ThreadId) (a : PReg)
  /-- ZEXTW (R236). ZEXTW zero-extends a word. -/
  | zextw (t : ThreadId) (a : PReg)
  /-- ZEXTP (R236). ZEXTP zero-extends a pair. -/
  | zextp (t : ThreadId) (a : PReg)
  /-- CLZ (R236). CLZ counts leading zeros. -/
  | clz (t : ThreadId) (a : PReg)
  /-- POPC (R236). POPC counts set bits. -/
  | popc (t : ThreadId) (a : PReg)
  /-- GETP (R236). GETP copies the predicates into RD. -/
  | getp (t : ThreadId) (a : PReg)
  /-- SETP (R236). SETP sets p1 to p7 from RA. -/
  | setp (t : ThreadId) (a : PReg)
  /-- IMMEDIATE_LOAD (R236). An IMM instruction loads a sign-extended immediate or the upper half of RD. -/
  | immediateLoad (t : ThreadId) (a : PArg)
  /-- EQ (R236). CMP EQ writes equality to a predicate under MODE. -/
  | cmpEq (t : ThreadId) (a : PReg)
  /-- NE (R236). CMP NE writes inequality to a predicate. -/
  | cmpNe (t : ThreadId) (a : PReg)
  /-- LT (R236). CMP LT writes signed less-than to a predicate. -/
  | cmpLt (t : ThreadId) (a : PReg)
  /-- GE (R236). CMP GE writes signed greater-or-equal to a predicate. -/
  | cmpGe (t : ThreadId) (a : PReg)
  /-- LTU (R236). CMP LTU writes unsigned less-than to a predicate. -/
  | cmpLtu (t : ThreadId) (a : PReg)
  /-- GEU (R236). CMP GEU writes unsigned greater-or-equal to a predicate. -/
  | cmpGeu (t : ThreadId) (a : PReg)
  /-- ANY (R236). CMP ANY tests RA and RB for a common set bit. -/
  | cmpAny (t : ThreadId) (a : PReg)
  /-- NONE (R236). CMP NONE tests RA and RB for no common set bit. -/
  | cmpNone (t : ThreadId) (a : PReg)
  /-- PAND (R236). PAND combines two predicates by and. -/
  | pand (t : ThreadId) (a : PReg)
  /-- POR (R236). POR combines two predicates by or. -/
  | por (t : ThreadId) (a : PReg)
  /-- PXOR (R236). PXOR combines two predicates by exclusive or. -/
  | pxor (t : ThreadId) (a : PReg)
  /-- PANDN (R236). PANDN combines two predicates by and-not. -/
  | pandn (t : ThreadId) (a : PReg)
  /-- MUL (R236). MUL writes the signed 128-bit product to mh:ml. -/
  | mul (t : ThreadId) (a : PReg)
  /-- MULU (R236). MULU writes the unsigned product to mh:ml. -/
  | mulu (t : ThreadId) (a : PReg)
  /-- MAC (R236). MAC adds the signed product to mh:ml. -/
  | mac (t : ThreadId) (a : PReg)
  /-- MACU (R236). MACU adds the unsigned product to mh:ml. -/
  | macu (t : ThreadId) (a : PReg)
  /-- DIV (R238). DIV writes signed quotient and remainder to ml and mh, without fault on zero. -/
  | div (t : ThreadId) (a : PReg)
  /-- DIVU (R238). DIVU writes unsigned quotient and remainder. -/
  | divu (t : ThreadId) (a : PReg)
  /-- MFMH (R239). MFMH reads mh into RD, subject to the multiplier shadow. -/
  | mfmh (t : ThreadId) (a : PReg)
  /-- MFML (R239). MFML reads ml into RD. -/
  | mfml (t : ThreadId) (a : PReg)
  /-- MTMH (R236). MTMH writes RA to mh. -/
  | mtmh (t : ThreadId) (a : PReg)
  /-- MTML (R236). MTML writes RA to ml. -/
  | mtml (t : ThreadId) (a : PReg)
  /-- LD (R236). LD loads a sign-extended word, pair or quad after translation and checks. -/
  | ld (t : ThreadId) (a : PReg)
  /-- LDU (R236). LDU loads a zero-extended word or pair. -/
  | ldu (t : ThreadId) (a : PReg)
  /-- ST (R236). ST stores a word, pair or quad into the store buffers. -/
  | st (t : ThreadId) (a : PReg)
  /-- LDF (R236). LDF loads a binary32 or binary64 into an f register. -/
  | ldf (t : ThreadId) (a : PReg)
  /-- STF (R236). STF stores an f register. -/
  | stf (t : ThreadId) (a : PReg)
  /-- PREF (R236). PREF hints a prefetch of a line. -/
  | pref (t : ThreadId) (a : PReg)
  /-- DCLEAN (R291). DCLEAN writes a dirty line back from any L2. -/
  | dclean (t : ThreadId) (a : PReg)
  /-- DFLUSH (R291). DFLUSH writes a line back and invalidates it in every L1D and L2. -/
  | dflush (t : ThreadId) (a : PReg)
  /-- DINV (R291). DINV invalidates a line without writing it back. -/
  | dinv (t : ThreadId) (a : PReg)
  /-- ICINV (R291). ICINV invalidates a line in every L1I and fetch buffer. -/
  | icinv (t : ThreadId) (a : PReg)
  /-- DZERO (R291). DZERO allocates a zeroed dirty line in the L2. -/
  | dzero (t : ThreadId) (a : PReg)
  /-- TLBI_VA (R291). TLBI.VA discards translations of a page on every core. -/
  | tlbiVa (t : ThreadId) (a : PReg)
  /-- TLBI_ASID (R291). TLBI.ASID discards non-global translations of an ASID on every core. -/
  | tlbiAsid (t : ThreadId) (a : PReg)
  /-- TLBI_ALL (R291). TLBI.ALL discards all translations on every core. -/
  | tlbiAll (t : ThreadId) (a : PReg)
  /-- TLBI_LOCAL (R291). TLBI.LOCAL discards all translations of this core. -/
  | tlbiLocal (t : ThreadId) (a : PReg)
  /-- L1DINV_ALL (R291). L1DINV.ALL invalidates this core's L1D after its merging buffer drains. -/
  | l1dinvAll (t : ThreadId) (a : PReg)
  /-- L2CLEAN_ALL (R291). L2CLEAN.ALL writes back every dirty line of the cluster L2. -/
  | l2cleanAll (t : ThreadId) (a : PReg)
  /-- L2FLUSH_ALL (R291). L2FLUSH.ALL writes back and invalidates every line of the cluster L2. -/
  | l2flushAll (t : ThreadId) (a : PReg)
  /-- SHORT_ABSOLUTE_LOAD (R237). An SHW, SHP or SHQ load reads through a bank-register window. -/
  | shortAbsoluteLoad (t : ThreadId) (k : Fin 3) (a : PArg)
  /-- SHORT_ABSOLUTE_STORE (R237). An SHW, SHP or SHQ store writes through a bank-register window. -/
  | shortAbsoluteStore (t : ThreadId) (k : Fin 3) (a : PArg)
  /-- BTST (R240). BTST writes a bit of bit space to a predicate. -/
  | btst (t : ThreadId) (a : PReg)
  /-- BSET (R240). BSET sets a bit atomically and returns its old value in a predicate. -/
  | bset (t : ThreadId) (a : PReg)
  /-- BCLR (R240). BCLR clears a bit atomically and returns its old value. -/
  | bclr (t : ThreadId) (a : PReg)
  /-- BINV (R240). BINV inverts a bit atomically and returns its old value. -/
  | binv (t : ThreadId) (a : PReg)
  /-- BLD (R240). BLD loads a bit into RD. -/
  | bld (t : ThreadId) (a : PReg)
  /-- BST (R240). BST stores RD[0] into a bit. -/
  | bst (t : ThreadId) (a : PReg)
  /-- BR (R233). BR branches relative with a delay slot, optionally annulled and linked. -/
  | br (t : ThreadId) (a : PArg)
  /-- JR (R233). JR jumps to RA with a delay slot. -/
  | jr (t : ThreadId) (a : PReg)
  /-- BMOVE (R241). One element of BMOVE copies a word upward and advances its registers. -/
  | bmove (t : ThreadId) (a : PReg)
  /-- BMOVED (R241). One element of BMOVED copies a word downward. -/
  | bmoved (t : ThreadId) (a : PReg)
  /-- BFILL (R241). One element of BFILL writes a value word. -/
  | bfill (t : ThreadId) (a : PReg)
  /-- BCMP (R241). One element of BCMP compares two words and stops on a difference. -/
  | bcmp (t : ThreadId) (a : PReg)
  /-- SIGDI (R241). One element of SIGDI accumulates signed byte products into ml. -/
  | sigdi (t : ThreadId) (a : PReg)
  /-- SIGDH (R241). One element of SIGDH accumulates a Hamming distance into ml. -/
  | sigdh (t : ThreadId) (a : PReg)
  /-- DADDM (R241). One element of DADDM adds four decimal digits with carry. -/
  | daddm (t : ThreadId) (a : PReg)
  /-- DSUBM (R241). One element of DSUBM subtracts four decimal digits with borrow. -/
  | dsubm (t : ThreadId) (a : PReg)
  /-- DADD (R244). DADD adds two decimal quads with carry. -/
  | dadd (t : ThreadId) (a : PReg)
  /-- DSUB (R244). DSUB subtracts two decimal quads with borrow. -/
  | dsub (t : ThreadId) (a : PReg)
  /-- DCHK (R244). DCHK tests that every nibble is a decimal digit. -/
  | dchk (t : ThreadId) (a : PReg)
  /-- DTOB (R244). DTOB converts decimal to binary. -/
  | dtob (t : ThreadId) (a : PReg)
  /-- BTOD (R244). BTOD converts binary to decimal modulo 10^16. -/
  | btod (t : ThreadId) (a : PReg)
  /-- FADD (R245). FADD adds under IEEE 754. -/
  | fadd (t : ThreadId) (a : PReg)
  /-- FSUB (R245). FSUB subtracts. -/
  | fsub (t : ThreadId) (a : PReg)
  /-- FMUL (R245). FMUL multiplies. -/
  | fmul (t : ThreadId) (a : PReg)
  /-- FDIV (R245). FDIV divides. -/
  | fdiv (t : ThreadId) (a : PReg)
  /-- FSQRT (R245). FSQRT takes the square root. -/
  | fsqrt (t : ThreadId) (a : PReg)
  /-- FMA (R245). FMA computes RA times RB plus RD with one rounding. -/
  | fma (t : ThreadId) (a : PReg)
  /-- FMS (R245). FMS computes RA times RB minus RD. -/
  | fms (t : ThreadId) (a : PReg)
  /-- FNMA (R245). FNMA computes minus RA times RB plus RD. -/
  | fnma (t : ThreadId) (a : PReg)
  /-- FMIN (R245). FMIN returns minimumNumber. -/
  | fmin (t : ThreadId) (a : PReg)
  /-- FMAX (R245). FMAX returns maximumNumber. -/
  | fmax (t : ThreadId) (a : PReg)
  /-- FABS (R245). FABS clears the sign bit. -/
  | fabs (t : ThreadId) (a : PReg)
  /-- FNEG (R245). FNEG inverts the sign bit. -/
  | fneg (t : ThreadId) (a : PReg)
  /-- FMOV (R245). FMOV copies an f register. -/
  | fmov (t : ThreadId) (a : PReg)
  /-- FCVT (R245). FCVT converts between binary32 and binary64. -/
  | fcvt (t : ThreadId) (a : PReg)
  /-- FCVTI (R245). FCVTI converts to a signed integer rounded by RM. -/
  | fcvti (t : ThreadId) (a : PReg)
  /-- FCVTIU (R245). FCVTIU converts to an unsigned integer. -/
  | fcvtiu (t : ThreadId) (a : PReg)
  /-- FCVTIT (R245). FCVTIT converts to a signed integer toward zero. -/
  | fcvtit (t : ThreadId) (a : PReg)
  /-- FCVTF (R245). FCVTF converts a signed integer to floating point. -/
  | fcvtf (t : ThreadId) (a : PReg)
  /-- FCVTFU (R245). FCVTFU converts an unsigned integer to floating point. -/
  | fcvtfu (t : ThreadId) (a : PReg)
  /-- FMVFG (R245). FMVFG moves f bits to a g register. -/
  | fmvfg (t : ThreadId) (a : PReg)
  /-- FMVGF (R245). FMVGF moves g bits to an f register. -/
  | fmvgf (t : ThreadId) (a : PReg)
  /-- FEQ (R245). FEQ compares for equality quietly into a predicate. -/
  | feq (t : ThreadId) (a : PReg)
  /-- FLT (R245). FLT compares less-than, signalling on NaN. -/
  | flt (t : ThreadId) (a : PReg)
  /-- FLE (R245). FLE compares less-or-equal, signalling on NaN. -/
  | fle (t : ThreadId) (a : PReg)
  /-- FUN (R245). FUN tests for unordered quietly. -/
  | funord (t : ThreadId) (a : PReg)
  /-- LDRES (R243). LDRES loads and reserves a line. -/
  | ldres (t : ThreadId) (a : PReg)
  /-- STCOM (R243). STCOM stores only under a valid reservation and reports success. -/
  | stcom (t : ThreadId) (a : PReg)
  /-- ASWP (R242). ASWP swaps atomically. -/
  | aswp (t : ThreadId) (a : PReg)
  /-- AADD (R242). AADD adds atomically. -/
  | aadd (t : ThreadId) (a : PReg)
  /-- ACAS (R242). ACAS compares and swaps atomically. -/
  | acas (t : ThreadId) (a : PReg)
  /-- AOR (R242). AOR ors atomically. -/
  | aor (t : ThreadId) (a : PReg)
  /-- AAND (R242). AAND ands atomically. -/
  | aand (t : ThreadId) (a : PReg)
  /-- NOP (R236). System NOP does nothing. -/
  | nop (t : ThreadId) (a : PArg)
  /-- TRAP (R257). TRAP raises a system-call exception with its number. -/
  | trap (t : ThreadId) (a : PArg)
  /-- SYNC (R249). SYNC waits for older instructions, applies SYNC control writes and refetches. -/
  | sync (t : ThreadId) (a : PArg)
  /-- FENCE_L (R293). FENCE.L orders older loads before younger loads. -/
  | fenceL (t : ThreadId) (a : PArg)
  /-- FENCE_S (R293). FENCE.S drains and orders older stores before younger stores. -/
  | fenceS (t : ThreadId) (a : PArg)
  /-- FENCE (R293). FENCE orders every older access before every younger one. -/
  | fence (t : ThreadId) (a : PArg)
  /-- FENCE_IO (R293). FENCE.IO also waits for target acknowledgement of older stores. -/
  | fenceIo (t : ThreadId) (a : PArg)
  /-- MFC (R228). MFC reads a control register into a g register. -/
  | mfc (t : ThreadId) (a : PArg)
  /-- MTC (R228). MTC writes a control register, with effects such as ICLR, VTTX and MCINFO clearing. -/
  | mtc (t : ThreadId) (a : PArg)
  /-- FLUSHP (R249). FLUSHP discards the core's branch predictions. -/
  | flushp (t : ThreadId) (a : PArg)
  /-- BARP (R249). BARP makes the next branch unpredicted. -/
  | barp (t : ThreadId) (a : PArg)
  /-- HOLD (R267). HOLD opens or shortens a window in which interrupts, FP traps and debug halts wait. -/
  | hold (t : ThreadId) (a : PArg)
  /-- RELEASE (R264). RELEASE marks a level-1 handler as released. -/
  | release (t : ThreadId) (a : PArg)
  /-- RETE (R263). RETE returns from an exception to the saved pair and state. -/
  | rete (t : ThreadId) (a : PArg)
  /-- WAIT (R236). WAIT issues nothing until an interrupt is pending or an entry is dispatched. -/
  | wait (t : ThreadId) (a : PArg)
  /-- BRK (R236). BRK raises a breakpoint or halts under BRKHALT. -/
  | brk (t : ThreadId) (a : PArg)
  /-- INTERRUPT_TAKE (R262). A pending enabled interrupt is taken at an instruction boundary into level 1. -/
  | interruptTake (c : Core)
  /-- FP_TRAP_TAKE (R268). A pending imprecise FP trap is taken at a barrier or within 256 instructions. -/
  | fpTrapTake (c : Core)
  /-- MACHINE_CHECK_TAKE (R295). A pending machine check is taken at a boundary. -/
  | machineCheckTake (c : Core)
  /-- LOST_STORE (R295). A store receiving absent or an error response is dropped, recorded and a machine check set pending. -/
  | lostStore (c : Core) (combining : Bool) (ix : BitVec 8)
  /-- HOLD_WINDOW_EXPIRE (R267). HOLDREM reaches 0, the window ends and held requests may be taken. -/
  | holdWindowExpire (c : Core)
  /-- CORE_RESET (R265). A core resets, filling its reset record, raising event 0x1101 and invalidating its caches. -/
  | coreReset (c : Core)
  /-- CORE_AUTO_START (R265). With AUTO, a core starts itself 10 µs after its reset completes. -/
  | coreAutoStart (c : Core)
  /-- RESET (R265). STK_CORE_CTL RESET resets a stake core. -/
  | stakeReset (c : Core)
  /-- START (R266). STK_CORE_CTL START begins a core in reset at STK_RVEC. -/
  | stakeStart (r : Requester) (c : Core)
  /-- CLUSTER_OUT (R271). STK_CLU_SVC OUT resets every core, writes back the L2 and removes the cluster from coherence. -/
  | clusterOut (k : Cluster)
  /-- CLUSTER_IN (R271). STK_CLU_SVC IN powers the cluster and places it in service. -/
  | clusterIn (k : Cluster)
  /-- CLUSTER_PARK (R271). STK_CLU_SVC PARK parks an out-of-service cluster with retention. -/
  | clusterPark (r : Requester) (k : Cluster)
  /-- STK_SWI_WRITE (R269). A write to STK_SWI sets software interrupt IPEND bits of a core. -/
  | stkSwiWrite (c : Core) (v : BitVec 8)
  /-- TRAIN (R297). MEM_INIT TRAIN trains DRAM on all channels. -/
  | train
  /-- TRAIN_COMPLETE (R297). DRAM training ends with TRAINED set or fails with event 0x1205. -/
  | trainComplete (failch : BitVec 8) (step : BitVec 3)
  /-- ECC_INIT (R297). MEM_INIT ECC_INIT zero-fills DRAM. -/
  | eccInit
  /-- ECC_INIT_COMPLETE (R297). The zero fill ends and READY is set. -/
  | eccInitComplete
  /-- SCRUB_START (R301). SCR_CMD START begins a scrub pass over a DRAM range after checking operands. -/
  | scrubStart
  /-- SCRUB_LINE (R301). The scrubber reads, checks and corrects the next line at its rate. -/
  | scrubLine (env : DramEnv)
  /-- ABORT (R301). SCR_CMD ABORT stops the pass after the current line. -/
  | abort
  /-- SCRUB_COMPLETE (R301). A scrub pass ends, writes its summary and raises event 0x1201. -/
  | scrubComplete
  /-- CLUSTER_OUT_COMPLETE (R271). A cluster's L2 write-back ends and it leaves coherence, out of service with BUSY cleared, within 500 µs of
  OUT. -/
  | clusterOutComplete (k : Cluster)
  /-- CLUSTER_IN_COMPLETE (R271). A returning cluster, its L2 invalidated, enters service within 200 µs of IN and its cores then start under
  AUTO. -/
  | clusterInComplete (k : Cluster)
  /-- TICK (R306). Each 100 MHz reference tick advances the time base and evaluates boundaries, channels, timers and watchdogs. -/
  | tick
  /-- TB_STEP_WRITE (R307). A write to TB_STEP sets a step applied at the next tick with event 0x1301. -/
  | tbStepWrite (v : BitVec 64)
  /-- COMPARE_CHANNEL_FIRE (R311). A compare channel reaches its VALUE, sets status, issues its target and disarms or reloads. -/
  | compareChannelFire (n : Fin 32)
  /-- TIMER_PERIOD_EVENT (R315). An interval timer's count reaches PERIOD, raising a period event and its target. -/
  | timerPeriodEvent (k : Fin 16)
  /-- TIMER_START (R315). TB_TMR_CTL START sets RUN keeping COUNT. -/
  | timerStart (k : Fin 16)
  /-- TIMER_STOP (R315). TB_TMR_CTL STOP clears RUN keeping COUNT. -/
  | timerStop (k : Fin 16)
  /-- RESTART (R313). TB_TMR_CTL RESTART sets COUNT to 0 and RUN to 1. -/
  | timerRestart (k : Fin 16)
  /-- TIMER_PERIOD_WRITE (R315). A PERIOD written below COUNT raises the period event at the next tick and sets SHORT. -/
  | timerPeriodWrite (k : Fin 16) (v : BitVec 32)
  /-- WATCHDOG_KICK (R317). TB_WD_KICK with the right KEY reloads a stake-core or handle watchdog, otherwise is refused. -/
  | watchdogKick (r : Requester) (cls : BitVec 2) (u : BitVec 6) (key : BitVec 16)
  /-- WATCHDOG_EXPIRE (R316). A stake-core, hoop or handle watchdog reaches zero, takes its reset action and raises event 0x1302. -/
  | watchdogExpire (w : Watchdog)
  /-- TRIAL_WATCHDOG_EXPIRE (R331). The trial-boot watchdog expires and the handle core reverts every image still on trial. -/
  | trialWatchdogExpire
  /-- TRIAL_WATCHDOG_RESET (R316). The trial-boot watchdog still enabled 10 ms after expiry causes a device warm reset. -/
  | trialWatchdogReset
  /-- BOOT_ROM_STAGE (R327). Boot stage 0 senses fuses, reads the boot record and checks handle firmware. -/
  | bootRomStage (flashOk : Bool)
  /-- BOOT_HANDLE_STAGE (R327). Boot stage 1 checks and loads the SerDes calibration image. -/
  | bootHandleStage (flashOk : Bool)
  /-- BOOT_HOST_STAGE (R327). Boot stage 2 answers configuration and trains and initialises DRAM. -/
  | bootHostStage (dpc : BitVec 2) (rate : BitVec 2) (failch : BitVec 8) (step : BitVec 3)
  /-- BOOT_DRAM_STAGE (R327). Boot stage 3 activates boot regions, selects the stock program and places hoops in service. -/
  | bootDramStage (flashOk : Bool)
  /-- BOOT_HOOPS_STAGE (R327). Boot stage 4 selects the stake loader and sets STK_RVEC[0]. -/
  | bootHoopsStage (flashOk : Bool)
  /-- BOOT_RUN_STAGE (R327). Boot stage 5 starts stake core 0, opens trials and raises event 0x1401. -/
  | bootRunStage
  /-- RECOVERY_GO (R333). The host sets GO in the recovery mailbox and the staged image is checked and acted on. -/
  | recoveryGo
  /-- BOOT_CONFIRM (R330). A BOOT_CONFIRM write closes the trial of the loader or stock program. -/
  | bootConfirm (r : Requester) (kind : BitVec 3) (key : BitVec 16)
  /-- FLASH_WRITE (R334). BOOT_IMG_CMD FLASH_WRITE checks and programs an image slot. -/
  | flashWrite
  /-- ACTIVATE (R334). BOOT_IMG_CMD ACTIVATE checks the inactive privileged slot and makes it active at next boot. -/
  | activate
  /-- STAGE_TENANT (R334). BOOT_IMG_CMD STAGE_TENANT checks and installs a tenant image on trial. -/
  | stageTenant
  /-- CONFIRM_TENANT (R334). BOOT_IMG_CMD CONFIRM_TENANT closes a tenant trial on a matching hash prefix. -/
  | confirmTenant
  /-- REMOVE_TENANT (R334). BOOT_IMG_CMD REMOVE_TENANT empties a function's partition. -/
  | removeTenant
  /-- BOOT_IMG_COMPLETE (R337). An image operation ends, BUSY clears and event 0x1407 is raised. -/
  | bootImgComplete (flashOk : Bool)
  /-- EXTEND (R337). BOOT_MEAS_CMD EXTEND extends MR8 to MR15 with BOOT_MEAS_DATA. -/
  | measExtend (r : Requester) (ix : BitVec 4)
  /-- DVFS_REQUEST (R344). A write of PWR_DVFS.STEP changes a cluster's clock, ordering it with VDD_STK changes. -/
  | dvfsRequest (k : Cluster) (step : BitVec 2)
  /-- DVFS_COMPLETE (R344). A DVFS change ends with CUR and RESULT set and BUSY cleared. -/
  | dvfsComplete (k : Cluster)
  /-- PMBUS_ACKNOWLEDGE (R343). A regulator's readback or alert confirms or fails a voltage command. -/
  | pmbusAcknowledge (status : BitVec 16) (vout : BitVec 16) (nack : Bool)
  /-- PMBUS_TIMEOUT (R343). A voltage command unacknowledged after TMO ms ends as not acknowledged. -/
  | pmbusTimeout
  /-- REGULATOR_VALID_WRITE (R342). Marking a PWR_REG entry VALID reads VOUT_MODE and refuses a non-linear regulator. -/
  | regulatorValidWrite (ix : Fin 8) (v : BitVec 64) (voutMode : BitVec 8)
  /-- SUPPLY_WARNING (R345). A rail falls below warning, halving the clocks it names. -/
  | supplyWarning (rail : Fin 8)
  /-- SUPPLY_RECOVERY (R345). After 50 µs above recovery on every warning rail, clocks are restored with event 0x1504. -/
  | supplyRecovery (m : BitVec 8)
  /-- SUPPLY_RESET_LEVEL (R345). A rail falling below its reset level causes a power-on reset. -/
  | supplyResetLevel
  /-- MONITOR_SWEEP (R346). The converter measures the named sensors, updating results and temperature alarms. -/
  | monitorSweep (auto : Bool) (vals : Sensors)
  /-- THERMAL_TRIP (R347). A trip comparator logs a fatal record, asserts THERMTRIP_N and powers the domains off. -/
  | thermalTrip (sensor : Fin 12)
  /-- REFERENCE_LOSS (R340). Loss of root PLL lock or the 100 MHz reference records a fatal error. -/
  | referenceLoss
  /-- PLL_LOCK_RETURN (R340). Lock returns after a loss and the device performs a device warm reset. -/
  | pllLockReturn
  /-- HUSH (R350). PWR_CTL HUSH puts the device into Hush, or is refused. -/
  | hush (r : Requester)
  /-- HUSH_ENTERED (R350). The handle domain parks and the device reaches Hush. -/
  | hushEntered
  /-- HUSH_WAKE (R351). A wake source in Hush or during entry starts wake and records WCAUSE. -/
  | hushWake (sig : BitVec 4) (pat : BitVec 4) (smb : Bool) (stage : Fin 4)
  /-- WAKE_COMPLETE (R351). Wake ends with STATE Run and event 0x1503. -/
  | wakeComplete
  /-- HOOP_DOZE (R349). An idle hoop enters Doze after IDLE µs. -/
  | hoopDoze (h : Hoop)
  /-- SMB_READ_STATE (R353). SMBus command 0x00 returns STATE and WCAUSE. -/
  | smbReadState
  /-- SMB_READ_HIGHEST_TEMP (R353). SMBus command 0x01 returns the highest valid temperature. -/
  | smbReadHighestTemp
  /-- SMB_READ_TEMP (R353). SMBus command 0x10 + i returns PWR_TEMP[i]. -/
  | smbReadTemp (ix : Fin 12)
  /-- SMB_READ_VOLT (R353). SMBus command 0x20 + s returns PWR_VOLT[s]. -/
  | smbReadVolt (rail : Fin 8)
  /-- SMB_READ_BELOW (R353). SMBus command 0x30 returns PWR_STATUS.BELOW. -/
  | smbReadBelow
  /-- SMB_WAKE (R353). SMBus command 0x40 wakes the device. -/
  | smbWake
  /-- SMB_HUSH (R353). SMBus command 0x41 with 0x48 requests Hush. -/
  | smbHush (v : BitVec 8)
  /-- REQUEST (R360). DBG_AUTH_CMD REQUEST lowers a level at once or issues a challenge for a higher one. -/
  | authRequest (t : Fin 2) (level : BitVec 2) (emu : Bool)
  /-- RESPOND (R360). DBG_AUTH_CMD RESPOND grants the level on a valid key and signature, or locks out. -/
  | authRespond (t : Fin 2)
  /-- DROP (R361). DBG_AUTH_CMD DROP drops a transport's grant to none. -/
  | authDrop (t : Fin 2)
  /-- TEST_LOGIC_RESET (R361). Entry to Test-Logic-Reset drops transport 0's grant and ends board-test instructions. -/
  | testLogicReset
  /-- DBGDR_UPDATE (R358). Update-DR of DBGDR starts one 32-bit control-space access. -/
  | dbgdrUpdate (off : BitVec 20) (write : Bool) (peek : Bool) (v : BitVec 32)
  /-- DBG_ACC_READ (R364). DBG_ACC_CMD read performs one physical read into DBG_ACC_DATA. -/
  | dbgAccRead (t : Fin 2) (size : AccSize) (peek : Bool)
  /-- DBG_ACC_WRITE (R364). DBG_ACC_CMD write performs one physical write from DBG_ACC_DATA. -/
  | dbgAccWrite (t : Fin 2) (size : Fin 3) (peek : Bool)
  /-- HALT (R365). DBG_CORE_CTL HALT requests a stake-core halt, or sets HALTPEND on a core in reset. -/
  | halt (r : Requester) (c : Fin 49)
  /-- DEBUG_HALT_TAKE (R365). A core takes a halt request at a boundary and enters level 3. -/
  | debugHaltTake (t : ThreadId)
  /-- DEBUG_RESUME (R366). DBG_CORE_CTL RESUME restores the halted core's state and runs it. -/
  | debugResume (r : Requester) (c : Fin 49)
  /-- STEP (R366). DBG_CORE_CTL STEP runs one instruction or element and halts again. -/
  | debugStep (r : Requester) (c : Fin 49)
  /-- EXEC (R367). DBG_CORE_CTL EXEC executes DBG_INSN on a halted core at level 3. -/
  | debugExec (r : Requester) (c : Fin 49) (env : MemEnv)
  /-- DBG_REGSEL_READ (R370). DBG_REGSEL READ reads a halted thread's register into DBG_REGDATA. -/
  | dbgRegselRead (r : Requester) (t : DbgTarget) (n : BitVec 11)
  /-- DBG_REGSEL_WRITE (R370). DBG_REGSEL WRITE writes DBG_REGDATA into a halted thread's register. -/
  | dbgRegselWrite (r : Requester) (t : DbgTarget) (n : BitVec 11)
  /-- ENGINE_HALT (R372). DBG_ENG_CTL HALT stops all contexts of a strand engine. -/
  | engineHalt (r : Requester) (e : Fin 512)
  /-- ENGINE_RESUME (R372). DBG_ENG_CTL RESUME resumes a halted strand engine. -/
  | engineResume (r : Requester) (e : Fin 512)
  /-- ENGINE_STEP (R372). DBG_ENG_CTL STEP executes one instruction of a context. -/
  | engineStep (r : Requester) (e : Fin 512) (ctx : Fin 4)
  /-- DBG_VT_TX_READ (R373). A debugger read of DBG_VT_TX without PEEK clears TXFULL. -/
  | dbgVtTxRead (r : Requester) (c : Core) (peek : Bool)
  /-- DBG_VT_RX_WRITE (R373). A debugger write to DBG_VT_RX sets RXFULL, or is refused while full. -/
  | dbgVtRxWrite (r : Requester) (c : Core) (v : BitVec 32)
  /-- TRACE_PACKET_ACCEPT (R378). The funnel takes one trace packet per weave cycle or refuses it by priority. -/
  | tracePacketAccept (src : BitVec 7) (vc : Fin 3) (kind : Fin 8) (size : Fin 4) (addr : PAddr)
  /-- TRACE_SINK_WRITE (R380). The sink writes a 64 B unit to the buffer or DRAM, wrapping or stopping when full. -/
  | traceSinkWrite (fail : Bool)
  /-- TRC_BUFDATA_READ (R380). A read of TRC_BUFDATA without PEEK advances TRC_BUFADDR by 8 B. -/
  | trcBufdataRead (peek : Bool)
  /-- COUNTER_LATCH (R381). At a period multiple or after SNAP, every counter is latched together. -/
  | counterLatch
  /-- SNAP (R381). CNT_CMD SNAP requests a latch at the next tick. -/
  | snap (r : Requester)
  /-- COUNTER_DUMP_COMPLETE (R382). A counter dump finishes writing its slot, or fails with event 0x1604. -/
  | counterDumpComplete (fail : Bool)
  /-- TAP_INSTRUCTION_LOAD (R403). An IEEE 1149.1 instruction is loaded, replaced by BYPASS if unauthorised, and leaving a board-test
  instruction warm-resets the device. -/
  | tapInstructionLoad (code : BitVec 8)
  /-- FATAL_RESET (R395). 10 µs after a fatal record enters the log, a device warm reset follows. -/
  | fatalReset
  /-- ERR_RST_DEVICE (R396). ERR_RST OP 1 with the key performs a device warm reset. -/
  | errRstDevice (r : Requester) (key : BitVec 16)
  /-- ERR_RST_BLOCK (R396). ERR_RST OP 2 with the key resets one port, hoop, rim link or cluster. -/
  | errRstBlock (r : Requester) (blk : BitVec 5) (inst : BitVec 5) (key : BitVec 16)
  /-- CLEAR (R394). ERR_LOG_CMD CLEAR empties the sticky log and LOST. -/
  | logClear (r : Requester)
  /-- CHALLENGE_EXPIRE (R360). A debug authorisation challenge unanswered for 10 s stops being valid and CHALV clears. -/
  | challengeExpire (t : Fin 2)
  deriving DecidableEq, Repr

end Sys2Proof
end

