-- ==== Sys2Proof/WellFormed.lean ====
section
/-!
DEFINITION. Well-formed commands: what the operands' types do not say already. exec answers every command, well-formed or not.
-/
namespace Sys2Proof

/-- Numbers strictly rising. -/
def rising : List Nat → Bool
  | a :: b :: t => decide (a < b) && rising (b :: t)
  | _ => true

/-- A burst's wrong symbols are named once each, in order, with some bit inverted (R298). -/
def DramEnv.wf (e : DramEnv) : Bool := e.all (fun f => f.bits != 0) && rising (e.map (fun f => 10 * f.cw.val + f.sym.val))

/-- Lines are named once each, in order. -/
def DramEnvs.wf (e : DramEnvs) : Bool := rising (e.map (fun x => x.1.toNat)) && e.all (fun x => DramEnv.wf x.2)

/-- What an access meets names each line once, in order. -/
def MemEnv.wf (e : MemEnv) : Bool :=
  DramEnvs.wf e.dram && rising (e.l1i.map (·.toNat)) && rising (e.l1d.map (·.toNat)) && rising (e.l2.map (fun x => x.1.toNat))

/-- IMM16 is there when L = 1 only; a class without a part of FN for the mnemonic to leave open has `sub` 0. -/
def PReg.wf (a : PReg) (subs : Nat) : Bool := (a.l || a.imm == 0) && decide (a.sub.toNat < subs) && a.env.wf

/-- The same of a one-operand form. -/
def PArg.wf (a : PArg) : Bool := (a.l || a.imm == 0) && a.env.wf

/-- The link's speed and width as HIF_STATUS numbers them. -/
def linkWf (speed width : Nat) : Bool := decide (1 ≤ speed) && decide (speed ≤ 5) && [1, 2, 4, 8].contains width

/-- A BAR2 access has at least one byte, and a write brings as many as it says. -/
def barWf (n : Nat) (wr : Option (List Byte)) : Bool :=
  decide (1 ≤ n) && (match wr with
    | some b => b.length == n
    | none => true)

/-- Well-formed commands. -/
def Instr.wf (i : Instr) : Bool :=
  match i with
  | .registerWrite _ _ bytes v => decide (1 ≤ bytes.val) && decide (bytes.val ≤ 8) && decide (v.toNat < 2 ^ (8 * bytes.val))
  | .rcFieldRead _ _ bytes _ => decide (1 ≤ bytes.val) && decide (bytes.val ≤ 8)
  | .splitLowPairRead _ _ _ => true
  | .splitLowPairWrite _ _ _ => true
  | .splitHighPairWrite _ _ _ => true
  | .blockLockSet _ _ => true
  | .powerOnReset => true
  | .resetRelease => true
  | .deviceWarmReset => true
  | .hostInterfaceReset _ => true
  | .slotBoundary => true
  | .managementTick => true
  | .mlpDatagramReceive => true
  | .mlpEgressTake => true
  | .rekeyResend _ => true
  | .rekeyExhausted _ => true
  | .oldSlotRetire _ => true
  | .register => true
  | .update => true
  | .suspend => true
  | .resume => true
  | .remove => true
  | .lookup => true
  | .loadCurrent _ => true
  | .loadNext _ => true
  | .loadNextAndRekey _ => true
  | .startRekey _ => true
  | .eraseNext _ => true
  | .eraseAll _ => true
  | .keyUnwrapComplete => true
  | .invCommandComplete => true
  | .mleGwRead _ => true
  | .mleGwWrite _ => true
  | .fpFrameReceive _ _ bytes _ _ _ => bytes != []
  | .fpOut _ _ => true
  | .fpOutComplete _ => true
  | .fpIn _ => true
  | .fpPark _ _ => true
  | .fpFecLock _ _ => true
  | .fpHoldoffEnd _ _ => true
  | .fpLockLoss _ _ => true
  | .fpReturnTimeout _ => true
  | .fpWakeDetect _ _ => true
  | .fpCfgWrite _ _ _ => true
  | .fpNhRead _ => true
  | .fpNhWrite _ => true
  | .fpFrameTransmit _ => true
  | .slowLaneSend _ => true
  | .fpTxtsInfoRead _ _ => true
  | .uncorrectableCodeword _ _ => true
  | .bskEnqueue _ ws => decide (1 ≤ ws.length) && decide (ws.length ≤ 2048)
  | .heldRetry _ => true
  | .bskDequeue _ _ => true
  | .spill _ => true
  | .spillWriteComplete _ => true
  | .refill _ => true
  | .refillArrive _ env _ => env.wf
  | .join _ => true
  | .bskScrubRead _ _ => true
  | .bskQRead => true
  | .bskQWrite => true
  | .flush => true
  | .flushComplete => true
  | .counts => true
  | .countsAndClear => true
  | .bskShardqRead _ => true
  | .bskShardqWrite _ _ _ _ => true
  | .enq _ _ _ => true
  | .deq _ _ _ => true
  | .queueAccessComplete _ _ env => env.wf
  | .weaveRequestTimeout _ => true
  | .hoopDispatch _ => true
  | .stockProgramMessage _ _ _ => true
  | .trackEnd _ => true
  | .waveSnapshotTimeout _ _ => true
  | .pairingJob _ _ _ => true
  | .pairingResult _ => true
  | .customerInvocation _ _ _ => true
  | .invocationBudgetExpire _ => true
  | .outCmd _ _ => true
  | .reflexRecord => true
  | .rfxTblRead _ => true
  | .rfxTblWrite _ => true
  | .rfxTblClear _ => true
  | .rfxCrvRead _ => true
  | .rfxCrvWrite _ => true
  | .hoopOut _ _ => true
  | .hoopIn _ => true
  | .hoopInComplete _ => true
  | .hoopPark _ _ => true
  | .hoopShardRead _ => true
  | .hoopShardWrite _ _ _ => true
  | .qmove => true
  | .smove => true
  | .qmoveForced => true
  | .smoveForced => true
  | .migrationComplete => true
  | .migrationTimeout => true
  | .orderSweep => true
  | .ordCfgWrite _ _ _ => true
  | .reflexApply => true
  | .compensationApply => true
  | .compensationExpire => true
  | .faultApply => true
  | .orderAckApply => true
  | .ordTblRead => true
  | .ordTblWrite => true
  | .ordTblClear => true
  | .ledgerStatusApply => true
  | .ledgerEnergyApply => true
  | .energyPeriodBoundary => true
  | .ldgTblRead => true
  | .ldgTblWrite => true
  | .ldgTblClear => true
  | .rimOut _ _ => true
  | .rimIn _ _ => true
  | .rimPark _ _ => true
  | .rimHoldoffEnd _ => true
  | .rimLockLoss _ => true
  | .rimReturnTimeout _ => true
  | .identTimer _ => true
  | .syncTimer _ => true
  | .rimFrameReceive _ bytes _ => bytes != []
  | .rimEntrySend _ => true
  | .rimBsetRead _ => true
  | .rimBsetWrite _ _ => true
  | .rimFecLock _ => true
  | .rimOutComplete _ => true
  | .vfEnableWrite _ _ _ => true
  | .numvfsWrite _ => true
  | .initiateFlr _ => true
  | .flrReadsAbandon _ => true
  | .flrComplete _ => true
  | .busMasterEnableChange _ _ => true
  | .d3hotTransition _ => true
  | .hostLinkUp speed width => linkWf speed.toNat width.toNat
  | .linkSpeedChange speed width => linkWf speed.toNat width.toNat
  | .dmaReadComplete _ _ _ _ => true
  | .dmaCompletionTimeout _ _ => true
  | .dmaRound => true
  | .dllAckReceive _ => true
  | .msixSend _ => true
  | .doorbellFetch _ => true
  | .doorbellReturn _ bytes => bytes.length == 64
  | .ringEnable _ _ => true
  | .ringDisable _ _ => true
  | .commandFetch _ bytes => bytes.length == 64
  | .cmdNop _ => true
  | .cmdTime _ => true
  | .cmdInv _ => true
  | .cmdKey _ => true
  | .cmdGateway _ => true
  | .cmdTwrite _ _ _ => true
  | .cmdTread _ => true
  | .cmdTclear _ => true
  | .cmdPlace _ => true
  | .cmdCancel _ => true
  | .cmdSchedule _ => true
  | .completionWrite _ => true
  | .eventWrite _ => true
  | .recordWrite _ => true
  | .bulkOutFetch _ desc _ _ => desc.length == 64
  | .bulkInWrite _ => true
  | .statusRecordWrite _ => true
  | .bar2Access _ n wr env => barWf n.toNat wr && env.wf
  | .aerLinkError _ _ => true
  | .add _ a => a.wf 1
  | .sub _ a => a.wf 1
  | .and _ a => a.wf 1
  | .or _ a => a.wf 1
  | .xor _ a => a.wf 1
  | .andn _ a => a.wf 1
  | .shl _ a => a.wf 1
  | .shr _ a => a.wf 1
  | .sar _ a => a.wf 1
  | .rol _ a => a.wf 1
  | .min _ a => a.wf 1
  | .max _ a => a.wf 1
  | .minu _ a => a.wf 1
  | .maxu _ a => a.wf 1
  | .sextw _ a => a.wf 1
  | .sextp _ a => a.wf 1
  | .zextw _ a => a.wf 1
  | .zextp _ a => a.wf 1
  | .clz _ a => a.wf 1
  | .popc _ a => a.wf 1
  | .getp _ a => a.wf 1
  | .setp _ a => a.wf 1
  | .immediateLoad _ a => a.wf
  | .cmpEq _ a => a.wf 1
  | .cmpNe _ a => a.wf 1
  | .cmpLt _ a => a.wf 1
  | .cmpGe _ a => a.wf 1
  | .cmpLtu _ a => a.wf 1
  | .cmpGeu _ a => a.wf 1
  | .cmpAny _ a => a.wf 1
  | .cmpNone _ a => a.wf 1
  | .pand _ a => a.wf 1
  | .por _ a => a.wf 1
  | .pxor _ a => a.wf 1
  | .pandn _ a => a.wf 1
  | .mul _ a => a.wf 1
  | .mulu _ a => a.wf 1
  | .mac _ a => a.wf 1
  | .macu _ a => a.wf 1
  | .div _ a => a.wf 1
  | .divu _ a => a.wf 1
  | .mfmh _ a => a.wf 1
  | .mfml _ a => a.wf 1
  | .mtmh _ a => a.wf 1
  | .mtml _ a => a.wf 1
  | .ld _ a => a.wf 4
  | .ldu _ a => a.wf 4
  | .st _ a => a.wf 4
  | .ldf _ a => a.wf 4
  | .stf _ a => a.wf 4
  | .pref _ a => a.wf 4
  | .dclean _ a => a.wf 1
  | .dflush _ a => a.wf 1
  | .dinv _ a => a.wf 1
  | .icinv _ a => a.wf 1
  | .dzero _ a => a.wf 1
  | .tlbiVa _ a => a.wf 1
  | .tlbiAsid _ a => a.wf 1
  | .tlbiAll _ a => a.wf 1
  | .tlbiLocal _ a => a.wf 1
  | .l1dinvAll _ a => a.wf 1
  | .l2cleanAll _ a => a.wf 1
  | .l2flushAll _ a => a.wf 1
  | .shortAbsoluteLoad _ _ a => a.wf
  | .shortAbsoluteStore _ _ a => a.wf
  | .btst _ a => a.wf 1
  | .bset _ a => a.wf 1
  | .bclr _ a => a.wf 1
  | .binv _ a => a.wf 1
  | .bld _ a => a.wf 1
  | .bst _ a => a.wf 1
  | .br _ a => a.wf
  | .jr _ a => a.wf 1
  | .bmove _ a => a.wf 8
  | .bmoved _ a => a.wf 8
  | .bfill _ a => a.wf 8
  | .bcmp _ a => a.wf 8
  | .sigdi _ a => a.wf 8
  | .sigdh _ a => a.wf 8
  | .daddm _ a => a.wf 8
  | .dsubm _ a => a.wf 8
  | .dadd _ a => a.wf 8
  | .dsub _ a => a.wf 8
  | .dchk _ a => a.wf 8
  | .dtob _ a => a.wf 8
  | .btod _ a => a.wf 8
  | .fadd _ a => a.wf 1
  | .fsub _ a => a.wf 1
  | .fmul _ a => a.wf 1
  | .fdiv _ a => a.wf 1
  | .fsqrt _ a => a.wf 1
  | .fma _ a => a.wf 1
  | .fms _ a => a.wf 1
  | .fnma _ a => a.wf 1
  | .fmin _ a => a.wf 1
  | .fmax _ a => a.wf 1
  | .fabs _ a => a.wf 1
  | .fneg _ a => a.wf 1
  | .fmov _ a => a.wf 1
  | .fcvt _ a => a.wf 1
  | .fcvti _ a => a.wf 1
  | .fcvtiu _ a => a.wf 1
  | .fcvtit _ a => a.wf 1
  | .fcvtf _ a => a.wf 1
  | .fcvtfu _ a => a.wf 1
  | .fmvfg _ a => a.wf 1
  | .fmvgf _ a => a.wf 1
  | .feq _ a => a.wf 1
  | .flt _ a => a.wf 1
  | .fle _ a => a.wf 1
  | .funord _ a => a.wf 1
  | .ldres _ a => a.wf 4
  | .stcom _ a => a.wf 4
  | .aswp _ a => a.wf 4
  | .aadd _ a => a.wf 4
  | .acas _ a => a.wf 4
  | .aor _ a => a.wf 4
  | .aand _ a => a.wf 4
  | .nop _ a => a.wf
  | .trap _ a => a.wf
  | .sync _ a => a.wf
  | .fenceL _ a => a.wf
  | .fenceS _ a => a.wf
  | .fence _ a => a.wf
  | .fenceIo _ a => a.wf
  | .mfc _ a => a.wf
  | .mtc _ a => a.wf
  | .flushp _ a => a.wf
  | .barp _ a => a.wf
  | .hold _ a => a.wf
  | .release _ a => a.wf
  | .rete _ a => a.wf
  | .wait _ a => a.wf
  | .brk _ a => a.wf
  | .interruptTake _ => true
  | .fpTrapTake _ => true
  | .machineCheckTake _ => true
  | .lostStore _ _ ix => decide (ix.toNat < 32)
  | .holdWindowExpire _ => true
  | .coreReset _ => true
  | .coreAutoStart _ => true
  | .stakeReset _ => true
  | .stakeStart _ _ => true
  | .clusterOut _ => true
  | .clusterIn _ => true
  | .clusterPark _ _ => true
  | .stkSwiWrite _ _ => true
  | .train => true
  | .trainComplete _ _ => true
  | .eccInit => true
  | .eccInitComplete => true
  | .scrubStart => true
  | .scrubLine env => env.wf
  | .abort => true
  | .scrubComplete => true
  | .clusterOutComplete _ => true
  | .clusterInComplete _ => true
  | .tick => true
  | .tbStepWrite _ => true
  | .compareChannelFire _ => true
  | .timerPeriodEvent _ => true
  | .timerStart _ => true
  | .timerStop _ => true
  | .timerRestart _ => true
  | .timerPeriodWrite _ _ => true
  | .watchdogKick _ _ _ _ => true
  | .watchdogExpire _ => true
  | .trialWatchdogExpire => true
  | .trialWatchdogReset => true
  | .bootRomStage _ => true
  | .bootHandleStage _ => true
  | .bootHostStage _ _ _ _ => true
  | .bootDramStage _ => true
  | .bootHoopsStage _ => true
  | .bootRunStage => true
  | .recoveryGo => true
  | .bootConfirm _ _ _ => true
  | .flashWrite => true
  | .activate => true
  | .stageTenant => true
  | .confirmTenant => true
  | .removeTenant => true
  | .bootImgComplete _ => true
  | .measExtend _ _ => true
  | .dvfsRequest _ _ => true
  | .dvfsComplete _ => true
  | .pmbusAcknowledge _ _ _ => true
  | .pmbusTimeout => true
  | .regulatorValidWrite _ _ _ => true
  | .supplyWarning _ => true
  | .supplyRecovery _ => true
  | .supplyResetLevel => true
  | .monitorSweep _ vals => vals.length == 20
  | .thermalTrip _ => true
  | .referenceLoss => true
  | .pllLockReturn => true
  | .hush _ => true
  | .hushEntered => true
  | .hushWake _ _ _ _ => true
  | .wakeComplete => true
  | .hoopDoze _ => true
  | .smbReadState => true
  | .smbReadHighestTemp => true
  | .smbReadTemp _ => true
  | .smbReadVolt _ => true
  | .smbReadBelow => true
  | .smbWake => true
  | .smbHush _ => true
  | .authRequest _ _ _ => true
  | .authRespond _ => true
  | .authDrop _ => true
  | .testLogicReset => true
  | .dbgdrUpdate _ _ _ _ => true
  | .dbgAccRead _ _ _ => true
  | .dbgAccWrite _ _ _ => true
  | .halt _ _ => true
  | .debugHaltTake _ => true
  | .debugResume _ _ => true
  | .debugStep _ _ => true
  | .debugExec _ _ env => env.wf
  | .dbgRegselRead _ _ _ => true
  | .dbgRegselWrite _ _ _ => true
  | .engineHalt _ _ => true
  | .engineResume _ _ => true
  | .engineStep _ _ _ => true
  | .dbgVtTxRead _ _ _ => true
  | .dbgVtRxWrite _ _ _ => true
  | .tracePacketAccept _ _ _ _ _ => true
  | .traceSinkWrite _ => true
  | .trcBufdataRead _ => true
  | .counterLatch => true
  | .snap _ => true
  | .counterDumpComplete _ => true
  | .tapInstructionLoad _ => true
  | .fatalReset => true
  | .errRstDevice _ _ => true
  | .errRstBlock _ _ _ _ => true
  | .logClear _ => true
  | .challengeExpire _ => true

end Sys2Proof
end

