-- ==== Sys2Proof/Decode.lean ====
section
/-!
DEFINITION. The commands that words spell: spec/opcode_table.json gives no row bits, since commands reach the Vezan as register
accesses, frames, bus transactions and events, and Plait instructions as the operands of their rows. No word spells a command.
-/
namespace Sys2Proof

/-- The command a word of `nbits` bits spells by the opcode table's bits: none. -/
def decodeTableWord (_nbits _w : Nat) : Option Instr := none

end Sys2Proof
end

