-- ==== Sys2Proof/Machine/Bits.lean ====
section
/-!
DEFINITION. Bit fields, sign extension and byte order (R2, R3, R4, Table 0-1), as plain functions on naturals and byte lists.
-/
namespace Sys2Proof.Machine

/-- FIELD[hi:lo] of a number (Table 0-1). -/
def bits (v hi lo : Nat) : Nat := (v >>> lo) % 2 ^ (hi + 1 - lo)

/-- Bit n of a number. -/
def bit (v n : Nat) : Bool := v.testBit n

/-- 1 or 0. -/
def b2n (b : Bool) : Nat := if b then 1 else 0

/-- The signed value of a w-bit number. -/
def sgn (w v : Nat) : Int :=
  let u := v % 2 ^ w
  if 2 * u < 2 ^ w then (u : Int) else (u : Int) - (2 ^ w : Nat)

/-- An integer modulo 2^w. -/
def wrapI (w : Nat) (i : Int) : Nat := (i % (2 ^ w : Nat)).toNat

/-- Addition modulo 2^w. -/
def wadd (w a b : Nat) : Nat := (a + b) % 2 ^ w

/-- Subtraction modulo 2^w. -/
def wsub (w a b : Nat) : Nat := (a % 2 ^ w + 2 ^ w - b % 2 ^ w) % 2 ^ w

/-- A count kept within w bits by saturation. -/
def satw (w v : Nat) : Nat := if v < 2 ^ w then v else 2 ^ w - 1

/-- a divided by b, rounded up. -/
def cdiv (a b : Nat) : Nat := (a + b - 1) / b

/-- The n low bytes of v, least significant first (R3). -/
def leBytes : Nat → Nat → List Byte
  | 0, _ => []
  | n + 1, v => BitVec.ofNat 8 v :: leBytes n (v / 256)

/-- The n low bytes of v, most significant first (R4). -/
def beBytes (n v : Nat) : List Byte := (leBytes n v).reverse

/-- The number whose bytes are given, least significant first. -/
def leNat : List Byte → Nat
  | [] => 0
  | b :: bs => b.toNat + 256 * leNat bs

/-- The number whose bytes are given, most significant first. -/
def beNat (bs : List Byte) : Nat := bs.foldl (fun a b => 256 * a + b.toNat) 0

/-- n bytes of a list from offset o; bytes past the end read 0. -/
def slice (bs : List Byte) (o n : Nat) : List Byte :=
  let r := (bs.drop o).take n
  r ++ List.replicate (n - r.length) 0

/-- The big-endian field of n bytes at offset o. -/
def beAt (bs : List Byte) (o n : Nat) : Nat := beNat (slice bs o n)

/-- The little-endian field of n bytes at offset o. -/
def leAt (bs : List Byte) (o n : Nat) : Nat := leNat (slice bs o n)

/-- Byte o of a list, as a number. -/
def byteAt (bs : List Byte) (o : Nat) : Nat := (bs.getD o 0).toNat

/-- A byte sequence packed into words: byte k is bits [7:0] of word k/2 for even k, bits [15:8] for odd k (R62, R2). -/
def packWords : List Byte → List Word
  | [] => []
  | [a] => [BitVec.ofNat 16 a.toNat]
  | a :: b :: r => BitVec.ofNat 16 (a.toNat + 256 * b.toNat) :: packWords r

/-- The bytes of a word list, in the order of `packWords`. -/
def wordBytes : List Word → List Byte
  | [] => []
  | w :: r => BitVec.ofNat 8 w.toNat :: BitVec.ofNat 8 (w.toNat / 256) :: wordBytes r

/-- A number as n words, least significant first (R3). -/
def leWords : Nat → Nat → List Word
  | 0, _ => []
  | n + 1, v => BitVec.ofNat 16 v :: leWords n (v / 65536)

/-- The number held by words, least significant first. -/
def wordsNat : List Word → Nat
  | [] => 0
  | w :: r => w.toNat + 65536 * wordsNat r

/-- The quads of a byte list, least significant byte first. -/
def quadsOf : Nat → List Byte → List Nat
  | 0, _ => []
  | n + 1, bs => leAt bs 0 8 :: quadsOf n (bs.drop 8)

/-- Replace element i of a list. -/
def setAt (l : List α) (i : Nat) (v : α) : List α := l.set i v

/-- The sum of a list of numbers. -/
def sumN (l : List Nat) : Nat := l.foldl (· + ·) 0

/-- How many bits of the w low bits are set. -/
def popc : Nat → Nat → Nat
  | 0, _ => 0
  | w + 1, v => v % 2 + popc w (v / 2)

/-- Whether every one of the n low nibbles is a decimal digit. -/
def allDigits : Nat → Nat → Bool
  | 0, _ => true
  | n + 1, v => decide (v % 16 < 10) && allDigits n (v / 16)

/-- The value of n packed-decimal digits. -/
def bcdVal : Nat → Nat → Nat
  | 0, _ => 0
  | n + 1, v => v % 16 + 10 * bcdVal n (v / 16)

/-- n packed-decimal digits of v. -/
def toBcd : Nat → Nat → Nat
  | 0, _ => 0
  | n + 1, v => v % 10 + 16 * toBcd n (v / 10)

end Sys2Proof.Machine
end

