-- ==== Sys2Proof/Machine/Crypto.lean ====
section
/-!
DEFINITION. The published algorithms the spec cites: AES-128 and AES-256 (FIPS 197), AES-GCM, RFC 3394 key unwrap, SHA-384,
ECDSA on P-384, and the IEEE 802.3 frame check sequence (R31, R58, R324, R360). Their content is the standards' own (log entry 4).
-/
namespace Sys2Proof.Machine

/-! ### AES (FIPS 197) -/

/-- Multiplication by x in GF(2^8). -/
def xtime (a : Nat) : Nat := (2 * a) ^^^ (if a < 128 then 0 else 0x11B)

/-- Multiplication in GF(2^8), over the k low bits of b. -/
def gfMul : Nat → Nat → Nat → Nat
  | 0, _, _ => 0
  | k + 1, a, b => (if b % 2 = 1 then a else 0) ^^^ gfMul k (xtime a) (b / 2)

/-- The product of two bytes in GF(2^8). -/
def gf8 (a b : Nat) : Nat := gfMul 8 a b

/-- The inverse a^254 in GF(2^8), 0 for 0. -/
def gfInv (a : Nat) : Nat :=
  let a2 := gf8 a a
  let a4 := gf8 a2 a2
  let a8 := gf8 a4 a4
  let a16 := gf8 a8 a8
  let a32 := gf8 a16 a16
  let a64 := gf8 a32 a32
  let a128 := gf8 a64 a64
  gf8 a2 (gf8 a4 (gf8 a8 (gf8 a16 (gf8 a32 (gf8 a64 a128)))))

/-- A byte rotated left by n. -/
def rotl8 (a n : Nat) : Nat := (a * 2 ^ n + a / 2 ^ (8 - n)) % 256

/-- The S-box. -/
def sbox (a : Nat) : Nat :=
  let b := gfInv a
  b ^^^ rotl8 b 1 ^^^ rotl8 b 2 ^^^ rotl8 b 3 ^^^ rotl8 b 4 ^^^ 0x63

/-- The inverse S-box. -/
def invSbox (c : Nat) : Nat := gfInv (rotl8 c 1 ^^^ rotl8 c 3 ^^^ rotl8 c 6 ^^^ 0x05)

/-- Exclusive or of two byte lists. -/
def xorL (a b : List Nat) : List Nat := List.zipWith (fun x y => x ^^^ y) a b

/-- The next key-schedule words: `prev` holds the last nk words, newest last; `i` counts words, `rc` is the round constant. -/
def keyExp : Nat → Nat → Nat → Nat → List (List Nat) → List (List Nat)
  | 0, _, _, _, ws => ws
  | k + 1, nk, i, rc, ws =>
    let t := ws.getD (ws.length - 1) []
    let g := if i % nk = 0 then
        (match t with
          | [a, b, c, e] => [sbox b ^^^ rc, sbox c, sbox e, sbox a]
          | _ => t)
      else if 6 < nk && i % nk = 4 then t.map sbox else t
    let w := xorL (ws.getD (ws.length - nk) []) g
    keyExp k nk (i + 1) (if i % nk = 0 then xtime rc else rc) (ws ++ [w])

/-- Byte list cut into pieces of 4. -/
def words4 : Nat → List Nat → List (List Nat)
  | 0, _ => []
  | k + 1, l => l.take 4 :: words4 k (l.drop 4)

/-- The round keys of a key of nk 4-byte words with nr rounds, 16 bytes each. -/
def roundKeys (nk nr : Nat) (key : List Nat) : List (List Nat) :=
  let ws := keyExp (4 * (nr + 1) - nk) nk nk 1 (words4 nk key)
  (List.range (nr + 1)).map (fun r => ((ws.drop (4 * r)).take 4).flatten)

/-- ShiftRows on 16 bytes in column order, by +1 (cipher) or −1 (inverse). -/
def shiftRows (inv : Bool) (s : List Nat) : List Nat :=
  (List.range 16).map (fun i => s.getD ((i + (if inv then 16 - 4 * (i % 4) else 4 * (i % 4))) % 16) 0)

/-- One column times the circulant matrix of the given row. -/
def mixCol (m0 m1 m2 m3 : Nat) (c : List Nat) : List Nat :=
  (List.range 4).map (fun i =>
    gf8 m0 (c.getD i 0) ^^^ gf8 m1 (c.getD ((i + 1) % 4) 0) ^^^ gf8 m2 (c.getD ((i + 2) % 4) 0) ^^^ gf8 m3 (c.getD ((i + 3) % 4) 0))

/-- MixColumns. -/
def mixCols (m0 m1 m2 m3 : Nat) (s : List Nat) : List Nat := ((words4 4 s).map (mixCol m0 m1 m2 m3)).flatten

/-- The middle rounds and the last round of the cipher. -/
def encRounds : List (List Nat) → List Nat → List Nat
  | [], s => s
  | [k], s => xorL (shiftRows false (s.map sbox)) k
  | k :: ks, s => encRounds ks (xorL (mixCols 2 3 1 1 (shiftRows false (s.map sbox))) k)

/-- Encrypt one 16-byte block with expanded round keys. -/
def aesEnc (rks : List (List Nat)) (blk : List Nat) : List Nat :=
  match rks with
  | [] => blk
  | k :: ks => encRounds ks (xorL blk k)

/-- The rounds of the inverse cipher, round keys last first. -/
def decRounds : List (List Nat) → List Nat → List Nat
  | [], s => s
  | [k], s => xorL ((shiftRows true s).map invSbox) k
  | k :: ks, s => decRounds ks (mixCols 14 11 13 9 (xorL ((shiftRows true s).map invSbox) k))

/-- Decrypt one 16-byte block with expanded round keys. -/
def aesDec (rks : List (List Nat)) (blk : List Nat) : List Nat :=
  match rks.reverse with
  | [] => blk
  | k :: ks => decRounds ks (xorL blk k)

/-! ### AES-128-GCM (R31) -/

/-- Bytes as numbers. -/
def natsOf (bs : List Byte) : List Nat := bs.map BitVec.toNat

/-- Numbers as bytes. -/
def bytesOf (ns : List Nat) : List Byte := ns.map (BitVec.ofNat 8)

/-- A 128-bit number as 16 bytes, most significant first. -/
def blockOf (n : Nat) : List Nat := natsOf (beBytes 16 n)

/-- The product of two blocks in GF(2^128), over the k bits of x from its most significant one. -/
def ghMul : Nat → Nat → Nat → Nat → Nat
  | 0, _, _, z => z
  | k + 1, x, v, z =>
    ghMul k x (if v % 2 = 1 then v / 2 ^^^ 0xE1000000000000000000000000000000 else v / 2)
      (if x.testBit k then z ^^^ v else z)

/-- GHASH over zero-padded 16-byte blocks. -/
def ghash : Nat → Nat → Nat → List Byte → Nat
  | 0, _, y, _ => y
  | k + 1, h, y, bs =>
    match bs with
    | [] => y
    | _ => ghash k h (ghMul 128 (y ^^^ beAt bs 0 16) h 0) (bs.drop 16)

/-- The counter-mode key stream applied to a text. -/
def gctr (rks : List (List Nat)) (nonce : Nat) : Nat → Nat → List Byte → List Byte
  | 0, _, _ => []
  | k + 1, c, bs =>
    match bs with
    | [] => []
    | _ =>
      let ks := aesEnc rks (blockOf (nonce * 2 ^ 32 + c))
      bytesOf (xorL (natsOf (bs.take 16)) ks) ++ gctr rks nonce k (c + 1) (bs.drop 16)

/-- The GCM tag of a ciphertext with its additional data, for a 96-bit nonce. -/
def gcmTag (rks : List (List Nat)) (nonce : Nat) (aad ct : List Byte) : List Byte :=
  let h := beNat (bytesOf (aesEnc rks (blockOf 0)))
  let n := ct.length + aad.length + 2
  let y := ghash n h (ghash n h 0 aad) ct
  let y := ghMul 128 (y ^^^ (8 * aad.length * 2 ^ 64 + 8 * ct.length)) h 0
  bytesOf (xorL (blockOf y) (aesEnc rks (blockOf (nonce * 2 ^ 32 + 1))))

/-- The round keys of a 128-bit key. -/
def rk128 (key : BitVec 128) : List (List Nat) := roundKeys 4 10 (blockOf key.toNat)

/-- Seal: ciphertext and 16-byte tag. -/
def gcmSeal (key : BitVec 128) (nonce : Nat) (aad pt : List Byte) : List Byte × List Byte :=
  let rks := rk128 key
  let ct := gctr rks nonce (pt.length + 1) 2 pt
  (ct, gcmTag rks nonce aad ct)

/-- Open: the plaintext, or none when the tag differs. -/
def gcmOpen (key : BitVec 128) (nonce : Nat) (aad ct tag : List Byte) : Option (List Byte) :=
  let rks := rk128 key
  if gcmTag rks nonce aad ct = tag then some (gctr rks nonce (ct.length + 1) 2 ct) else none

/-! ### RFC 3394 key unwrap with AES-256 (R58) -/

/-- The unwrapping steps t, t − 1, …, 1 over n registers of 8 bytes; a is the integrity register. -/
def kwSteps (rks : List (List Nat)) (n : Nat) : Nat → Nat → List Nat → Nat × List Nat
  | 0, a, r => (a, r)
  | t + 1, a, r =>
    let i := t % n
    let b := beNat (bytesOf (aesDec rks (blockOf ((a ^^^ (t + 1)) * 2 ^ 64 + r.getD i 0))))
    kwSteps rks n t (b / 2 ^ 64) (r.set i (b % 2 ^ 64))

/-- Unwrap 24 bytes to a 128-bit key, or none when the integrity check fails. -/
def keyUnwrap (kek : Nat) (blob : List Byte) : Option (BitVec 128) :=
  let rks := roundKeys 8 14 (natsOf (beBytes 32 kek))
  let (a, r) := kwSteps rks 2 12 (beAt blob 0 8) [beAt blob 8 8, beAt blob 16 8]
  if a = 0xA6A6A6A6A6A6A6A6 then some (BitVec.ofNat 128 (r.getD 0 0 * 2 ^ 64 + r.getD 1 0)) else none

/-! ### SHA-384 -/

/-- The e-th root of n rounded down, over its low bits, from its part found so far. -/
def rootFrom (e n : Nat) : Nat → Nat → Nat
  | 0, a => a
  | k + 1, a => rootFrom e n k (if (a + 2 ^ k) ^ e ≤ n then a + 2 ^ k else a)

/-- The first 64 bits of the fraction of the e-th root of n, for roots below 16. -/
def rootFraction (e n : Nat) : BitVec 64 := BitVec.ofNat 64 (rootFrom e (n * 2 ^ (64 * e)) 68 0)

/-- The primes below n, for n at most 441. -/
def primesBelow (n : Nat) : List Nat :=
  (List.range n).filter (fun p => decide (2 ≤ p) && (List.range 21).all (fun k => decide (k < 2) || decide (p ≤ k) || p % k != 0))

/-- The round constants: the fractions of the cube roots of the first eighty primes (FIPS 180-4). -/
def shaRoundConstants : List (BitVec 64) := (primesBelow 410).map (rootFraction 3)

/-- The initial state of SHA-384: the fractions of the square roots of the ninth to the sixteenth prime (FIPS 180-4). -/
def shaStart : List (BitVec 64) := ((primesBelow 54).drop 8).map (rootFraction 2)

/-- Rotate right. -/
def rotr64 (x : BitVec 64) (n : Nat) : BitVec 64 := x.rotateRight n

/-- The message schedule, newest word last. -/
def shaSched : Nat → List (BitVec 64) → List (BitVec 64)
  | 0, w => w
  | k + 1, w =>
    let n := w.length
    let a := w.getD (n - 15) 0
    let b := w.getD (n - 2) 0
    let s0 := rotr64 a 1 ^^^ rotr64 a 8 ^^^ a >>> 7
    let s1 := rotr64 b 19 ^^^ rotr64 b 61 ^^^ b >>> 6
    shaSched k (w ++ [w.getD (n - 16) 0 + s0 + w.getD (n - 7) 0 + s1])

/-- One round. -/
def shaRound (s : List (BitVec 64)) (kw : BitVec 64) : List (BitVec 64) :=
  match s with
  | [a, b, c, d, e, f, g, h] =>
    let s1 := rotr64 e 14 ^^^ rotr64 e 18 ^^^ rotr64 e 41
    let t1 := h + s1 + ((e &&& f) ^^^ (~~~e &&& g)) + kw
    let s0 := rotr64 a 28 ^^^ rotr64 a 34 ^^^ rotr64 a 39
    let t2 := s0 + ((a &&& b) ^^^ (a &&& c) ^^^ (b &&& c))
    [t1 + t2, a, b, c, d + t1, e, f, g]
  | _ => s

/-- One 128-byte block. -/
def shaBlock (h : List (BitVec 64)) (blk : List Byte) : List (BitVec 64) :=
  let w := shaSched 64 ((List.range 16).map (fun i => BitVec.ofNat 64 (beAt blk (8 * i) 8)))
  List.zipWith (· + ·) h ((List.zipWith (· + ·) shaRoundConstants w).foldl shaRound h)

/-- The blocks of a padded message. -/
def shaBlocks : Nat → List (BitVec 64) → List Byte → List (BitVec 64)
  | 0, h, _ => h
  | k + 1, h, bs =>
    match bs with
    | [] => h
    | _ => shaBlocks k (shaBlock h (bs.take 128)) (bs.drop 128)

/-- The SHA-384 digest, 48 bytes. -/
def sha384 (m : List Byte) : List Byte :=
  let z := (128 - (m.length + 17) % 128) % 128
  let p := m ++ [0x80] ++ List.replicate z 0 ++ beBytes 16 (8 * m.length)
  ((shaBlocks (p.length / 128) shaStart p).take 6).flatMap (fun w => beBytes 8 w.toNat)

/-! ### ECDSA on P-384 -/

/-- The field prime. -/
def p384P : Nat := 2 ^ 384 - 2 ^ 128 - 2 ^ 96 + 2 ^ 32 - 1
/-- The group order. -/
def p384N : Nat := 0xFFFFFFFFFFFFFFFFFFFFFFFFFFFFFFFFFFFFFFFFFFFFFFFFC7634D81F4372DDF581A0DB248B0A77AECEC196ACCC52973
/-- The curve coefficient b. -/
def p384B : Nat := 0xB3312FA7E23EE7E4988E056BE3F82D19181D9C6EFE8141120314088F5013875AC656398D8A2ED19D2A85C8EDD3EC2AEF
/-- The base point. -/
def p384G : Nat × Nat :=
  (0xAA87CA22BE8B05378EB1C71EF320AD746E1D3B628BA79B9859F741E082542A385502F25DBF55296C3A545E3872760AB7,
   0x3617DE4A96262C6F5D9E98BF9292DC29F8F41DBD289A147CE9DA3113B5F0B8C00A60B1CE1D7E819D7A431D7C90EA0E5F)

/-- a to the power e modulo m, over the k low bits of e. -/
def powMod (m : Nat) : Nat → Nat → Nat → Nat
  | 0, _, _ => 1 % m
  | k + 1, a, e =>
    let r := powMod m k (a * a % m) (e / 2)
    if e % 2 = 1 then r * a % m else r

/-- The inverse modulo a prime. -/
def invMod (m a : Nat) : Nat := powMod m 384 (a % m) (m - 2)

/-- Subtraction modulo p. -/
def subP (a b : Nat) : Nat := (a + p384P - b % p384P) % p384P

/-- Multiplication modulo p. -/
def mulP (a b : Nat) : Nat := a * b % p384P

/-- A point (X, Y, Z) in Jacobian coordinates: (X / Z², Y / Z³), at infinity where Z is 0. -/
abbrev EcPoint := Nat × Nat × Nat

/-- Twice a point (the curve's a is −3). -/
def ecDouble (a : EcPoint) : EcPoint :=
  match a with
  | (x, y, z) =>
    let zz := mulP z z
    let m := 3 * mulP (subP x zz) (x + zz)
    let yy := mulP y y
    let s := 4 * mulP x yy
    let x3 := subP (mulP m m) (2 * s)
    (x3, subP (mulP m (subP s x3)) (8 * mulP yy yy), mulP (2 * y) z)

/-- The sum of two points. -/
def ecAdd (a b : EcPoint) : EcPoint :=
  match a, b with
  | (x1, y1, z1), (x2, y2, z2) =>
    if z1 = 0 then b
    else if z2 = 0 then a
    else
      let zz1 := mulP z1 z1
      let zz2 := mulP z2 z2
      let u := mulP x1 zz2
      let h := subP (mulP x2 zz1) u
      let s := mulP y1 (mulP z2 zz2)
      let r := subP (mulP y2 (mulP z1 zz1)) s
      if h = 0 then (if r = 0 then ecDouble a else (1, 1, 0))
      else
        let hh := mulP h h
        let hhh := mulP h hh
        let v := mulP u hh
        let x3 := subP (mulP r r) (hhh + 2 * v)
        (x3, subP (mulP r (subP v x3)) (mulP s hhh), mulP h (mulP z1 z2))

/-- k times a point, over the n low bits of k. -/
def ecMul : Nat → Nat → EcPoint → EcPoint
  | 0, _, _ => (1, 1, 0)
  | n + 1, k, p =>
    let r := ecMul n (k / 2) (ecDouble p)
    if k % 2 = 1 then ecAdd r p else r

/-- Whether (x, y) is a point of the curve. -/
def onCurve (x y : Nat) : Bool :=
  decide (x < p384P) && decide (y < p384P) && (y * y % p384P == (x * x * x + (p384P - 3) * x + p384B) % p384P)

/-- ECDSA verification of a 48-byte digest: public key X, Y and signature R, S, 48 bytes each, most significant first. -/
def ecdsaVerify (pub : List Byte) (digest sig : List Byte) : Bool :=
  let x := beAt pub 0 48
  let y := beAt pub 48 48
  let r := beAt sig 0 48
  let s := beAt sig 48 48
  if !onCurve x y || r = 0 || s = 0 || p384N ≤ r || p384N ≤ s then false
  else
    let w := invMod p384N s
    let u1 := beNat digest * w % p384N
    let u2 := r * w % p384N
    match ecAdd (ecMul 384 u1 (p384G.1, p384G.2, 1)) (ecMul 384 u2 (x, y, 1)) with
    | (px, _, pz) => pz != 0 && mulP px (invMod p384P (mulP pz pz)) % p384N == r

/-! ### IEEE 802.3 FCS and the Internet checksum -/

/-- CRC-32 of one byte, bit by bit (reflected). -/
def crcBits : Nat → Nat → Nat
  | 0, c => c
  | k + 1, c => crcBits k (if c % 2 = 1 then c / 2 ^^^ 0xEDB88320 else c / 2)

/-- The frame check sequence of a frame, as the 4 bytes sent after it. -/
def fcs (bs : List Byte) : List Byte :=
  leBytes 4 (bs.foldl (fun c b => crcBits 8 (c ^^^ b.toNat)) 0xFFFFFFFF ^^^ 0xFFFFFFFF)

/-- The sum of the 16-bit big-endian words of a byte list. -/
def sum16 : List Byte → Nat
  | [] => 0
  | [a] => a.toNat * 256
  | a :: b :: r => a.toNat * 256 + b.toNat + sum16 r

/-- Fold a sum into 16 bits by end-around carry. -/
def fold16 (n : Nat) : Nat :=
  let a := n % 65536 + n / 65536
  let b := a % 65536 + a / 65536
  b % 65536 + b / 65536

/-- The UDP checksum over the IPv6 pseudo header: source, destination, UDP header and data; 0 when a received one is right. -/
def udpSum (src dst : List Byte) (udp : List Byte) : Nat :=
  65535 - fold16 (sum16 src + sum16 dst + udp.length + 17 + sum16 udp)

end Sys2Proof.Machine
end

