-- ==== Sys2Proof/Config.lean ====
section
/-!
DEFINITION. What an implementation of the Vezan fixes and the spec leaves open: the free values. None has a body, so no proof
and no run can see a value.
-/
namespace Sys2Proof

/-- The values the spec leaves open, one for each draw: State's free counter selects the draw (log entry 2). -/
opaque Config.free : Nat → BitVec 64

/-- The interrupt source number of the handle core's timer interrupt (0), of its trial-watchdog interrupt (1) and of its supply
interrupt (2), which the spec does not number. -/
opaque Config.handleIrq : Nat → BitVec 6

/-- The set of the lantern cache in which a line of the lantern state region lies, which the spec does not give (R117, log entry 85). -/
opaque Config.lcacheSet : Nat → Fin 512

/-- What lies at a word address of the handle core above installed DRAM and outside control space: firmware code (1), firmware data (2), the boot
ROM (3), the fuse array (4), or nothing. The spec names the four and gives no addresses (R327, log entry 91). -/
opaque Config.handleMap : Nat → Fin 5

/-- The check byte of a quad in the SEC-DED code of the L2 and of the boot record (Table 12-6, R326), whose matrix the spec does not
give. -/
opaque Config.secded : BitVec 64 → BitVec 8

/-- The 48-byte value that a measurement extends with where the spec names its content and not its layout (Table 14-8): by item and
content. -/
opaque Config.measured : Nat → Nat → BitVec 384

/-- The lane equalization controls of the PF's Secondary PCI Express capability (Table 8-3), whose values the spec does not give. -/
opaque Config.laneEq : Nat → BitVec 32

end Sys2Proof
end

