-- ==== Sys2Proof/Machine/Tab.lean ====
section
/-!
DEFINITION. Sparse tables: a list of (key, value) pairs in ONE canonical form (keys strictly rising, and for a table with a
default value no entry equal to it), with its read and its writes. Memory, the register file and every large table of the
Vezan are held so.
-/
namespace Sys2Proof.Machine

/-- A sparse table. -/
abbrev Tab (α : Type) := List (Nat × α)

/-- The entry at key k, if it is listed. -/
def Tab.find {α : Type} : Tab α → Nat → Option α
  | [], _ => none
  | (j, v) :: t, k => if j = k then some v else Tab.find t k

/-- Write key k, keeping the keys rising. -/
def Tab.ins {α : Type} : Tab α → Nat → α → Tab α
  | [], k, v => [(k, v)]
  | (j, w) :: t, k, v =>
    if k < j then (k, v) :: (j, w) :: t
    else if k = j then (k, v) :: t
    else (j, w) :: Tab.ins t k v

/-- Remove key k. -/
def Tab.del {α : Type} (t : Tab α) (k : Nat) : Tab α := t.filter (fun e => e.1 != k)

/-- Remove every key in [lo, hi). -/
def Tab.delRange {α : Type} (t : Tab α) (lo hi : Nat) : Tab α :=
  t.filter (fun e => e.1 < lo || hi ≤ e.1)

/-- The value at key k of a table whose unlisted keys read as d. -/
def Tab.get {α : Type} (d : α) (t : Tab α) (k : Nat) : α := (Tab.find t k).getD d

/-- Write v at key k of a table whose unlisted keys read as d: writing d removes the entry. -/
def Tab.set {α : Type} [DecidableEq α] (d : α) (t : Tab α) (k : Nat) (v : α) : Tab α :=
  if v = d then Tab.del t k else Tab.ins t k v

/-- Keys strictly rising. -/
def Tab.sorted {α : Type} : Tab α → Bool
  | [] => true
  | [_] => true
  | (j, _) :: (k, w) :: t => decide (j < k) && Tab.sorted ((k, w) :: t)

/-- No entry equal to the default. -/
def Tab.noDefault {α : Type} [DecidableEq α] (d : α) (t : Tab α) : Bool := t.all (fun e => decide (e.2 ≠ d))

/-- The canonical form. -/
def Tab.wf {α : Type} [DecidableEq α] (d : α) (t : Tab α) : Bool := Tab.sorted t && Tab.noDefault d t

/-- A table with its keys rising: the table itself when they rise already; where a key is listed twice the first entry counts. -/
def Tab.tidy {α : Type} (t : Tab α) : Tab α := if Tab.sorted t then t else t.foldr (fun e a => Tab.ins a e.1 e.2) []

/-- A table in canonical form: the table itself when it is canonical already. -/
def Tab.canon {α : Type} [DecidableEq α] (d : α) (t : Tab α) : Tab α :=
  if Tab.wf d t then t else t.foldr (fun e a => Tab.set d a e.1 e.2) []

end Sys2Proof.Machine
end

