-- ==== Sys2Proof/Machine/RegMap.lean ====
section
/-!
DEFINITION. The register map of control space and of the function pages (R5, R6, R387, R390): one row per register of the
spec's map tables (2-17, 3-9, 4-7, 5-13, 6-7, 7-6, 8-6, 8-14, 9-18, 11-10, 12-16, 13-6, 14-11, 15-14, 16-9, 17-5), with the
fields, types, reset values and reserved encodings of the field tables beside them, and one accessor per field.
-/
namespace Sys2Proof.Machine

/-- The register field types of Table 0-3. Bits that no row names are RSV. -/
inductive Ty where
  | rw | ro | wo | w1c | w1s | rc | rwl
  deriving DecidableEq, Repr

/-- A register field in storage: its key (64 × control-space word offset + lowest bit), its width and its reset value. -/
structure Fld where
  key : Nat
  w : Nat
  rst : Nat
  deriving DecidableEq, Repr

/-- One field of a register's row: lowest bit, width, type, reset value, and the values the spec does not call reserved
(an empty list: all of them). -/
structure FieldDesc where
  lo : Nat
  w : Nat
  ty : Ty
  rst : Nat
  ok : List (Nat × Nat)
  deriving DecidableEq, Repr

/-- The registers' names. -/
inductive RegName where
  | MLE_CTRL | MLE_GRACE | MLE_REKEY | MLE_SEQ_WARN | MLE_AUTH_WARN | MLE_INV_UID
  | MLE_INV_ENTRY | MLE_INV_CMD | MLE_INV_STATUS | MLE_KEY_CMD | MLE_KEY_STATUS | MLE_KEY_EPOCH
  | MLE_KEY_DBLOB | MLE_KEY_LBLOB | MLE_GW_ADDR_HI | MLE_GW_ADDR_LO | MLE_GW_CFG | MLE_GW_CMD
  | MLE_DROP_CNT | MLE_RX_CNT | MLE_TX_CNT | MLE_UNREG_OVF | MLE_TXDROP_CNT | FP_CFG
  | FP_SVC | FP_STATUS | FP_WAKE | FP_MAC | FP_IP6_HI | FP_IP6_LO
  | FP_TXCFG | FP_BUF | FP_SLRATE | FP_TS_ADJ | FP_TXTS_TIME | FP_TXTS_INFO
  | FP_LANE | FP_CNT | FP_RXDROP | FP_TXDROP | FP_LCNT | FP_NH_ENTRY
  | FP_NH_CMD | BSK_LOCK | BSK_POOL | BSK_SCRUB | BSK_FREE | BSK_LT_BASE
  | BSK_LT_CFG | BSK_LT_FREE | BSK_Q_SEL | BSK_Q_CFG | BSK_Q_STAT | BSK_Q_CMD
  | BSK_Q_CNT | BSK_SHARDQ | BSK_DROP_CNT | BSK_FN_USE | BSK_CNT | BSK_QA_CMD
  | BSK_QA_ADDR | BSK_QA_STATUS | WV_TIMEOUT | WV_CRED_SEL | WV_CRED_VIEW | WV_STALL
  | HOOP_LOCK | HOOP_LS_BASE | HOOP_CFG | HOOP_TRK | HOOP_CUST | HOOP_SHARD
  | HOOP_MIG_ARG | HOOP_MIG_CMD | HOOP_MIG_STATUS | HOOP_SVC | HOOP_CNT | PAIR_CNT
  | RFX_CTRL | RFX_LAT | RFX_ENT | RFX_TBL_CMD | RFX_TBL_STATUS | RFX_CRV
  | RFX_CRV_CMD | RFX_CRV_STATUS | RFX_CNT | ORD_CFG | ORD_EGR | ORD_STAT
  | ORD_HOLD | ORD_TBL_SEL | ORD_TBL_CMD | ORD_DATA | ORD_CNT | LDG_LOCK
  | LDG_BASE | LDG_CFG | LDG_TBL_SEL | LDG_TBL_CMD | LDG_DATA | LDG_ETOT
  | LDG_CNT | RIM_LOCK | RIM_CFG | RIM_INSTALL | RIM_BSET | RIM_CTAB
  | RIM_GCNT | RIM_LCFG | RIM_SVC | RIM_STATUS | RIM_LANE | RIM_CNT
  | HIF_LOCK | HIF_STATUS | HIF_CFG | HIF_BAR2_BASE | HIF_ISL_TIME | HIF_ISL_INFO
  | HIF_QOS_SHARE | HIF_QOS_CELLS | HIF_QOS_LT | HIF_CNT | HIF_FN_ID | HIF_FN_STATUS
  | HIF_FN_ERR | HIF_FN_VEC | HIF_FN_USE | HIF_FN_QUOTA | HIF_FN_WEIGHT | HIF_FN_MOD
  | RING_DB_ADDR | RING_ST_ADDR | RING_BASE | RING_POLL | RING_CTRL | RING_ERR
  | STK_CLU_SVC | STK_CORE_CTL | STK_CORE_CFG | STK_RVEC | STK_SWI | STK_RST_INFO
  | STK_RST_PC | STK_RST_TIME | STK_CNT | MEM_LOCK | MEM_CFG | MEM_INIT
  | MEM_STATUS | MEM_THR | MEM_CNT | MEM_PROT_SEL | MEM_PROT_VIEW0 | MEM_PROT_VIEW1
  | MEM_SYM_CNT | SCR_START | SCR_END | SCR_DEST | SCR_CFG | SCR_CMD
  | SCR_PROG | TB_LOCK | TB_RATE | TB_NS | TB_FRAC | TB_STATUS
  | TB_STEP | TB_HWM | TB_WD_SEL | TB_WD_KICK | TB_WD_TRIAL | TB_WD_HANDLE
  | TB_WD_VIEW | TB_CNT | TB_CMP_VAL | TB_CMP_CFG | TB_CMP_RLD | TB_CMP_STAT
  | TB_TMR_CFG | TB_TMR_TGT | TB_TMR_PERIOD | TB_TMR_COUNT | TB_TMR_CTL | TB_WD_CORE
  | TB_WD_HOOP | BOOT_STATUS | BOOT_CONFIRM | BOOT_IMG_CMD | BOOT_IMG_ADDR | BOOT_IMG_ARG
  | BOOT_VER | BOOT_SVN | BOOT_TIME | BOOT_MEAS_CMD | BOOT_MEAS | BOOT_MEAS_DATA
  | PWR_LOCK | PWR_CTL | PWR_STATUS | PWR_PMB | PWR_MON | PWR_THERM
  | PWR_SMB | PWR_ADOZE | PWR_VSTEP | PWR_DVFS | PWR_REG | PWR_SUP
  | PWR_TEMP | PWR_VOLT | PWR_CNT | DBG_STATUS | DBG_AUTH_CMD | DBG_AUTH_STATUS
  | DBG_AUTH_CHAL | DBG_AUTH_RESP | DBG_FRZ | DBG_ACC_ADDR | DBG_ACC_DATA | DBG_ACC_CMD
  | DBG_CORE_CTL | DBG_CORE_STAT | DBG_REGSEL | DBG_REGDATA | DBG_INSN | DBG_BW_ADDR
  | DBG_BW_CTL | DBG_VT_TX | DBG_VT_RX | DBG_ENG_CTL | DBG_ENG_STAT | DBG_ENG_REGSEL
  | DBG_ENG_REGDATA | DBG_ENG_BP | TRC_CTL | TRC_FUN | TRC_STATUS | TRC_SINK_BASE
  | TRC_SINK_CFG | TRC_SINK_WPTR | TRC_BUFADDR | TRC_BUFDATA | TRC_ADDR_LO | TRC_ADDR_HI
  | TRC_CNT | TRC_SRC | CNT_CTL | CNT_CMD | CNT_DUMP_BASE | CNT_DUMP_CFG
  | CNT_STATUS | ERR_CTL | ERR_STATUS | ERR_LOG_SEL | ERR_LOG_CMD | ERR_RST
  | ERR_LOG | ERR_CNT
  deriving DecidableEq, Repr

/-- One register (or array of one or two indexes) of the map: offset of the first element, counts, strides and first indexes,
whether it is a quad, and its fields. -/
structure RegDesc where
  name : RegName
  off : Nat
  n1 : Nat
  s1 : Nat
  f1 : Nat
  n2 : Nat
  s2 : Nat
  f2 : Nat
  quad : Bool
  fields : List FieldDesc
  deriving DecidableEq, Repr

/-- MLE_CTRL [0:0] ENABLE, RW. -/
def MLE_CTRL_ENABLE : Fld := ⟨12582912, 1, 0⟩
/-- MLE_CTRL [31:16] UDP_PORT, RW. -/
def MLE_CTRL_UDP_PORT : Fld := ⟨12582928, 16, 51730⟩
/-- MLE_GRACE [15:0] MS, RW. -/
def MLE_GRACE_MS : Fld := ⟨12583040, 16, 2000⟩
/-- MLE_REKEY [3:0] TRIES, RW. -/
def MLE_REKEY_TRIES : Fld := ⟨12583168, 4, 8⟩
/-- MLE_REKEY [31:16] INTERVAL, RW. -/
def MLE_REKEY_INTERVAL : Fld := ⟨12583184, 16, 1000⟩
/-- MLE_SEQ_WARN [31:0] THRESHOLD, RW. -/
def MLE_SEQ_WARN_THRESHOLD : Fld := ⟨12583296, 32, 3221225472⟩
/-- MLE_AUTH_WARN [15:0] COUNT, RW. -/
def MLE_AUTH_WARN_COUNT : Fld := ⟨12583424, 16, 16⟩
/-- MLE_INV_UID [63:0] UID, RW. -/
def MLE_INV_UID_UID : Fld := ⟨12583936, 64, 0⟩
/-- MLE_INV_ENTRY [17:0] LIX, RW. -/
def MLE_INV_ENTRY_LIX : Fld := ⟨12584192, 18, 0⟩
/-- MLE_INV_ENTRY [23:18] OWNER, RW. -/
def MLE_INV_ENTRY_OWNER : Fld := ⟨12584210, 6, 0⟩
/-- MLE_INV_ENTRY [35:24] GW, RW. -/
def MLE_INV_ENTRY_GW : Fld := ⟨12584216, 12, 0⟩
/-- MLE_INV_ENTRY [37:36] STATE, RO. -/
def MLE_INV_ENTRY_STATE : Fld := ⟨12584228, 2, 0⟩
/-- MLE_INV_ENTRY [39:38] KEYS, RO. -/
def MLE_INV_ENTRY_KEYS : Fld := ⟨12584230, 2, 0⟩
/-- MLE_INV_ENTRY [40:40] GRACE, RO. -/
def MLE_INV_ENTRY_GRACE : Fld := ⟨12584232, 1, 0⟩
/-- MLE_INV_CMD [2:0] OP, WO. -/
def MLE_INV_CMD_OP : Fld := ⟨12584448, 3, 0⟩
/-- MLE_INV_STATUS [0:0] BUSY, RO. -/
def MLE_INV_STATUS_BUSY : Fld := ⟨12584576, 1, 0⟩
/-- MLE_INV_STATUS [7:4] RESULT, RO. -/
def MLE_INV_STATUS_RESULT : Fld := ⟨12584580, 4, 0⟩
/-- MLE_KEY_CMD [17:0] LIX, WO. -/
def MLE_KEY_CMD_LIX : Fld := ⟨12584960, 18, 0⟩
/-- MLE_KEY_CMD [20:18] OP, WO. -/
def MLE_KEY_CMD_OP : Fld := ⟨12584978, 3, 0⟩
/-- MLE_KEY_STATUS [0:0] BUSY, RO. -/
def MLE_KEY_STATUS_BUSY : Fld := ⟨12585088, 1, 0⟩
/-- MLE_KEY_STATUS [7:4] RESULT, RO. -/
def MLE_KEY_STATUS_RESULT : Fld := ⟨12585092, 4, 0⟩
/-- MLE_KEY_EPOCH [31:0] EPOCH, RW. -/
def MLE_KEY_EPOCH_EPOCH : Fld := ⟨12585216, 32, 0⟩
/-- MLE_KEY_DBLOB[i] [63:0] BYTES, RW. -/
def MLE_KEY_DBLOB_BYTES (i : Nat) : Fld := ⟨12585472 + 256 * i, 64, 0⟩
/-- MLE_KEY_LBLOB[i] [63:0] BYTES, RW. -/
def MLE_KEY_LBLOB_BYTES (i : Nat) : Fld := ⟨12586240 + 256 * i, 64, 0⟩
/-- MLE_GW_ADDR_HI [63:0] ADDR, RW. -/
def MLE_GW_ADDR_HI_ADDR : Fld := ⟨12587008, 64, 0⟩
/-- MLE_GW_ADDR_LO [63:0] ADDR, RW. -/
def MLE_GW_ADDR_LO_ADDR : Fld := ⟨12587264, 64, 0⟩
/-- MLE_GW_CFG [15:0] UDP_PORT, RW. -/
def MLE_GW_CFG_UDP_PORT : Fld := ⟨12587520, 16, 51730⟩
/-- MLE_GW_CFG [17:16] FP, RW. -/
def MLE_GW_CFG_FP : Fld := ⟨12587536, 2, 0⟩
/-- MLE_GW_CFG [18:18] VALID, RW. -/
def MLE_GW_CFG_VALID : Fld := ⟨12587538, 1, 0⟩
/-- MLE_GW_CMD [11:0] INDEX, WO. -/
def MLE_GW_CMD_INDEX : Fld := ⟨12587648, 12, 0⟩
/-- MLE_GW_CMD [30:30] READ, WO. -/
def MLE_GW_CMD_READ : Fld := ⟨12587678, 1, 0⟩
/-- MLE_GW_CMD [31:31] WRITE, WO. -/
def MLE_GW_CMD_WRITE : Fld := ⟨12587679, 1, 0⟩
/-- MLE_DROP_CNT[i] [47:0] COUNT, RC. -/
def MLE_DROP_CNT_COUNT (i : Nat) : Fld := ⟨12591104 + 256 * i, 48, 0⟩
/-- MLE_RX_CNT [47:0] COUNT, RC. -/
def MLE_RX_CNT_COUNT : Fld := ⟨12595200, 48, 0⟩
/-- MLE_TX_CNT [47:0] COUNT, RC. -/
def MLE_TX_CNT_COUNT : Fld := ⟨12595456, 48, 0⟩
/-- MLE_UNREG_OVF [47:0] COUNT, RC. -/
def MLE_UNREG_OVF_COUNT : Fld := ⟨12595712, 48, 0⟩
/-- MLE_TXDROP_CNT[i] [47:0] COUNT, RC. -/
def MLE_TXDROP_CNT_COUNT (i : Nat) : Fld := ⟨12596224 + 256 * i, 48, 0⟩
/-- FP_CFG[i] [0:0] MODE, RW. -/
def FP_CFG_MODE (i : Nat) : Fld := ⟨10485760 + 65536 * i, 1, 0⟩
/-- FP_CFG[i] [1:1] VLAN_EN, RW. -/
def FP_CFG_VLAN_EN (i : Nat) : Fld := ⟨10485761 + 65536 * i, 1, 0⟩
/-- FP_CFG[i] [15:4] VID, RW. -/
def FP_CFG_VID (i : Nat) : Fld := ⟨10485764 + 65536 * i, 12, 0⟩
/-- FP_SVC[i] [1:0] OP, WO. -/
def FP_SVC_OP (i : Nat) : Fld := ⟨10485888 + 65536 * i, 2, 0⟩
/-- FP_SVC[i] [5:4] STATE, RO. -/
def FP_SVC_STATE (i : Nat) : Fld := ⟨10485892 + 65536 * i, 2, 0⟩
/-- FP_SVC[i] [6:6] BUSY, RO. -/
def FP_SVC_BUSY (i : Nat) : Fld := ⟨10485894 + 65536 * i, 1, 0⟩
/-- FP_SVC[i] [31:16] HOLDOFF, RW. -/
def FP_SVC_HOLDOFF (i : Nat) : Fld := ⟨10485904 + 65536 * i, 16, 1000⟩
/-- FP_STATUS[i] [3:0] LINK_UP, RO. -/
def FP_STATUS_LINK_UP (i : Nat) : Fld := ⟨10486016 + 65536 * i, 4, 0⟩
/-- FP_STATUS[i] [7:4] BLOCK_LOCK, RO. -/
def FP_STATUS_BLOCK_LOCK (i : Nat) : Fld := ⟨10486020 + 65536 * i, 4, 0⟩
/-- FP_STATUS[i] [11:8] FEC_LOCK, RO. -/
def FP_STATUS_FEC_LOCK (i : Nat) : Fld := ⟨10486024 + 65536 * i, 4, 0⟩
/-- FP_STATUS[i] [12:12] AM_LOCK, RO. -/
def FP_STATUS_AM_LOCK (i : Nat) : Fld := ⟨10486028 + 65536 * i, 1, 0⟩
/-- FP_STATUS[i] [16:16] HIWAT, RO. -/
def FP_STATUS_HIWAT (i : Nat) : Fld := ⟨10486032 + 65536 * i, 1, 0⟩
/-- FP_STATUS[i] [30:20] LEVEL, RO. -/
def FP_STATUS_LEVEL (i : Nat) : Fld := ⟨10486036 + 65536 * i, 11, 0⟩
/-- FP_WAKE[i] [1:0] MODE, RW. -/
def FP_WAKE_MODE (i : Nat) : Fld := ⟨10486144 + 65536 * i, 2, 1⟩
/-- FP_WAKE[i] [5:4] CAUSE, RO. -/
def FP_WAKE_CAUSE (i : Nat) : Fld := ⟨10486148 + 65536 * i, 2, 0⟩
/-- FP_MAC[i] [47:0] ADDR, RW. -/
def FP_MAC_ADDR (i : Nat) : Fld := ⟨10486272 + 65536 * i, 48, 0⟩
/-- FP_IP6_HI[i] [63:0] ADDR, RW. -/
def FP_IP6_HI_ADDR (i : Nat) : Fld := ⟨10486528 + 65536 * i, 64, 0⟩
/-- FP_IP6_LO[i] [63:0] ADDR, RW. -/
def FP_IP6_LO_ADDR (i : Nat) : Fld := ⟨10486784 + 65536 * i, 64, 0⟩
/-- FP_TXCFG[i] [7:0] HOP, RW. -/
def FP_TXCFG_HOP (i : Nat) : Fld := ⟨10487040 + 65536 * i, 8, 64⟩
/-- FP_TXCFG[i] [15:8] TCLASS, RW. -/
def FP_TXCFG_TCLASS (i : Nat) : Fld := ⟨10487048 + 65536 * i, 8, 0⟩
/-- FP_TXCFG[i] [18:16] PCP, RW. -/
def FP_TXCFG_PCP (i : Nat) : Fld := ⟨10487056 + 65536 * i, 3, 0⟩
/-- FP_BUF[i] [3:0] HIWAT, RW. -/
def FP_BUF_HIWAT (i : Nat) : Fld := ⟨10487168 + 65536 * i, 4, 12⟩
/-- FP_BUF[i] [13:8] SLSHARE, RW. -/
def FP_BUF_SLSHARE (i : Nat) : Fld := ⟨10487176 + 65536 * i, 6, 4⟩
/-- FP_SLRATE[i] [15:0] RATE, RW. -/
def FP_SLRATE_RATE (i : Nat) : Fld := ⟨10487296 + 65536 * i, 16, 1000⟩
/-- FP_SLRATE[i] [31:16] BURST, RW. -/
def FP_SLRATE_BURST (i : Nat) : Fld := ⟨10487312 + 65536 * i, 16, 1024⟩
/-- FP_TS_ADJ[i] [15:0] RX, RW. -/
def FP_TS_ADJ_RX (i : Nat) : Fld := ⟨10487424 + 65536 * i, 16, 0⟩
/-- FP_TS_ADJ[i] [31:16] TX, RW. -/
def FP_TS_ADJ_TX (i : Nat) : Fld := ⟨10487440 + 65536 * i, 16, 0⟩
/-- FP_TXTS_TIME[i] [63:0] NS, RO. -/
def FP_TXTS_TIME_NS (i : Nat) : Fld := ⟨10487552 + 65536 * i, 64, 0⟩
/-- FP_TXTS_INFO[i] [0:0] VALID, RC. -/
def FP_TXTS_INFO_VALID (i : Nat) : Fld := ⟨10487808 + 65536 * i, 1, 0⟩
/-- FP_TXTS_INFO[i] [1:1] OVF, W1C. -/
def FP_TXTS_INFO_OVF (i : Nat) : Fld := ⟨10487809 + 65536 * i, 1, 0⟩
/-- FP_TXTS_INFO[i] [3:2] LINK, RO. -/
def FP_TXTS_INFO_LINK (i : Nat) : Fld := ⟨10487810 + 65536 * i, 2, 0⟩
/-- FP_TXTS_INFO[i] [15:8] FRAC, RO. -/
def FP_TXTS_INFO_FRAC (i : Nat) : Fld := ⟨10487816 + 65536 * i, 8, 0⟩
/-- FP_TXTS_INFO[i] [31:16] COOKIE, RO. -/
def FP_TXTS_INFO_COOKIE (i : Nat) : Fld := ⟨10487824 + 65536 * i, 16, 0⟩
/-- FP_LANE[i][j] [0:0] RXPOL, RW. -/
def FP_LANE_RXPOL (i : Nat) (j : Nat) : Fld := ⟨10489856 + 65536 * i + 128 * j, 1, 0⟩
/-- FP_LANE[i][j] [1:1] TXPOL, RW. -/
def FP_LANE_TXPOL (i : Nat) (j : Nat) : Fld := ⟨10489857 + 65536 * i + 128 * j, 1, 0⟩
/-- FP_LANE[i][j] [5:2] PRE, RW. -/
def FP_LANE_PRE (i : Nat) (j : Nat) : Fld := ⟨10489858 + 65536 * i + 128 * j, 4, 0⟩
/-- FP_LANE[i][j] [11:6] POST, RW. -/
def FP_LANE_POST (i : Nat) (j : Nat) : Fld := ⟨10489862 + 65536 * i + 128 * j, 6, 8⟩
/-- FP_LANE[i][j] [16:16] SIGNAL, RO. -/
def FP_LANE_SIGNAL (i : Nat) (j : Nat) : Fld := ⟨10489872 + 65536 * i + 128 * j, 1, 0⟩
/-- FP_LANE[i][j] [17:17] CDR_LOCK, RO. -/
def FP_LANE_CDR_LOCK (i : Nat) (j : Nat) : Fld := ⟨10489873 + 65536 * i + 128 * j, 1, 0⟩
/-- FP_LANE[i][j] [18:18] ADAPT_DONE, RO. -/
def FP_LANE_ADAPT_DONE (i : Nat) (j : Nat) : Fld := ⟨10489874 + 65536 * i + 128 * j, 1, 0⟩
/-- FP_CNT[i][j] [47:0] COUNT, RC. -/
def FP_CNT_COUNT (i : Nat) (j : Nat) : Fld := ⟨10493952 + 65536 * i + 256 * j, 48, 0⟩
/-- FP_RXDROP[i][j] [47:0] COUNT, RC. -/
def FP_RXDROP_COUNT (i : Nat) (j : Nat) : Fld := ⟨10498048 + 65536 * i + 256 * j, 48, 0⟩
/-- FP_TXDROP[i][j] [47:0] COUNT, RC. -/
def FP_TXDROP_COUNT (i : Nat) (j : Nat) : Fld := ⟨10502144 + 65536 * i + 256 * j, 48, 0⟩
/-- FP_LCNT[i][j] [47:0] COUNT, RC. -/
def FP_LCNT_COUNT (i : Nat) (j : Nat) : Fld := ⟨10518528 + 65536 * i + 256 * j, 48, 0⟩
/-- FP_NH_ENTRY [47:0] MAC, RW. -/
def FP_NH_ENTRY_MAC : Fld := ⟨10747904, 48, 0⟩
/-- FP_NH_ENTRY [49:48] LINK, RW. -/
def FP_NH_ENTRY_LINK : Fld := ⟨10747952, 2, 0⟩
/-- FP_NH_ENTRY [50:50] VALID, RW. -/
def FP_NH_ENTRY_VALID : Fld := ⟨10747954, 1, 0⟩
/-- FP_NH_CMD [11:0] INDEX, WO. -/
def FP_NH_CMD_INDEX : Fld := ⟨10748160, 12, 0⟩
/-- FP_NH_CMD [30:30] READ, WO. -/
def FP_NH_CMD_READ : Fld := ⟨10748190, 1, 0⟩
/-- FP_NH_CMD [31:31] WRITE, WO. -/
def FP_NH_CMD_WRITE : Fld := ⟨10748191, 1, 0⟩
/-- BSK_LOCK [0:0] LOCK, W1S. -/
def BSK_LOCK_LOCK : Fld := ⟨11534336, 1, 0⟩
/-- BSK_POOL [18:0] RSV7, RWL. -/
def BSK_POOL_RSV7 : Fld := ⟨11534464, 19, 2048⟩
/-- BSK_SCRUB [0:0] EN, RW. -/
def BSK_SCRUB_EN : Fld := ⟨11534592, 1, 1⟩
/-- BSK_SCRUB [23:8] PASS, RW. -/
def BSK_SCRUB_PASS : Fld := ⟨11534600, 16, 100⟩
/-- BSK_FREE [18:0] CELLS, RO. -/
def BSK_FREE_CELLS : Fld := ⟨11534720, 19, 393216⟩
/-- BSK_LT_BASE [43:0] ADDR, RWL. -/
def BSK_LT_BASE_ADDR : Fld := ⟨11534848, 44, 0⟩
/-- BSK_LT_CFG [6:0] SIZE, RWL. -/
def BSK_LT_CFG_SIZE : Fld := ⟨11535104, 7, 0⟩
/-- BSK_LT_FREE [24:0] BLOCKS, RO. -/
def BSK_LT_FREE_BLOCKS : Fld := ⟨11535232, 25, 0⟩
/-- BSK_Q_SEL [12:0] QUEUE, RW. -/
def BSK_Q_SEL_QUEUE : Fld := ⟨11535360, 13, 0⟩
/-- BSK_Q_CFG [0:0] ENABLE, RW. -/
def BSK_Q_CFG_ENABLE : Fld := ⟨11535616, 1, 0⟩
/-- BSK_Q_CFG [3:1] CLASS, RW. -/
def BSK_Q_CFG_CLASS : Fld := ⟨11535617, 3, 0⟩
/-- BSK_Q_CFG [9:4] OWNER, RW. -/
def BSK_Q_CFG_OWNER : Fld := ⟨11535620, 6, 0⟩
/-- BSK_Q_CFG [11:10] POLICY, RW. -/
def BSK_Q_CFG_POLICY : Fld := ⟨11535626, 2, 0⟩
/-- BSK_Q_CFG [34:16] ODQ, RW. -/
def BSK_Q_CFG_ODQ : Fld := ⟨11535632, 19, 0⟩
/-- BSK_Q_CFG [52:36] LTQ, RW. -/
def BSK_Q_CFG_LTQ : Fld := ⟨11535652, 17, 0⟩
/-- BSK_Q_STAT [18:0] HEAD, RO. -/
def BSK_Q_STAT_HEAD : Fld := ⟨11535872, 19, 0⟩
/-- BSK_Q_STAT [24:19] TAIL, RO. -/
def BSK_Q_STAT_TAIL : Fld := ⟨11535891, 6, 0⟩
/-- BSK_Q_STAT [25:25] SPILLED, RO. -/
def BSK_Q_STAT_SPILLED : Fld := ⟨11535897, 1, 0⟩
/-- BSK_Q_STAT [56:32] LOW, RO. -/
def BSK_Q_STAT_LOW : Fld := ⟨11535904, 25, 0⟩
/-- BSK_Q_CMD [2:0] OP, WO. -/
def BSK_Q_CMD_OP : Fld := ⟨11536128, 3, 0⟩
/-- BSK_Q_CMD [8:8] BUSY, RO. -/
def BSK_Q_CMD_BUSY : Fld := ⟨11536136, 1, 0⟩
/-- BSK_Q_CMD [15:12] RESULT, RO. -/
def BSK_Q_CMD_RESULT : Fld := ⟨11536140, 4, 0⟩
/-- BSK_Q_CNT[i] [47:0] COUNT, RO. -/
def BSK_Q_CNT_COUNT (i : Nat) : Fld := ⟨11536384 + 256 * i, 48, 0⟩
/-- BSK_SHARDQ [12:0] SHARD, RW. -/
def BSK_SHARDQ_SHARD : Fld := ⟨11537408, 13, 0⟩
/-- BSK_SHARDQ [28:16] QUEUE, RW. -/
def BSK_SHARDQ_QUEUE : Fld := ⟨11537424, 13, 0⟩
/-- BSK_SHARDQ [29:29] VALID, RW. -/
def BSK_SHARDQ_VALID : Fld := ⟨11537437, 1, 0⟩
/-- BSK_SHARDQ [30:30] READ, WO. -/
def BSK_SHARDQ_READ : Fld := ⟨11537438, 1, 0⟩
/-- BSK_SHARDQ [31:31] WRITE, WO. -/
def BSK_SHARDQ_WRITE : Fld := ⟨11537439, 1, 0⟩
/-- BSK_DROP_CNT[i] [47:0] COUNT, RC. -/
def BSK_DROP_CNT_COUNT (i : Nat) : Fld := ⟨11538432 + 256 * i, 48, 0⟩
/-- BSK_FN_USE[i] [18:0] OD, RO. -/
def BSK_FN_USE_OD (i : Nat) : Fld := ⟨11542528 + 256 * i, 19, 0⟩
/-- BSK_FN_USE[i] [56:32] LT, RO. -/
def BSK_FN_USE_LT (i : Nat) : Fld := ⟨11542560 + 256 * i, 25, 0⟩
/-- BSK_CNT[i] [47:0] COUNT, RC. -/
def BSK_CNT_COUNT (i : Nat) : Fld := ⟨11567104 + 256 * i, 48, 0⟩
/-- BSK_QA_CMD[i] [12:0] QUEUE, WO. -/
def BSK_QA_CMD_QUEUE (i : Nat) : Fld := ⟨11599872 + 1024 * i, 13, 0⟩
/-- BSK_QA_CMD[i] [17:16] OP, WO. -/
def BSK_QA_CMD_OP (i : Nat) : Fld := ⟨11599888 + 1024 * i, 2, 0⟩
/-- BSK_QA_CMD[i] [31:20] LEN, WO. -/
def BSK_QA_CMD_LEN (i : Nat) : Fld := ⟨11599892 + 1024 * i, 12, 0⟩
/-- BSK_QA_ADDR[i] [43:0] ADDR, RW. -/
def BSK_QA_ADDR_ADDR (i : Nat) : Fld := ⟨11600128 + 1024 * i, 44, 0⟩
/-- BSK_QA_STATUS[i] [0:0] BUSY, RO. -/
def BSK_QA_STATUS_BUSY (i : Nat) : Fld := ⟨11600384 + 1024 * i, 1, 0⟩
/-- BSK_QA_STATUS[i] [7:4] RESULT, RO. -/
def BSK_QA_STATUS_RESULT (i : Nat) : Fld := ⟨11600388 + 1024 * i, 4, 0⟩
/-- BSK_QA_STATUS[i] [11:8] REASON, RO. -/
def BSK_QA_STATUS_REASON (i : Nat) : Fld := ⟨11600392 + 1024 * i, 4, 0⟩
/-- BSK_QA_STATUS[i] [23:12] ELEN, RO. -/
def BSK_QA_STATUS_ELEN (i : Nat) : Fld := ⟨11600396 + 1024 * i, 12, 0⟩
/-- WV_TIMEOUT [4:0] EXP, RW. -/
def WV_TIMEOUT_EXP : Fld := ⟨12681216, 5, 16⟩
/-- WV_CRED_SEL [6:0] PRODUCER, RW. -/
def WV_CRED_SEL_PRODUCER : Fld := ⟨12681344, 7, 0⟩
/-- WV_CRED_SEL [13:8] GROUP, RW. -/
def WV_CRED_SEL_GROUP : Fld := ⟨12681352, 6, 0⟩
/-- WV_CRED_VIEW [7:0] ALLOT, RO. -/
def WV_CRED_VIEW_ALLOT : Fld := ⟨12681472, 8, 0⟩
/-- WV_CRED_VIEW [15:8] HELD, RO. -/
def WV_CRED_VIEW_HELD : Fld := ⟨12681480, 8, 0⟩
/-- WV_CRED_VIEW [16:16] RESERVED, RO. -/
def WV_CRED_VIEW_RESERVED : Fld := ⟨12681488, 1, 0⟩
/-- WV_STALL[i] [47:0] COUNT, RC. -/
def WV_STALL_COUNT (i : Nat) : Fld := ⟨12682240 + 256 * i, 48, 0⟩
/-- HOOP_LOCK [0:0] LOCK, W1S. -/
def HOOP_LOCK_LOCK : Fld := ⟨11796480, 1, 0⟩
/-- HOOP_LS_BASE [43:0] ADDR, RWL. -/
def HOOP_LS_BASE_ADDR : Fld := ⟨11796736, 44, 0⟩
/-- HOOP_CFG [7:0] DPOLL, RW. -/
def HOOP_CFG_DPOLL : Fld := ⟨11796992, 8, 16⟩
/-- HOOP_CFG [11:8] WBACK, RW. -/
def HOOP_CFG_WBACK : Fld := ⟨11797000, 4, 1⟩
/-- HOOP_CFG [23:16] MIGTO, RW. -/
def HOOP_CFG_MIGTO : Fld := ⟨11797008, 8, 10⟩
/-- HOOP_TRK [23:0] I8MIN, RW. -/
def HOOP_TRK_I8MIN : Fld := ⟨11797248, 24, 196608⟩
/-- HOOP_TRK [33:24] HAMMAX, RW. -/
def HOOP_TRK_HAMMAX : Fld := ⟨11797272, 10, 128⟩
/-- HOOP_TRK [39:36] WIN, RW. -/
def HOOP_TRK_WIN : Fld := ⟨11797284, 4, 4⟩
/-- HOOP_TRK [55:40] WINMIN, RW. -/
def HOOP_TRK_WINMIN : Fld := ⟨11797288, 16, 500⟩
/-- HOOP_CUST [15:0] BUDGET, RW. -/
def HOOP_CUST_BUDGET : Fld := ⟨11797504, 16, 4096⟩
/-- HOOP_CUST [23:16] STRIKES, RW. -/
def HOOP_CUST_STRIKES : Fld := ⟨11797520, 8, 16⟩
/-- HOOP_SHARD [12:0] SHARD, RW. -/
def HOOP_SHARD_SHARD : Fld := ⟨11797632, 13, 0⟩
/-- HOOP_SHARD [20:16] HOOP, RW. -/
def HOOP_SHARD_HOOP : Fld := ⟨11797648, 5, 0⟩
/-- HOOP_SHARD [23:22] STATE, RO. -/
def HOOP_SHARD_STATE : Fld := ⟨11797654, 2, 0⟩
/-- HOOP_SHARD [24:24] REFUSED, RO. -/
def HOOP_SHARD_REFUSED : Fld := ⟨11797656, 1, 0⟩
/-- HOOP_SHARD [30:30] READ, WO. -/
def HOOP_SHARD_READ : Fld := ⟨11797662, 1, 0⟩
/-- HOOP_SHARD [31:31] WRITE, WO. -/
def HOOP_SHARD_WRITE : Fld := ⟨11797663, 1, 0⟩
/-- HOOP_MIG_ARG [12:0] QUEUE, RW. -/
def HOOP_MIG_ARG_QUEUE : Fld := ⟨11797760, 13, 0⟩
/-- HOOP_MIG_ARG [28:16] SHARD, RW. -/
def HOOP_MIG_ARG_SHARD : Fld := ⟨11797776, 13, 0⟩
/-- HOOP_MIG_ARG [36:32] DHOOP, RW. -/
def HOOP_MIG_ARG_DHOOP : Fld := ⟨11797792, 5, 0⟩
/-- HOOP_MIG_ARG [60:48] DQUEUE, RW. -/
def HOOP_MIG_ARG_DQUEUE : Fld := ⟨11797808, 13, 0⟩
/-- HOOP_MIG_CMD [2:0] OP, WO. -/
def HOOP_MIG_CMD_OP : Fld := ⟨11798016, 3, 0⟩
/-- HOOP_MIG_STATUS [0:0] BUSY, RO. -/
def HOOP_MIG_STATUS_BUSY : Fld := ⟨11798144, 1, 0⟩
/-- HOOP_MIG_STATUS [7:4] RESULT, RO. -/
def HOOP_MIG_STATUS_RESULT : Fld := ⟨11798148, 4, 0⟩
/-- HOOP_MIG_STATUS [9:8] PHASE, RO. -/
def HOOP_MIG_STATUS_PHASE : Fld := ⟨11798152, 2, 0⟩
/-- HOOP_MIG_STATUS [12:10] MARKS, RO. -/
def HOOP_MIG_STATUS_MARKS : Fld := ⟨11798154, 3, 0⟩
/-- HOOP_MIG_STATUS [31:16] MIGNO, RO. -/
def HOOP_MIG_STATUS_MIGNO : Fld := ⟨11798160, 16, 0⟩
/-- HOOP_SVC[i] [1:0] OP, WO. -/
def HOOP_SVC_OP (i : Nat) : Fld := ⟨11800576 + 128 * i, 2, 0⟩
/-- HOOP_SVC[i] [5:4] STATE, RO. -/
def HOOP_SVC_STATE (i : Nat) : Fld := ⟨11800580 + 128 * i, 2, 0⟩
/-- HOOP_SVC[i] [6:6] BUSY, RO. -/
def HOOP_SVC_BUSY (i : Nat) : Fld := ⟨11800582 + 128 * i, 1, 0⟩
/-- HOOP_SVC[i] [21:8] NSHARD, RO. -/
def HOOP_SVC_NSHARD (i : Nat) : Fld := ⟨11800584 + 128 * i, 14, 0⟩
/-- HOOP_SVC[i] [25:24] CAUSE, RO. -/
def HOOP_SVC_CAUSE (i : Nat) : Fld := ⟨11800600 + 128 * i, 2, 0⟩
/-- HOOP_CNT[i][j] [47:0] COUNT, RC. -/
def HOOP_CNT_COUNT (i : Nat) (j : Nat) : Fld := ⟨11812864 + 4096 * i + 256 * j, 48, 0⟩
/-- PAIR_CNT[i][j] [47:0] COUNT, RC. -/
def PAIR_CNT_COUNT (i : Nat) (j : Nat) : Fld := ⟨12058624 + 4096 * i + 256 * j, 48, 0⟩
/-- RFX_CTRL [0:0] EN, RW. -/
def RFX_CTRL_EN : Fld := ⟨12615680, 1, 1⟩
/-- RFX_CTRL [15:8] VMIN, RW. -/
def RFX_CTRL_VMIN : Fld := ⟨12615688, 8, 4⟩
/-- RFX_CTRL [31:16] MAXAGE, RW. -/
def RFX_CTRL_MAXAGE : Fld := ⟨12615696, 16, 500⟩
/-- RFX_LAT [7:0] MAX, RC. -/
def RFX_LAT_MAX : Fld := ⟨12615808, 8, 0⟩
/-- RFX_LAT [15:8] LAST, RO. -/
def RFX_LAT_LAST : Fld := ⟨12615816, 8, 0⟩
/-- RFX_ENT[i] [63:0] QUAD, RW. -/
def RFX_ENT_QUAD (i : Nat) : Fld := ⟨12616704 + 256 * i, 64, 0⟩
/-- RFX_TBL_CMD [17:0] LIX, WO. -/
def RFX_TBL_CMD_LIX : Fld := ⟨12618752, 18, 0⟩
/-- RFX_TBL_CMD [19:18] OP, WO. -/
def RFX_TBL_CMD_OP : Fld := ⟨12618770, 2, 0⟩
/-- RFX_TBL_STATUS [0:0] BUSY, RO. -/
def RFX_TBL_STATUS_BUSY : Fld := ⟨12618880, 1, 0⟩
/-- RFX_TBL_STATUS [7:4] RESULT, RO. -/
def RFX_TBL_STATUS_RESULT : Fld := ⟨12618884, 4, 0⟩
/-- RFX_CRV[i] [63:0] QUAD, RW. -/
def RFX_CRV_QUAD (i : Nat) : Fld := ⟨12619776 + 256 * i, 64, 0⟩
/-- RFX_CRV_CMD [7:0] CURVE, WO. -/
def RFX_CRV_CMD_CURVE : Fld := ⟨12621056, 8, 0⟩
/-- RFX_CRV_CMD [9:8] OP, WO. -/
def RFX_CRV_CMD_OP : Fld := ⟨12621064, 2, 0⟩
/-- RFX_CRV_STATUS [0:0] BUSY, RO. -/
def RFX_CRV_STATUS_BUSY : Fld := ⟨12621184, 1, 0⟩
/-- RFX_CRV_STATUS [7:4] RESULT, RO. -/
def RFX_CRV_STATUS_RESULT : Fld := ⟨12621188, 4, 0⟩
/-- RFX_CNT[i] [47:0] COUNT, RC. -/
def RFX_CNT_COUNT (i : Nat) : Fld := ⟨12623872 + 256 * i, 48, 0⟩
/-- ORD_CFG [9:0] LEAD, RW. -/
def ORD_CFG_LEAD : Fld := ⟨12599296, 10, 500⟩
/-- ORD_CFG [13:12] ACKMODE, RW. -/
def ORD_CFG_ACKMODE : Fld := ⟨12599308, 2, 1⟩
/-- ORD_CFG [25:16] REFRESH, RW. -/
def ORD_CFG_REFRESH : Fld := ⟨12599312, 10, 300⟩
/-- ORD_EGR [15:0] BUDGET, RW. -/
def ORD_EGR_BUDGET : Fld := ⟨12599424, 16, 32768⟩
/-- ORD_EGR [23:16] ACKTO, RW. -/
def ORD_EGR_ACKTO : Fld := ⟨12599440, 8, 50⟩
/-- ORD_EGR [27:24] RETRY, RW. -/
def ORD_EGR_RETRY : Fld := ⟨12599448, 4, 3⟩
/-- ORD_STAT [31:0] SLOT, RO. -/
def ORD_STAT_SLOT : Fld := ⟨12599552, 32, 0⟩
/-- ORD_STAT [47:32] SWEEP, RO. -/
def ORD_STAT_SWEEP : Fld := ⟨12599584, 16, 0⟩
/-- ORD_STAT [63:48] DEFER, RO. -/
def ORD_STAT_DEFER : Fld := ⟨12599600, 16, 0⟩
/-- ORD_HOLD [15:0] HTIME, RW. -/
def ORD_HOLD_HTIME : Fld := ⟨12599808, 16, 900⟩
/-- ORD_TBL_SEL [2:0] TABLE, RW. -/
def ORD_TBL_SEL_TABLE : Fld := ⟨12599936, 3, 0⟩
/-- ORD_TBL_SEL [21:4] INDEX, RW. -/
def ORD_TBL_SEL_INDEX : Fld := ⟨12599940, 18, 0⟩
/-- ORD_TBL_CMD [1:0] OP, WO. -/
def ORD_TBL_CMD_OP : Fld := ⟨12600064, 2, 0⟩
/-- ORD_TBL_CMD [8:8] BUSY, RO. -/
def ORD_TBL_CMD_BUSY : Fld := ⟨12600072, 1, 0⟩
/-- ORD_TBL_CMD [15:12] RESULT, RO. -/
def ORD_TBL_CMD_RESULT : Fld := ⟨12600076, 4, 0⟩
/-- ORD_DATA[i] [63:0] QUAD, RW. -/
def ORD_DATA_QUAD (i : Nat) : Fld := ⟨12600320 + 256 * i, 64, 0⟩
/-- ORD_CNT[i] [47:0] COUNT, RC. -/
def ORD_CNT_COUNT (i : Nat) : Fld := ⟨12607488 + 256 * i, 48, 0⟩
/-- LDG_LOCK [0:0] LOCK, W1S. -/
def LDG_LOCK_LOCK : Fld := ⟨12451840, 1, 0⟩
/-- LDG_BASE [43:0] ADDR, RWL. -/
def LDG_BASE_ADDR : Fld := ⟨12452096, 44, 0⟩
/-- LDG_CFG [0:0] EN, RW. -/
def LDG_CFG_EN : Fld := ⟨12452352, 1, 1⟩
/-- LDG_CFG [18:8] EPERIOD, RW. -/
def LDG_CFG_EPERIOD : Fld := ⟨12452360, 11, 15⟩
/-- LDG_TBL_SEL [1:0] TABLE, RW. -/
def LDG_TBL_SEL_TABLE : Fld := ⟨12452480, 2, 0⟩
/-- LDG_TBL_SEL [21:4] INDEX, RW. -/
def LDG_TBL_SEL_INDEX : Fld := ⟨12452484, 18, 0⟩
/-- LDG_TBL_CMD [1:0] OP, WO. -/
def LDG_TBL_CMD_OP : Fld := ⟨12452608, 2, 0⟩
/-- LDG_TBL_CMD [8:8] BUSY, RO. -/
def LDG_TBL_CMD_BUSY : Fld := ⟨12452616, 1, 0⟩
/-- LDG_TBL_CMD [15:12] RESULT, RO. -/
def LDG_TBL_CMD_RESULT : Fld := ⟨12452620, 4, 0⟩
/-- LDG_DATA[i] [63:0] QUAD, RW. -/
def LDG_DATA_QUAD (i : Nat) : Fld := ⟨12455936 + 256 * i, 64, 0⟩
/-- LDG_ETOT[i] [63:0] TOTAL, RO. -/
def LDG_ETOT_TOTAL (i : Nat) : Fld := ⟨12468224 + 256 * i, 64, 0⟩
/-- LDG_CNT[i] [47:0] COUNT, RC. -/
def LDG_CNT_COUNT (i : Nat) : Fld := ⟨12484608 + 256 * i, 48, 0⟩
/-- RIM_LOCK [0:0] LOCK, W1S. -/
def RIM_LOCK_LOCK : Fld := ⟨12386304, 1, 0⟩
/-- RIM_CFG [5:0] DEVNO, RWL. -/
def RIM_CFG_DEVNO : Fld := ⟨12386432, 6, 0⟩
/-- RIM_CFG [6:6] DVALID, RWL. -/
def RIM_CFG_DVALID : Fld := ⟨12386438, 1, 0⟩
/-- RIM_CFG [15:8] CREF, RW. -/
def RIM_CFG_CREF : Fld := ⟨12386440, 8, 10⟩
/-- RIM_INSTALL [31:0] ID, RWL. -/
def RIM_INSTALL_ID : Fld := ⟨12386560, 32, 0⟩
/-- RIM_BSET [17:0] LIX, RW. -/
def RIM_BSET_LIX : Fld := ⟨12386688, 18, 0⟩
/-- RIM_BSET [24:24] BIT, RW. -/
def RIM_BSET_BIT : Fld := ⟨12386712, 1, 0⟩
/-- RIM_BSET [30:30] READ, WO. -/
def RIM_BSET_READ : Fld := ⟨12386718, 1, 0⟩
/-- RIM_BSET [31:31] WRITE, WO. -/
def RIM_BSET_WRITE : Fld := ⟨12386719, 1, 0⟩
/-- RIM_CTAB [12:0] USED, RO. -/
def RIM_CTAB_USED : Fld := ⟨12386816, 13, 0⟩
/-- RIM_GCNT[i] [47:0] COUNT, RC. -/
def RIM_GCNT_COUNT (i : Nat) : Fld := ⟨12387328 + 256 * i, 48, 0⟩
/-- RIM_LCFG[i] [5:0] NBR, RW. -/
def RIM_LCFG_NBR (i : Nat) : Fld := ⟨12402688 + 8192 * i, 6, 0⟩
/-- RIM_LCFG[i] [6:6] NBRV, RW. -/
def RIM_LCFG_NBRV (i : Nat) : Fld := ⟨12402694 + 8192 * i, 1, 0⟩
/-- RIM_LCFG[i] [31:16] HOLDOFF, RW. -/
def RIM_LCFG_HOLDOFF (i : Nat) : Fld := ⟨12402704 + 8192 * i, 16, 1000⟩
/-- RIM_SVC[i] [1:0] OP, WO. -/
def RIM_SVC_OP (i : Nat) : Fld := ⟨12402816 + 8192 * i, 2, 0⟩
/-- RIM_SVC[i] [5:4] STATE, RO. -/
def RIM_SVC_STATE (i : Nat) : Fld := ⟨12402820 + 8192 * i, 2, 0⟩
/-- RIM_SVC[i] [6:6] BUSY, RO. -/
def RIM_SVC_BUSY (i : Nat) : Fld := ⟨12402822 + 8192 * i, 1, 0⟩
/-- RIM_SVC[i] [9:8] IDERR, RO. -/
def RIM_SVC_IDERR (i : Nat) : Fld := ⟨12402824 + 8192 * i, 2, 0⟩
/-- RIM_STATUS[i] [3:0] BLOCK_LOCK, RO. -/
def RIM_STATUS_BLOCK_LOCK (i : Nat) : Fld := ⟨12402944 + 8192 * i, 4, 0⟩
/-- RIM_STATUS[i] [4:4] AM_LOCK, RO. -/
def RIM_STATUS_AM_LOCK (i : Nat) : Fld := ⟨12402948 + 8192 * i, 1, 0⟩
/-- RIM_STATUS[i] [5:5] FEC_LOCK, RO. -/
def RIM_STATUS_FEC_LOCK (i : Nat) : Fld := ⟨12402949 + 8192 * i, 1, 0⟩
/-- RIM_STATUS[i] [13:8] PEER, RO. -/
def RIM_STATUS_PEER (i : Nat) : Fld := ⟨12402952 + 8192 * i, 6, 0⟩
/-- RIM_STATUS[i] [14:14] PEERV, RO. -/
def RIM_STATUS_PEERV (i : Nat) : Fld := ⟨12402958 + 8192 * i, 1, 0⟩
/-- RIM_STATUS[i] [23:16] CRED_R, RO. -/
def RIM_STATUS_CRED_R (i : Nat) : Fld := ⟨12402960 + 8192 * i, 8, 0⟩
/-- RIM_STATUS[i] [31:24] CRED_H, RO. -/
def RIM_STATUS_CRED_H (i : Nat) : Fld := ⟨12402968 + 8192 * i, 8, 0⟩
/-- RIM_LANE[i][j] [0:0] RXPOL, RW. -/
def RIM_LANE_RXPOL (i : Nat) (j : Nat) : Fld := ⟨12403200 + 8192 * i + 128 * j, 1, 0⟩
/-- RIM_LANE[i][j] [1:1] TXPOL, RW. -/
def RIM_LANE_TXPOL (i : Nat) (j : Nat) : Fld := ⟨12403201 + 8192 * i + 128 * j, 1, 0⟩
/-- RIM_LANE[i][j] [5:2] PRE, RW. -/
def RIM_LANE_PRE (i : Nat) (j : Nat) : Fld := ⟨12403202 + 8192 * i + 128 * j, 4, 0⟩
/-- RIM_LANE[i][j] [11:6] POST, RW. -/
def RIM_LANE_POST (i : Nat) (j : Nat) : Fld := ⟨12403206 + 8192 * i + 128 * j, 6, 8⟩
/-- RIM_LANE[i][j] [16:16] SIGNAL, RO. -/
def RIM_LANE_SIGNAL (i : Nat) (j : Nat) : Fld := ⟨12403216 + 8192 * i + 128 * j, 1, 0⟩
/-- RIM_LANE[i][j] [17:17] CDR_LOCK, RO. -/
def RIM_LANE_CDR_LOCK (i : Nat) (j : Nat) : Fld := ⟨12403217 + 8192 * i + 128 * j, 1, 0⟩
/-- RIM_LANE[i][j] [18:18] ADAPT_DONE, RO. -/
def RIM_LANE_ADAPT_DONE (i : Nat) (j : Nat) : Fld := ⟨12403218 + 8192 * i + 128 * j, 1, 0⟩
/-- RIM_CNT[i][j] [47:0] COUNT, RC. -/
def RIM_CNT_COUNT (i : Nat) (j : Nat) : Fld := ⟨12404736 + 8192 * i + 256 * j, 48, 0⟩
/-- HIF_LOCK [0:0] LOCK, W1S. -/
def HIF_LOCK_LOCK : Fld := ⟨0, 1, 0⟩
/-- HIF_STATUS [0:0] LINK_UP, RO. -/
def HIF_STATUS_LINK_UP : Fld := ⟨128, 1, 0⟩
/-- HIF_STATUS [3:1] SPEED, RO. -/
def HIF_STATUS_SPEED : Fld := ⟨129, 3, 0⟩
/-- HIF_STATUS [7:4] WIDTH, RO. -/
def HIF_STATUS_WIDTH : Fld := ⟨132, 4, 0⟩
/-- HIF_STATUS [8:8] ISLAND, RO. -/
def HIF_STATUS_ISLAND : Fld := ⟨136, 1, 0⟩
/-- HIF_STATUS [9:9] VFE, RO. -/
def HIF_STATUS_VFE : Fld := ⟨137, 1, 0⟩
/-- HIF_STATUS [15:10] NUMVF, RO. -/
def HIF_STATUS_NUMVF : Fld := ⟨138, 6, 0⟩
/-- HIF_CFG [2:0] MAXSPEED, RWL. -/
def HIF_CFG_MAXSPEED : Fld := ⟨256, 3, 5⟩
/-- HIF_CFG [3:3] RO_EN, RW. -/
def HIF_CFG_RO_EN : Fld := ⟨259, 1, 1⟩
/-- HIF_CFG [4:4] B2EN, RWL. -/
def HIF_CFG_B2EN : Fld := ⟨260, 1, 0⟩
/-- HIF_BAR2_BASE [43:0] ADDR, RWL. -/
def HIF_BAR2_BASE_ADDR : Fld := ⟨512, 44, 0⟩
/-- HIF_ISL_TIME [63:0] TIME, RO. -/
def HIF_ISL_TIME_TIME : Fld := ⟨768, 64, 0⟩
/-- HIF_ISL_INFO [1:0] CAUSE, RO. -/
def HIF_ISL_INFO_CAUSE : Fld := ⟨1024, 2, 0⟩
/-- HIF_ISL_INFO [31:16] COUNT, RO. -/
def HIF_ISL_INFO_COUNT : Fld := ⟨1040, 16, 0⟩
/-- HIF_QOS_SHARE[f] [7:0] DMAW, RW. -/
def HIF_QOS_SHARE_DMAW (f : Nat) : Fld := ⟨16384 + 128 * f, 8, 16⟩
/-- HIF_QOS_SHARE[f] [15:8] STRW, RW. -/
def HIF_QOS_SHARE_STRW (f : Nat) : Fld := ⟨16392 + 128 * f, 8, 16⟩
/-- HIF_QOS_SHARE[f] [31:16] MODMIN, RW. -/
def HIF_QOS_SHARE_MODMIN (f : Nat) : Fld := ⟨16400 + 128 * f, 16, 0⟩
/-- HIF_QOS_CELLS[f] [18:0] CELLS, RW. -/
def HIF_QOS_CELLS_CELLS (f : Nat) : Fld := ⟨24576 + 128 * f, 19, (if f = 0 then 393216 else 8192)⟩
/-- HIF_QOS_LT[f] [16:0] MIB, RW. -/
def HIF_QOS_LT_MIB (f : Nat) : Fld := ⟨32768 + 128 * f, 17, (if f = 0 then 65536 else 0)⟩
/-- HIF_CNT[f] [47:0] COUNT, RC. -/
def HIF_CNT_COUNT (f : Nat) : Fld := ⟨49152 + 256 * f, 48, 0⟩
/-- HIF_FN_ID[f] [5:0] FN, RO. -/
def HIF_FN_ID_FN (f : Nat) : Fld := ⟨4194304 + 8192 * f, 6, 0⟩
/-- HIF_FN_ID[f] [6:6] PF, RO. -/
def HIF_FN_ID_PF (f : Nat) : Fld := ⟨4194310 + 8192 * f, 1, 0⟩
/-- HIF_FN_ID[f] [13:8] DEVNO, RO. -/
def HIF_FN_ID_DEVNO (f : Nat) : Fld := ⟨4194312 + 8192 * f, 6, 0⟩
/-- HIF_FN_ID[f] [14:14] DVALID, RO. -/
def HIF_FN_ID_DVALID (f : Nat) : Fld := ⟨4194318 + 8192 * f, 1, 0⟩
/-- HIF_FN_STATUS[f] [1:0] STATE, RO. -/
def HIF_FN_STATUS_STATE (f : Nat) : Fld := ⟨4194432 + 8192 * f, 2, 0⟩
/-- HIF_FN_STATUS[f] [15:8] GEN, RO. -/
def HIF_FN_STATUS_GEN (f : Nat) : Fld := ⟨4194440 + 8192 * f, 8, 0⟩
/-- HIF_FN_STATUS[f] [22:16] READS, RO. -/
def HIF_FN_STATUS_READS (f : Nat) : Fld := ⟨4194448 + 8192 * f, 7, 0⟩
/-- HIF_FN_STATUS[f] [31:23] KEPT, RO. -/
def HIF_FN_STATUS_KEPT (f : Nat) : Fld := ⟨4194455 + 8192 * f, 9, 0⟩
/-- HIF_FN_ERR[f] [0:0] UR, W1C. -/
def HIF_FN_ERR_UR (f : Nat) : Fld := ⟨4194560 + 8192 * f, 1, 0⟩
/-- HIF_FN_ERR[f] [1:1] CA, W1C. -/
def HIF_FN_ERR_CA (f : Nat) : Fld := ⟨4194561 + 8192 * f, 1, 0⟩
/-- HIF_FN_ERR[f] [2:2] CTO, W1C. -/
def HIF_FN_ERR_CTO (f : Nat) : Fld := ⟨4194562 + 8192 * f, 1, 0⟩
/-- HIF_FN_ERR[f] [3:3] POISON, W1C. -/
def HIF_FN_ERR_POISON (f : Nat) : Fld := ⟨4194563 + 8192 * f, 1, 0⟩
/-- HIF_FN_ERR[f] [4:4] BMEOFF, W1C. -/
def HIF_FN_ERR_BMEOFF (f : Nat) : Fld := ⟨4194564 + 8192 * f, 1, 0⟩
/-- HIF_FN_VEC[f] [4:0] VEC0, RW. -/
def HIF_FN_VEC_VEC0 (f : Nat) : Fld := ⟨4194688 + 8192 * f, 5, 0⟩
/-- HIF_FN_VEC[f] [9:5] VEC1, RW. -/
def HIF_FN_VEC_VEC1 (f : Nat) : Fld := ⟨4194693 + 8192 * f, 5, 0⟩
/-- HIF_FN_VEC[f] [14:10] VEC2, RW. -/
def HIF_FN_VEC_VEC2 (f : Nat) : Fld := ⟨4194698 + 8192 * f, 5, 0⟩
/-- HIF_FN_VEC[f] [19:15] VEC3, RW. -/
def HIF_FN_VEC_VEC3 (f : Nat) : Fld := ⟨4194703 + 8192 * f, 5, 0⟩
/-- HIF_FN_VEC[f] [24:20] VEC4, RW. -/
def HIF_FN_VEC_VEC4 (f : Nat) : Fld := ⟨4194708 + 8192 * f, 5, 0⟩
/-- HIF_FN_VEC[f] [29:25] VEC5, RW. -/
def HIF_FN_VEC_VEC5 (f : Nat) : Fld := ⟨4194713 + 8192 * f, 5, 0⟩
/-- HIF_FN_USE[f] [18:0] OD, RO. -/
def HIF_FN_USE_OD (f : Nat) : Fld := ⟨4194816 + 8192 * f, 19, 0⟩
/-- HIF_FN_USE[f] [56:32] LT, RO. -/
def HIF_FN_USE_LT (f : Nat) : Fld := ⟨4194848 + 8192 * f, 25, 0⟩
/-- HIF_FN_QUOTA[f] [18:0] CELLS, RO. -/
def HIF_FN_QUOTA_CELLS (f : Nat) : Fld := ⟨4195072 + 8192 * f, 19, 0⟩
/-- HIF_FN_QUOTA[f] [48:32] MIB, RO. -/
def HIF_FN_QUOTA_MIB (f : Nat) : Fld := ⟨4195104 + 8192 * f, 17, 0⟩
/-- HIF_FN_WEIGHT[f] [31:0] WEIGHT, RO. -/
def HIF_FN_WEIGHT_WEIGHT (f : Nat) : Fld := ⟨4195328 + 8192 * f, 32, 0⟩
/-- HIF_FN_MOD[f][j] [7:0] COUNT, RW. -/
def HIF_FN_MOD_COUNT (f : Nat) (j : Nat) : Fld := ⟨4195456 + 8192 * f + 128 * j, 8, 16⟩
/-- HIF_FN_MOD[f][j] [31:16] INTERVAL, RW. -/
def HIF_FN_MOD_INTERVAL (f : Nat) (j : Nat) : Fld := ⟨4195472 + 8192 * f + 128 * j, 16, 50⟩
/-- RING_DB_ADDR[f] [0:0] V, RW. -/
def RING_DB_ADDR_V (f : Nat) : Fld := ⟨4198400 + 8192 * f, 1, 0⟩
/-- RING_DB_ADDR[f] [63:6] ADDR, RW. -/
def RING_DB_ADDR_ADDR (f : Nat) : Fld := ⟨4198406 + 8192 * f, 58, 0⟩
/-- RING_ST_ADDR[f] [0:0] V, RW. -/
def RING_ST_ADDR_V (f : Nat) : Fld := ⟨4198656 + 8192 * f, 1, 0⟩
/-- RING_ST_ADDR[f] [63:6] ADDR, RW. -/
def RING_ST_ADDR_ADDR (f : Nat) : Fld := ⟨4198662 + 8192 * f, 58, 0⟩
/-- RING_BASE[f][j] [4:0] SIZE, RW. -/
def RING_BASE_SIZE (f : Nat) (j : Nat) : Fld := ⟨4198912 + 8192 * f + 256 * j, 5, 0⟩
/-- RING_BASE[f][j] [63:12] ADDR, RW. -/
def RING_BASE_ADDR (f : Nat) (j : Nat) : Fld := ⟨4198924 + 8192 * f + 256 * j, 52, 0⟩
/-- RING_POLL[f] [11:0] PMIN, RW. -/
def RING_POLL_PMIN (f : Nat) : Fld := ⟨4200448 + 8192 * f, 12, 4⟩
/-- RING_POLL[f] [23:12] PMAX, RW. -/
def RING_POLL_PMAX (f : Nat) : Fld := ⟨4200460 + 8192 * f, 12, 400⟩
/-- RING_CTRL[f] [5:0] EN, RW. -/
def RING_CTRL_EN (f : Nat) : Fld := ⟨4200576 + 8192 * f, 6, 0⟩
/-- RING_ERR[f] [5:0] ERR, W1C. -/
def RING_ERR_ERR (f : Nat) : Fld := ⟨4200704 + 8192 * f, 6, 0⟩
/-- RING_ERR[f] [10:8] RING, RO. -/
def RING_ERR_RING (f : Nat) : Fld := ⟨4200712 + 8192 * f, 3, 0⟩
/-- RING_ERR[f] [15:12] CODE, RO. -/
def RING_ERR_CODE (f : Nat) : Fld := ⟨4200716 + 8192 * f, 4, 0⟩
/-- RING_ERR[f] [31:16] INDEX, RO. -/
def RING_ERR_INDEX (f : Nat) : Fld := ⟨4200720 + 8192 * f, 16, 0⟩
/-- STK_CLU_SVC[i] [1:0] OP, WO. -/
def STK_CLU_SVC_OP (i : Nat) : Fld := ⟨11014144 + 128 * i, 2, 0⟩
/-- STK_CLU_SVC[i] [5:4] STATE, RO. -/
def STK_CLU_SVC_STATE (i : Nat) : Fld := ⟨11014148 + 128 * i, 2, 2⟩
/-- STK_CLU_SVC[i] [6:6] BUSY, RO. -/
def STK_CLU_SVC_BUSY (i : Nat) : Fld := ⟨11014150 + 128 * i, 1, 0⟩
/-- STK_CORE_CTL[i] [1:0] OP, WO. -/
def STK_CORE_CTL_OP (i : Nat) : Fld := ⟨11026432 + 2048 * i, 2, 0⟩
/-- STK_CORE_CTL[i] [5:4] STATE, RO. -/
def STK_CORE_CTL_STATE (i : Nat) : Fld := ⟨11026436 + 2048 * i, 2, 0⟩
/-- STK_CORE_CTL[i] [6:6] BUSY, RO. -/
def STK_CORE_CTL_BUSY (i : Nat) : Fld := ⟨11026438 + 2048 * i, 1, 0⟩
/-- STK_CORE_CFG[i] [0:0] AUTO, RW. -/
def STK_CORE_CFG_AUTO (i : Nat) : Fld := ⟨11026560 + 2048 * i, 1, 0⟩
/-- STK_RVEC[i] [43:0] ADDR, RW. -/
def STK_RVEC_ADDR (i : Nat) : Fld := ⟨11026688 + 2048 * i, 44, 0⟩
/-- STK_SWI[i] [7:0] SET, W1S. -/
def STK_SWI_SET (i : Nat) : Fld := ⟨11026944 + 2048 * i, 8, 0⟩
/-- STK_RST_INFO[i] [2:0] REASON, RO. -/
def STK_RST_INFO_REASON (i : Nat) : Fld := ⟨11027200 + 2048 * i, 3, 0⟩
/-- STK_RST_INFO[i] [15:8] CODE, RO. -/
def STK_RST_INFO_CODE (i : Nat) : Fld := ⟨11027208 + 2048 * i, 8, 0⟩
/-- STK_RST_INFO[i] [23:16] CODE1, RO. -/
def STK_RST_INFO_CODE1 (i : Nat) : Fld := ⟨11027216 + 2048 * i, 8, 0⟩
/-- STK_RST_INFO[i] [31:24] CODE2, RO. -/
def STK_RST_INFO_CODE2 (i : Nat) : Fld := ⟨11027224 + 2048 * i, 8, 0⟩
/-- STK_RST_INFO[i] [47:32] COUNT, RO. -/
def STK_RST_INFO_COUNT (i : Nat) : Fld := ⟨11027232 + 2048 * i, 16, 0⟩
/-- STK_RST_PC[i][j] [63:0] PC, RO. -/
def STK_RST_PC_PC (i : Nat) (j : Nat) : Fld := ⟨11027456 + 2048 * i + 256 * j, 64, 0⟩
/-- STK_RST_TIME[i] [63:0] TIME, RO. -/
def STK_RST_TIME_TIME (i : Nat) : Fld := ⟨11028224 + 2048 * i, 64, 0⟩
/-- STK_CNT[i][j] [47:0] COUNT, RC. -/
def STK_CNT_COUNT (i : Nat) (j : Nat) : Fld := ⟨11141120 + 1024 * i + 256 * j, 48, 0⟩
/-- MEM_LOCK [0:0] LOCK, W1S. -/
def MEM_LOCK_LOCK : Fld := ⟨11272192, 1, 0⟩
/-- MEM_CFG [1:0] DPC, RWL. -/
def MEM_CFG_DPC : Fld := ⟨11272320, 2, 1⟩
/-- MEM_CFG [3:2] RATE, RWL. -/
def MEM_CFG_RATE : Fld := ⟨11272322, 2, 2⟩
/-- MEM_INIT [1:0] OP, WO. -/
def MEM_INIT_OP : Fld := ⟨11272448, 2, 0⟩
/-- MEM_INIT [2:2] BUSY, RO. -/
def MEM_INIT_BUSY : Fld := ⟨11272450, 1, 0⟩
/-- MEM_INIT [7:4] RESULT, RO. -/
def MEM_INIT_RESULT : Fld := ⟨11272452, 4, 0⟩
/-- MEM_INIT [15:8] FAILCH, RO. -/
def MEM_INIT_FAILCH : Fld := ⟨11272456, 8, 0⟩
/-- MEM_INIT [18:16] STEP, RO. -/
def MEM_INIT_STEP : Fld := ⟨11272464, 3, 0⟩
/-- MEM_STATUS [0:0] READY, RO. -/
def MEM_STATUS_READY : Fld := ⟨11272576, 1, 0⟩
/-- MEM_STATUS [1:1] TRAINED, RO. -/
def MEM_STATUS_TRAINED : Fld := ⟨11272577, 1, 0⟩
/-- MEM_STATUS [3:2] SIZE, RO. -/
def MEM_STATUS_SIZE : Fld := ⟨11272578, 2, 0⟩
/-- MEM_THR [15:0] DEVTHR, RW. -/
def MEM_THR_DEVTHR : Fld := ⟨11272704, 16, 1024⟩
/-- MEM_CNT[i] [47:0] COUNT, RC. -/
def MEM_CNT_COUNT (i : Nat) : Fld := ⟨11273216 + 256 * i, 48, 0⟩
/-- MEM_PROT_SEL [2:0] INDEX, RW. -/
def MEM_PROT_SEL_INDEX : Fld := ⟨11276288, 3, 0⟩
/-- MEM_PROT_VIEW0 [43:0] BASE, RO. -/
def MEM_PROT_VIEW0_BASE : Fld := ⟨11276544, 44, 0⟩
/-- MEM_PROT_VIEW0 [63:63] ACTIVE, RO. -/
def MEM_PROT_VIEW0_ACTIVE : Fld := ⟨11276607, 1, 0⟩
/-- MEM_PROT_VIEW1 [43:0] LIMIT, RO. -/
def MEM_PROT_VIEW1_LIMIT : Fld := ⟨11276800, 44, 0⟩
/-- MEM_SYM_CNT[i][j] [47:0] COUNT, RC. -/
def MEM_SYM_CNT_COUNT (i : Nat) (j : Nat) : Fld := ⟨11403264 + 4096 * i + 256 * j, 48, 0⟩
/-- SCR_START [43:0] ADDR, RW. -/
def SCR_START_ADDR : Fld := ⟨12697600, 44, 0⟩
/-- SCR_END [43:0] ADDR, RW. -/
def SCR_END_ADDR : Fld := ⟨12697856, 44, 0⟩
/-- SCR_DEST [43:0] ADDR, RW. -/
def SCR_DEST_ADDR : Fld := ⟨12698112, 44, 0⟩
/-- SCR_CFG [7:0] RATE, RW. -/
def SCR_CFG_RATE : Fld := ⟨12698368, 8, 16⟩
/-- SCR_CMD [1:0] OP, WO. -/
def SCR_CMD_OP : Fld := ⟨12698496, 2, 0⟩
/-- SCR_CMD [8:8] BUSY, RO. -/
def SCR_CMD_BUSY : Fld := ⟨12698504, 1, 0⟩
/-- SCR_CMD [15:12] RESULT, RO. -/
def SCR_CMD_RESULT : Fld := ⟨12698508, 4, 0⟩
/-- SCR_PROG [43:0] NEXT, RO. -/
def SCR_PROG_NEXT : Fld := ⟨12698624, 44, 0⟩
/-- TB_LOCK [0:0] LOCK, W1S. -/
def TB_LOCK_LOCK : Fld := ⟨12189696, 1, 0⟩
/-- TB_RATE [31:0] RATE, RW. -/
def TB_RATE_RATE : Fld := ⟨12189824, 32, 0⟩
/-- TB_NS [63:0] NS, RO. -/
def TB_NS_NS : Fld := ⟨12189952, 64, 0⟩
/-- TB_FRAC [31:0] FRAC, RO. -/
def TB_FRAC_FRAC : Fld := ⟨12190208, 32, 0⟩
/-- TB_STATUS [0:0] STEPPEND, RO. -/
def TB_STATUS_STEPPEND : Fld := ⟨12190336, 1, 0⟩
/-- TB_STATUS [1:1] SUPPRESS, RO. -/
def TB_STATUS_SUPPRESS : Fld := ⟨12190337, 1, 0⟩
/-- TB_STEP [63:0] STEP, WO. -/
def TB_STEP_STEP : Fld := ⟨12190464, 64, 0⟩
/-- TB_HWM [63:0] HWM, RO. -/
def TB_HWM_HWM : Fld := ⟨12190720, 64, 0⟩
/-- TB_WD_SEL [1:0] CLASS, RW. -/
def TB_WD_SEL_CLASS : Fld := ⟨12191744, 2, 0⟩
/-- TB_WD_SEL [7:2] UNIT, RW. -/
def TB_WD_SEL_UNIT : Fld := ⟨12191746, 6, 0⟩
/-- TB_WD_KICK [1:0] CLASS, WO. -/
def TB_WD_KICK_CLASS : Fld := ⟨12192000, 2, 0⟩
/-- TB_WD_KICK [7:2] UNIT, WO. -/
def TB_WD_KICK_UNIT : Fld := ⟨12192002, 6, 0⟩
/-- TB_WD_KICK [31:16] KEY, WO. -/
def TB_WD_KICK_KEY : Fld := ⟨12192016, 16, 0⟩
/-- TB_WD_TRIAL [0:0] EN, RW. -/
def TB_WD_TRIAL_EN : Fld := ⟨12192128, 1, 0⟩
/-- TB_WD_TRIAL [1:1] FRZ, RW. -/
def TB_WD_TRIAL_FRZ : Fld := ⟨12192129, 1, 0⟩
/-- TB_WD_TRIAL [2:2] FROZEN, RO. -/
def TB_WD_TRIAL_FROZEN : Fld := ⟨12192130, 1, 0⟩
/-- TB_WD_TRIAL [3:3] EXPIRED, W1C. -/
def TB_WD_TRIAL_EXPIRED : Fld := ⟨12192131, 1, 0⟩
/-- TB_WD_TRIAL [31:8] TIMEOUT, RW. -/
def TB_WD_TRIAL_TIMEOUT : Fld := ⟨12192136, 24, 60000⟩
/-- TB_WD_HANDLE [0:0] EN, RWL. -/
def TB_WD_HANDLE_EN : Fld := ⟨12192256, 1, 0⟩
/-- TB_WD_HANDLE [1:1] FRZ, RW. -/
def TB_WD_HANDLE_FRZ : Fld := ⟨12192257, 1, 1⟩
/-- TB_WD_HANDLE [2:2] FROZEN, RO. -/
def TB_WD_HANDLE_FROZEN : Fld := ⟨12192258, 1, 0⟩
/-- TB_WD_HANDLE [3:3] EXPIRED, W1C. -/
def TB_WD_HANDLE_EXPIRED : Fld := ⟨12192259, 1, 0⟩
/-- TB_WD_HANDLE [31:8] TIMEOUT, RWL. -/
def TB_WD_HANDLE_TIMEOUT : Fld := ⟨12192264, 24, 1000⟩
/-- TB_WD_VIEW [34:0] REMAIN, RO. -/
def TB_WD_VIEW_REMAIN : Fld := ⟨12192512, 35, 0⟩
/-- TB_CNT[i] [47:0] COUNT, RC. -/
def TB_CNT_COUNT (i : Nat) : Fld := ⟨12193792 + 256 * i, 48, 0⟩
/-- TB_CMP_VAL[i] [63:0] VALUE, RW. -/
def TB_CMP_VAL_VALUE (i : Nat) : Fld := ⟨12206080 + 512 * i, 64, 0⟩
/-- TB_CMP_CFG[i] [0:0] ARM, RW. -/
def TB_CMP_CFG_ARM (i : Nat) : Fld := ⟨12206336 + 512 * i, 1, 0⟩
/-- TB_CMP_CFG[i] [3:1] TGT, RW. -/
def TB_CMP_CFG_TGT (i : Nat) : Fld := ⟨12206337 + 512 * i, 3, 0⟩
/-- TB_CMP_CFG[i] [31:8] ARG, RW. -/
def TB_CMP_CFG_ARG (i : Nat) : Fld := ⟨12206344 + 512 * i, 24, 0⟩
/-- TB_CMP_RLD[i] [31:0] RELOAD, RW. -/
def TB_CMP_RLD_RELOAD (i : Nat) : Fld := ⟨12206464 + 512 * i, 32, 0⟩
/-- TB_CMP_STAT[i] [0:0] FIRED, W1C. -/
def TB_CMP_STAT_FIRED (i : Nat) : Fld := ⟨12222464 + 128 * i, 1, 0⟩
/-- TB_CMP_STAT[i] [1:1] LATE, RO. -/
def TB_CMP_STAT_LATE (i : Nat) : Fld := ⟨12222465 + 128 * i, 1, 0⟩
/-- TB_CMP_STAT[i] [2:2] STEP, RO. -/
def TB_CMP_STAT_STEP (i : Nat) : Fld := ⟨12222466 + 128 * i, 1, 0⟩
/-- TB_CMP_STAT[i] [3:3] MISS, W1C. -/
def TB_CMP_STAT_MISS (i : Nat) : Fld := ⟨12222467 + 128 * i, 1, 0⟩
/-- TB_TMR_CFG[i] [1:0] CLK, RW. -/
def TB_TMR_CFG_CLK (i : Nat) : Fld := ⟨12238848 + 512 * i, 2, 0⟩
/-- TB_TMR_CFG[i] [2:2] GATEM, RW. -/
def TB_TMR_CFG_GATEM (i : Nat) : Fld := ⟨12238850 + 512 * i, 1, 0⟩
/-- TB_TMR_CFG[i] [3:3] RSTM, RW. -/
def TB_TMR_CFG_RSTM (i : Nat) : Fld := ⟨12238851 + 512 * i, 1, 0⟩
/-- TB_TMR_CFG[i] [7:4] MASTER, RW. -/
def TB_TMR_CFG_MASTER (i : Nat) : Fld := ⟨12238852 + 512 * i, 4, 0⟩
/-- TB_TMR_CFG[i] [8:8] ONESHOT, RW. -/
def TB_TMR_CFG_ONESHOT (i : Nat) : Fld := ⟨12238856 + 512 * i, 1, 0⟩
/-- TB_TMR_TGT[i] [2:0] TGT, RW. -/
def TB_TMR_TGT_TGT (i : Nat) : Fld := ⟨12238976 + 512 * i, 3, 0⟩
/-- TB_TMR_TGT[i] [31:8] ARG, RW. -/
def TB_TMR_TGT_ARG (i : Nat) : Fld := ⟨12238984 + 512 * i, 24, 0⟩
/-- TB_TMR_PERIOD[i] [31:0] PERIOD, RW. -/
def TB_TMR_PERIOD_PERIOD (i : Nat) : Fld := ⟨12239104 + 512 * i, 32, 1⟩
/-- TB_TMR_COUNT[i] [31:0] COUNT, RO. -/
def TB_TMR_COUNT_COUNT (i : Nat) : Fld := ⟨12239232 + 512 * i, 32, 0⟩
/-- TB_TMR_CTL[i] [1:0] OP, WO. -/
def TB_TMR_CTL_OP (i : Nat) : Fld := ⟨12247040 + 128 * i, 2, 0⟩
/-- TB_TMR_CTL[i] [4:4] RUN, RO. -/
def TB_TMR_CTL_RUN (i : Nat) : Fld := ⟨12247044 + 128 * i, 1, 0⟩
/-- TB_TMR_CTL[i] [5:5] SHORT, W1C. -/
def TB_TMR_CTL_SHORT (i : Nat) : Fld := ⟨12247045 + 128 * i, 1, 0⟩
/-- TB_TMR_CTL[i] [6:6] PEV, W1C. -/
def TB_TMR_CTL_PEV (i : Nat) : Fld := ⟨12247046 + 128 * i, 1, 0⟩
/-- TB_WD_CORE[i] [0:0] EN, RW. -/
def TB_WD_CORE_EN (i : Nat) : Fld := ⟨12255232 + 128 * i, 1, 0⟩
/-- TB_WD_CORE[i] [1:1] FRZ, RW. -/
def TB_WD_CORE_FRZ (i : Nat) : Fld := ⟨12255233 + 128 * i, 1, 1⟩
/-- TB_WD_CORE[i] [2:2] FROZEN, RO. -/
def TB_WD_CORE_FROZEN (i : Nat) : Fld := ⟨12255234 + 128 * i, 1, 0⟩
/-- TB_WD_CORE[i] [3:3] EXPIRED, W1C. -/
def TB_WD_CORE_EXPIRED (i : Nat) : Fld := ⟨12255235 + 128 * i, 1, 0⟩
/-- TB_WD_CORE[i] [31:8] TIMEOUT, RW. -/
def TB_WD_CORE_TIMEOUT (i : Nat) : Fld := ⟨12255240 + 128 * i, 24, 1000⟩
/-- TB_WD_HOOP[i] [0:0] EN, RW. -/
def TB_WD_HOOP_EN (i : Nat) : Fld := ⟨12263424 + 128 * i, 1, 0⟩
/-- TB_WD_HOOP[i] [1:1] FRZ, RW. -/
def TB_WD_HOOP_FRZ (i : Nat) : Fld := ⟨12263425 + 128 * i, 1, 1⟩
/-- TB_WD_HOOP[i] [2:2] FROZEN, RO. -/
def TB_WD_HOOP_FROZEN (i : Nat) : Fld := ⟨12263426 + 128 * i, 1, 0⟩
/-- TB_WD_HOOP[i] [3:3] EXPIRED, W1C. -/
def TB_WD_HOOP_EXPIRED (i : Nat) : Fld := ⟨12263427 + 128 * i, 1, 0⟩
/-- TB_WD_HOOP[i] [31:8] TIMEOUT, RW. -/
def TB_WD_HOOP_TIMEOUT (i : Nat) : Fld := ⟨12263432 + 128 * i, 24, 1000⟩
/-- BOOT_STATUS [3:0] STAGE, RO. -/
def BOOT_STATUS_STAGE : Fld := ⟨12664832, 4, 0⟩
/-- BOOT_STATUS [7:4] SLOT, RO. -/
def BOOT_STATUS_SLOT : Fld := ⟨12664836, 4, 0⟩
/-- BOOT_STATUS [8:8] FALLBACK_H, RO. -/
def BOOT_STATUS_FALLBACK_H : Fld := ⟨12664840, 1, 0⟩
/-- BOOT_STATUS [9:9] FALLBACK_S, RO. -/
def BOOT_STATUS_FALLBACK_S : Fld := ⟨12664841, 1, 0⟩
/-- BOOT_STATUS [10:10] BRLOST, RO. -/
def BOOT_STATUS_BRLOST : Fld := ⟨12664842, 1, 0⟩
/-- BOOT_STATUS [13:11] TRIAL, RO. -/
def BOOT_STATUS_TRIAL : Fld := ⟨12664843, 3, 0⟩
/-- BOOT_STATUS [15:14] NOFALL, RO. -/
def BOOT_STATUS_NOFALL : Fld := ⟨12664846, 2, 0⟩
/-- BOOT_STATUS [23:16] REASON, RO. -/
def BOOT_STATUS_REASON : Fld := ⟨12664848, 8, 0⟩
/-- BOOT_CONFIRM [2:0] KIND, WO. -/
def BOOT_CONFIRM_KIND : Fld := ⟨12664960, 3, 0⟩
/-- BOOT_CONFIRM [31:16] KEY, WO. -/
def BOOT_CONFIRM_KEY : Fld := ⟨12664976, 16, 0⟩
/-- BOOT_IMG_CMD [3:0] OP, WO. -/
def BOOT_IMG_CMD_OP : Fld := ⟨12665088, 4, 0⟩
/-- BOOT_IMG_CMD [8:8] BUSY, RO. -/
def BOOT_IMG_CMD_BUSY : Fld := ⟨12665096, 1, 0⟩
/-- BOOT_IMG_CMD [15:12] RESULT, RO. -/
def BOOT_IMG_CMD_RESULT : Fld := ⟨12665100, 4, 0⟩
/-- BOOT_IMG_CMD [23:16] REASON, RO. -/
def BOOT_IMG_CMD_REASON : Fld := ⟨12665104, 8, 0⟩
/-- BOOT_IMG_ADDR [43:0] ADDR, RW. -/
def BOOT_IMG_ADDR_ADDR : Fld := ⟨12665344, 44, 0⟩
/-- BOOT_IMG_ARG [31:0] LEN, RW. -/
def BOOT_IMG_ARG_LEN : Fld := ⟨12665600, 32, 0⟩
/-- BOOT_IMG_ARG [34:32] KIND, RW. -/
def BOOT_IMG_ARG_KIND : Fld := ⟨12665632, 3, 0⟩
/-- BOOT_IMG_ARG [35:35] SLOT, RW. -/
def BOOT_IMG_ARG_SLOT : Fld := ⟨12665635, 1, 0⟩
/-- BOOT_IMG_ARG [41:36] FUNC, RW. -/
def BOOT_IMG_ARG_FUNC : Fld := ⟨12665636, 6, 0⟩
/-- BOOT_IMG_ARG [44:42] PART, RW. -/
def BOOT_IMG_ARG_PART : Fld := ⟨12665642, 3, 0⟩
/-- BOOT_VER[i] [31:0] VERSION, RO. -/
def BOOT_VER_VERSION (i : Nat) : Fld := ⟨12665856 + 128 * i, 32, 0⟩
/-- BOOT_SVN [6:0] SVN0, RO. -/
def BOOT_SVN_SVN0 : Fld := ⟨12666368, 7, 0⟩
/-- BOOT_SVN [14:8] SVN1, RO. -/
def BOOT_SVN_SVN1 : Fld := ⟨12666376, 7, 0⟩
/-- BOOT_SVN [22:16] SVN2, RO. -/
def BOOT_SVN_SVN2 : Fld := ⟨12666384, 7, 0⟩
/-- BOOT_SVN [30:24] SVN3, RO. -/
def BOOT_SVN_SVN3 : Fld := ⟨12666392, 7, 0⟩
/-- BOOT_TIME [31:0] US, RO. -/
def BOOT_TIME_US : Fld := ⟨12666496, 32, 0⟩
/-- BOOT_MEAS_CMD [3:0] INDEX, RW. -/
def BOOT_MEAS_CMD_INDEX : Fld := ⟨12666624, 4, 0⟩
/-- BOOT_MEAS_CMD [8:8] EXTEND, WO. -/
def BOOT_MEAS_CMD_EXTEND : Fld := ⟨12666632, 1, 0⟩
/-- BOOT_MEAS[i] [63:0] VALUE, RO. -/
def BOOT_MEAS_VALUE (i : Nat) : Fld := ⟨12666880 + 256 * i, 64, 0⟩
/-- BOOT_MEAS_DATA[i] [63:0] VALUE, RW. -/
def BOOT_MEAS_DATA_VALUE (i : Nat) : Fld := ⟨12668928 + 256 * i, 64, 0⟩
/-- PWR_LOCK [0:0] LOCK, W1S. -/
def PWR_LOCK_LOCK : Fld := ⟨12632064, 1, 0⟩
/-- PWR_CTL [1:0] OP, WO. -/
def PWR_CTL_OP : Fld := ⟨12632192, 2, 0⟩
/-- PWR_CTL [8:8] SMBWAKE, RW. -/
def PWR_CTL_SMBWAKE : Fld := ⟨12632200, 1, 1⟩
/-- PWR_STATUS [1:0] STATE, RO. -/
def PWR_STATUS_STATE : Fld := ⟨12632320, 2, 0⟩
/-- PWR_STATUS [6:4] WCAUSE, RO. -/
def PWR_STATUS_WCAUSE : Fld := ⟨12632324, 3, 0⟩
/-- PWR_STATUS [11:8] RESULT, RO. -/
def PWR_STATUS_RESULT : Fld := ⟨12632328, 4, 0⟩
/-- PWR_STATUS [16:16] HALVED_STK, RO. -/
def PWR_STATUS_HALVED_STK : Fld := ⟨12632336, 1, 0⟩
/-- PWR_STATUS [17:17] HALVED_HOOP, RO. -/
def PWR_STATUS_HALVED_HOOP : Fld := ⟨12632337, 1, 0⟩
/-- PWR_STATUS [31:24] BELOW, RO. -/
def PWR_STATUS_BELOW : Fld := ⟨12632344, 8, 0⟩
/-- PWR_PMB [0:0] SPEED, RWL. -/
def PWR_PMB_SPEED : Fld := ⟨12632448, 1, 1⟩
/-- PWR_PMB [15:8] TMO, RWL. -/
def PWR_PMB_TMO : Fld := ⟨12632456, 8, 10⟩
/-- PWR_MON [0:0] AUTO, RW. -/
def PWR_MON_AUTO : Fld := ⟨12632576, 1, 1⟩
/-- PWR_MON [15:8] PERIOD, RW. -/
def PWR_MON_PERIOD : Fld := ⟨12632584, 8, 1⟩
/-- PWR_THERM [7:0] TWARN, RW. -/
def PWR_THERM_TWARN : Fld := ⟨12632704, 8, 140⟩
/-- PWR_THERM [15:8] TTRIP, RWL. -/
def PWR_THERM_TTRIP : Fld := ⟨12632712, 8, 160⟩
/-- PWR_SMB [6:0] ADDR, RWL. -/
def PWR_SMB_ADDR : Fld := ⟨12632832, 7, 90⟩
/-- PWR_SMB [7:7] EN, RWL. -/
def PWR_SMB_EN : Fld := ⟨12632839, 1, 1⟩
/-- PWR_ADOZE [0:0] CORE, RW. -/
def PWR_ADOZE_CORE : Fld := ⟨12632960, 1, 1⟩
/-- PWR_ADOZE [1:1] HOOP, RW. -/
def PWR_ADOZE_HOOP : Fld := ⟨12632961, 1, 1⟩
/-- PWR_ADOZE [15:8] IDLE, RW. -/
def PWR_ADOZE_IDLE : Fld := ⟨12632968, 8, 4⟩
/-- PWR_VSTEP [15:0] V0, RWL. -/
def PWR_VSTEP_V0 : Fld := ⟨12633088, 16, 900⟩
/-- PWR_VSTEP [31:16] V1, RWL. -/
def PWR_VSTEP_V1 : Fld := ⟨12633104, 16, 800⟩
/-- PWR_VSTEP [47:32] V2, RWL. -/
def PWR_VSTEP_V2 : Fld := ⟨12633120, 16, 750⟩
/-- PWR_VSTEP [63:48] V3, RWL. -/
def PWR_VSTEP_V3 : Fld := ⟨12633136, 16, 700⟩
/-- PWR_DVFS[i] [1:0] STEP, RW. -/
def PWR_DVFS_STEP (i : Nat) : Fld := ⟨12634112 + 128 * i, 2, 0⟩
/-- PWR_DVFS[i] [5:4] CUR, RO. -/
def PWR_DVFS_CUR (i : Nat) : Fld := ⟨12634116 + 128 * i, 2, 0⟩
/-- PWR_DVFS[i] [6:6] BUSY, RO. -/
def PWR_DVFS_BUSY (i : Nat) : Fld := ⟨12634118 + 128 * i, 1, 0⟩
/-- PWR_DVFS[i] [11:8] RESULT, RO. -/
def PWR_DVFS_RESULT (i : Nat) : Fld := ⟨12634120 + 128 * i, 4, 0⟩
/-- PWR_REG[i] [6:0] ADDR, RWL. -/
def PWR_REG_ADDR (i : Nat) : Fld := ⟨12636160 + 256 * i, 7, 0⟩
/-- PWR_REG[i] [7:7] VALID, RWL. -/
def PWR_REG_VALID (i : Nat) : Fld := ⟨12636167 + 256 * i, 1, 0⟩
/-- PWR_REG[i] [15:8] PAGE, RWL. -/
def PWR_REG_PAGE (i : Nat) : Fld := ⟨12636168 + 256 * i, 8, 255⟩
/-- PWR_REG[i] [18:16] RAIL, RWL. -/
def PWR_REG_RAIL (i : Nat) : Fld := ⟨12636176 + 256 * i, 3, 0⟩
/-- PWR_REG[i] [19:19] MODE, RWL. -/
def PWR_REG_MODE (i : Nat) : Fld := ⟨12636179 + 256 * i, 1, 0⟩
/-- PWR_REG[i] [31:24] TOL, RWL. -/
def PWR_REG_TOL (i : Nat) : Fld := ⟨12636184 + 256 * i, 8, 10⟩
/-- PWR_REG[i] [39:32] POLL, RWL. -/
def PWR_REG_POLL (i : Nat) : Fld := ⟨12636192 + 256 * i, 8, 10⟩
/-- PWR_REG[i] [59:44] VOUT, RO. -/
def PWR_REG_VOUT (i : Nat) : Fld := ⟨12636204 + 256 * i, 16, 0⟩
/-- PWR_SUP[i] [7:0] WARN, RWL. -/
def PWR_SUP_WARN (i : Nat) : Fld := ⟨12638208 + 128 * i, 8, 50⟩
/-- PWR_SUP[i] [15:8] RESET, RWL. -/
def PWR_SUP_RESET (i : Nat) : Fld := ⟨12638216 + 128 * i, 8, 100⟩
/-- PWR_TEMP[i] [11:0] T, RO. -/
def PWR_TEMP_T (i : Nat) : Fld := ⟨12640256 + 128 * i, 12, 0⟩
/-- PWR_TEMP[i] [12:12] VALID, RO. -/
def PWR_TEMP_VALID (i : Nat) : Fld := ⟨12640268 + 128 * i, 1, 0⟩
/-- PWR_TEMP[i] [13:13] ALARM, RO. -/
def PWR_TEMP_ALARM (i : Nat) : Fld := ⟨12640269 + 128 * i, 1, 0⟩
/-- PWR_VOLT[i] [11:0] MV, RO. -/
def PWR_VOLT_MV (i : Nat) : Fld := ⟨12642304 + 128 * i, 12, 0⟩
/-- PWR_VOLT[i] [12:12] VALID, RO. -/
def PWR_VOLT_VALID (i : Nat) : Fld := ⟨12642316 + 128 * i, 1, 0⟩
/-- PWR_CNT[i] [47:0] COUNT, RC. -/
def PWR_CNT_COUNT (i : Nat) : Fld := ⟨12648448 + 256 * i, 48, 0⟩
/-- DBG_STATUS [1:0] LVL0, RO. -/
def DBG_STATUS_LVL0 : Fld := ⟨8388608, 2, 0⟩
/-- DBG_STATUS [3:2] LVL1, RO. -/
def DBG_STATUS_LVL1 : Fld := ⟨8388610, 2, 0⟩
/-- DBG_STATUS [4:4] ATTACHED, RO. -/
def DBG_STATUS_ATTACHED : Fld := ⟨8388612, 1, 0⟩
/-- DBG_STATUS [6:5] CAP, RO. -/
def DBG_STATUS_CAP : Fld := ⟨8388613, 2, 0⟩
/-- DBG_STATUS [8:7] TOKEN, RO. -/
def DBG_STATUS_TOKEN : Fld := ⟨8388615, 2, 0⟩
/-- DBG_AUTH_CMD [1:0] OP, WO. -/
def DBG_AUTH_CMD_OP : Fld := ⟨8388736, 2, 0⟩
/-- DBG_AUTH_CMD [3:2] LEVEL, WO. -/
def DBG_AUTH_CMD_LEVEL : Fld := ⟨8388738, 2, 0⟩
/-- DBG_AUTH_CMD [4:4] EMU, WO. -/
def DBG_AUTH_CMD_EMU : Fld := ⟨8388740, 1, 0⟩
/-- DBG_AUTH_STATUS [0:0] BUSY, RO. -/
def DBG_AUTH_STATUS_BUSY : Fld := ⟨8388864, 1, 0⟩
/-- DBG_AUTH_STATUS [7:4] RESULT, RO. -/
def DBG_AUTH_STATUS_RESULT : Fld := ⟨8388868, 4, 0⟩
/-- DBG_AUTH_STATUS [9:8] LEVEL, RO. -/
def DBG_AUTH_STATUS_LEVEL : Fld := ⟨8388872, 2, 0⟩
/-- DBG_AUTH_STATUS [10:10] EMU, RO. -/
def DBG_AUTH_STATUS_EMU : Fld := ⟨8388874, 1, 0⟩
/-- DBG_AUTH_STATUS [11:11] CHALV, RO. -/
def DBG_AUTH_STATUS_CHALV : Fld := ⟨8388875, 1, 0⟩
/-- DBG_AUTH_CHAL[i] [63:0] BYTES, RO. -/
def DBG_AUTH_CHAL_BYTES (i : Nat) : Fld := ⟨8389632 + 256 * i, 64, 0⟩
/-- DBG_AUTH_RESP[i] [63:0] BYTES, RW. -/
def DBG_AUTH_RESP_BYTES (i : Nat) : Fld := ⟨8390656 + 256 * i, 64, 0⟩
/-- DBG_FRZ [0:0] CNT, RW. -/
def DBG_FRZ_CNT : Fld := ⟨8396800, 1, 0⟩
/-- DBG_FRZ [1:1] TMR, RW. -/
def DBG_FRZ_TMR : Fld := ⟨8396801, 1, 0⟩
/-- DBG_FRZ [2:2] TRC, RW. -/
def DBG_FRZ_TRC : Fld := ⟨8396802, 1, 0⟩
/-- DBG_FRZ [3:3] PMC, RW. -/
def DBG_FRZ_PMC : Fld := ⟨8396803, 1, 1⟩
/-- DBG_ACC_ADDR [43:0] ADDR, RW. -/
def DBG_ACC_ADDR_ADDR : Fld := ⟨8397056, 44, 0⟩
/-- DBG_ACC_DATA [63:0] DATA, RW. -/
def DBG_ACC_DATA_DATA : Fld := ⟨8397312, 64, 0⟩
/-- DBG_ACC_CMD [1:0] OP, WO. -/
def DBG_ACC_CMD_OP : Fld := ⟨8397568, 2, 0⟩
/-- DBG_ACC_CMD [3:2] SIZE, WO. -/
def DBG_ACC_CMD_SIZE : Fld := ⟨8397570, 2, 0⟩
/-- DBG_ACC_CMD [4:4] PEEK, WO. -/
def DBG_ACC_CMD_PEEK : Fld := ⟨8397572, 1, 0⟩
/-- DBG_ACC_CMD [8:8] BUSY, RO. -/
def DBG_ACC_CMD_BUSY : Fld := ⟨8397576, 1, 0⟩
/-- DBG_ACC_CMD [15:12] RESULT, RO. -/
def DBG_ACC_CMD_RESULT : Fld := ⟨8397580, 4, 0⟩
/-- DBG_CORE_CTL[i] [2:0] OP, WO. -/
def DBG_CORE_CTL_OP (i : Nat) : Fld := ⟨8421376 + 4096 * i, 3, 0⟩
/-- DBG_CORE_CTL[i] [4:4] BRKHALT, RW. -/
def DBG_CORE_CTL_BRKHALT (i : Nat) : Fld := ⟨8421380 + 4096 * i, 1, 0⟩
/-- DBG_CORE_CTL[i] [5:5] STEPINT, RW. -/
def DBG_CORE_CTL_STEPINT (i : Nat) : Fld := ⟨8421381 + 4096 * i, 1, 0⟩
/-- DBG_CORE_STAT[i] [0:0] HALTED, RO. -/
def DBG_CORE_STAT_HALTED (i : Nat) : Fld := ⟨8421504 + 4096 * i, 1, 0⟩
/-- DBG_CORE_STAT[i] [1:1] HALTPEND, RO. -/
def DBG_CORE_STAT_HALTPEND (i : Nat) : Fld := ⟨8421505 + 4096 * i, 1, 0⟩
/-- DBG_CORE_STAT[i] [5:2] CAUSE, RO. -/
def DBG_CORE_STAT_CAUSE (i : Nat) : Fld := ⟨8421506 + 4096 * i, 4, 0⟩
/-- DBG_CORE_STAT[i] [8:6] UNIT, RO. -/
def DBG_CORE_STAT_UNIT (i : Nat) : Fld := ⟨8421510 + 4096 * i, 3, 0⟩
/-- DBG_CORE_STAT[i] [9:9] EXCFAULT, W1C. -/
def DBG_CORE_STAT_EXCFAULT (i : Nat) : Fld := ⟨8421513 + 4096 * i, 1, 0⟩
/-- DBG_CORE_STAT[i] [17:10] ECODE, RO. -/
def DBG_CORE_STAT_ECODE (i : Nat) : Fld := ⟨8421514 + 4096 * i, 8, 0⟩
/-- DBG_CORE_STAT[i] [18:18] TXFULL, RO. -/
def DBG_CORE_STAT_TXFULL (i : Nat) : Fld := ⟨8421522 + 4096 * i, 1, 0⟩
/-- DBG_CORE_STAT[i] [19:19] RXFULL, RO. -/
def DBG_CORE_STAT_RXFULL (i : Nat) : Fld := ⟨8421523 + 4096 * i, 1, 0⟩
/-- DBG_REGSEL[i] [10:0] NUM, RW. -/
def DBG_REGSEL_NUM (i : Nat) : Fld := ⟨8421632 + 4096 * i, 11, 0⟩
/-- DBG_REGSEL[i] [12:11] CTX, RW. -/
def DBG_REGSEL_CTX (i : Nat) : Fld := ⟨8421643 + 4096 * i, 2, 0⟩
/-- DBG_REGSEL[i] [16:16] READ, WO. -/
def DBG_REGSEL_READ (i : Nat) : Fld := ⟨8421648 + 4096 * i, 1, 0⟩
/-- DBG_REGSEL[i] [17:17] WRITE, WO. -/
def DBG_REGSEL_WRITE (i : Nat) : Fld := ⟨8421649 + 4096 * i, 1, 0⟩
/-- DBG_REGSEL[i] [23:20] RESULT, RO. -/
def DBG_REGSEL_RESULT (i : Nat) : Fld := ⟨8421652 + 4096 * i, 4, 0⟩
/-- DBG_REGDATA[i] [63:0] DATA, RW. -/
def DBG_REGDATA_DATA (i : Nat) : Fld := ⟨8421888 + 4096 * i, 64, 0⟩
/-- DBG_INSN[i] [47:0] INSN, RW. -/
def DBG_INSN_INSN (i : Nat) : Fld := ⟨8422144 + 4096 * i, 48, 0⟩
/-- DBG_BW_ADDR[i][j] [41:0] ADDR, RW. -/
def DBG_BW_ADDR_ADDR (i : Nat) (j : Nat) : Fld := ⟨8422400 + 4096 * i + 256 * j, 42, 0⟩
/-- DBG_BW_CTL[i][j] [2:0] TYPE, RW. -/
def DBG_BW_CTL_TYPE (i : Nat) (j : Nat) : Fld := ⟨8424448 + 4096 * i + 128 * j, 3, 0⟩
/-- DBG_BW_CTL[i][j] [3:3] RANGE, RW. -/
def DBG_BW_CTL_RANGE (i : Nat) (j : Nat) : Fld := ⟨8424451 + 4096 * i + 128 * j, 1, 0⟩
/-- DBG_BW_CTL[i][j] [5:4] PRIV, RW. -/
def DBG_BW_CTL_PRIV (i : Nat) (j : Nat) : Fld := ⟨8424452 + 4096 * i + 128 * j, 2, 0⟩
/-- DBG_BW_CTL[i][j] [6:6] ASIDEN, RW. -/
def DBG_BW_CTL_ASIDEN (i : Nat) (j : Nat) : Fld := ⟨8424454 + 4096 * i + 128 * j, 1, 0⟩
/-- DBG_BW_CTL[i][j] [7:7] LINKEN, RW. -/
def DBG_BW_CTL_LINKEN (i : Nat) (j : Nat) : Fld := ⟨8424455 + 4096 * i + 128 * j, 1, 0⟩
/-- DBG_BW_CTL[i][j] [10:8] LINK, RW. -/
def DBG_BW_CTL_LINK (i : Nat) (j : Nat) : Fld := ⟨8424456 + 4096 * i + 128 * j, 3, 0⟩
/-- DBG_BW_CTL[i][j] [12:11] ACTION, RW. -/
def DBG_BW_CTL_ACTION (i : Nat) (j : Nat) : Fld := ⟨8424459 + 4096 * i + 128 * j, 2, 0⟩
/-- DBG_BW_CTL[i][j] [13:13] HIT, W1C. -/
def DBG_BW_CTL_HIT (i : Nat) (j : Nat) : Fld := ⟨8424461 + 4096 * i + 128 * j, 1, 0⟩
/-- DBG_BW_CTL[i][j] [31:16] ASID, RW. -/
def DBG_BW_CTL_ASID (i : Nat) (j : Nat) : Fld := ⟨8424464 + 4096 * i + 128 * j, 16, 0⟩
/-- DBG_VT_TX[i] [31:0] DATA, RO. -/
def DBG_VT_TX_DATA (i : Nat) : Fld := ⟨8634368 + 256 * i, 32, 0⟩
/-- DBG_VT_RX[i] [31:0] DATA, WO. -/
def DBG_VT_RX_DATA (i : Nat) : Fld := ⟨8634496 + 256 * i, 32, 0⟩
/-- DBG_ENG_CTL[i] [2:0] OP, WO. -/
def DBG_ENG_CTL_OP (i : Nat) : Fld := ⟨8650752 + 2048 * i, 3, 0⟩
/-- DBG_ENG_CTL[i] [4:4] BRKHALT, RW. -/
def DBG_ENG_CTL_BRKHALT (i : Nat) : Fld := ⟨8650756 + 2048 * i, 1, 0⟩
/-- DBG_ENG_CTL[i] [13:12] CTX, RW. -/
def DBG_ENG_CTL_CTX (i : Nat) : Fld := ⟨8650764 + 2048 * i, 2, 0⟩
/-- DBG_ENG_STAT[i] [0:0] HALTED, RO. -/
def DBG_ENG_STAT_HALTED (i : Nat) : Fld := ⟨8650880 + 2048 * i, 1, 0⟩
/-- DBG_ENG_STAT[i] [5:2] CAUSE, RO. -/
def DBG_ENG_STAT_CAUSE (i : Nat) : Fld := ⟨8650882 + 2048 * i, 4, 0⟩
/-- DBG_ENG_REGSEL[i] [10:0] NUM, RW. -/
def DBG_ENG_REGSEL_NUM (i : Nat) : Fld := ⟨8651008 + 2048 * i, 11, 0⟩
/-- DBG_ENG_REGSEL[i] [12:11] CTX, RW. -/
def DBG_ENG_REGSEL_CTX (i : Nat) : Fld := ⟨8651019 + 2048 * i, 2, 0⟩
/-- DBG_ENG_REGSEL[i] [16:16] READ, WO. -/
def DBG_ENG_REGSEL_READ (i : Nat) : Fld := ⟨8651024 + 2048 * i, 1, 0⟩
/-- DBG_ENG_REGSEL[i] [17:17] WRITE, WO. -/
def DBG_ENG_REGSEL_WRITE (i : Nat) : Fld := ⟨8651025 + 2048 * i, 1, 0⟩
/-- DBG_ENG_REGSEL[i] [23:20] RESULT, RO. -/
def DBG_ENG_REGSEL_RESULT (i : Nat) : Fld := ⟨8651028 + 2048 * i, 4, 0⟩
/-- DBG_ENG_REGDATA[i] [63:0] DATA, RW. -/
def DBG_ENG_REGDATA_DATA (i : Nat) : Fld := ⟨8651264 + 2048 * i, 64, 0⟩
/-- DBG_ENG_BP[i][j] [23:0] ADDR, RW. -/
def DBG_ENG_BP_ADDR (i : Nat) (j : Nat) : Fld := ⟨8651776 + 2048 * i + 256 * j, 24, 0⟩
/-- DBG_ENG_BP[i][j] [24:24] EN, RW. -/
def DBG_ENG_BP_EN (i : Nat) (j : Nat) : Fld := ⟨8651800 + 2048 * i + 256 * j, 1, 0⟩
/-- DBG_ENG_BP[i][j] [28:25] CTXMASK, RW. -/
def DBG_ENG_BP_CTXMASK (i : Nat) (j : Nat) : Fld := ⟨8651801 + 2048 * i + 256 * j, 4, 0⟩
/-- TRC_CTL [0:0] EN, RW. -/
def TRC_CTL_EN : Fld := ⟨12320768, 1, 0⟩
/-- TRC_CTL [12:8] SYNCPER, RW. -/
def TRC_CTL_SYNCPER : Fld := ⟨12320776, 5, 10⟩
/-- TRC_FUN [3:0] PRESS, RW. -/
def TRC_FUN_PRESS : Fld := ⟨12320896, 4, 8⟩
/-- TRC_FUN [11:8] DROP0, RW. -/
def TRC_FUN_DROP0 : Fld := ⟨12320904, 4, 12⟩
/-- TRC_FUN [15:12] DROP1, RW. -/
def TRC_FUN_DROP1 : Fld := ⟨12320908, 4, 13⟩
/-- TRC_FUN [19:16] DROP2, RW. -/
def TRC_FUN_DROP2 : Fld := ⟨12320912, 4, 14⟩
/-- TRC_FUN [23:20] DROP3, RW. -/
def TRC_FUN_DROP3 : Fld := ⟨12320916, 4, 15⟩
/-- TRC_STATUS [4:0] FILL, RO. -/
def TRC_STATUS_FILL : Fld := ⟨12321024, 5, 0⟩
/-- TRC_STATUS [11:8] REFUSING, RO. -/
def TRC_STATUS_REFUSING : Fld := ⟨12321032, 4, 0⟩
/-- TRC_STATUS [12:12] WRAPPED, RO. -/
def TRC_STATUS_WRAPPED : Fld := ⟨12321036, 1, 0⟩
/-- TRC_STATUS [13:13] STOPPED, RO. -/
def TRC_STATUS_STOPPED : Fld := ⟨12321037, 1, 0⟩
/-- TRC_SINK_BASE [43:0] ADDR, RW. -/
def TRC_SINK_BASE_ADDR : Fld := ⟨12321280, 44, 0⟩
/-- TRC_SINK_CFG [1:0] MODE, RW. -/
def TRC_SINK_CFG_MODE : Fld := ⟨12321536, 2, 0⟩
/-- TRC_SINK_CFG [2:2] WRAP, RW. -/
def TRC_SINK_CFG_WRAP : Fld := ⟨12321538, 1, 1⟩
/-- TRC_SINK_CFG [31:16] SIZE, RW. -/
def TRC_SINK_CFG_SIZE : Fld := ⟨12321552, 16, 1⟩
/-- TRC_SINK_WPTR [39:0] OFFSET, RO. -/
def TRC_SINK_WPTR_OFFSET : Fld := ⟨12321792, 40, 0⟩
/-- TRC_BUFADDR [19:3] ADDR, RW. -/
def TRC_BUFADDR_ADDR : Fld := ⟨12322051, 17, 0⟩
/-- TRC_BUFDATA [63:0] DATA, RO. -/
def TRC_BUFDATA_DATA : Fld := ⟨12322304, 64, 0⟩
/-- TRC_ADDR_LO[i] [43:0] ADDR, RW. -/
def TRC_ADDR_LO_ADDR (i : Nat) : Fld := ⟨12322816 + 512 * i, 44, 0⟩
/-- TRC_ADDR_HI[i] [43:0] ADDR, RW. -/
def TRC_ADDR_HI_ADDR (i : Nat) : Fld := ⟨12323072 + 512 * i, 44, 0⟩
/-- TRC_CNT[i] [47:0] COUNT, RC. -/
def TRC_CNT_COUNT (i : Nat) : Fld := ⟨12324864 + 256 * i, 48, 0⟩
/-- TRC_SRC[i] [0:0] EN, RW. -/
def TRC_SRC_EN (i : Nat) : Fld := ⟨12337152 + 128 * i, 1, 0⟩
/-- TRC_SRC[i] [2:1] PRIO, RW. -/
def TRC_SRC_PRIO (i : Nat) : Fld := ⟨12337153 + 128 * i, 2, 0⟩
/-- TRC_SRC[i] [6:4] VCMASK, RW. -/
def TRC_SRC_VCMASK (i : Nat) : Fld := ⟨12337156 + 128 * i, 3, 7⟩
/-- TRC_SRC[i] [15:8] KINDMASK, RW. -/
def TRC_SRC_KINDMASK (i : Nat) : Fld := ⟨12337160 + 128 * i, 8, 255⟩
/-- TRC_SRC[i] [18:16] RANGE, RW. -/
def TRC_SRC_RANGE (i : Nat) : Fld := ⟨12337168 + 128 * i, 3, 0⟩
/-- CNT_CTL [0:0] EN, RW. -/
def CNT_CTL_EN : Fld := ⟨12713984, 1, 0⟩
/-- CNT_CTL [1:1] CLR, RW. -/
def CNT_CTL_CLR : Fld := ⟨12713985, 1, 0⟩
/-- CNT_CTL [31:16] PERIOD, RW. -/
def CNT_CTL_PERIOD : Fld := ⟨12714000, 16, 1000⟩
/-- CNT_CMD [0:0] SNAP, WO. -/
def CNT_CMD_SNAP : Fld := ⟨12714112, 1, 0⟩
/-- CNT_CMD [8:8] BUSY, RO. -/
def CNT_CMD_BUSY : Fld := ⟨12714120, 1, 0⟩
/-- CNT_DUMP_BASE [43:0] ADDR, RW. -/
def CNT_DUMP_BASE_ADDR : Fld := ⟨12714240, 44, 0⟩
/-- CNT_DUMP_CFG [7:0] SLOTS, RW. -/
def CNT_DUMP_CFG_SLOTS : Fld := ⟨12714496, 8, 16⟩
/-- CNT_STATUS [31:0] SEQ, RO. -/
def CNT_STATUS_SEQ : Fld := ⟨12714752, 32, 0⟩
/-- CNT_STATUS [39:32] SLOT, RO. -/
def CNT_STATUS_SLOT : Fld := ⟨12714784, 8, 0⟩
/-- CNT_STATUS [40:40] FAIL, W1C. -/
def CNT_STATUS_FAIL : Fld := ⟨12714792, 1, 0⟩
/-- ERR_CTL [1:0] MINSEV, RW. -/
def ERR_CTL_MINSEV : Fld := ⟨12517376, 2, 1⟩
/-- ERR_CTL [2:2] EVT, RW. -/
def ERR_CTL_EVT : Fld := ⟨12517378, 1, 1⟩
/-- ERR_CTL [3:3] COALESCE, RW. -/
def ERR_CTL_COALESCE : Fld := ⟨12517379, 1, 1⟩
/-- ERR_STATUS [8:0] USED, RO. -/
def ERR_STATUS_USED : Fld := ⟨12517504, 9, 0⟩
/-- ERR_STATUS [11:9] LASTRST, RO. -/
def ERR_STATUS_LASTRST : Fld := ⟨12517513, 3, 0⟩
/-- ERR_STATUS [31:16] LOST, RO. -/
def ERR_STATUS_LOST : Fld := ⟨12517520, 16, 0⟩
/-- ERR_LOG_SEL [7:0] INDEX, RW. -/
def ERR_LOG_SEL_INDEX : Fld := ⟨12517632, 8, 0⟩
/-- ERR_LOG_CMD [1:0] OP, WO. -/
def ERR_LOG_CMD_OP : Fld := ⟨12517760, 2, 0⟩
/-- ERR_LOG_CMD [8:8] BUSY, RO. -/
def ERR_LOG_CMD_BUSY : Fld := ⟨12517768, 1, 0⟩
/-- ERR_RST [1:0] OP, WO. -/
def ERR_RST_OP : Fld := ⟨12517888, 2, 0⟩
/-- ERR_RST [6:2] BLOCK, WO. -/
def ERR_RST_BLOCK : Fld := ⟨12517890, 5, 0⟩
/-- ERR_RST [12:8] INSTANCE, WO. -/
def ERR_RST_INSTANCE : Fld := ⟨12517896, 5, 0⟩
/-- ERR_RST [31:16] KEY, WO. -/
def ERR_RST_KEY : Fld := ⟨12517904, 16, 0⟩
/-- ERR_LOG[i] [63:0] QUAD, RO. -/
def ERR_LOG_QUAD (i : Nat) : Fld := ⟨12518400 + 256 * i, 64, 0⟩
/-- ERR_CNT[i] [47:0] COUNT, RC. -/
def ERR_CNT_COUNT (i : Nat) : Fld := ⟨12521472 + 256 * i, 48, 0⟩

/-- The MLE registers. -/
def regsMle : List RegDesc := [
  ⟨.MLE_CTRL, 196608, 1, 0, 0, 1, 0, 0, false, [⟨0, 1, .rw, 0, []⟩, ⟨16, 16, .rw, 51730, []⟩]⟩,
  ⟨.MLE_GRACE, 196610, 1, 0, 0, 1, 0, 0, false, [⟨0, 16, .rw, 2000, []⟩]⟩,
  ⟨.MLE_REKEY, 196612, 1, 0, 0, 1, 0, 0, false, [⟨0, 4, .rw, 8, [(1, 15)]⟩, ⟨16, 16, .rw, 1000, [(10, 65535)]⟩]⟩,
  ⟨.MLE_SEQ_WARN, 196614, 1, 0, 0, 1, 0, 0, false, [⟨0, 32, .rw, 3221225472, []⟩]⟩,
  ⟨.MLE_AUTH_WARN, 196616, 1, 0, 0, 1, 0, 0, false, [⟨0, 16, .rw, 16, []⟩]⟩,
  ⟨.MLE_INV_UID, 196624, 1, 0, 0, 1, 0, 0, true, [⟨0, 64, .rw, 0, []⟩]⟩,
  ⟨.MLE_INV_ENTRY, 196628, 1, 0, 0, 1, 0, 0, true, [⟨0, 18, .rw, 0, []⟩, ⟨18, 6, .rw, 0, []⟩, ⟨24, 12, .rw, 0, []⟩, ⟨36, 2, .ro, 0, []⟩, ⟨38, 2, .ro, 0, []⟩, ⟨40, 1, .ro, 0, []⟩]⟩,
  ⟨.MLE_INV_CMD, 196632, 1, 0, 0, 1, 0, 0, false, [⟨0, 3, .wo, 0, [(1, 6)]⟩]⟩,
  ⟨.MLE_INV_STATUS, 196634, 1, 0, 0, 1, 0, 0, false, [⟨0, 1, .ro, 0, []⟩, ⟨4, 4, .ro, 0, []⟩]⟩,
  ⟨.MLE_KEY_CMD, 196640, 1, 0, 0, 1, 0, 0, false, [⟨0, 18, .wo, 0, []⟩, ⟨18, 3, .wo, 0, [(1, 6)]⟩]⟩,
  ⟨.MLE_KEY_STATUS, 196642, 1, 0, 0, 1, 0, 0, false, [⟨0, 1, .ro, 0, []⟩, ⟨4, 4, .ro, 0, []⟩]⟩,
  ⟨.MLE_KEY_EPOCH, 196644, 1, 0, 0, 1, 0, 0, false, [⟨0, 32, .rw, 0, []⟩]⟩,
  ⟨.MLE_KEY_DBLOB, 196648, 3, 4, 0, 1, 0, 0, true, [⟨0, 64, .rw, 0, []⟩]⟩,
  ⟨.MLE_KEY_LBLOB, 196660, 3, 4, 0, 1, 0, 0, true, [⟨0, 64, .rw, 0, []⟩]⟩,
  ⟨.MLE_GW_ADDR_HI, 196672, 1, 0, 0, 1, 0, 0, true, [⟨0, 64, .rw, 0, []⟩]⟩,
  ⟨.MLE_GW_ADDR_LO, 196676, 1, 0, 0, 1, 0, 0, true, [⟨0, 64, .rw, 0, []⟩]⟩,
  ⟨.MLE_GW_CFG, 196680, 1, 0, 0, 1, 0, 0, false, [⟨0, 16, .rw, 51730, []⟩, ⟨16, 2, .rw, 0, []⟩, ⟨18, 1, .rw, 0, []⟩]⟩,
  ⟨.MLE_GW_CMD, 196682, 1, 0, 0, 1, 0, 0, false, [⟨0, 12, .wo, 0, []⟩, ⟨30, 1, .wo, 0, []⟩, ⟨31, 1, .wo, 0, []⟩]⟩,
  ⟨.MLE_DROP_CNT, 196740, 15, 4, 1, 1, 0, 0, true, [⟨0, 48, .rc, 0, []⟩]⟩,
  ⟨.MLE_RX_CNT, 196800, 1, 0, 0, 1, 0, 0, true, [⟨0, 48, .rc, 0, []⟩]⟩,
  ⟨.MLE_TX_CNT, 196804, 1, 0, 0, 1, 0, 0, true, [⟨0, 48, .rc, 0, []⟩]⟩,
  ⟨.MLE_UNREG_OVF, 196808, 1, 0, 0, 1, 0, 0, true, [⟨0, 48, .rc, 0, []⟩]⟩,
  ⟨.MLE_TXDROP_CNT, 196820, 4, 4, 1, 1, 0, 0, true, [⟨0, 48, .rc, 0, []⟩]⟩]

/-- The FP registers. -/
def regsFp : List RegDesc := [
  ⟨.FP_CFG, 163840, 4, 1024, 0, 1, 0, 0, false, [⟨0, 1, .rw, 0, []⟩, ⟨1, 1, .rw, 0, []⟩, ⟨4, 12, .rw, 0, []⟩]⟩,
  ⟨.FP_SVC, 163842, 4, 1024, 0, 1, 0, 0, false, [⟨0, 2, .wo, 0, []⟩, ⟨4, 2, .ro, 0, []⟩, ⟨6, 1, .ro, 0, []⟩, ⟨16, 16, .rw, 1000, [(1, 65535)]⟩]⟩,
  ⟨.FP_STATUS, 163844, 4, 1024, 0, 1, 0, 0, false, [⟨0, 4, .ro, 0, []⟩, ⟨4, 4, .ro, 0, []⟩, ⟨8, 4, .ro, 0, []⟩, ⟨12, 1, .ro, 0, []⟩, ⟨16, 1, .ro, 0, []⟩, ⟨20, 11, .ro, 0, []⟩]⟩,
  ⟨.FP_WAKE, 163846, 4, 1024, 0, 1, 0, 0, false, [⟨0, 2, .rw, 1, [(0, 2)]⟩, ⟨4, 2, .ro, 0, []⟩]⟩,
  ⟨.FP_MAC, 163848, 4, 1024, 0, 1, 0, 0, true, [⟨0, 48, .rw, 0, []⟩]⟩,
  ⟨.FP_IP6_HI, 163852, 4, 1024, 0, 1, 0, 0, true, [⟨0, 64, .rw, 0, []⟩]⟩,
  ⟨.FP_IP6_LO, 163856, 4, 1024, 0, 1, 0, 0, true, [⟨0, 64, .rw, 0, []⟩]⟩,
  ⟨.FP_TXCFG, 163860, 4, 1024, 0, 1, 0, 0, false, [⟨0, 8, .rw, 64, [(1, 255)]⟩, ⟨8, 8, .rw, 0, []⟩, ⟨16, 3, .rw, 0, []⟩]⟩,
  ⟨.FP_BUF, 163862, 4, 1024, 0, 1, 0, 0, false, [⟨0, 4, .rw, 12, [(1, 15)]⟩, ⟨8, 6, .rw, 4, []⟩]⟩,
  ⟨.FP_SLRATE, 163864, 4, 1024, 0, 1, 0, 0, false, [⟨0, 16, .rw, 1000, []⟩, ⟨16, 16, .rw, 1024, []⟩]⟩,
  ⟨.FP_TS_ADJ, 163866, 4, 1024, 0, 1, 0, 0, false, [⟨0, 16, .rw, 0, []⟩, ⟨16, 16, .rw, 0, []⟩]⟩,
  ⟨.FP_TXTS_TIME, 163868, 4, 1024, 0, 1, 0, 0, true, [⟨0, 64, .ro, 0, []⟩]⟩,
  ⟨.FP_TXTS_INFO, 163872, 4, 1024, 0, 1, 0, 0, false, [⟨0, 1, .rc, 0, []⟩, ⟨1, 1, .w1c, 0, []⟩, ⟨2, 2, .ro, 0, []⟩, ⟨8, 8, .ro, 0, []⟩, ⟨16, 16, .ro, 0, []⟩]⟩,
  ⟨.FP_LANE, 163904, 4, 1024, 0, 4, 2, 0, false, [⟨0, 1, .rw, 0, []⟩, ⟨1, 1, .rw, 0, []⟩, ⟨2, 4, .rw, 0, []⟩, ⟨6, 6, .rw, 8, []⟩, ⟨16, 1, .ro, 0, []⟩, ⟨17, 1, .ro, 0, []⟩, ⟨18, 1, .ro, 0, []⟩]⟩,
  ⟨.FP_CNT, 163968, 4, 1024, 0, 6, 4, 0, true, [⟨0, 48, .rc, 0, []⟩]⟩,
  ⟨.FP_RXDROP, 164036, 4, 1024, 0, 15, 4, 1, true, [⟨0, 48, .rc, 0, []⟩]⟩,
  ⟨.FP_TXDROP, 164100, 4, 1024, 0, 3, 4, 1, true, [⟨0, 48, .rc, 0, []⟩]⟩,
  ⟨.FP_LCNT, 164352, 4, 1024, 0, 32, 4, 0, true, [⟨0, 48, .rc, 0, []⟩]⟩,
  ⟨.FP_NH_ENTRY, 167936, 1, 0, 0, 1, 0, 0, true, [⟨0, 48, .rw, 0, []⟩, ⟨48, 2, .rw, 0, []⟩, ⟨50, 1, .rw, 0, []⟩]⟩,
  ⟨.FP_NH_CMD, 167940, 1, 0, 0, 1, 0, 0, false, [⟨0, 12, .wo, 0, []⟩, ⟨30, 1, .wo, 0, []⟩, ⟨31, 1, .wo, 0, []⟩]⟩]

/-- The BSK registers. -/
def regsBsk : List RegDesc := [
  ⟨.BSK_LOCK, 180224, 1, 0, 0, 1, 0, 0, false, [⟨0, 1, .w1s, 0, []⟩]⟩,
  ⟨.BSK_POOL, 180226, 1, 0, 0, 1, 0, 0, false, [⟨0, 19, .rwl, 2048, [(0, 65536)]⟩]⟩,
  ⟨.BSK_SCRUB, 180228, 1, 0, 0, 1, 0, 0, false, [⟨0, 1, .rw, 1, []⟩, ⟨8, 16, .rw, 100, [(1, 65535)]⟩]⟩,
  ⟨.BSK_FREE, 180230, 1, 0, 0, 1, 0, 0, false, [⟨0, 19, .ro, 393216, []⟩]⟩,
  ⟨.BSK_LT_BASE, 180232, 1, 0, 0, 1, 0, 0, true, [⟨0, 44, .rwl, 0, []⟩]⟩,
  ⟨.BSK_LT_CFG, 180236, 1, 0, 0, 1, 0, 0, false, [⟨0, 7, .rwl, 0, [(0, 64)]⟩]⟩,
  ⟨.BSK_LT_FREE, 180238, 1, 0, 0, 1, 0, 0, false, [⟨0, 25, .ro, 0, []⟩]⟩,
  ⟨.BSK_Q_SEL, 180240, 1, 0, 0, 1, 0, 0, false, [⟨0, 13, .rw, 0, []⟩]⟩,
  ⟨.BSK_Q_CFG, 180244, 1, 0, 0, 1, 0, 0, true, [⟨0, 1, .rw, 0, []⟩, ⟨1, 3, .rw, 0, []⟩, ⟨4, 6, .rw, 0, []⟩, ⟨10, 2, .rw, 0, [(0, 2)]⟩, ⟨16, 19, .rw, 0, [(0, 393216)]⟩, ⟨36, 17, .rw, 0, [(0, 65536)]⟩]⟩,
  ⟨.BSK_Q_STAT, 180248, 1, 0, 0, 1, 0, 0, true, [⟨0, 19, .ro, 0, []⟩, ⟨19, 6, .ro, 0, []⟩, ⟨25, 1, .ro, 0, []⟩, ⟨32, 25, .ro, 0, []⟩]⟩,
  ⟨.BSK_Q_CMD, 180252, 1, 0, 0, 1, 0, 0, false, [⟨0, 3, .wo, 0, [(1, 5)]⟩, ⟨8, 1, .ro, 0, []⟩, ⟨12, 4, .ro, 0, []⟩]⟩,
  ⟨.BSK_Q_CNT, 180256, 3, 4, 0, 1, 0, 0, true, [⟨0, 48, .ro, 0, []⟩]⟩,
  ⟨.BSK_SHARDQ, 180272, 1, 0, 0, 1, 0, 0, false, [⟨0, 13, .rw, 0, []⟩, ⟨16, 13, .rw, 0, [(0, 5119)]⟩, ⟨29, 1, .rw, 0, []⟩, ⟨30, 1, .wo, 0, []⟩, ⟨31, 1, .wo, 0, []⟩]⟩,
  ⟨.BSK_DROP_CNT, 180292, 9, 4, 1, 1, 0, 0, true, [⟨0, 48, .rc, 0, []⟩]⟩,
  ⟨.BSK_FN_USE, 180352, 64, 4, 0, 1, 0, 0, true, [⟨0, 19, .ro, 0, []⟩, ⟨32, 25, .ro, 0, []⟩]⟩,
  ⟨.BSK_CNT, 180736, 8, 4, 0, 1, 0, 0, true, [⟨0, 48, .rc, 0, []⟩]⟩,
  ⟨.BSK_QA_CMD, 181248, 48, 16, 0, 1, 0, 0, false, [⟨0, 13, .wo, 0, []⟩, ⟨16, 2, .wo, 0, [(1, 2)]⟩, ⟨20, 12, .wo, 0, [(1, 2048)]⟩]⟩,
  ⟨.BSK_QA_ADDR, 181252, 48, 16, 0, 1, 0, 0, true, [⟨0, 44, .rw, 0, []⟩]⟩,
  ⟨.BSK_QA_STATUS, 181256, 48, 16, 0, 1, 0, 0, false, [⟨0, 1, .ro, 0, []⟩, ⟨4, 4, .ro, 0, []⟩, ⟨8, 4, .ro, 0, []⟩, ⟨12, 12, .ro, 0, []⟩]⟩]

/-- The WV registers. -/
def regsWv : List RegDesc := [
  ⟨.WV_TIMEOUT, 198144, 1, 0, 0, 1, 0, 0, false, [⟨0, 5, .rw, 16, [(10, 24)]⟩]⟩,
  ⟨.WV_CRED_SEL, 198146, 1, 0, 0, 1, 0, 0, false, [⟨0, 7, .rw, 0, []⟩, ⟨8, 6, .rw, 0, []⟩]⟩,
  ⟨.WV_CRED_VIEW, 198148, 1, 0, 0, 1, 0, 0, false, [⟨0, 8, .ro, 0, []⟩, ⟨8, 8, .ro, 0, []⟩, ⟨16, 1, .ro, 0, []⟩]⟩,
  ⟨.WV_STALL, 198160, 4, 4, 0, 1, 0, 0, true, [⟨0, 48, .rc, 0, []⟩]⟩]

/-- The HOOP registers. -/
def regsHoop : List RegDesc := [
  ⟨.HOOP_LOCK, 184320, 1, 0, 0, 1, 0, 0, false, [⟨0, 1, .w1s, 0, []⟩]⟩,
  ⟨.HOOP_LS_BASE, 184324, 1, 0, 0, 1, 0, 0, true, [⟨0, 44, .rwl, 0, []⟩]⟩,
  ⟨.HOOP_CFG, 184328, 1, 0, 0, 1, 0, 0, false, [⟨0, 8, .rw, 16, [(1, 255)]⟩, ⟨8, 4, .rw, 1, [(1, 15)]⟩, ⟨16, 8, .rw, 10, [(1, 255)]⟩]⟩,
  ⟨.HOOP_TRK, 184332, 1, 0, 0, 1, 0, 0, true, [⟨0, 24, .rw, 196608, []⟩, ⟨24, 10, .rw, 128, [(0, 512)]⟩, ⟨36, 4, .rw, 4, []⟩, ⟨40, 16, .rw, 500, []⟩]⟩,
  ⟨.HOOP_CUST, 184336, 1, 0, 0, 1, 0, 0, false, [⟨0, 16, .rw, 4096, [(64, 65535)]⟩, ⟨16, 8, .rw, 16, [(1, 255)]⟩]⟩,
  ⟨.HOOP_SHARD, 184338, 1, 0, 0, 1, 0, 0, false, [⟨0, 13, .rw, 0, []⟩, ⟨16, 5, .rw, 0, []⟩, ⟨22, 2, .ro, 0, []⟩, ⟨24, 1, .ro, 0, []⟩, ⟨30, 1, .wo, 0, []⟩, ⟨31, 1, .wo, 0, []⟩]⟩,
  ⟨.HOOP_MIG_ARG, 184340, 1, 0, 0, 1, 0, 0, true, [⟨0, 13, .rw, 0, []⟩, ⟨16, 13, .rw, 0, []⟩, ⟨32, 5, .rw, 0, []⟩, ⟨48, 13, .rw, 0, []⟩]⟩,
  ⟨.HOOP_MIG_CMD, 184344, 1, 0, 0, 1, 0, 0, false, [⟨0, 3, .wo, 0, [(1, 4)]⟩]⟩,
  ⟨.HOOP_MIG_STATUS, 184346, 1, 0, 0, 1, 0, 0, false, [⟨0, 1, .ro, 0, []⟩, ⟨4, 4, .ro, 0, []⟩, ⟨8, 2, .ro, 0, []⟩, ⟨10, 3, .ro, 0, []⟩, ⟨16, 16, .ro, 0, []⟩]⟩,
  ⟨.HOOP_SVC, 184384, 32, 2, 0, 1, 0, 0, false, [⟨0, 2, .wo, 0, []⟩, ⟨4, 2, .ro, 0, []⟩, ⟨6, 1, .ro, 0, []⟩, ⟨8, 14, .ro, 0, []⟩, ⟨24, 2, .ro, 0, []⟩]⟩,
  ⟨.HOOP_CNT, 184576, 32, 64, 0, 10, 4, 0, true, [⟨0, 48, .rc, 0, []⟩]⟩]

/-- The PAIR registers. -/
def regsPair : List RegDesc := [
  ⟨.PAIR_CNT, 188416, 32, 64, 0, 4, 4, 0, true, [⟨0, 48, .rc, 0, []⟩]⟩]

/-- The RFX registers. -/
def regsRfx : List RegDesc := [
  ⟨.RFX_CTRL, 197120, 1, 0, 0, 1, 0, 0, false, [⟨0, 1, .rw, 1, []⟩, ⟨8, 8, .rw, 4, [(1, 255)]⟩, ⟨16, 16, .rw, 500, [(1, 65535)]⟩]⟩,
  ⟨.RFX_LAT, 197122, 1, 0, 0, 1, 0, 0, false, [⟨0, 8, .rc, 0, []⟩, ⟨8, 8, .ro, 0, []⟩]⟩,
  ⟨.RFX_ENT, 197136, 8, 4, 0, 1, 0, 0, true, [⟨0, 64, .rw, 0, []⟩]⟩,
  ⟨.RFX_TBL_CMD, 197168, 1, 0, 0, 1, 0, 0, false, [⟨0, 18, .wo, 0, []⟩, ⟨18, 2, .wo, 0, []⟩]⟩,
  ⟨.RFX_TBL_STATUS, 197170, 1, 0, 0, 1, 0, 0, false, [⟨0, 1, .ro, 0, []⟩, ⟨4, 4, .ro, 0, []⟩]⟩,
  ⟨.RFX_CRV, 197184, 5, 4, 0, 1, 0, 0, true, [⟨0, 64, .rw, 0, []⟩]⟩,
  ⟨.RFX_CRV_CMD, 197204, 1, 0, 0, 1, 0, 0, false, [⟨0, 8, .wo, 0, []⟩, ⟨8, 2, .wo, 0, [(1, 2)]⟩]⟩,
  ⟨.RFX_CRV_STATUS, 197206, 1, 0, 0, 1, 0, 0, false, [⟨0, 1, .ro, 0, []⟩, ⟨4, 4, .ro, 0, []⟩]⟩,
  ⟨.RFX_CNT, 197248, 9, 4, 0, 1, 0, 0, true, [⟨0, 48, .rc, 0, []⟩]⟩]

/-- The ORD registers. -/
def regsOrd : List RegDesc := [
  ⟨.ORD_CFG, 196864, 1, 0, 0, 1, 0, 0, false, [⟨0, 10, .rw, 500, [(100, 900)]⟩, ⟨12, 2, .rw, 1, [(0, 2)]⟩, ⟨16, 10, .rw, 300, [(10, 1000)]⟩]⟩,
  ⟨.ORD_EGR, 196866, 1, 0, 0, 1, 0, 0, false, [⟨0, 16, .rw, 32768, [(1024, 65535)]⟩, ⟨16, 8, .rw, 50, [(1, 255)]⟩, ⟨24, 4, .rw, 3, []⟩]⟩,
  ⟨.ORD_STAT, 196868, 1, 0, 0, 1, 0, 0, true, [⟨0, 32, .ro, 0, []⟩, ⟨32, 16, .ro, 0, []⟩, ⟨48, 16, .ro, 0, []⟩]⟩,
  ⟨.ORD_HOLD, 196872, 1, 0, 0, 1, 0, 0, false, [⟨0, 16, .rw, 900, [(1, 65535)]⟩]⟩,
  ⟨.ORD_TBL_SEL, 196874, 1, 0, 0, 1, 0, 0, false, [⟨0, 3, .rw, 0, [(0, 4)]⟩, ⟨4, 18, .rw, 0, []⟩]⟩,
  ⟨.ORD_TBL_CMD, 196876, 1, 0, 0, 1, 0, 0, false, [⟨0, 2, .wo, 0, []⟩, ⟨8, 1, .ro, 0, []⟩, ⟨12, 4, .ro, 0, []⟩]⟩,
  ⟨.ORD_DATA, 196880, 16, 4, 0, 1, 0, 0, true, [⟨0, 64, .rw, 0, []⟩]⟩,
  ⟨.ORD_CNT, 196992, 11, 4, 0, 1, 0, 0, true, [⟨0, 48, .rc, 0, []⟩]⟩]

/-- The LDG registers. -/
def regsLdg : List RegDesc := [
  ⟨.LDG_LOCK, 194560, 1, 0, 0, 1, 0, 0, false, [⟨0, 1, .w1s, 0, []⟩]⟩,
  ⟨.LDG_BASE, 194564, 1, 0, 0, 1, 0, 0, true, [⟨0, 44, .rwl, 0, []⟩]⟩,
  ⟨.LDG_CFG, 194568, 1, 0, 0, 1, 0, 0, false, [⟨0, 1, .rw, 1, []⟩, ⟨8, 11, .rw, 15, [(1, 1), (2, 2), (3, 3), (4, 4), (5, 5), (6, 6), (8, 8), (9, 9), (10, 10), (12, 12), (15, 15), (16, 16), (18, 18), (20, 20), (24, 24), (30, 30), (32, 32), (36, 36), (40, 40), (45, 45), (48, 48), (60, 60), (72, 72), (80, 80), (90, 90), (96, 96), (120, 120), (144, 144), (160, 160), (180, 180), (240, 240), (288, 288), (360, 360), (480, 480), (720, 720), (1440, 1440)]⟩]⟩,
  ⟨.LDG_TBL_SEL, 194570, 1, 0, 0, 1, 0, 0, false, [⟨0, 2, .rw, 0, []⟩, ⟨4, 18, .rw, 0, []⟩]⟩,
  ⟨.LDG_TBL_CMD, 194572, 1, 0, 0, 1, 0, 0, false, [⟨0, 2, .wo, 0, []⟩, ⟨8, 1, .ro, 0, []⟩, ⟨12, 4, .ro, 0, []⟩]⟩,
  ⟨.LDG_DATA, 194624, 32, 4, 0, 1, 0, 0, true, [⟨0, 64, .rw, 0, []⟩]⟩,
  ⟨.LDG_ETOT, 194816, 64, 4, 0, 1, 0, 0, true, [⟨0, 64, .ro, 0, []⟩]⟩,
  ⟨.LDG_CNT, 195072, 8, 4, 0, 1, 0, 0, true, [⟨0, 48, .rc, 0, []⟩]⟩]

/-- The RIM registers. -/
def regsRim : List RegDesc := [
  ⟨.RIM_LOCK, 193536, 1, 0, 0, 1, 0, 0, false, [⟨0, 1, .w1s, 0, []⟩]⟩,
  ⟨.RIM_CFG, 193538, 1, 0, 0, 1, 0, 0, false, [⟨0, 6, .rwl, 0, []⟩, ⟨6, 1, .rwl, 0, []⟩, ⟨8, 8, .rw, 10, [(1, 255)]⟩]⟩,
  ⟨.RIM_INSTALL, 193540, 1, 0, 0, 1, 0, 0, false, [⟨0, 32, .rwl, 0, []⟩]⟩,
  ⟨.RIM_BSET, 193542, 1, 0, 0, 1, 0, 0, false, [⟨0, 18, .rw, 0, []⟩, ⟨24, 1, .rw, 0, []⟩, ⟨30, 1, .wo, 0, []⟩, ⟨31, 1, .wo, 0, []⟩]⟩,
  ⟨.RIM_CTAB, 193544, 1, 0, 0, 1, 0, 0, false, [⟨0, 13, .ro, 0, []⟩]⟩,
  ⟨.RIM_GCNT, 193552, 4, 4, 0, 1, 0, 0, true, [⟨0, 48, .rc, 0, []⟩]⟩,
  ⟨.RIM_LCFG, 193792, 2, 128, 0, 1, 0, 0, false, [⟨0, 6, .rw, 0, []⟩, ⟨6, 1, .rw, 0, []⟩, ⟨16, 16, .rw, 1000, [(1, 65535)]⟩]⟩,
  ⟨.RIM_SVC, 193794, 2, 128, 0, 1, 0, 0, false, [⟨0, 2, .wo, 0, []⟩, ⟨4, 2, .ro, 0, []⟩, ⟨6, 1, .ro, 0, []⟩, ⟨8, 2, .ro, 0, []⟩]⟩,
  ⟨.RIM_STATUS, 193796, 2, 128, 0, 1, 0, 0, false, [⟨0, 4, .ro, 0, []⟩, ⟨4, 1, .ro, 0, []⟩, ⟨5, 1, .ro, 0, []⟩, ⟨8, 6, .ro, 0, []⟩, ⟨14, 1, .ro, 0, []⟩, ⟨16, 8, .ro, 0, []⟩, ⟨24, 8, .ro, 0, []⟩]⟩,
  ⟨.RIM_LANE, 193800, 2, 128, 0, 4, 2, 0, false, [⟨0, 1, .rw, 0, []⟩, ⟨1, 1, .rw, 0, []⟩, ⟨2, 4, .rw, 0, []⟩, ⟨6, 6, .rw, 8, []⟩, ⟨16, 1, .ro, 0, []⟩, ⟨17, 1, .ro, 0, []⟩, ⟨18, 1, .ro, 0, []⟩]⟩,
  ⟨.RIM_CNT, 193824, 2, 128, 0, 12, 4, 0, true, [⟨0, 48, .rc, 0, []⟩]⟩]

/-- The HIF registers. -/
def regsHif : List RegDesc := [
  ⟨.HIF_LOCK, 0, 1, 0, 0, 1, 0, 0, false, [⟨0, 1, .w1s, 0, []⟩]⟩,
  ⟨.HIF_STATUS, 2, 1, 0, 0, 1, 0, 0, false, [⟨0, 1, .ro, 0, []⟩, ⟨1, 3, .ro, 0, []⟩, ⟨4, 4, .ro, 0, []⟩, ⟨8, 1, .ro, 0, []⟩, ⟨9, 1, .ro, 0, []⟩, ⟨10, 6, .ro, 0, []⟩]⟩,
  ⟨.HIF_CFG, 4, 1, 0, 0, 1, 0, 0, false, [⟨0, 3, .rwl, 5, [(1, 5)]⟩, ⟨3, 1, .rw, 1, []⟩, ⟨4, 1, .rwl, 0, []⟩]⟩,
  ⟨.HIF_BAR2_BASE, 8, 1, 0, 0, 1, 0, 0, true, [⟨0, 44, .rwl, 0, []⟩]⟩,
  ⟨.HIF_ISL_TIME, 12, 1, 0, 0, 1, 0, 0, true, [⟨0, 64, .ro, 0, []⟩]⟩,
  ⟨.HIF_ISL_INFO, 16, 1, 0, 0, 1, 0, 0, false, [⟨0, 2, .ro, 0, []⟩, ⟨16, 16, .ro, 0, []⟩]⟩,
  ⟨.HIF_QOS_SHARE, 256, 64, 2, 0, 1, 0, 0, false, [⟨0, 8, .rw, 16, []⟩, ⟨8, 8, .rw, 16, []⟩, ⟨16, 16, .rw, 0, []⟩]⟩,
  ⟨.HIF_QOS_CELLS, 384, 1, 2, 0, 1, 0, 0, false, [⟨0, 19, .rw, 393216, [(0, 393216)]⟩]⟩,
  ⟨.HIF_QOS_CELLS, 386, 63, 2, 1, 1, 0, 0, false, [⟨0, 19, .rw, 8192, [(0, 393216)]⟩]⟩,
  ⟨.HIF_QOS_LT, 512, 1, 2, 0, 1, 0, 0, false, [⟨0, 17, .rw, 65536, [(0, 65536)]⟩]⟩,
  ⟨.HIF_QOS_LT, 514, 63, 2, 1, 1, 0, 0, false, [⟨0, 17, .rw, 0, [(0, 65536)]⟩]⟩,
  ⟨.HIF_CNT, 768, 10, 4, 0, 1, 0, 0, true, [⟨0, 48, .rc, 0, []⟩]⟩,
  ⟨.HIF_FN_ID, 65536, 64, 128, 0, 1, 0, 0, false, [⟨0, 6, .ro, 0, []⟩, ⟨6, 1, .ro, 0, []⟩, ⟨8, 6, .ro, 0, []⟩, ⟨14, 1, .ro, 0, []⟩]⟩,
  ⟨.HIF_FN_STATUS, 65538, 64, 128, 0, 1, 0, 0, false, [⟨0, 2, .ro, 0, []⟩, ⟨8, 8, .ro, 0, []⟩, ⟨16, 7, .ro, 0, []⟩, ⟨23, 9, .ro, 0, []⟩]⟩,
  ⟨.HIF_FN_ERR, 65540, 64, 128, 0, 1, 0, 0, false, [⟨0, 1, .w1c, 0, []⟩, ⟨1, 1, .w1c, 0, []⟩, ⟨2, 1, .w1c, 0, []⟩, ⟨3, 1, .w1c, 0, []⟩, ⟨4, 1, .w1c, 0, []⟩]⟩,
  ⟨.HIF_FN_VEC, 65542, 64, 128, 0, 1, 0, 0, false, [⟨0, 5, .rw, 0, []⟩, ⟨5, 5, .rw, 0, []⟩, ⟨10, 5, .rw, 0, []⟩, ⟨15, 5, .rw, 0, []⟩, ⟨20, 5, .rw, 0, []⟩, ⟨25, 5, .rw, 0, []⟩]⟩,
  ⟨.HIF_FN_USE, 65544, 64, 128, 0, 1, 0, 0, true, [⟨0, 19, .ro, 0, []⟩, ⟨32, 25, .ro, 0, []⟩]⟩,
  ⟨.HIF_FN_QUOTA, 65548, 64, 128, 0, 1, 0, 0, true, [⟨0, 19, .ro, 0, []⟩, ⟨32, 17, .ro, 0, []⟩]⟩,
  ⟨.HIF_FN_WEIGHT, 65552, 64, 128, 0, 1, 0, 0, false, [⟨0, 32, .ro, 0, []⟩]⟩,
  ⟨.HIF_FN_MOD, 65554, 64, 128, 0, 6, 2, 0, false, [⟨0, 8, .rw, 16, [(1, 255)]⟩, ⟨16, 16, .rw, 50, []⟩]⟩,
  ⟨.RING_DB_ADDR, 65600, 64, 128, 0, 1, 0, 0, true, [⟨0, 1, .rw, 0, []⟩, ⟨6, 58, .rw, 0, []⟩]⟩,
  ⟨.RING_ST_ADDR, 65604, 64, 128, 0, 1, 0, 0, true, [⟨0, 1, .rw, 0, []⟩, ⟨6, 58, .rw, 0, []⟩]⟩,
  ⟨.RING_BASE, 65608, 64, 128, 0, 6, 4, 0, true, [⟨0, 5, .rw, 0, []⟩, ⟨12, 52, .rw, 0, []⟩]⟩,
  ⟨.RING_POLL, 65632, 64, 128, 0, 1, 0, 0, false, [⟨0, 12, .rw, 4, []⟩, ⟨12, 12, .rw, 400, []⟩]⟩,
  ⟨.RING_CTRL, 65634, 64, 128, 0, 1, 0, 0, false, [⟨0, 6, .rw, 0, []⟩]⟩,
  ⟨.RING_ERR, 65636, 64, 128, 0, 1, 0, 0, false, [⟨0, 6, .w1c, 0, []⟩, ⟨8, 3, .ro, 0, []⟩, ⟨12, 4, .ro, 0, []⟩, ⟨16, 16, .ro, 0, []⟩]⟩]

/-- The STK registers. -/
def regsStk : List RegDesc := [
  ⟨.STK_CLU_SVC, 172096, 12, 2, 0, 1, 0, 0, false, [⟨0, 2, .wo, 0, []⟩, ⟨4, 2, .ro, 2, []⟩, ⟨6, 1, .ro, 0, []⟩]⟩,
  ⟨.STK_CORE_CTL, 172288, 48, 32, 0, 1, 0, 0, false, [⟨0, 2, .wo, 0, [(1, 2)]⟩, ⟨4, 2, .ro, 0, []⟩, ⟨6, 1, .ro, 0, []⟩]⟩,
  ⟨.STK_CORE_CFG, 172290, 48, 32, 0, 1, 0, 0, false, [⟨0, 1, .rw, 0, []⟩]⟩,
  ⟨.STK_RVEC, 172292, 48, 32, 0, 1, 0, 0, true, [⟨0, 44, .rw, 0, []⟩]⟩,
  ⟨.STK_SWI, 172296, 48, 32, 0, 1, 0, 0, false, [⟨0, 8, .w1s, 0, []⟩]⟩,
  ⟨.STK_RST_INFO, 172300, 48, 32, 0, 1, 0, 0, true, [⟨0, 3, .ro, 0, []⟩, ⟨8, 8, .ro, 0, []⟩, ⟨16, 8, .ro, 0, []⟩, ⟨24, 8, .ro, 0, []⟩, ⟨32, 16, .ro, 0, []⟩]⟩,
  ⟨.STK_RST_PC, 172304, 48, 32, 0, 3, 4, 0, true, [⟨0, 64, .ro, 0, []⟩]⟩,
  ⟨.STK_RST_TIME, 172316, 48, 32, 0, 1, 0, 0, true, [⟨0, 64, .ro, 0, []⟩]⟩,
  ⟨.STK_CNT, 174080, 48, 16, 0, 4, 4, 0, true, [⟨0, 48, .rc, 0, []⟩]⟩]

/-- The MEM registers. -/
def regsMem : List RegDesc := [
  ⟨.MEM_LOCK, 176128, 1, 0, 0, 1, 0, 0, false, [⟨0, 1, .w1s, 0, []⟩]⟩,
  ⟨.MEM_CFG, 176130, 1, 0, 0, 1, 0, 0, false, [⟨0, 2, .rwl, 1, [(1, 2)]⟩, ⟨2, 2, .rwl, 2, [(0, 2)]⟩]⟩,
  ⟨.MEM_INIT, 176132, 1, 0, 0, 1, 0, 0, false, [⟨0, 2, .wo, 0, [(0, 2)]⟩, ⟨2, 1, .ro, 0, []⟩, ⟨4, 4, .ro, 0, []⟩, ⟨8, 8, .ro, 0, []⟩, ⟨16, 3, .ro, 0, []⟩]⟩,
  ⟨.MEM_STATUS, 176134, 1, 0, 0, 1, 0, 0, false, [⟨0, 1, .ro, 0, []⟩, ⟨1, 1, .ro, 0, []⟩, ⟨2, 2, .ro, 0, []⟩]⟩,
  ⟨.MEM_THR, 176136, 1, 0, 0, 1, 0, 0, false, [⟨0, 16, .rw, 1024, [(1, 65535)]⟩]⟩,
  ⟨.MEM_CNT, 176144, 5, 4, 0, 1, 0, 0, true, [⟨0, 48, .rc, 0, []⟩]⟩,
  ⟨.MEM_PROT_SEL, 176192, 1, 0, 0, 1, 0, 0, false, [⟨0, 3, .rw, 0, []⟩]⟩,
  ⟨.MEM_PROT_VIEW0, 176196, 1, 0, 0, 1, 0, 0, true, [⟨0, 44, .ro, 0, []⟩, ⟨63, 1, .ro, 0, []⟩]⟩,
  ⟨.MEM_PROT_VIEW1, 176200, 1, 0, 0, 1, 0, 0, true, [⟨0, 44, .ro, 0, []⟩]⟩,
  ⟨.MEM_SYM_CNT, 178176, 16, 64, 0, 10, 4, 0, true, [⟨0, 48, .rc, 0, []⟩]⟩]

/-- The SCR registers. -/
def regsScr : List RegDesc := [
  ⟨.SCR_START, 198400, 1, 0, 0, 1, 0, 0, true, [⟨0, 44, .rw, 0, []⟩]⟩,
  ⟨.SCR_END, 198404, 1, 0, 0, 1, 0, 0, true, [⟨0, 44, .rw, 0, []⟩]⟩,
  ⟨.SCR_DEST, 198408, 1, 0, 0, 1, 0, 0, true, [⟨0, 44, .rw, 0, []⟩]⟩,
  ⟨.SCR_CFG, 198412, 1, 0, 0, 1, 0, 0, false, [⟨0, 8, .rw, 16, [(1, 200)]⟩]⟩,
  ⟨.SCR_CMD, 198414, 1, 0, 0, 1, 0, 0, false, [⟨0, 2, .wo, 0, [(0, 2)]⟩, ⟨8, 1, .ro, 0, []⟩, ⟨12, 4, .ro, 0, []⟩]⟩,
  ⟨.SCR_PROG, 198416, 1, 0, 0, 1, 0, 0, true, [⟨0, 44, .ro, 0, []⟩]⟩]

/-- The TB registers. -/
def regsTb : List RegDesc := [
  ⟨.TB_LOCK, 190464, 1, 0, 0, 1, 0, 0, false, [⟨0, 1, .w1s, 0, []⟩]⟩,
  ⟨.TB_RATE, 190466, 1, 0, 0, 1, 0, 0, false, [⟨0, 32, .rw, 0, []⟩]⟩,
  ⟨.TB_NS, 190468, 1, 0, 0, 1, 0, 0, true, [⟨0, 64, .ro, 0, []⟩]⟩,
  ⟨.TB_FRAC, 190472, 1, 0, 0, 1, 0, 0, false, [⟨0, 32, .ro, 0, []⟩]⟩,
  ⟨.TB_STATUS, 190474, 1, 0, 0, 1, 0, 0, false, [⟨0, 1, .ro, 0, []⟩, ⟨1, 1, .ro, 0, []⟩]⟩,
  ⟨.TB_STEP, 190476, 1, 0, 0, 1, 0, 0, true, [⟨0, 64, .wo, 0, []⟩]⟩,
  ⟨.TB_HWM, 190480, 1, 0, 0, 1, 0, 0, true, [⟨0, 64, .ro, 0, []⟩]⟩,
  ⟨.TB_WD_SEL, 190496, 1, 0, 0, 1, 0, 0, false, [⟨0, 2, .rw, 0, []⟩, ⟨2, 6, .rw, 0, []⟩]⟩,
  ⟨.TB_WD_KICK, 190500, 1, 0, 0, 1, 0, 0, false, [⟨0, 2, .wo, 0, []⟩, ⟨2, 6, .wo, 0, []⟩, ⟨16, 16, .wo, 0, []⟩]⟩,
  ⟨.TB_WD_TRIAL, 190502, 1, 0, 0, 1, 0, 0, false, [⟨0, 1, .rw, 0, []⟩, ⟨1, 1, .rw, 0, []⟩, ⟨2, 1, .ro, 0, []⟩, ⟨3, 1, .w1c, 0, []⟩, ⟨8, 24, .rw, 60000, []⟩]⟩,
  ⟨.TB_WD_HANDLE, 190504, 1, 0, 0, 1, 0, 0, false, [⟨0, 1, .rwl, 0, []⟩, ⟨1, 1, .rw, 1, []⟩, ⟨2, 1, .ro, 0, []⟩, ⟨3, 1, .w1c, 0, []⟩, ⟨8, 24, .rwl, 1000, []⟩]⟩,
  ⟨.TB_WD_VIEW, 190508, 1, 0, 0, 1, 0, 0, true, [⟨0, 35, .ro, 0, []⟩]⟩,
  ⟨.TB_CNT, 190528, 5, 4, 0, 1, 0, 0, true, [⟨0, 48, .rc, 0, []⟩]⟩,
  ⟨.TB_CMP_VAL, 190720, 32, 8, 0, 1, 0, 0, true, [⟨0, 64, .rw, 0, []⟩]⟩,
  ⟨.TB_CMP_CFG, 190724, 32, 8, 0, 1, 0, 0, false, [⟨0, 1, .rw, 0, []⟩, ⟨1, 3, .rw, 0, []⟩, ⟨8, 24, .rw, 0, []⟩]⟩,
  ⟨.TB_CMP_RLD, 190726, 32, 8, 0, 1, 0, 0, false, [⟨0, 32, .rw, 0, []⟩]⟩,
  ⟨.TB_CMP_STAT, 190976, 32, 2, 0, 1, 0, 0, false, [⟨0, 1, .w1c, 0, []⟩, ⟨1, 1, .ro, 0, []⟩, ⟨2, 1, .ro, 0, []⟩, ⟨3, 1, .w1c, 0, []⟩]⟩,
  ⟨.TB_TMR_CFG, 191232, 16, 8, 0, 1, 0, 0, false, [⟨0, 2, .rw, 0, []⟩, ⟨2, 1, .rw, 0, []⟩, ⟨3, 1, .rw, 0, []⟩, ⟨4, 4, .rw, 0, []⟩, ⟨8, 1, .rw, 0, []⟩]⟩,
  ⟨.TB_TMR_TGT, 191234, 16, 8, 0, 1, 0, 0, false, [⟨0, 3, .rw, 0, []⟩, ⟨8, 24, .rw, 0, []⟩]⟩,
  ⟨.TB_TMR_PERIOD, 191236, 16, 8, 0, 1, 0, 0, false, [⟨0, 32, .rw, 1, [(1, 4294967295)]⟩]⟩,
  ⟨.TB_TMR_COUNT, 191238, 16, 8, 0, 1, 0, 0, false, [⟨0, 32, .ro, 0, []⟩]⟩,
  ⟨.TB_TMR_CTL, 191360, 16, 2, 0, 1, 0, 0, false, [⟨0, 2, .wo, 0, []⟩, ⟨4, 1, .ro, 0, []⟩, ⟨5, 1, .w1c, 0, []⟩, ⟨6, 1, .w1c, 0, []⟩]⟩,
  ⟨.TB_WD_CORE, 191488, 48, 2, 0, 1, 0, 0, false, [⟨0, 1, .rw, 0, []⟩, ⟨1, 1, .rw, 1, []⟩, ⟨2, 1, .ro, 0, []⟩, ⟨3, 1, .w1c, 0, []⟩, ⟨8, 24, .rw, 1000, []⟩]⟩,
  ⟨.TB_WD_HOOP, 191616, 32, 2, 0, 1, 0, 0, false, [⟨0, 1, .rw, 0, []⟩, ⟨1, 1, .rw, 1, []⟩, ⟨2, 1, .ro, 0, []⟩, ⟨3, 1, .w1c, 0, []⟩, ⟨8, 24, .rw, 1000, []⟩]⟩]

/-- The BOOT registers. -/
def regsBoot : List RegDesc := [
  ⟨.BOOT_STATUS, 197888, 1, 0, 0, 1, 0, 0, false, [⟨0, 4, .ro, 0, []⟩, ⟨4, 4, .ro, 0, []⟩, ⟨8, 1, .ro, 0, []⟩, ⟨9, 1, .ro, 0, []⟩, ⟨10, 1, .ro, 0, []⟩, ⟨11, 3, .ro, 0, []⟩, ⟨14, 2, .ro, 0, []⟩, ⟨16, 8, .ro, 0, []⟩]⟩,
  ⟨.BOOT_CONFIRM, 197890, 1, 0, 0, 1, 0, 0, false, [⟨0, 3, .wo, 0, [(3, 4)]⟩, ⟨16, 16, .wo, 0, []⟩]⟩,
  ⟨.BOOT_IMG_CMD, 197892, 1, 0, 0, 1, 0, 0, false, [⟨0, 4, .wo, 0, [(0, 5)]⟩, ⟨8, 1, .ro, 0, []⟩, ⟨12, 4, .ro, 0, []⟩, ⟨16, 8, .ro, 0, []⟩]⟩,
  ⟨.BOOT_IMG_ADDR, 197896, 1, 0, 0, 1, 0, 0, true, [⟨0, 44, .rw, 0, []⟩]⟩,
  ⟨.BOOT_IMG_ARG, 197900, 1, 0, 0, 1, 0, 0, true, [⟨0, 32, .rw, 0, []⟩, ⟨32, 3, .rw, 0, []⟩, ⟨35, 1, .rw, 0, []⟩, ⟨36, 6, .rw, 0, []⟩, ⟨42, 3, .rw, 0, []⟩]⟩,
  ⟨.BOOT_VER, 197904, 4, 2, 0, 1, 0, 0, false, [⟨0, 32, .ro, 0, []⟩]⟩,
  ⟨.BOOT_SVN, 197912, 1, 0, 0, 1, 0, 0, false, [⟨0, 7, .ro, 0, []⟩, ⟨8, 7, .ro, 0, []⟩, ⟨16, 7, .ro, 0, []⟩, ⟨24, 7, .ro, 0, []⟩]⟩,
  ⟨.BOOT_TIME, 197914, 1, 0, 0, 1, 0, 0, false, [⟨0, 32, .ro, 0, []⟩]⟩,
  ⟨.BOOT_MEAS_CMD, 197916, 1, 0, 0, 1, 0, 0, false, [⟨0, 4, .rw, 0, []⟩, ⟨8, 1, .wo, 0, []⟩]⟩,
  ⟨.BOOT_MEAS, 197920, 6, 4, 0, 1, 0, 0, true, [⟨0, 64, .ro, 0, []⟩]⟩,
  ⟨.BOOT_MEAS_DATA, 197952, 6, 4, 0, 1, 0, 0, true, [⟨0, 64, .rw, 0, []⟩]⟩]

/-- The PWR registers. -/
def regsPwr : List RegDesc := [
  ⟨.PWR_LOCK, 197376, 1, 0, 0, 1, 0, 0, false, [⟨0, 1, .w1s, 0, []⟩]⟩,
  ⟨.PWR_CTL, 197378, 1, 0, 0, 1, 0, 0, false, [⟨0, 2, .wo, 0, [(0, 1)]⟩, ⟨8, 1, .rw, 1, []⟩]⟩,
  ⟨.PWR_STATUS, 197380, 1, 0, 0, 1, 0, 0, false, [⟨0, 2, .ro, 0, []⟩, ⟨4, 3, .ro, 0, []⟩, ⟨8, 4, .ro, 0, []⟩, ⟨16, 1, .ro, 0, []⟩, ⟨17, 1, .ro, 0, []⟩, ⟨24, 8, .ro, 0, []⟩]⟩,
  ⟨.PWR_PMB, 197382, 1, 0, 0, 1, 0, 0, false, [⟨0, 1, .rwl, 1, []⟩, ⟨8, 8, .rwl, 10, [(1, 255)]⟩]⟩,
  ⟨.PWR_MON, 197384, 1, 0, 0, 1, 0, 0, false, [⟨0, 1, .rw, 1, []⟩, ⟨8, 8, .rw, 1, [(1, 255)]⟩]⟩,
  ⟨.PWR_THERM, 197386, 1, 0, 0, 1, 0, 0, false, [⟨0, 8, .rw, 140, [(0, 200)]⟩, ⟨8, 8, .rwl, 160, [(151, 200)]⟩]⟩,
  ⟨.PWR_SMB, 197388, 1, 0, 0, 1, 0, 0, false, [⟨0, 7, .rwl, 90, [(8, 11), (13, 39), (41, 54), (56, 96), (98, 119)]⟩, ⟨7, 1, .rwl, 1, []⟩]⟩,
  ⟨.PWR_ADOZE, 197390, 1, 0, 0, 1, 0, 0, false, [⟨0, 1, .rw, 1, []⟩, ⟨1, 1, .rw, 1, []⟩, ⟨8, 8, .rw, 4, [(1, 255)]⟩]⟩,
  ⟨.PWR_VSTEP, 197392, 1, 0, 0, 1, 0, 0, true, [⟨0, 16, .rwl, 900, []⟩, ⟨16, 16, .rwl, 800, []⟩, ⟨32, 16, .rwl, 750, []⟩, ⟨48, 16, .rwl, 700, []⟩]⟩,
  ⟨.PWR_DVFS, 197408, 12, 2, 0, 1, 0, 0, false, [⟨0, 2, .rw, 0, []⟩, ⟨4, 2, .ro, 0, []⟩, ⟨6, 1, .ro, 0, []⟩, ⟨8, 4, .ro, 0, []⟩]⟩,
  ⟨.PWR_REG, 197440, 8, 4, 0, 1, 0, 0, true, [⟨0, 7, .rwl, 0, []⟩, ⟨7, 1, .rwl, 0, []⟩, ⟨8, 8, .rwl, 255, []⟩, ⟨16, 3, .rwl, 0, []⟩, ⟨19, 1, .rwl, 0, []⟩, ⟨24, 8, .rwl, 10, [(1, 255)]⟩, ⟨32, 8, .rwl, 10, [(1, 255)]⟩, ⟨44, 16, .ro, 0, []⟩]⟩,
  ⟨.PWR_SUP, 197472, 8, 2, 0, 1, 0, 0, false, [⟨0, 8, .rwl, 50, [(20, 255)]⟩, ⟨8, 8, .rwl, 100, []⟩]⟩,
  ⟨.PWR_TEMP, 197504, 12, 2, 0, 1, 0, 0, false, [⟨0, 12, .ro, 0, []⟩, ⟨12, 1, .ro, 0, []⟩, ⟨13, 1, .ro, 0, []⟩]⟩,
  ⟨.PWR_VOLT, 197536, 8, 2, 0, 1, 0, 0, false, [⟨0, 12, .ro, 0, []⟩, ⟨12, 1, .ro, 0, []⟩]⟩,
  ⟨.PWR_CNT, 197632, 7, 4, 0, 1, 0, 0, true, [⟨0, 48, .rc, 0, []⟩]⟩]

/-- The DBG registers. -/
def regsDbg : List RegDesc := [
  ⟨.DBG_STATUS, 131072, 1, 0, 0, 1, 0, 0, false, [⟨0, 2, .ro, 0, []⟩, ⟨2, 2, .ro, 0, []⟩, ⟨4, 1, .ro, 0, []⟩, ⟨5, 2, .ro, 0, []⟩, ⟨7, 2, .ro, 0, []⟩]⟩,
  ⟨.DBG_AUTH_CMD, 131074, 1, 0, 0, 1, 0, 0, false, [⟨0, 2, .wo, 0, []⟩, ⟨2, 2, .wo, 0, [(0, 2)]⟩, ⟨4, 1, .wo, 0, []⟩]⟩,
  ⟨.DBG_AUTH_STATUS, 131076, 1, 0, 0, 1, 0, 0, false, [⟨0, 1, .ro, 0, []⟩, ⟨4, 4, .ro, 0, []⟩, ⟨8, 2, .ro, 0, []⟩, ⟨10, 1, .ro, 0, []⟩, ⟨11, 1, .ro, 0, []⟩]⟩,
  ⟨.DBG_AUTH_CHAL, 131088, 4, 4, 0, 1, 0, 0, true, [⟨0, 64, .ro, 0, []⟩]⟩,
  ⟨.DBG_AUTH_RESP, 131104, 24, 4, 0, 1, 0, 0, true, [⟨0, 64, .rw, 0, []⟩]⟩,
  ⟨.DBG_FRZ, 131200, 1, 0, 0, 1, 0, 0, false, [⟨0, 1, .rw, 0, []⟩, ⟨1, 1, .rw, 0, []⟩, ⟨2, 1, .rw, 0, []⟩, ⟨3, 1, .rw, 1, []⟩]⟩,
  ⟨.DBG_ACC_ADDR, 131204, 1, 0, 0, 1, 0, 0, true, [⟨0, 44, .rw, 0, []⟩]⟩,
  ⟨.DBG_ACC_DATA, 131208, 1, 0, 0, 1, 0, 0, true, [⟨0, 64, .rw, 0, []⟩]⟩,
  ⟨.DBG_ACC_CMD, 131212, 1, 0, 0, 1, 0, 0, false, [⟨0, 2, .wo, 0, []⟩, ⟨2, 2, .wo, 0, []⟩, ⟨4, 1, .wo, 0, []⟩, ⟨8, 1, .ro, 0, []⟩, ⟨12, 4, .ro, 0, []⟩]⟩,
  ⟨.DBG_CORE_CTL, 131584, 49, 64, 0, 1, 0, 0, false, [⟨0, 3, .wo, 0, [(0, 4)]⟩, ⟨4, 1, .rw, 0, []⟩, ⟨5, 1, .rw, 0, []⟩]⟩,
  ⟨.DBG_CORE_STAT, 131586, 49, 64, 0, 1, 0, 0, false, [⟨0, 1, .ro, 0, []⟩, ⟨1, 1, .ro, 0, []⟩, ⟨2, 4, .ro, 0, []⟩, ⟨6, 3, .ro, 0, []⟩, ⟨9, 1, .w1c, 0, []⟩, ⟨10, 8, .ro, 0, []⟩, ⟨18, 1, .ro, 0, []⟩, ⟨19, 1, .ro, 0, []⟩]⟩,
  ⟨.DBG_REGSEL, 131588, 49, 64, 0, 1, 0, 0, false, [⟨0, 11, .rw, 0, []⟩, ⟨11, 2, .rw, 0, []⟩, ⟨16, 1, .wo, 0, []⟩, ⟨17, 1, .wo, 0, []⟩, ⟨20, 4, .ro, 0, []⟩]⟩,
  ⟨.DBG_REGDATA, 131592, 49, 64, 0, 1, 0, 0, true, [⟨0, 64, .rw, 0, []⟩]⟩,
  ⟨.DBG_INSN, 131596, 49, 64, 0, 1, 0, 0, true, [⟨0, 48, .rw, 0, []⟩]⟩,
  ⟨.DBG_BW_ADDR, 131600, 48, 64, 0, 8, 4, 0, true, [⟨0, 42, .rw, 0, []⟩]⟩,
  ⟨.DBG_BW_CTL, 131632, 48, 64, 0, 8, 2, 0, false, [⟨0, 3, .rw, 0, []⟩, ⟨3, 1, .rw, 0, []⟩, ⟨4, 2, .rw, 0, []⟩, ⟨6, 1, .rw, 0, []⟩, ⟨7, 1, .rw, 0, []⟩, ⟨8, 3, .rw, 0, []⟩, ⟨11, 2, .rw, 0, [(0, 2)]⟩, ⟨13, 1, .w1c, 0, []⟩, ⟨16, 16, .rw, 0, []⟩]⟩,
  ⟨.DBG_VT_TX, 134912, 48, 4, 0, 1, 0, 0, false, [⟨0, 32, .ro, 0, []⟩]⟩,
  ⟨.DBG_VT_RX, 134914, 48, 4, 0, 1, 0, 0, false, [⟨0, 32, .wo, 0, []⟩]⟩,
  ⟨.DBG_ENG_CTL, 135168, 512, 32, 0, 1, 0, 0, false, [⟨0, 3, .wo, 0, []⟩, ⟨4, 1, .rw, 0, []⟩, ⟨12, 2, .rw, 0, []⟩]⟩,
  ⟨.DBG_ENG_STAT, 135170, 512, 32, 0, 1, 0, 0, false, [⟨0, 1, .ro, 0, []⟩, ⟨2, 4, .ro, 0, []⟩]⟩,
  ⟨.DBG_ENG_REGSEL, 135172, 512, 32, 0, 1, 0, 0, false, [⟨0, 11, .rw, 0, []⟩, ⟨11, 2, .rw, 0, []⟩, ⟨16, 1, .wo, 0, []⟩, ⟨17, 1, .wo, 0, []⟩, ⟨20, 4, .ro, 0, []⟩]⟩,
  ⟨.DBG_ENG_REGDATA, 135176, 512, 32, 0, 1, 0, 0, true, [⟨0, 64, .rw, 0, []⟩]⟩,
  ⟨.DBG_ENG_BP, 135184, 512, 32, 0, 2, 4, 0, true, [⟨0, 24, .rw, 0, []⟩, ⟨24, 1, .rw, 0, []⟩, ⟨25, 4, .rw, 0, []⟩]⟩]

/-- The TRC registers. -/
def regsTrc : List RegDesc := [
  ⟨.TRC_CTL, 192512, 1, 0, 0, 1, 0, 0, false, [⟨0, 1, .rw, 0, []⟩, ⟨8, 5, .rw, 10, [(6, 16)]⟩]⟩,
  ⟨.TRC_FUN, 192514, 1, 0, 0, 1, 0, 0, false, [⟨0, 4, .rw, 8, []⟩, ⟨8, 4, .rw, 12, [(0, 0), (2, 15)]⟩, ⟨12, 4, .rw, 13, [(0, 0), (2, 15)]⟩, ⟨16, 4, .rw, 14, [(0, 0), (2, 15)]⟩, ⟨20, 4, .rw, 15, [(0, 0), (2, 15)]⟩]⟩,
  ⟨.TRC_STATUS, 192516, 1, 0, 0, 1, 0, 0, false, [⟨0, 5, .ro, 0, []⟩, ⟨8, 4, .ro, 0, []⟩, ⟨12, 1, .ro, 0, []⟩, ⟨13, 1, .ro, 0, []⟩]⟩,
  ⟨.TRC_SINK_BASE, 192520, 1, 0, 0, 1, 0, 0, true, [⟨0, 44, .rw, 0, []⟩]⟩,
  ⟨.TRC_SINK_CFG, 192524, 1, 0, 0, 1, 0, 0, false, [⟨0, 2, .rw, 0, []⟩, ⟨2, 1, .rw, 1, []⟩, ⟨16, 16, .rw, 1, []⟩]⟩,
  ⟨.TRC_SINK_WPTR, 192528, 1, 0, 0, 1, 0, 0, true, [⟨0, 40, .ro, 0, []⟩]⟩,
  ⟨.TRC_BUFADDR, 192532, 1, 0, 0, 1, 0, 0, false, [⟨3, 17, .rw, 0, []⟩]⟩,
  ⟨.TRC_BUFDATA, 192536, 1, 0, 0, 1, 0, 0, true, [⟨0, 64, .ro, 0, []⟩]⟩,
  ⟨.TRC_ADDR_LO, 192544, 4, 8, 0, 1, 0, 0, true, [⟨0, 44, .rw, 0, []⟩]⟩,
  ⟨.TRC_ADDR_HI, 192548, 4, 8, 0, 1, 0, 0, true, [⟨0, 44, .rw, 0, []⟩]⟩,
  ⟨.TRC_CNT, 192576, 4, 4, 0, 1, 0, 0, true, [⟨0, 48, .rc, 0, []⟩]⟩,
  ⟨.TRC_SRC, 192768, 128, 2, 0, 1, 0, 0, false, [⟨0, 1, .rw, 0, []⟩, ⟨1, 2, .rw, 0, []⟩, ⟨4, 3, .rw, 7, []⟩, ⟨8, 8, .rw, 255, []⟩, ⟨16, 3, .rw, 0, []⟩]⟩]

/-- The CNT registers. -/
def regsCnt : List RegDesc := [
  ⟨.CNT_CTL, 198656, 1, 0, 0, 1, 0, 0, false, [⟨0, 1, .rw, 0, []⟩, ⟨1, 1, .rw, 0, []⟩, ⟨16, 16, .rw, 1000, []⟩]⟩,
  ⟨.CNT_CMD, 198658, 1, 0, 0, 1, 0, 0, false, [⟨0, 1, .wo, 0, []⟩, ⟨8, 1, .ro, 0, []⟩]⟩,
  ⟨.CNT_DUMP_BASE, 198660, 1, 0, 0, 1, 0, 0, true, [⟨0, 44, .rw, 0, []⟩]⟩,
  ⟨.CNT_DUMP_CFG, 198664, 1, 0, 0, 1, 0, 0, false, [⟨0, 8, .rw, 16, []⟩]⟩,
  ⟨.CNT_STATUS, 198668, 1, 0, 0, 1, 0, 0, true, [⟨0, 32, .ro, 0, []⟩, ⟨32, 8, .ro, 0, []⟩, ⟨40, 1, .w1c, 0, []⟩]⟩]

/-- The ERR registers. -/
def regsErr : List RegDesc := [
  ⟨.ERR_CTL, 195584, 1, 0, 0, 1, 0, 0, false, [⟨0, 2, .rw, 1, []⟩, ⟨2, 1, .rw, 1, []⟩, ⟨3, 1, .rw, 1, []⟩]⟩,
  ⟨.ERR_STATUS, 195586, 1, 0, 0, 1, 0, 0, false, [⟨0, 9, .ro, 0, []⟩, ⟨9, 3, .ro, 0, []⟩, ⟨16, 16, .ro, 0, []⟩]⟩,
  ⟨.ERR_LOG_SEL, 195588, 1, 0, 0, 1, 0, 0, false, [⟨0, 8, .rw, 0, []⟩]⟩,
  ⟨.ERR_LOG_CMD, 195590, 1, 0, 0, 1, 0, 0, false, [⟨0, 2, .wo, 0, [(0, 1)]⟩, ⟨8, 1, .ro, 0, []⟩]⟩,
  ⟨.ERR_RST, 195592, 1, 0, 0, 1, 0, 0, false, [⟨0, 2, .wo, 0, [(0, 2)]⟩, ⟨2, 5, .wo, 0, []⟩, ⟨8, 5, .wo, 0, []⟩, ⟨16, 16, .wo, 0, []⟩]⟩,
  ⟨.ERR_LOG, 195600, 4, 4, 0, 1, 0, 0, true, [⟨0, 64, .ro, 0, []⟩]⟩,
  ⟨.ERR_CNT, 195648, 6, 4, 0, 1, 0, 0, true, [⟨0, 48, .rc, 0, []⟩]⟩]

/-- Every register of control space and the function pages. -/
def regMap : List RegDesc :=
  regsMle ++ regsFp ++ regsBsk ++ regsWv ++ regsHoop ++ regsPair ++ regsRfx ++ regsOrd ++ regsLdg ++ regsRim ++ regsHif ++ regsStk ++ regsMem ++ regsScr ++ regsTb ++ regsBoot ++ regsPwr ++ regsDbg ++ regsTrc ++ regsCnt ++ regsErr

end Sys2Proof.Machine
end

