-- ==== Sys2Proof/Machine/State.lean ====
section
/-!
DEFINITION. The state of the Vezan as plain data: the register fields (one home each), the tables, buffers, queues and engines
that the spec gives each block, the model's own fields, the queue of waiting commands, and the state after reset.
-/
namespace Sys2Proof.Machine

/-! ### Outputs -/

/-- What the Vezan sends to the outside. The model's own record of it, newest first (a log entry names it). -/
inductive Out where
  /-- A frame on link l of field port p, destination address through FCS. -/
  | fpFrame (p l : Nat) (bytes : List Byte)
  /-- A frame on rim link i. -/
  | rimFrame (i : Nat) (bytes : List Byte)
  /-- A memory write to the host by function f, with its Relaxed Ordering attribute. -/
  | hostWrite (f addr : Nat) (bytes : List Byte) (ro : Bool)
  /-- A memory read issued to the host by function f. -/
  | hostRead (f addr len : Nat)
  /-- An MSI-X message of function f. -/
  | msix (f vec addr data : Nat)
  /-- The data of a register or memory read, returned to its requester. -/
  | readData (off val : Nat)
  /-- Bytes returned on the SMBus target. -/
  | smb (bytes : List Byte)
  /-- A PMBus master transaction: regulator address, command, data. -/
  | pmbus (addr cmd data : Nat)
  /-- THERMTRIP_N asserted. -/
  | thermtrip
  /-- A trace unit of 64 B or a packet given to the sink. -/
  | tdo (bits val : Nat)
  /-- The host interface's answer to a request it refuses: Unsupported Request or Completer Abort. -/
  | hostError (f : Nat) (err : DmaErr)
  /-- A configuration request answered with Request Retry Status (R182). -/
  | cfgRetry (f : Nat)
  /-- An error message of function f: 0 correctable, 1 non-fatal, 2 fatal (R192). -/
  | errMsg (f kind : Nat)
  deriving DecidableEq, Repr

/-! ### Message layer (chapter 2) -/

/-- The states of a key slot (R54). -/
inductive SlotState where
  | empty | current | next | old | retired
  deriving DecidableEq, Repr

/-- One key slot: state, 128-bit key, epoch, and the replay window H, MAP (R31, R35). -/
structure KeySlot where
  st : SlotState := .empty
  key : BitVec 128 := 0
  epoch : Nat := 0
  h : Nat := 0
  map : Nat := 0
  deriving DecidableEq, Repr

/-- A rekey in progress (R54): sends so far, and the LBLOB its REKEYs carry. -/
structure Rekey where
  sends : Nat := 0
  due : Bool := false
  lblob : List Byte := []
  deriving DecidableEq, Repr

/-- The inventory entry of a registered lantern with its two key slots (R12, R31, R35, R38, R54). -/
structure Lantern where
  uid : Nat := 0
  owner : Nat := 0
  gw : Nat := 0
  suspended : Bool := false
  /-- Slot of epoch parity 0. -/
  slot0 : KeySlot := {}
  /-- Slot of epoch parity 1. -/
  slot1 : KeySlot := {}
  /-- SEQ of the last message sent in the current epoch. -/
  txSeq : Nat := 0
  /-- Event 0x0204 raised in this epoch for the receive direction, and for the egress direction. -/
  warnRx : Bool := false
  warnTx : Bool := false
  /-- Event 0x0205 raised in this epoch. -/
  acked : Bool := false
  /-- Tag failures in this management tick, and whether event 0x0203 was raised in it. -/
  tagFails : Nat := 0
  tagEvent : Bool := false
  rekey : Option Rekey := none
  deriving DecidableEq, Repr

/-- A gateway table entry (R27). -/
structure Gateway where
  hi : Nat := 0
  lo : Nat := 0
  cfg : Nat := 0xCA12
  deriving DecidableEq, Repr

/-- An entry of the unregistered-UID table (R60). -/
structure Unreg where
  uid : Nat
  hello : Bool
  port : Nat
  src : Nat
  count : Nat
  deriving DecidableEq, Repr

/-- An inventory operation with its operands, as MLE_INV_CMD takes them (R58). -/
structure InvCmd where
  op : Nat
  uid : Nat
  lix : Nat
  owner : Nat
  gw : Nat
  deriving DecidableEq, Repr

/-- A key operation with its operands, as MLE_KEY_CMD takes them (R58). -/
structure KeyCmd where
  op : Nat
  lix : Nat
  epoch : Nat
  dblob : List Byte
  lblob : List Byte
  deriving DecidableEq, Repr

/-- The message layer's own state. -/
structure MleS where
  /-- Inventory and key store by local index; only registered lanterns are listed. -/
  inv : Tab Lantern := []
  gw : Tab Gateway := []
  unreg : List Unreg := []
  /-- Refusals added to MLE_UNREG_OVF in this management tick. -/
  ovfTick : Nat := 0
  invPend : Option InvCmd := none
  keyPend : Option KeyCmd := none
  /-- Lanterns whose REKEY is due, in the order in which it came due (R63). -/
  due : List Nat := []
  /-- The port served next by the round-robin of R63. -/
  rr : Nat := 0
  deriving DecidableEq, Repr

/-! ### Field ports (chapter 3) -/

/-- A datagram in a port's MLP receive buffer: UDP payload, IPv6 source address, and the time base when it arrived (R36, R60, R71). -/
structure Dgram where
  bytes : List Byte
  src : Nat
  arr : Nat := 0
  deriving DecidableEq, Repr

/-- A frame waiting on a link for transmission, and whether that link is another than FP_NH_ENTRY.LINK (R75). -/
structure TxFrame where
  link : Nat
  bytes : List Byte
  moved : Bool := false
  deriving DecidableEq, Repr

/-- A frame in a port's slow-lane receive buffer, as its queue entry will hold it (R77): link, tagged, receive timestamp, the bytes from
the destination address to the last one before the FCS. -/
structure SlowFrame where
  link : Nat
  tagged : Bool
  ns : Nat
  frac : Nat
  body : List Byte
  deriving DecidableEq, Repr

/-- An entry of the transmit timestamp FIFO (R81). -/
structure TxStamp where
  ns : Nat
  frac : Nat
  cookie : Nat
  link : Nat
  deriving DecidableEq, Repr

/-- A field port's own state, beside its registers. -/
structure FpS where
  buf : List Dgram := []
  /-- The slow-lane receive buffer, oldest frame first (R77). -/
  slow : List SlowFrame := []
  txq : List TxFrame := []
  fifo : List TxStamp := []
  /-- Links in their hold-off, links whose hold-off must restart at the next FEC lock, links that lost lock since usable: bit masks. -/
  holdoff : Nat := 0
  lost : Nat := 0
  /-- Lanes powered and transmitting (Table 3-3). -/
  lanesOn : Bool := false
  /-- Slow-lane tokens missing from a full bucket, in millionths of a frame (R77). -/
  slUsed : Nat := 0
  /-- Deficits of MLP and slow-lane egress, and whether the slow lane has the turn (R76). -/
  dMlp : Nat := 0
  dSlow : Nat := 0
  slowTurn : Bool := false
  /-- 0x0A and 0x0B drops in this management tick, and whether event 0x0303 was raised in it (R72). -/
  tickA : Nat := 0
  tickB : Nat := 0
  hiwatEvent : Bool := false
  /-- Messages withheld for an invalid next hop in this tick, and the first such gateway (R74). -/
  nhTick : Nat := 0
  nhFirst : Nat := 0
  deriving DecidableEq, Repr

/-- The field ports: the four ports and the shared next-hop table (MAC, link, valid). -/
structure FpAll where
  port : Tab FpS := []
  nh : Tab Nat := []
  deriving DecidableEq, Repr

/-! ### The Basket (chapter 4) -/

/-- One entry of a queue (R91): its words, or a marker, with the tags its producer gave it. -/
structure Entry where
  words : List Word := []
  /-- Cells of a discarded entry that still lie in a spill block: a filler, delivered to nobody (R94). -/
  dead : Nat := 0
  /-- A hand-off entry (Table 5-2), not an admitted message. -/
  hand : Bool := false
  /-- A drain marker and its producer: 0 message layer, 1 RL0, 2 RL1 (R135). -/
  mark : Option Nat := none
  /-- The GEN with which a command or bulk-out entry was fetched (R196). -/
  gen : Nat := 0
  /-- The command ring index of a command or completion (R214). -/
  cidx : Nat := 0
  /-- The enable of its ring that a command or bulk-out entry was read under. -/
  ep : Nat := 0
  poison : Bool := false
  /-- An entry of a shard that a forced SMOVE took away from its queue: the hoop that takes the queue discards it (R135). -/
  lost : Bool := false
  deriving DecidableEq, Repr

/-- A queue: configuration, contents oldest first (HEAD, then LOW, then TAIL), segment sizes, counts (R89, R94, R110). -/
structure Queue where
  enable : Bool
  cls : Nat
  owner : Nat
  odq : Nat
  ltq : Nat := 0
  policy : Nat
  es : List Entry := []
  spilled : Bool := false
  /-- Cells in HEAD, the last 16 × refillFly of them still in flight; blocks in LOW; cells in TAIL. -/
  head : Nat := 0
  low : Nat := 0
  tail : Nat := 0
  /-- Spill blocks whose write, and refill blocks whose read, is in progress. -/
  spillFly : Nat := 0
  refillFly : Nat := 0
  committed : Nat := 0
  dequeued : Nat := 0
  dropped : Nat := 0
  /-- Drops of this management tick by reason 0x01…0x08. -/
  tickDrops : List Nat := []
  /-- Event 0x0401, and event 0x0405, raised in this management tick. -/
  spillEvent : Bool := false
  fullEvent : Bool := false
  /-- Entries a pending FLUSH still has to discard, when one waits (R105). -/
  flush : Option Nat := none
  /-- The numbers of its cells on die, in order: HEAD, the blocks being written, TAIL (R88). -/
  cells : List Nat := []
  deriving DecidableEq, Repr

/-- An entry a producer holds for a retry under HOLD (R99), for the ring engine: function and bulk-out descriptor index. -/
structure Held where
  q : Nat
  e : Entry
  deriving DecidableEq, Repr

/-- A queue-access command of a stake core in progress (R109). -/
structure QaCmd where
  core : Nat
  op : Nat
  q : Nat
  len : Nat
  addr : Nat
  deriving DecidableEq, Repr

/-- An event or error noted while the Basket works, raised at the end of the same command. -/
structure Note where
  fn : Nat
  code : Nat
  par : List (Nat × Nat)
  deriving DecidableEq, Repr

/-- The Basket's own state. -/
structure BskS where
  q : Tab Queue := []
  /-- Shard map: shard to (lantern queue, valid) where it differs from reset (R90). -/
  shard : Tab (Nat × Bool) := []
  held : List Held := []
  qa : List QaCmd := []
  /-- Events noted while a step runs. -/
  notes : List Note := []
  /-- Entries delivered by BSK_DEQUEUE and not yet worked on, by queue. -/
  taken : Tab (List Entry) := []
  /-- The lower tier was found outside installed DRAM when its lock was set: SIZE counts as 0 (R96). -/
  ltOff : Bool := false
  /-- Whether 0x0404 is already raised in the management tick. -/
  lowEvent : Bool := false
  /-- The bank whose turn it is to give a cell (R88). -/
  bank : Nat := 0
  /-- Next cell of the scrub pass (R108). -/
  scrub : Nat := 0
  /-- ESEQ, RSEQ and BSEQ of each function: numbers given at commit (R215, R216, R218). -/
  eseq : Tab Nat := []
  rseq : Tab Nat := []
  bseq : Tab Nat := []
  deriving DecidableEq, Repr
/-! ### Hoops, stock program, pairing, customer programs, reflex (chapter 5) -/

/-- An expectation: the content of a hand-off entry (Table 5-2). -/
structure Expect where
  side : Nat
  cls : Nat
  sigf : Nat
  hops : Nat
  track : Nat
  eta : Nat
  win : Nat
  origin : Nat
  otime : Nat
  sig : List Byte
  deriving DecidableEq, Repr

/-- A lantern's record and expectation slots (R117): successor lists (16 quads), customer area, detector health, the detections of
the last 10 s the queue estimate uses (time, direction, speed), and up to eight expectations. -/
structure LRec where
  succ : List Nat := []
  cust : List Word := []
  unhealthy : Bool := false
  recent : List (Nat × Nat × Nat) := []
  slots : List Expect := []
  deriving DecidableEq, Repr

/-- A track the stock program follows (R119, R120): `path` holds the lanterns it passed, each with its number among them and its time; `away` is
the latest end of a window it waits for on another device, 0 when there is none. -/
structure Track where
  hoop : Nat
  cls : List Nat
  origin : Nat
  otime : Nat
  last : Nat
  ltime : Nat
  path : List (Nat × Nat × Nat)
  hops : Nat
  spSum : Nat
  spN : Nat
  flags : Nat
  away : Nat := 0
  deriving DecidableEq, Repr

/-- One interval of a count site in progress (R121): interval start, detections and speed sums per class, PARTIAL. -/
structure SiteAcc where
  start : Nat
  cnt : List Nat
  spd : List Nat
  degraded : Bool
  partly : Bool
  deriving DecidableEq, Repr

/-- A count site: its quad 0 (R213), the intervals in progress, the end of the next interval to write, LATE, and the last queue estimate
written. -/
structure Site where
  q0 : Nat := 0
  accs : List SiteAcc := []
  nextEnd : Nat := 0
  late : Nat := 0
  qEst : Nat := 0
  deriving DecidableEq, Repr

/-- A WAVE snapshot whose parts are being joined (R122). -/
structure Wave where
  lix : Nat
  snap : Nat
  t0 : Nat
  ts : Nat
  mask : Nat
  samples : List Nat
  deriving DecidableEq, Repr

/-- What a busy context does with its entry: the stock program is ready to run, wants the pairing unit, waits for its scores. -/
inductive CtxPhase where
  | run | wantPairing | pairing
  deriving DecidableEq, Repr

/-- A context that holds an entry (R116): hoop, engine 0…15, context, queue, shard, entry, next DETECT record, phase. -/
structure Ctx where
  hoop : Nat
  eng : Nat
  ctx : Nat
  q : Nat
  shard : Nat
  entry : Entry
  next : Nat := 0
  phase : CtxPhase := .run
  deriving DecidableEq, Repr

/-- A pairing job (R123): its context, the query signature with its format, and the candidates it names, as they stand when it is submitted. -/
structure PairJob where
  hoop : Nat
  eng : Nat
  ctx : Nat
  query : List Byte
  sigf : Nat
  lix : Nat
  cands : List Expect
  deriving DecidableEq, Repr

/-- A queued invocation of a customer program (R125). -/
structure Invoc where
  part : Nat
  fn : Nat
  lix : Nat
  entry : Entry
  deriving DecidableEq, Repr

/-- An invocation running in context 3 of an engine (R126). -/
structure Running where
  eng : Nat
  inv : Invoc
  outResult : Nat := 0
  outReason : Nat := 0
  deriving DecidableEq, Repr

/-- A migration in progress or pending (R135). -/
structure Mig where
  op : Nat
  queue : Nat
  shard : Nat
  dhoop : Nat
  src : Nat
  pend : Bool := false
  deriving DecidableEq, Repr

/-- The hoops' own state. -/
structure HoopS where
  /-- Shard table where it differs from reset (R115). -/
  shardT : Tab Nat := []
  ctxs : List Ctx := []
  /-- Pairing jobs in arrival order, and the result words of each context (by thread number): a score, or "no score" (R123, R124). -/
  jobs : List PairJob := []
  scores : Tab (List (Option Int)) := []
  /-- Last queue each dispatcher visited. -/
  rr : Tab Nat := []
  /-- Lantern records with their slots as the caches and DRAM together hold them; the DRAM copy, records by local index and slot lines by
      their number 4n + k, two slots a line; the lines each hoop's cache holds, by their place in the region in units of 256 B (R117). -/
  recs : Tab LRec := []
  dram : Tab LRec := []
  dramSl : Tab (List Expect) := []
  cached : Tab (List Nat) := []
  tracks : Tab Track := []
  /-- Next track count of each hoop (R120). -/
  trackNo : Tab Nat := []
  sites : Tab Site := []
  waves : List Wave := []
  /-- Queued invocations of each hoop (R125) and running ones. -/
  invq : Tab (List Invoc) := []
  running : List Running := []
  /-- Strand-time shares: deficits in hoop cycles by 64 × hoop + function, and the function served last in each hoop (R189). -/
  strDef : Tab Nat := []
  strRr : Tab Nat := []
  /-- The function of the previous invocation in context 3 of each engine, plus one (R126). -/
  lastFn : Tab Nat := []
  mig : Option Mig := none
  /-- Per management tick: expectations replaced and entries discarded by hoop; abandoned invocations by partition (count, first cause, the
      function then). -/
  replTick : Tab Nat := []
  discTick : Tab Nat := []
  abTick : Tab (Nat × Nat × Nat) := []
  /-- When each hoop last left service (R122). -/
  outAt : Tab Nat := []
  /-- Management ticks since the last write-back. -/
  wbTicks : Nat := 0
  /-- Idle hoops in Doze (R349). -/
  doze : Tab Bool := []
  deriving DecidableEq, Repr

/-- A DETECT record the reflex unit has read (R17): lantern, BASE, record bytes, admission time, record number. -/
structure RfxIn where
  lix : Nat
  base : Nat
  bytes : List Byte
  adm : Nat
  idx : Nat
  deriving DecidableEq, Repr

/-- The reflex unit's own state: entries of eight quads and curves of five (R127, R128), records read, and whether a record of the
present DETECT has triggered already (R131). -/
structure RfxS where
  ent : Tab (List Nat) := []
  crv : Tab (List Nat) := []
  inq : List RfxIn := []
  triggered : Bool := false
  deriving DecidableEq, Repr
/-! ### Orders and the ledger (chapter 6) -/

/-- The order merge's record of a lantern (Table 6-9): class and calendars, dark set, last ORDER, acknowledgement, reflex register, and
the slots for which it has now been deferred in a row (event 0x0604). -/
structure OLan where
  cls : Nat := 0
  fbcal : Nat := 0
  schcal : Nat := 0
  codes : List Nat := []
  dovf : Bool := false
  llevel : Nat := 0
  lvalid : Bool := false
  lsrc : Nat := 0
  ack : Nat := 0
  tries : Nat := 0
  lslot : Nat := 0
  rlevel : Nat := 0
  rv : Bool := false
  rfade : Nat := 0
  rexp : Nat := 0
  deferred : Nat := 0
  deriving DecidableEq, Repr

/-- A road class (R149, Table 6-9). -/
structure RoadClass where
  floor : Nat := 0
  ceil : Nat := 1000
  fclevel : Nat := 0
  fcn : Nat := 0
  darkcal : Nat := 0
  relfade : Nat := 1000
  flfade : Nat := 1000
  fcfade : Nat := 1000
  deriving DecidableEq, Repr

/-- A valid order record (R142). -/
structure OrdRec where
  first : Nat
  last : Nat
  fn : Nat
  /-- 0 ad hoc, 1 lockout. -/
  kind : Nat
  level : Nat
  fade : Nat
  start : Nat
  stop : Nat
  cseq : Nat
  deriving DecidableEq, Repr

/-- The merge's result for a lantern registered at a cut-off (R140), with the HLEVEL and HTIME its ORDER would carry (R151). -/
structure OrdRes where
  lix : Nat
  uid : Nat
  level : Nat
  fade : Nat
  src : Nat
  hlevel : Nat
  htime : Nat
  deriving DecidableEq, Repr

/-- A cut-off that has passed and is not yet swept: the index of its slot, and the results from the state the sources held then (R140). -/
structure OrdCut where
  slot : Nat
  res : List OrdRes
  deriving DecidableEq, Repr

/-- A due lantern of the last sweep that is not enqueued yet (R150): its result, its priority class 1…5, and which cases hold. -/
structure OrdDue where
  res : OrdRes
  cls : Nat
  caseC : Bool
  caseD : Bool
  deriving DecidableEq, Repr

/-- What the merge last sent for one side of a dark lantern (R172): device, targets, management ticks since. -/
structure CompOut where
  dev : Nat
  targets : List Nat
  ticks : Nat
  deriving DecidableEq, Repr

/-- An entry of the remote compensation table (R173); `expiry` in the merge's count of management ticks. -/
structure RComp where
  sdev : Nat
  slan : Nat
  side : Nat
  targets : List Nat
  expiry : Nat
  deriving DecidableEq, Repr

/-- The order merge's own state. Calendars and day programs are held as their quads (Table 6-9). -/
structure OrdS where
  lan : Tab OLan := []
  cls : Tab RoadClass := []
  cal : Tab (List Nat) := []
  prog : Tab (List Nat) := []
  recs : Tab OrdRec := []
  cseq : Nat := 0
  /-- Index of the next slot whose cut-off has not come (its start is 1,000,000 ns times this), and the LEAD its cut-off uses; the cut-offs
      that wait for their sweep, oldest first (R140). -/
  next : Nat := 1
  lead : Nat := 500
  cuts : List OrdCut := []
  /-- One more than the last local index enqueued in each class 1…5. -/
  rot : List Nat := [0, 0, 0, 0, 0]
  /-- Due lanterns of the last sweep still waiting for room, and the ORDERs it may still enqueue. -/
  todo : List OrdDue := []
  left : Nat := 0
  compOut : Tab CompOut := []
  remote : List RComp := []
  /-- Event 0x0706 raised in this management tick; management ticks so far. -/
  ctabFull : Bool := false
  ticks : Nat := 0
  /-- In this management tick: acknowledgements failed, lanterns deferred, longest deferral. -/
  ackFails : Nat := 0
  defCount : Nat := 0
  defLong : Nat := 0
  deriving DecidableEq, Repr

/-- A ledger record (Table 6-4). -/
structure LdgRec where
  engid : Nat := 0
  drvid : Nat := 0
  eq : Nat := 0
  type : Nat := 0
  known : Nat := 0
  ecyc : Nat := 0
  tflags : Nat := 0
  dsec : Nat := 0
  einst : Nat := 0
  dinst : Nat := 0
  laststat : Nat := 0
  bcyc : Nat := 0
  bdrv : Nat := 0
  lasten : Nat := 0
  beact : Nat := 0
  etot : Nat := 0
  last12 : Nat := 0
  nstat : Nat := 0
  nenergy : Nat := 0
  deriving DecidableEq, Repr

/-- What a function gathered in the present energy period (R160): digits added, lanterns whose ENERGY was applied, meter restarts. -/
structure EnAcc where
  delta : Nat := 0
  lix : List Nat := []
  restarts : Nat := 0
  deriving DecidableEq, Repr

/-- The ledger's own state beside its records, which lie in DRAM (R155): rated lives (hours, cycles, driver hours), ageing tables (128 factors), the energy period in
progress and the records that wait for the next management tick. -/
structure LdgS where
  types : Tab (List Nat) := []
  age : Tab (List Nat) := []
  acc : Tab EnAcc := []
  /-- Where the period started. -/
  start : Nat := 0
  /-- A boundary that the time base has passed and that ENERGY_PERIOD_BOUNDARY has not yet handled. -/
  due : Option Nat := none
  /-- Records to write: function, record body. -/
  out : List (Nat × List Byte) := []
  deriving DecidableEq, Repr
/-! ### Rim links (chapter 7) -/

/-- A rim link's own state, beside its registers. -/
structure RimLink where
  /-- Transmitters on. -/
  lanesOn : Bool := false
  /-- The FEC hold-off runs; it has ended and IDENT frames are exchanged (R166). -/
  holdoff : Bool := false
  ident : Bool := false
  /-- Frames sent in pools R and H (the next PSEQ), and frames the peer has freed (R168). -/
  txR : Nat := 0
  txH : Nat := 0
  freedR : Nat := 0
  freedH : Nat := 0
  /-- Next PSEQ expected in each pool, and frames freed here (FREED_R, FREED_H of frames sent). -/
  rxR : Nat := 0
  rxH : Nat := 0
  ownR : Nat := 0
  ownH : Nat := 0
  deriving DecidableEq, Repr

/-- The rim: both links, the boundary lantern set (the local indexes whose bit is set), and this tick's rises for event 0x0705. -/
structure RimS where
  link : Tab RimLink := []
  bset : Tab Bool := []
  rise : List Nat := []
  deriving DecidableEq, Repr
/-! ### Host interface and rings (chapters 8 and 9) -/

/-- What a DMA read is for. The number is the ring index of the descriptor. -/
inductive RdKind where
  | doorbell
  | cmd (i : Nat)
  | bout (i : Nat)
  | bin (i : Nat)
  /-- A read whose ring was stopped since: its data is dropped. -/
  | stale
  deriving DecidableEq, Repr

/-- A DMA read, waiting to be issued or outstanding. -/
structure DmaRd where
  kind : RdKind
  addr : Nat
  len : Nat
  deriving DecidableEq, Repr

/-- An entry of a MSI-X table. -/
structure MsixEnt where
  addr : Nat := 0
  data : Nat := 0
  ctl : Nat := 1
  deriving DecidableEq, Repr

/-- An entry kept until its publication is acknowledged (R197): its ring (2, 3 or 5), the status write that published it (0: none yet), and
whether a reset of the host side has made its delivery due again. -/
structure Kept where
  ring : Nat
  entry : Entry
  sw : Nat := 0
  redo : Bool := false
  deriving DecidableEq, Repr

/-- A command from the scheduling of its read to the passing of CMD_C (R212). -/
structure CmdSlot where
  idx : Nat
  /-- The descriptor has been read. -/
  fetched : Bool := false
  done : Bool := false
  /-- The enable of the command ring that it was read under (`FnS.cep`). -/
  ep : Nat := 0
  deriving DecidableEq, Repr

/-- A posted bulk-in buffer (R218): descriptor index, host address, length. -/
structure BinBuf where
  idx : Nat
  addr : Nat
  len : Nat
  deriving DecidableEq, Repr

/-- A function's own state, beside its page registers. -/
structure FnS where
  /-- Configuration space: Bus Master Enable, Memory Space Enable, Enable Relaxed Ordering, MSI-X Enable and Function Mask. -/
  bme : Bool := false
  mse : Bool := false
  ero : Bool := true
  msixEn : Bool := false
  fmask : Bool := false
  /-- The other fields of configuration space that the host writes (R181, R185, R192). -/
  cfg : DevCtl := {}
  /-- AER of a VF (R192): uncorrectable and correctable status and the header log; the PF's are HifS's. -/
  aer : Nat := 0
  aerC : Nat := 0
  aerHdr : Option Nat := none
  /-- Device Status: correctable, non-fatal, fatal error and Unsupported Request detected. -/
  det : Nat := 0
  msix : Tab MsixEnt := []
  pba : Nat := 0
  /-- Moderation (R191): n[c], first[c] by cause; last[v] by vector, absent while the vector has sent nothing. -/
  modN : List Nat := [0, 0, 0, 0, 0, 0]
  modFirst : List Nat := [0, 0, 0, 0, 0, 0]
  modLast : Tab Nat := []
  /-- Reads waiting for a DMA round, and outstanding ones, oldest first; reads this FLR abandoned. -/
  want : List DmaRd := []
  reads : List DmaRd := []
  abandoned : Nat := 0
  kept : List Kept := []
  /-- Status writes not yet acknowledged, oldest first, and the number of status writes ever issued. -/
  sws : List Nat := []
  swNo : Nat := 0
  /-- Device indices, host indices as last accepted, and device indices as last published, of rings 0…5 (R205, R210). -/
  di : List Nat := [0, 0, 0, 0, 0, 0]
  hi : List Nat := [0, 0, 0, 0, 0, 0]
  pub : List Nat := [0, 0, 0, 0, 0, 0]
  /-- Next command and bulk-out and bulk-in descriptor to read. -/
  cmdNext : Nat := 0
  boutNext : Nat := 0
  binNext : Nat := 0
  cmds : List CmdSlot := []
  /-- How often the command ring and the bulk-out ring have been enabled: what was read under an earlier enable moves no index of this one. -/
  cep : Nat := 0
  bep : Nat := 0
  bufs : List BinBuf := []
  /-- Status writes since the last reset of the host side (R207), a status write owed, and the match time it carries. -/
  sseq : Nat := 0
  owed : Bool := false
  owedTime : Option Nat := none
  /-- Polling (R208): p, the indices seen last, the next time, fetch_now, issue time of the doorbell read outstanding. -/
  pollP : Nat := 400
  seen : Option (List Nat) := none
  pollNext : Nat := 0
  fetchNow : Bool := false
  issued : Nat := 0
  /-- DMA deficit in bytes (R189): below 0 when the end of a turn cost more than was left. -/
  deficit : Int := 0
  deriving DecidableEq, Repr

/-- The host interface's own state. -/
structure HifS where
  fn : Tab FnS := []
  /-- The PF in D3hot (R195); ARI Capable Hierarchy; 10-Bit Tag Requester Enable (Table 8-1). -/
  d3 : Bool := false
  ari : Bool := false
  tag10 : Bool := false
  /-- VF Memory Space Enable of the SR-IOV capability. -/
  vfMse : Bool := false
  /-- AER of the PF: uncorrectable and correctable status, header log of the first error. -/
  aerU : Nat := 0
  aerC : Nat := 0
  aerHdr : Option Nat := none
  /-- A host-interface reset whose event 0x0801 waits for the link (R201). -/
  hirPend : Bool := false
  /-- The function served last in a DMA round, and the one whose command dispatch ran last (R212). -/
  rr : Nat := 0
  crr : Nat := 0
  deriving DecidableEq, Repr
/-! ### Boot and fuses (chapter 14) -/

/-- A checked image: its 512 B header, the header's FUNC and MSGMASK, and its body (R324). -/
structure Img where
  func : Nat := 0
  entry : Nat := 0
  mask : Nat := 0
  hdr : List Byte := []
  code : List Byte := []
  deriving DecidableEq, Repr

/-- An instruction-store partition: its image, the one it held before the trial, whether strikes disabled it, the function of its last
installed image (R126, R331, R334). -/
structure Part where
  cur : Option Img := none
  prev : Option Img := none
  disabled : Bool := false
  owner : Nat := 0
  deriving DecidableEq, Repr

/-- The recovery mailbox (Table 14-7). -/
structure Mbox where
  st : Nat := 0
  reason : Nat := 0
  level : Nat := 0
  need : Nat := 0
  len : Nat := 0
  kind : Nat := 0
  op : Nat := 0
  slot : Nat := 0
  go : Nat := 0
  deriving DecidableEq, Repr

/-- A BOOT_IMG_CMD operation in progress, with the image as the handle core copied it to staging (R334). -/
structure ImgCmd where
  op : Nat
  addr : Nat
  kind : Nat
  slot : Nat
  func : Nat
  part : Nat
  bytes : List Byte
  deriving DecidableEq, Repr

/-- The boot state beside its registers. -/
structure BootS where
  /-- RESET_N holds the device in reset. -/
  held : Bool := true
  /-- STAGE 5's own work is done. -/
  ran : Bool := false
  /-- The flash, by byte offset; an unlisted byte reads 0xFF. -/
  flash : Tab Byte := []
  /-- The boot record in use: the copy it lies in, BSEQ, quad 1 (R326). -/
  brCopy : Nat := 0
  bseq : Nat := 0
  brec : Nat := 0
  /-- The running images by kind, 1…4. -/
  run : Tab Img := []
  /-- The stock program's body as the instruction stores hold it, and the fallback copy in region 4 with its slot. -/
  stock : List Byte := []
  alt : Option (Nat × Img) := none
  parts : Tab Part := []
  trialPart : Nat := 0
  /-- Measurement registers by number. -/
  mr : Tab Nat := []
  /-- The recovery staging area by byte, and the mailbox. -/
  stag : Tab Byte := []
  mbox : Mbox := {}
  /-- The stage that recovery left. -/
  left : Nat := 0
  cmd : Option ImgCmd := none
  /-- Stage 0 has sensed the fuses, extended MR0 and read the boot record. -/
  sensed : Bool := false
  /-- The images of kinds 3 and 4 that run on trial, whose trials open at STAGE 5: bits as in BOOT_STATUS.TRIAL (R330). -/
  trials : Nat := 0
  /-- The handle core's protection unit is set and locked (Table 14-6). -/
  hpu : Bool := false
  /-- Words of the handle core's own storage that it has written, by word address. -/
  hsram : Tab Nat := []
  deriving DecidableEq, Repr

/-- The fuses: the key-encryption key, KH0, KH1 and KD (0 where unfused), the security-version counters, DBGCAP, the serial number. -/
structure FuseS where
  kek : Nat := 0
  kh0 : Nat := 0
  kh1 : Nat := 0
  kd : Nat := 0
  svn0 : Nat := 0
  svn1 : Nat := 0
  svn2 : Nat := 0
  svn3 : Nat := 0
  dbgcap : Nat := 2
  serial : Nat := 0
  deriving DecidableEq, Repr
/-! ### Plait threads (chapters 10 and 11) -/

/-- A load that a stake core has performed ahead of its place (R292): the registers its address comes from, where it was, how many words, and
the value it was given. -/
structure Ahead where
  ra : Nat
  rb : Nat
  pa : Nat
  n : Nat
  v : Nat
  deriving DecidableEq, Repr

/-- A thread of Plait: the handle core, a strand engine's context, a stake core (R224, R227). -/
structure Thr where
  /-- g1–g31 (of the bank in use), f0–f31, b0–b7. -/
  g : Tab Nat := []
  f : Tab Nat := []
  b : Tab Nat := []
  /-- p7…p0; bit 0 is not used, p0 reads 1. -/
  p : Nat := 0
  mh : Nat := 0
  ml : Nat := 0
  /-- Results in the multiplier shadow, oldest first: instructions still to follow, mh, ml (R239). -/
  mulq : List (Nat × Nat × Nat) := []
  pc : Nat := 0
  /-- NPC where it is not PC plus the instruction's length (R235). -/
  npc : Option Nat := none
  /-- The instruction at PC is a delay slot; it is annulled (R233). -/
  slot : Bool := false
  annul : Bool := false
  /-- A long instruction has begun and elements remain (R241); the mh and ml it has accumulated so far on an engine or the handle core. -/
  inLong : Bool := false
  acc : Option (Nat × Nat) := none
  /-- A branch's link register, until its slot shows where the slot ends (R233). -/
  link : Option Nat := none
  /-- Control registers by number, and SYNC-marked writes not yet applied, oldest first (R228). -/
  ctl : Tab Nat := []
  pend : List (Nat × Nat) := []
  /-- g28–g31 of the banks not in use: 4 × bank + j (R258). -/
  bg : Tab Nat := []
  /-- The reservation: physical word address and size in words (R243). -/
  resv : Option (Nat × Nat) := none
  /-- Cycles of the open HOLD window as its HOLD set them (R267). -/
  hold : Nat := 0
  /-- A pending FP trap: PC of the first trapping instruction, union of flags, instructions retired since (R268). -/
  fpt : Option (Nat × Nat × Nat) := none
  /-- A pending machine check: reason, severity, address (R295). -/
  mc : Option (Nat × Nat × Nat) := none
  /-- A halt requested and not yet taken: cause, unit (R365). -/
  haltReq : Option (Nat × Nat) := none
  /-- A STEP in progress, 1, or one whose interrupts are held back, 2 (R366). -/
  stepping : Nat := 0
  /-- WAIT: the thread issues nothing until an interrupt is pending. -/
  waiting : Bool := false
  /-- A reset has completed after which AUTO starts the core (R265). -/
  autoDue : Bool := false
  /-- A fault stopped this context of the stock program (Table 10-1). -/
  stopped : Bool := false
  /-- Loads performed ahead of their place in program order (R292), oldest first. -/
  ahead : List Ahead := []
  deriving DecidableEq, Repr

/-- The threads and the strand engines' stores: word store and bit space (R112), the rest of the engine address space, the scratch
and output buffer of invocations (Table 5-4). -/
structure ThrS where
  t : Tab Thr := []
  wstore : Tab Nat := []
  bstore : Tab Bool := []
  lcache : Tab Nat := []
  scratch : Tab Nat := []
  obuf : Tab Nat := []
  /-- By engine: the context that issued last, and how many instructions it has issued in that hoop cycle, 1 or 2 (R113). -/
  issued : Tab (Nat × Nat) := []
  deriving DecidableEq, Repr

/-! ### The memory system (chapter 12) -/

/-- A line some L2 holds: the coherent data, whether it is dirty or poisoned, the clusters that hold it with their ways (R287), the stake core
that stored to it last, and the clusters in which it lies at the least-recently-used position (Table 12-4). -/
structure L2Line where
  data : List Byte
  dirty : Bool
  poison : Bool
  holders : List (Nat × Nat)
  own : Option Nat := none
  lru : List Nat := []
  deriving DecidableEq, Repr

/-- A cached translation (R281): page number, level, ASID, and the leaf entry. -/
structure TlbEnt where
  vpn : Nat
  lvl : Nat
  asid : Nat
  pte : Nat
  deriving DecidableEq, Repr

/-- An entry of a merging or combining buffer (R288): its line, whether its region is cacheable, for each word stored its place, value and the
store it came from, and the translations its stores were made with (R281). -/
structure BufEnt where
  line : Nat
  cached : Bool
  words : List (Nat × Nat × Nat)
  trs : List TlbEnt := []
  deriving DecidableEq, Repr

/-- A scrub pass (R301). -/
structure Scrub where
  start : Nat
  stop : Nat
  dest : Nat
  tstart : Nat
  next : Nat
  abort : Bool := false
  cwcorr : Nat := 0
  lines : Nat := 0
  unc : Nat := 0
  uncAddr : List Nat := []
  /-- Corrections by channel × 32 + subchannel × 16 + position. -/
  corr : Tab Nat := []
  last : Nat := 0
  deriving DecidableEq, Repr

/-- The memory system's own state. -/
structure MemS where
  /-- DRAM by byte address (twice the word address); an unlisted byte reads 0, as ECC_INIT leaves it (R297). -/
  dram : List Host.Cell := []
  /-- Lines that lie poisoned in DRAM (R298). -/
  poison : Tab Bool := []
  l2 : Tab L2Line := []
  /-- L1D and L1I by core × 2^40 + line: the way, and for the L1I the line's bytes. -/
  l1d : Tab Nat := []
  l1i : Tab (Nat × List Byte) := []
  /-- The two-line fetch buffer of core c's L1I, oldest line first: line and bytes (Table 12-6). -/
  fbuf : Tab (List (Nat × List Byte)) := []
  /-- Merging (2c) and combining (2c + 1) buffers of core c, oldest entry first; stores so far. -/
  buf : Tab (List BufEnt) := []
  stores : Nat := 0
  tlb : Tab (List TlbEnt) := []
  /-- Protected regions that are active: index to base and exclusive limit (Table 12-5). -/
  prot : Tab (Nat × Nat) := []
  /-- Errors by cache way in this management tick, and the ways disabled of each cache: L1I c, L1D 64 + c, L2 128 + k. -/
  wayErr : Tab Nat := []
  wayOff : Tab Nat := []
  /-- Corrections of this management tick by position: 32 × channel + 16 × subchannel + position. -/
  symTick : Tab Nat := []
  scrub : Option Scrub := none
  /-- The MEM_INIT operation in progress: 1 TRAIN, 2 ECC_INIT. -/
  initOp : Nat := 0
  deriving DecidableEq, Repr
/-! ### Time base, timers, watchdogs (chapter 13) -/

/-- The time block's own state, beside its registers. -/
structure TimeS where
  /-- Slot boundaries generated and not yet acted on, slots passed over by them, management-tick boundaries not yet acted on (R308). -/
  slotDue : Nat := 0
  slotPassed : Nat := 0
  mgmtDue : Nat := 0
  /-- Timer actions issued by targets, oldest first: timer and action, applied at the next tick (R313, R319). -/
  acts : List (Nat × Nat) := []
  /-- Reference ticks a watchdog has still to run, by 64 × class + unit; one that is not listed is at its TIMEOUT (R316). -/
  wd : Tab Nat := []
  /-- Reference ticks since the trial-boot watchdog expired, plus one, while EN stays 1 (R316). -/
  trial10 : Nat := 0
  /-- The trial watchdog has expired and the handle core has not acted yet (R331); its device warm reset is due (R316). -/
  trialDue : Bool := false
  warmDue : Bool := false
  /-- Targets discarded in this management tick, and the first such channel or timer (R313). -/
  disc : Nat := 0
  discFirst : Nat := 0
  deriving DecidableEq, Repr
/-! ### Power (chapter 15) -/

/-- A DVFS request in progress on a cluster, or waiting for VDD_STK (R344). -/
structure Dvfs where
  /-- The old and the requested step. -/
  old : Nat
  new : Nat
  /-- The divider has switched already: a slower step (R344). -/
  switched : Bool
  deriving DecidableEq, Repr

/-- A PMBus request whose acknowledgement is awaited (R343): regulator, old and commanded VDD_STK in mV, the cluster it serves. -/
structure PmbReq where
  reg : Nat
  old : Nat
  cmd : Nat
  cluster : Nat
  deriving DecidableEq, Repr

/-- The power block's own state, beside its registers. -/
structure PwrS where
  dvfs : Tab Dvfs := []
  pmb : Option PmbReq := none
  /-- VDD_STK as commanded and relied on, in mV (R344, R345). -/
  vdd : Nat := 900
  /-- Rails that asked for the halving in force, and when it began. -/
  halve : Nat := 0
  halvedAt : Nat := 0
  /-- Cluster divider switches that wait until the halving ends (R355). -/
  sw : List Nat := []
  /-- The converter sweep asked for and the one that waits, as masks of temperature [11:0] and voltage [19:12] sensors (R313). -/
  mon : Option Nat := none
  monWait : Option Nat := none
  /-- Powered down by a thermal trip (R347). -/
  tripped : Bool := false
  /-- The root PLL or the reference is lost: a device warm reset follows when lock returns (R340). -/
  pllLost : Bool := false
  /-- A wake source fired, to be acted on when the wake completes; the field ports that fired, as a mask (R351). -/
  wakeFp : Nat := 0
  /-- An SMBus transaction that stretches the clock until the wake has ended, by command code (R353). -/
  smbWait : Option Nat := none
  /-- The VOUT_MODE exponent of each regulator, as read when its entry was first marked VALID: five bits, signed (R342). -/
  vexp : Tab Nat := []
  /-- The Hush is emulated under a debugger (R375). -/
  emul : Bool := false
  deriving DecidableEq, Repr
/-! ### Error records (chapter 17) -/

/-- An error record (Table 17-3). -/
structure ErrRec where
  blk : Nat
  inst : Nat
  sev : Nat
  atype : Nat
  reason : Nat
  count : Nat
  addr : Nat
  time : Nat
  rseq : Nat
  detail : Nat
  deriving DecidableEq, Repr

/-- The error block's own state: the sticky log oldest first, the next RSEQ, the corrected records of this management tick with
the occurrences folded so far (R393), whether LOST rose in the tick, and a fatal record's reset that is still to come (R395). -/
structure ErrS where
  log : List ErrRec := []
  rseq : Nat := 0
  coal : List ErrRec := []
  lostRose : Bool := false
  fatal : Bool := false
  deriving DecidableEq, Repr
/-! ### Debug, trace, counters, the 1149.1 port (chapters 16, 17) -/

/-- The debug block's own state, beside its registers (those of the DBG_AUTH bank of transport 1 lie one control space higher). -/
structure DbgS where
  /-- The level a pending REQUEST of each transport asked for, and the time base before which REQUEST is locked out (R360). -/
  req : Tab Nat := []
  lock : Tab Nat := []
  /-- The read latch (offset, high pair) and the write latch (offset, low pair) of the handle core (0) and of transport 0 (1) (R309, R310). -/
  rlatch : Tab (Nat × Nat) := []
  wlatch : Tab (Nat × Nat) := []
  /-- The 1149.1 instruction register, and DONE, ERR and the data of DBGDR's last access (R358, R403). -/
  ir : Nat := 2
  done : Bool := true
  derr : Bool := false
  ddata : Nat := 0
  deriving DecidableEq, Repr

/-- A trace source (R377): whether its next packet is a SYNC, its SYNC count, packets since its last SYNC, time and address of its last
packet. -/
structure TrcSrc where
  fresh : Bool := true
  sseq : Nat := 0
  since : Nat := 0
  time : Nat := 0
  addr : Nat := 0
  deriving DecidableEq, Repr

/-- The funnel and the sink (R378, R380). -/
structure TrcS where
  src : Tab TrcSrc := []
  /-- The FIFO's packets, oldest first; of the first one, what the sink has not written yet. -/
  fifo : List (List Byte) := []
  /-- Packets refused by priority since the last OVERFLOW. -/
  lost : List Nat := []
  /-- The on-die buffer by byte. -/
  buf : Tab Byte := []
  /-- When the core domain parked for a Hush (R379). -/
  tpark : Nat := 0
  deriving DecidableEq, Repr

/-- A counter dump being written (R382). -/
structure Dump where
  n : Nat
  slot : Nat
  time : Nat
  snap : Bool
  clr : Bool
  period : Nat
  vals : List (Nat × Bool)
  opened : Bool
  deriving DecidableEq, Repr

/-- The counter reader (R381): a periodic latch or a SNAP's that is due, dumps so far, the dump in progress. -/
structure CntS where
  due : Bool := false
  snap : Bool := false
  n : Nat := 0
  dump : Option Dump := none
  deriving DecidableEq, Repr
/-! ### The whole machine -/

/-- The block's state, everything but the queue of commands. -/
structure Dev where
  regs : Tab Nat := []
  out : List Out := []
  freeCtr : Nat := 0
  mle : MleS := {}
  fp : FpAll := {}
  bsk : BskS := {}
  hoop : HoopS := {}
  rfx : RfxS := {}
  ord : OrdS := {}
  ldg : LdgS := {}
  rim : RimS := {}
  hif : HifS := {}
  thr : ThrS := {}
  mem : MemS := {}
  boot : BootS := {}
  fuse : FuseS := {}
  err : ErrS := {}
  tb : TimeS := {}
  pwr : PwrS := {}
  dbg : DbgS := {}
  trc : TrcS := {}
  cnt : CntS := {}
  deriving DecidableEq, Repr

/-- The state of the Vezan: the block, and the commands that wait, first in, first out. -/
structure State where
  dev : Dev := {}
  pending : List Instr := []
  deriving DecidableEq, Repr

/-- The reasons for which the machine stops with a fault: none. No command of the spec stops the Vezan without a described state. -/
inductive Fault where
  deriving DecidableEq, Repr

/-- The reasons for which a command is refused. -/
inductive Refusal where
  /-- Raised by Dispatch.lean alone for a command that has no meaning yet. Safe: nothing is claimed of it. -/
  | notModelled (mnemonic : String)
  deriving DecidableEq, Repr

/-- The Vezan before its first power-up: RESET_N low, every register at its Reset value, every table and buffer empty, no command waiting. -/
def State.reset : State := {}

end Sys2Proof.Machine
end

