-- ==== Sys2Proof/Machine/Ops.lean ====
section
/-!
DEFINITION. The named operations every block uses: register fields (R6), counters (R57, R110), free values, outputs, and the
queues' default configuration (Table 4-1).
-/
namespace Sys2Proof.Machine

/-- The value of a register field. -/
def Dev.get (d : Dev) (f : Fld) : Nat := Tab.get f.rst d.regs f.key

/-- Set a register field; the value is cut to the field's width. -/
def Dev.put (d : Dev) (f : Fld) (v : Nat) : Dev := { d with regs := Tab.set f.rst d.regs f.key (v % 2 ^ f.w) }

/-- Whether a one-bit field is 1. -/
def Dev.on (d : Dev) (f : Fld) : Bool := d.get f == 1

/-- Set a one-bit field. -/
def Dev.putB (d : Dev) (f : Fld) (b : Bool) : Dev := d.put f (b2n b)

/-- Add n to a counter, which saturates at its width (R57, R110). -/
def Dev.addCnt (d : Dev) (f : Fld) (n : Nat) : Dev := d.put f (satw f.w (d.get f + n))

/-- Count one. -/
def Dev.inc (d : Dev) (f : Fld) : Dev := d.addCnt f 1

/-- The time base in ns (R306). -/
def Dev.now (d : Dev) : Nat := d.get TB_NS_NS

/-- Record an output. -/
def Dev.emit (d : Dev) (o : Out) : Dev := { d with out := o :: d.out }

/-- The free value the next draw yields: nothing constrains it. -/
def Dev.freeVal (d : Dev) : Quad := Config.free d.freeCtr

/-- Spend the free value. -/
def Dev.drawn (d : Dev) : Dev := { d with freeCtr := d.freeCtr + 1 }

/-- Store bytes in DRAM from a byte address. -/
def dramPut : List Host.Cell → Nat → List Byte → List Host.Cell
  | t, _, [] => t
  | t, a, b :: r => dramPut (Tab.set 0 t a b) (a + 1) r

/-- Bytes of DRAM. -/
def Dev.dramBytes (d : Dev) (a n : Nat) : List Byte := (List.range n).map (fun i => Tab.get 0 d.mem.dram (a + i))

/-- A line lies poisoned where coherent agents read it. -/
def Dev.linePoison (d : Dev) (ln : Nat) : Bool :=
  match Tab.find d.mem.l2 ln with
  | some l => l.poison
  | none => Tab.get false d.mem.poison ln

/-- A table command of at most some hundreds of ns has run: RESULT, and BUSY until the next tick of the reference clock or not seen at all; which,
the spec leaves to timing, a free value (log entry 5). -/
def Dev.tblDone (d : Dev) (res busy : Fld) (r : Nat) : Dev := ((d.put res r).putB busy (d.freeVal.toNat % 2 == 1)).drawn

/-- Return the register fields of control-space words [lo, hi) to their Reset values (R389, R390). -/
def Dev.resetWords (d : Dev) (lo hi : Nat) : Dev := { d with regs := Tab.delRange d.regs (64 * lo) (64 * hi) }

/-- The fields EN, FRZ, EXPIRED and TIMEOUT of a watchdog, classes numbered as in Table 13-3. -/
def wdEn (cls u : Nat) : Fld := match cls with | 0 => TB_WD_CORE_EN u | 1 => TB_WD_HOOP_EN u | 2 => TB_WD_TRIAL_EN | _ => TB_WD_HANDLE_EN
def wdFrz (cls u : Nat) : Fld := match cls with | 0 => TB_WD_CORE_FRZ u | 1 => TB_WD_HOOP_FRZ u | 2 => TB_WD_TRIAL_FRZ | _ => TB_WD_HANDLE_FRZ
def wdExp (cls u : Nat) : Fld :=
  match cls with | 0 => TB_WD_CORE_EXPIRED u | 1 => TB_WD_HOOP_EXPIRED u | 2 => TB_WD_TRIAL_EXPIRED | _ => TB_WD_HANDLE_EXPIRED
def wdTmo (cls u : Nat) : Fld :=
  match cls with | 0 => TB_WD_CORE_TIMEOUT u | 1 => TB_WD_HOOP_TIMEOUT u | 2 => TB_WD_TRIAL_TIMEOUT | _ => TB_WD_HANDLE_TIMEOUT

/-- A watchdog reloads from TIMEOUT (R316): an enabled one holds the count it takes, which a later write of TIMEOUT does not change; one with
EN = 0 is reloaded until EN is set, so that it follows TIMEOUT. -/
def Dev.wdKick (d : Dev) (cls unit : Nat) : Dev :=
  let n := d.get (wdTmo cls unit) * 100000
  { d with tb := { d.tb with wd := if d.on (wdEn cls unit) then Tab.ins d.tb.wd (64 * cls + unit) n else Tab.del d.tb.wd (64 * cls + unit) } }

/-- Apply a function n times, with the indexes n − 1 down to 0 given highest last. -/
def forN (n : Nat) (f : Nat → Dev → Dev) (d : Dev) : Dev := (List.range n).foldl (fun a i => f i a) d

end Sys2Proof.Machine
end

