-- ==== Sys2Proof/Machine/Basket.lean ====
section
/-!
DEFINITION. The Basket and the weave (chapter 4): queues and their kinds, room, enqueue with overflow, spill, refill, join,
dequeue, the events a block raises through it, queue commands, queue access from stake cores, protection and scrubbing.
-/
namespace Sys2Proof.Machine

/-- Cells of an entry (R91): 128 words to a cell, at least one; a filler keeps its own count. -/
def Entry.cells (e : Entry) : Nat := if e.dead ≠ 0 then e.dead else max 1 (cdiv e.words.length 128)

/-- An entry somebody can receive. -/
def Entry.live (e : Entry) : Bool := e.dead == 0

/-- The configuration of queue n at device reset (Table 4-1). -/
def Queue.reset (n : Nat) : Queue :=
  if n < 0x1400 then { enable := true, cls := 4, owner := 0, odq := 64, policy := 0 }
  else if n < 0x1580 then
    let f := (n - 0x1400) / 6
    let mk (c o p : Nat) : Queue := { enable := true, cls := c, owner := f, odq := o, policy := p }
    match (n - 0x1400) % 6 with
    | 0 => mk 5 64 2
    | 1 => mk 5 64 0
    | 2 => mk 3 128 0
    | 3 => mk 2 256 0
    | 4 => mk 1 64 2
    | _ => mk 1 256 0
  else
    let mk (en : Bool) (c w o p : Nat) : Queue := { enable := en, cls := c, owner := w, odq := o, policy := p }
    if n < 0x1584 then mk true 2 0 256 1
    else if n < 0x1588 then mk true 2 0 64 2
    else if n = 0x1588 then mk true 7 0 1024 1
    else if n = 0x1589 then mk true 6 0 256 1
    else if n = 0x158A then mk true 5 0 1024 0
    else if n = 0x158B then mk true 3 0 4096 1
    else if n = 0x158C then mk true 6 0 4096 1
    else if n = 0x158D then mk true 1 0 512 2
    else if n < 0x1590 then mk true 6 0 1024 1
    else if n < 0x15A0 then mk false 0 0 0 0
    else if n < 0x15C0 then mk true 4 0 128 1
    else if n < 0x1600 then mk true 1 (n - 0x15C0) 64 0
    else if n < 0x1800 then mk false 0 0 0 0
    else mk false 0 0 0 2

/-- The reserved queue numbers of Table 4-1. -/
def queueReserved (n : Nat) : Bool := (0x1590 ≤ n && n < 0x15A0) || (0x1600 ≤ n && n < 0x1800) || 0x2000 ≤ n

/-- A software queue (Table 4-1). -/
def queueSoftware (n : Nat) : Bool := 0x1800 ≤ n && n < 0x2000

/-- Queues that only the ring engine or stake cores write: the ones on which HOLD is permitted (R99). -/
def queueHoldOk (n : Nat) : Bool :=
  queueSoftware n || n = 0x158D || (0x1584 ≤ n && n < 0x1588) ||
  (0x1400 ≤ n && n < 0x1580 && ((n - 0x1400) % 6 = 0 || (n - 0x1400) % 6 = 4))

/-- Stake cores may enqueue to queue n (Table 4-1). -/
def queueCoreEnq (n : Nat) : Bool :=
  queueSoftware n || n = 0x158D || (0x1584 ≤ n && n < 0x1588) ||
  (0x1400 ≤ n && n < 0x1580 && ((n - 0x1400) % 6 = 2 || (n - 0x1400) % 6 = 3 || (n - 0x1400) % 6 = 5))

/-- Stake cores may dequeue from queue n (Table 4-1). -/
def queueCoreDeq (n : Nat) : Bool :=
  queueSoftware n || (0x1580 ≤ n && n < 0x1584) || (0x15C0 ≤ n && n < 0x1600) ||
  (0x1400 ≤ n && n < 0x1580 && (n - 0x1400) % 6 = 4)

/-- Queue n. -/
def Dev.queue (d : Dev) (n : Nat) : Queue := Tab.get (Queue.reset n) d.bsk.q n

/-- Store queue n. -/
def Dev.setQueue (d : Dev) (n : Nat) (q : Queue) : Dev :=
  { d with bsk := { d.bsk with q := Tab.set (Queue.reset n) d.bsk.q n q } }

/-- On-die cells of a queue: HEAD, TAIL, and blocks whose write is not complete (R94). -/
def Queue.onDie (q : Queue) : Nat := q.head + q.tail + 16 * q.spillFly

/-- No entry anybody can receive. -/
def Queue.noEntry (q : Queue) : Bool := !(q.es.any Entry.live)

/-- On-die cells of all queues that satisfy a test. -/
def Dev.cellsOf (d : Dev) (t : Queue → Bool) : Nat := sumN (d.bsk.q.map (fun e => if t e.2 then e.2.onDie else 0))

/-- Spill blocks of all queues that satisfy a test. -/
def Dev.blocksOf (d : Dev) (t : Queue → Bool) : Nat := sumN (d.bsk.q.map (fun e => if t e.2 then e.2.low else 0))

/-- Free cells of the Basket (R88). -/
def Dev.freeCells (d : Dev) : Nat := 393216 - d.cellsOf (fun _ => true)

/-- Lower-tier size in GiB, 0 when the region was found outside DRAM (R96). -/
def Dev.ltSize (d : Dev) : Nat := if d.bsk.ltOff then 0 else d.get BSK_LT_CFG_SIZE

/-- Free spill blocks of 4 KiB. -/
def Dev.ltFree (d : Dev) : Nat := d.ltSize * 262144 - d.blocksOf (fun _ => true)

/-- The first two conditions of R93: room for n cells in queue q. -/
def Dev.room (d : Dev) (q : Queue) (n : Nat) : Bool :=
  let unused := d.get BSK_POOL_RSV7 - d.cellsOf (fun x => x.cls == 7)
  let avail := if q.cls = 7 then d.freeCells else d.freeCells - unused
  decide (n ≤ avail) &&
  decide (d.cellsOf (fun x => x.owner == q.owner) + n ≤ d.get (HIF_QOS_CELLS_CELLS q.owner))

/-- Note an event to be raised at the end of this step. -/
def Dev.note (d : Dev) (fn code : Nat) (par : List (Nat × Nat)) : Dev :=
  { d with bsk := { d.bsk with notes := d.bsk.notes ++ [⟨fn, code, par⟩] } }

/-- Note an event for the PF and, when the owner is not 0, for the owner (R111). -/
def Dev.noteBoth (d : Dev) (owner code : Nat) (par : List (Nat × Nat)) : Dev :=
  let d := d.note 0 code par
  if owner = 0 then d else d.note owner code par

/-- Add n to place r (0-based) of a list of counts. -/
def bump (l : List Nat) (r n : Nat) : List Nat :=
  let l := l ++ List.replicate (r + 1 - l.length) 0
  l.set r (l.getD r 0 + n)

/-- Count n entries of queue qn not delivered, for reason r of Table 4-3 (R100). -/
def Dev.countDrop (d : Dev) (qn r n : Nat) : Dev :=
  if n = 0 then d else
  let q := d.queue qn
  let d := d.setQueue qn { q with dropped := satw 48 (q.dropped + n), tickDrops := bump q.tickDrops (r - 1) n }
  d.addCnt (BSK_DROP_CNT_COUNT r) n

/-! ### Cells (R88) -/

/-- The cells in use. -/
def Dev.usedCells (d : Dev) : List Nat := d.bsk.q.flatMap (fun e => e.2.cells)

/-- The lowest free cell of bank b from its k-th on, within n tries. Which of a bank's free cells is taken the spec does not say (DESIGN
CHOICE, log entry 83). -/
def freeIn (used : List Nat) (b : Nat) : Nat → Nat → Option Nat
  | 0, _ => none
  | n + 1, k => if 12288 ≤ k then none else if used.contains (b + 32 * k) then freeIn used b n (k + 1) else some (b + 32 * k)

/-- The cell that bank b, or the next bank in rotation with a free cell, gives, within n banks. -/
def freeFrom (used : List Nat) : Nat → Nat → Option Nat
  | 0, _ => none
  | n + 1, b =>
    match freeIn used (b % 32) (used.length + 1) 0 with
    | some c => some c
    | none => freeFrom used n (b + 1)

/-- Take n cells, each from the next bank in rotation that has one free (R88): the cells, and the bank whose turn is next. -/
def takeCells : Nat → List Nat → Nat → List Nat × Nat
  | 0, _, b => ([], b)
  | n + 1, used, b =>
    match freeFrom used 32 b with
    | none => ([], b)
    | some c =>
      let (l, b) := takeCells n (c :: used) ((c + 1) % 32)
      (c :: l, b)

/-- Allocate n cells. -/
def Dev.allocate (d : Dev) (n : Nat) : Dev × List Nat :=
  let (l, b) := takeCells n d.usedCells d.bsk.bank
  ({ d with bsk := { d.bsk with bank := b } }, l)

/-- A list without the n members from place p on. -/
def dropSpan (l : List Nat) (p n : Nat) : List Nat := l.take p ++ l.drop (p + n)

/-- The place in `cells` at which TAIL begins. -/
def Queue.tailAt (q : Queue) : Nat := q.head + 16 * q.spillFly

/-- Cells common to [a, b) and [c, e). -/
def overlap (a b c e : Nat) : Nat := min b e - max a c

/-- A filler of n cells, nothing for 0. -/
def filler (n : Nat) : List Entry := if n = 0 then [] else [{ dead := n }]

/-- Cells of a list of entries. -/
def cellsSum (es : List Entry) : Nat := sumN (es.map Entry.cells)

/-- Split the entries of LOW and TAIL at the end of LOW's oldest block: how many live entries begin in it, and what follows;
`p` is the position of the list's first cell and `hi` the end of the block, `lowEnd` the end of LOW (R94). The last result is
the number of TAIL cells freed. -/
def cutBlock : List Entry → Nat → Nat → Nat → Nat × List Entry × Nat
  | [], _, _, _ => (0, [], 0)
  | e :: r, p, hi, lowEnd =>
    if p < hi then
      let (k, rest, t) := cutBlock r (p + e.cells) hi lowEnd
      let past := overlap p (p + e.cells) hi lowEnd
      let tl := overlap p (p + e.cells) (max hi lowEnd) (p + e.cells)
      (k + b2n e.live, filler past ++ rest, t + tl)
    else (0, e :: r, 0)

/-- The entries at the front whose first cell lies below position `lim`. -/
def takePos : List Entry → Nat → Nat → List Entry
  | [], _, _ => []
  | e :: r, p, lim => if p < lim then e :: takePos r (p + e.cells) lim else []

/-- Cut a discarded entry at position p that begins in HEAD: its cells that have arrived and its cells in TAIL are free at once, and those of
blocks in flight or in LOW stay as fillers (R94). The result is the fillers, the queue's segments and cells without what is free, and how
many cells of HEAD went. -/
def Queue.cutEntry (q : Queue) (e : Entry) (p : Nat) : List Entry × Queue × Nat :=
  let arrived := q.head - 16 * q.refillFly
  let lowEnd := q.head + 16 * q.low
  let p1 := p + e.cells
  let a := overlap p p1 0 arrived
  let fl := overlap p p1 arrived q.head
  let lo := overlap p p1 q.head lowEnd
  let t := e.cells - a - fl - lo
  let cs := dropSpan (dropSpan q.cells q.tailAt t) p a
  (filler fl ++ filler lo, { q with head := q.head - a, tail := q.tail - t, cells := cs }, a)

/-- discard_head of R94: the queue without its oldest entry (or the entries of LOW's oldest block), and how many went. A block of LOW whose
write is in progress leaves LOW, and its cells stay allocated until the write ends. -/
def Queue.discardHead (q : Queue) : Queue × Nat :=
  let lead := q.es.takeWhile (fun e => !e.live)
  let rest := q.es.dropWhile (fun e => !e.live)
  let p0 := cellsSum lead
  let lowEnd := q.head + 16 * q.low
  let less := fun (k : Nat) => q.flush.map (· - k)
  match rest with
  | [] => (q, 0)
  | e :: r =>
    if p0 < q.head then
      let (f, q, _) := q.cutEntry e p0
      ({ q with es := lead ++ f ++ r, flush := less 1 }, 1)
    else if 0 < q.low then
      let keep := takePos q.es 0 q.head
      let after := q.es.drop keep.length
      let (k, rest, t) := cutBlock after (cellsSum keep) (q.head + 16) lowEnd
      ({ q with es := keep ++ rest, low := q.low - 1, tail := q.tail - t, cells := dropSpan q.cells q.tailAt t, flush := less k }, k)
    else
      ({ q with es := lead ++ r, tail := q.tail - e.cells, cells := dropSpan q.cells q.tailAt e.cells, flush := less 1 }, 1)

/-- Whether TAIL's oldest block could go to LOW as far as the queue's and its owner's quotas are concerned (R95). -/
def Dev.spillDue (d : Dev) (q : Queue) : Bool :=
  q.spilled && decide (16 ≤ q.tail) && decide (q.low + 1 ≤ q.ltq * 256) &&
  decide (d.blocksOf (fun x => x.owner == q.owner) + 1 ≤ d.get (HIF_QOS_LT_MIB q.owner) * 256)

/-- Whether LOW may take one block more (R95). -/
def Dev.spillOk (d : Dev) (q : Queue) : Bool := d.spillDue q && decide (0 < d.ltFree)

/-- Queue qn, whose block is due to be spilled, finds no free block in the lower tier: event 0x0405, once per queue and management tick
(R111). -/
def Dev.tierFull (d : Dev) (qn : Nat) : Dev :=
  let q := d.queue qn
  if d.spillDue q && decide (0 < d.ltSize) && d.ltFree == 0 && !q.fullEvent then
    (d.setQueue qn { q with fullEvent := true }).note 0 0x0405 [(2, qn)]
  else d

/-- Free lower-tier blocks are below 10 % of the tier. -/
def Dev.ltLow (d : Dev) : Bool := decide (d.ltFree * 10 < d.ltSize * 262144)

/-- Move TAIL's oldest block to LOW (Spill, R95), with event 0x0404 when the free blocks fall below 10 % by it, once per management tick
(R111). The block's cells are the oldest of TAIL: their place in `cells` is already behind the blocks being written. -/
def Dev.spillBlock (d : Dev) (qn : Nat) : Dev :=
  let q := d.queue qn
  let low := d.ltLow
  let d := d.setQueue qn { q with tail := q.tail - 16, low := q.low + 1, spillFly := q.spillFly + 1 }
  if !low && d.ltLow && !d.bsk.lowEvent then
    { d.note 0 0x0404 [(4, d.ltFree)] with bsk := { (d.note 0 0x0404 [(4, d.ltFree)]).bsk with lowEvent := true } }
  else d

/-- Every spill R95 permits on queue qn now. -/
def Dev.spillAll : Nat → Dev → Nat → Dev
  | 0, d, _ => d
  | k + 1, d, qn => if d.spillOk (d.queue qn) then Dev.spillAll k (d.spillBlock qn) qn else d.tierFull qn

/-- Whether TAIL may be relinked to HEAD (R95). -/
def Queue.joinOk (q : Queue) : Bool :=
  q.spilled && q.low == 0 && q.spillFly == 0 && q.refillFly == 0 && decide (q.head + q.tail ≤ q.odq)

/-- Join (R95). -/
def Dev.joinQueue (d : Dev) (qn : Nat) : Dev :=
  let q := d.queue qn
  if q.joinOk then d.setQueue qn { q with head := q.head + q.tail, tail := 0, spilled := false } else d

/-- What the ingress answers: placed, held under HOLD, or refused under a reason of Table 4-3. -/
inductive Verdict where
  | placed
  | held
  | refused (r : Nat)
  deriving DecidableEq, Repr

/-- The loop of R94; the fuel bounds the discards by the entries there are. -/
def Dev.enqLoop : Nat → Dev → Nat → Entry → Dev × Verdict
  | 0, d, _, _ => (d, .refused 2)
  | k + 1, d, qn, e =>
    let n := e.cells
    let q := d.queue qn
    let rm := d.room q n
    if !q.spilled && decide (q.head + n ≤ q.odq) && rm then
      let (d, cs) := d.allocate n
      (d.setQueue qn { q with es := q.es ++ [e], head := q.head + n, cells := q.cells ++ cs }, .placed)
    else
      let enter := !q.spilled && decide (0 < d.ltSize) && decide (0 < q.ltq)
      let d := if enter then
          let d := if q.spillEvent then d else d.noteBoth q.owner 0x0401 [(2, qn), (1, q.owner)]
          d.setQueue qn { q with spilled := true, spillEvent := true }
        else d
      let q := d.queue qn
      if q.spilled && decide (q.tail + n ≤ 48) && rm then
        let (d, cs) := d.allocate n
        ((d.setQueue qn { q with es := q.es ++ [e], tail := q.tail + n, cells := q.cells ++ cs }).tierFull qn, .placed)
      else if q.policy = 2 then (d, .held)
      else if q.policy = 1 || q.noEntry then (d, .refused (if rm then 2 else 5))
      else
        let (q', gone) := q.discardHead
        let d := (d.setQueue qn q').countDrop qn 1 gone
        let d := (Dev.spillAll 4 d qn).joinQueue qn
        Dev.enqLoop k d qn e

/-- An entry commits at queue qn's ingress and is placed, held or refused (R94, R99, R100). -/
def Dev.enq (d : Dev) (qn : Nat) (e : Entry) : Dev × Verdict :=
  let q := d.queue qn
  let (d, v) :=
    if !q.enable then (d, Verdict.refused 4)
    else if q.odq < e.cells then (d, Verdict.refused 3)
    else Dev.enqLoop (q.es.length + 2) d qn e
  match v with
  | .placed =>
    let q := d.queue qn
    ((d.setQueue qn { q with committed := satw 48 (q.committed + 1) }).inc (BSK_CNT_COUNT 0), v)
  | .held => (d.inc (BSK_CNT_COUNT 7), v)
  | .refused r => (d.countDrop qn r 1, v)

/-- A parameter's bytes at its place in PARAM (R215): 16 stands for an IPv6 address in transmission order. -/
def packParams : List (Nat × Nat) → List Byte → List Byte
  | [], acc => acc
  | (w, v) :: r, acc =>
    let al := if w = 16 then 8 else w
    let acc := acc ++ List.replicate ((al - acc.length % al) % al) 0
    packParams r (acc ++ (if w = 16 then beBytes 16 v else leBytes w (min v (2 ^ (8 * w) - 1))))

/-- An event descriptor (Table 9-11) with its PARAM bytes, as an entry of an event queue. -/
def eventEntry (code : Nat) (copy : Bool) (eseq time : Nat) (param : List Byte) : Entry :=
  { words := packWords (leBytes 2 code ++ leBytes 1 (b2n copy) ++ leBytes 1 0 ++ leBytes 4 eseq ++ leBytes 8 time ++ slice param 0 48) }

/-- Commit an event with given PARAM bytes to function f's event queue, numbering it at commit (R215). -/
def Dev.eventBytes (d : Dev) (f code : Nat) (param : List Byte) : Dev :=
  let n := Tab.get 0 d.bsk.eseq f
  match d.enq (0x1402 + 6 * f) (eventEntry code (decide (f ≠ 0)) n d.now param) with
  | (d, .placed) => { d with bsk := { d.bsk with eseq := Tab.set 0 d.bsk.eseq f ((n + 1) % 2 ^ 32) } }
  | (d, _) => d

/-- Raise the events noted so far; raising one may note another, and the fuel bounds the rounds. -/
def Dev.flushNotes : Nat → Dev → Dev
  | 0, d => { d with bsk := { d.bsk with notes := [] } }
  | k + 1, d =>
    match d.bsk.notes with
    | [] => d
    | n :: r =>
      Dev.flushNotes k ({ d with bsk := { d.bsk with notes := r } }.eventBytes n.fn n.code (packParams n.par []))

/-- Raise an event of code `code` with parameters (width, value) to function f. -/
def Dev.event (d : Dev) (f code : Nat) (par : List (Nat × Nat)) : Dev :=
  Dev.flushNotes 64 (d.eventBytes f code (packParams par []))

/-- Raise an event to the PF. -/
def Dev.pfEvent (d : Dev) (code : Nat) (par : List (Nat × Nat)) : Dev := d.event 0 code par

/-- Raise an event to the PF and, when f is not 0, a copy to function f. -/
def Dev.bothEvent (d : Dev) (f code : Nat) (par : List (Nat × Nat)) : Dev :=
  let d := d.event 0 code par
  if f = 0 then d else d.event f code par

/-- Commit an entry and raise what the Basket notes about it. -/
def Dev.enqueue (d : Dev) (qn : Nat) (e : Entry) : Dev × Verdict :=
  let (d, v) := d.enq qn e
  (Dev.flushNotes 64 d, v)

/-- Commit an entry whose verdict its producer does not use. -/
def Dev.send (d : Dev) (qn : Nat) (e : Entry) : Dev := (d.enqueue qn e).1

/-- What a dequeue answers (R97, R98). -/
inductive DeqRes where
  | entry (e : Entry)
  | empty
  | notNow
  deriving DecidableEq, Repr

/-- Dequeue the oldest whole entry of queue qn (R91, R98). -/
def Dev.deq (d : Dev) (qn : Nat) : Dev × DeqRes :=
  let q := d.queue qn
  match q.es with
  | [] => (d, .empty)
  | e :: r =>
    if e.live && decide (e.cells ≤ q.head - 16 * q.refillFly) then
      let q := { q with es := r, head := q.head - e.cells, cells := q.cells.drop e.cells }
      let q := { q with dequeued := satw 48 (q.dequeued + 1), flush := q.flush.map (· - 1) }
      ((d.setQueue qn q).inc (BSK_CNT_COUNT 1), .entry e)
    else if q.noEntry then (d, .empty)
    else (d, .notNow)

/-- Entries that BSK_DEQUEUE has delivered to queue qn's consumer and that the consumer has not yet worked on. -/
def Dev.taken (d : Dev) (qn : Nat) : List Entry := Tab.get [] d.bsk.taken qn

/-- The next entry for queue qn's consumer: one delivered before, else a dequeue. -/
def Dev.take (d : Dev) (qn : Nat) : Dev × DeqRes :=
  match d.taken qn with
  | e :: r => ({ d with bsk := { d.bsk with taken := Tab.set [] d.bsk.taken qn r } }, .entry e)
  | [] => d.deq qn

/-- The next entry for a hardware consumer, which discards poisoned ones under 0x07 (R107). -/
def Dev.takeHw : Nat → Dev → Nat → Dev × DeqRes
  | 0, d, _ => (d, .empty)
  | k + 1, d, qn =>
    match d.take qn with
    | (d, .entry e) => if e.poison then Dev.takeHw k (d.countDrop qn 7 1) qn else (d, .entry e)
    | r => r

/-- `takeHw` with enough fuel for the queue. -/
def Dev.takeFor (d : Dev) (qn : Nat) : Dev × DeqRes :=
  Dev.takeHw ((d.queue qn).es.length + (d.taken qn).length + 1) d qn

/-- The next entry of queue qn for its consumer, without taking it. -/
def Dev.peek (d : Dev) (qn : Nat) : Option Entry :=
  match d.taken qn with
  | e :: _ => some e
  | [] => (d.queue qn).es.find? Entry.live

/-- A whole entry of queue qn can be taken now (R98). -/
def Dev.canTake (d : Dev) (qn : Nat) : Bool :=
  let q := d.queue qn
  !(d.taken qn).isEmpty || (match q.es with
    | [] => false
    | e :: _ => e.live && decide (e.cells ≤ q.head - 16 * q.refillFly))

/-- The next entry for a hardware consumer when it satisfies a test; poisoned entries before it are discarded (R107). -/
def Dev.takeIf : Nat → Dev → Nat → (Entry → Bool) → Dev × Option Entry
  | 0, d, _, _ => (d, none)
  | k + 1, d, qn, p =>
    match d.peek qn with
    | none => (d, none)
    | some e =>
      if !e.poison && !p e then (d, none)
      else match d.take qn with
        | (d, .entry e) => if e.poison then Dev.takeIf k (d.countDrop qn 7 1) qn p else (d, some e)
        | (d, _) => (d, none)

/-- `takeIf` with enough fuel for the queue. -/
def Dev.takeWhen (d : Dev) (qn : Nat) (p : Entry → Bool) : Dev × Option Entry :=
  Dev.takeIf ((d.queue qn).es.length + (d.taken qn).length + 1) d qn p

/-- Raise an event whose PARAM bytes are given to the PF, with a copy to function f when f is not 0. -/
def Dev.bothBytes (d : Dev) (f code : Nat) (param : List Byte) : Dev :=
  let d := Dev.flushNotes 64 (d.eventBytes 0 code param)
  if f = 0 then d else Dev.flushNotes 64 (d.eventBytes f code param)

/-- Cells and spilled cells waiting in queue qn. -/
def Dev.waiting (d : Dev) (qn : Nat) : Nat :=
  let q := d.queue qn
  q.head + 16 * q.low + q.tail

/-- A record of kind `kind` for function f (Table 9-13), numbered at commit; `time` as R216 gives it. -/
def Dev.sendRecord (d : Dev) (f kind : Nat) (body : List Byte) : Dev :=
  let n := Tab.get 0 d.bsk.rseq f
  let len := body.length
  let nslot := if 48 < len then 1 + cdiv (len - 48) 64 else 1
  let hdr := leBytes 1 kind ++ leBytes 1 nslot ++ leBytes 2 len ++ leBytes 4 n ++ leBytes 8 d.now
  match d.enqueue (0x1403 + 6 * f) { words := packWords (hdr ++ body) } with
  | (d, .placed) => { d with bsk := { d.bsk with rseq := Tab.set 0 d.bsk.rseq f ((n + 1) % 2 ^ 32) } }
  | (d, _) => d

/-- A bulk-in entry for function f: kind, BSEQ and TIME (Table 9-16) before the body, numbered at commit. -/
def Dev.sendBulkIn (d : Dev) (f kind : Nat) (body : List Byte) : Dev :=
  let n := Tab.get 0 d.bsk.bseq f
  let hdr := leBytes 1 kind ++ leBytes 3 0 ++ leBytes 4 body.length ++ leBytes 4 n ++ leBytes 4 0 ++ leBytes 8 d.now
  match d.enqueue (0x1405 + 6 * f) { words := packWords (hdr ++ body) } with
  | (d, .placed) => { d with bsk := { d.bsk with bseq := Tab.set 0 d.bsk.bseq f ((n + 1) % 2 ^ 32) } }
  | (d, _) => d

end Sys2Proof.Machine
end

