-- ==== Sys2Proof/Machine/Err.lean ====
section
/-!
DEFINITION. Error records, their severities, the sticky log, coalescing, and the fatal record (R392–R398).
-/
namespace Sys2Proof.Machine

/-- The severity Table 17-4 gives a reason: 0 corrected, 1 deferred, 2 uncorrected, 3 fatal. -/
def errSeverity (reason : Nat) : Nat :=
  if reason = 0x10 || reason = 0x11 || reason = 0x22 || reason = 0x26 then 2
  else if reason = 0x21 || reason = 0x24 then 1
  else if 0x30 ≤ reason then 3
  else 0

/-- The four quads of a record (Table 17-3). -/
def ErrRec.quads (r : ErrRec) : List Nat :=
  [r.blk + r.inst * 2 ^ 8 + r.sev * 2 ^ 18 + r.atype * 2 ^ 20 + r.reason * 2 ^ 32 + r.count * 2 ^ 48,
   r.addr % 2 ^ 44, r.time, r.rseq % 2 ^ 32 + r.detail * 2 ^ 32]

/-- The 32 bytes of a record. -/
def ErrRec.bytes (r : ErrRec) : List Byte := r.quads.flatMap (leBytes 8)

/-- Remove the oldest record whose severity is at or below `sev`; none if there is none. -/
def dropOldest : List ErrRec → Nat → Option (List ErrRec)
  | [], _ => none
  | r :: t, sev => if r.sev ≤ sev then some t else (dropOldest t sev).map (r :: ·)

/-- Offer a record to the sticky log (R394). -/
def Dev.logErr (d : Dev) (r : ErrRec) : Dev :=
  if 2 ≤ r.sev || d.get ERR_CTL_MINSEV ≤ r.sev then
    if d.err.log.length < 256 then { d with err := { d.err with log := d.err.log ++ [r] } }
    else
      let d := ((d.put ERR_STATUS_LOST (satw 16 (d.get ERR_STATUS_LOST + 1))).inc (ERR_CNT_COUNT 5))
      let d := { d with err := { d.err with lostRose := true } }
      match dropOldest d.err.log r.sev with
      | some l => { d with err := { d.err with log := l ++ [r] } }
      | none => d
  else d

/-- Raise a record: number it, count it, log it, for a fatal one set the PF's AER bit and arm the reset, report it (R393–R395). -/
def Dev.commitErr (d : Dev) (r : ErrRec) : Dev :=
  let r := { r with rseq := d.err.rseq }
  let d := { d with err := { d.err with rseq := (d.err.rseq + 1) % 2 ^ 32 } }
  let d := (d.inc (ERR_CNT_COUNT r.sev)).logErr r
  let d := if r.sev = 3 then
      { d with hif := { d.hif with aerU := d.hif.aerU ||| 2 ^ 22 }, err := { d.err with fatal := true } } else d
  if d.on ERR_CTL_EVT then Dev.flushNotes 64 (d.eventBytes 0 0x1701 r.bytes) else d

/-- Two records that R393 folds together. -/
def ErrRec.same (a b : ErrRec) : Bool := a.blk == b.blk && a.inst == b.inst && a.reason == b.reason && a.addr == b.addr

/-- Fold a further occurrence into the tick's list (R393): the time kept is that of the first one folded. -/
def foldErr (l : List ErrRec) (r : ErrRec) : List ErrRec :=
  l.map (fun x => if x.same r then
    (if x.count = 0 then { x with count := 1, time := r.time, detail := r.detail } else { x with count := min 65535 (x.count + 1) })
    else x)

/-- A block raises an error record (R393). A corrected record that repeats one of this management tick is folded. -/
def Dev.raiseErr (d : Dev) (blk inst reason atype addr detail : Nat) : Dev :=
  let r : ErrRec := ⟨blk, inst, errSeverity reason, atype, reason, 1, addr, d.now, 0, detail⟩
  if r.sev = 0 && d.on ERR_CTL_COALESCE then
    if d.err.coal.any (·.same r) then
      ({ d with err := { d.err with coal := foldErr d.err.coal r } }).inc (ERR_CNT_COUNT 4)
    else { d with err := { d.err with coal := d.err.coal ++ [{ r with count := 0 }] } }.commitErr r
  else d.commitErr r

/-- A corrected DRAM codeword (R299): one record per channel and management tick, raised at its end (R393), with the corrections in
COUNT and the place and time of the first. -/
def Dev.dramCorrected (d : Dev) (ch inst addr detail : Nat) : Dev :=
  let mine := fun (x : ErrRec) => x.reason == 0x0023 && x.inst / 2 == ch
  if d.err.coal.any mine then
    ({ d with err := { d.err with coal := d.err.coal.map (fun x => if mine x then { x with count := min 65535 (x.count + 1) } else x) } }).inc
      (ERR_CNT_COUNT 4)
  else { d with err := { d.err with coal := d.err.coal ++ [⟨0xE, inst, 0, 1, 0x0023, 1, addr, d.now, 0, detail⟩] } }

/-- The folded records of a management tick, raised at its end (R393), and event 0x1702 when LOST rose (R398). -/
def Dev.errTick (d : Dev) : Dev :=
  let l := d.err.coal
  let d := { d with err := { d.err with coal := [] } }
  let d := l.foldl (fun d r => if r.count = 0 then d else d.commitErr r) d
  if d.err.lostRose then
    { d with err := { d.err with lostRose := false } }.pfEvent 0x1702
      [(2, d.get ERR_STATUS_LOST), (8, d.get (ERR_CNT_COUNT 5))]
  else d

/-- "command while busy" on the register at control-space offset `off` (Table 17-4). -/
def Dev.errBusy (d : Dev) (blk inst off : Nat) : Dev := d.raiseErr blk inst 0x0002 3 off 0

/-- A write that names no operation to a command register whose BUSY is set: ignored like every other, with its record. -/
def Dev.noOp (d : Dev) (busy : Fld) (blk inst off : Nat) : Dev := if d.on busy then d.errBusy blk inst off else d

/-- "write refused in state" by the requester with trace source ID `src`. -/
def Dev.errState (d : Dev) (blk inst off src : Nat) : Dev := d.raiseErr blk inst 0x0003 3 off src

/-- "reserved encoding written". -/
def Dev.errReserved (d : Dev) (blk inst off : Nat) : Dev := d.raiseErr blk inst 0x0001 3 off 0

end Sys2Proof.Machine
end

