-- ==== Sys2Proof/Machine/FieldPort.lean ====
section
/-!
DEFINITION. The field ports (chapter 3): service states, bring-up and locks, receive classification and buffers, the slow
lane, frame construction and transmission, IEEE 1588 timestamps, next hops, wake.
-/
namespace Sys2Proof.Machine

/-- The trace source ID of a requester (Tables 16-3, 17-4); debug transport 0 shares the handle core's port (log entry 12). -/
def srcOf : Requester → Nat
  | .pf => 0x65
  | .stake c => c.val
  | .handle => 0x5B
  | .dbg0 => 0x5B
  | .accEngine _ => 0x66
  | .fnPage _ => 0x65

/-- Field port p's own state. -/
def Dev.fport (d : Dev) (p : Nat) : FpS := Tab.get {} d.fp.port p

/-- Store field port p's own state. -/
def Dev.setFport (d : Dev) (p : Nat) (s : FpS) : Dev := { d with fp := { d.fp with port := Tab.set {} d.fp.port p s } }

/-- Control-space offset of port p's register at offset o. -/
def fpOff (p o : Nat) : Nat := 0x28000 + 0x400 * p + o

/-- Occupancy of a port's MLP receive buffer: payload length plus 8 B each (R71). -/
def FpS.occ (s : FpS) : Nat := sumN (s.buf.map (fun g => g.bytes.length + 8))

/-- The link a port's traffic uses: link 0 in MODE 0 (R64). -/
def Dev.fpLink (d : Dev) (p l : Nat) : Nat := if d.get (FP_CFG_MODE p) = 0 then 0 else l

/-- Set or clear bit l of a field. -/
def Dev.putBit (d : Dev) (f : Fld) (l : Nat) (b : Bool) : Dev :=
  let v := d.get f
  d.put f (if b then v ||| 2 ^ l else v - (v &&& 2 ^ l))

/-- Whether port p accepts and sends: in service and not draining (R82). -/
def Dev.fpOpen (d : Dev) (p : Nat) : Bool := d.get (FP_SVC_STATE p) == 2 && !d.on (FP_SVC_BUSY p)

/-! ### Reception -/

/-- Where classification sends a frame (R69). -/
inductive FpClass where
  | drop (r : Nat)
  | slow (tagged : Bool)
  | mlp (payload : List Byte) (src : Nat)
  deriving DecidableEq, Repr

/-- The part of R69 after the Ethernet header, of length h, for a unicast IPv6 frame. -/
def Dev.classifyIp (d : Dev) (p : Nat) (f : List Byte) (h : Nat) (tagged : Bool) : FpClass :=
  let n := f.length - 4 - h
  if n < 40 || byteAt f h / 16 ≠ 6 then .drop 6
  else
    let plen := beAt f (h + 4) 2
    let u := h + 40
    if n < plen + 40 then .drop 7
    else if beAt f (h + 24) 8 ≠ d.get (FP_IP6_HI_ADDR p) || beAt f (h + 32) 8 ≠ d.get (FP_IP6_LO_ADDR p) then .slow tagged
    else if byteAt f (h + 6) ≠ 17 then .slow tagged
    else if plen < 8 then .drop 8
    else if beAt f (u + 2) 2 ≠ d.get MLE_CTRL_UDP_PORT then .slow tagged
    else if beAt f (u + 4) 2 ≠ plen then .drop 8
    else if beAt f (u + 6) 2 = 0 || udpSum (slice f (h + 8) 16) (slice f (h + 24) 16) (slice f u plen) ≠ 0 then .drop 9
    else .mlp (slice f (u + 8) (plen - 8)) (beAt f (h + 8) 16)

/-- The classification of R69; the frame runs from the destination address through the FCS. A port that OUT has closed finishes a frame
whose start came before it (R82, Table 3-7). -/
def Dev.classify (d : Dev) (p l : Nat) (f : List Byte) (begun : Bool) : FpClass :=
  if !(d.fpOpen p || (begun && d.on (FP_SVC_BUSY p))) || !bit (d.get (FP_STATUS_LINK_UP p)) (d.fpLink p l) then .drop 0x0E
  else if f.length < 64 then .drop 2
  else if fcs (f.take (f.length - 4)) ≠ f.drop (f.length - 4) then .drop 1
  else
    let tag := beAt f 12 2 = 0x8100
    let vid := beAt f 14 2 % 4096
    let vlan := d.on (FP_CFG_VLAN_EN p)
    if tag && (if vlan then vid ≠ d.get (FP_CFG_VID p) else vid ≠ 0) then .drop 5
    else if !tag && vlan then .drop 5
    else
      let et := if tag then beAt f 16 2 else beAt f 12 2
      let h := if tag then 18 else 14
      if (if tag then 1522 else 1518) < f.length then .drop 3
      else if et = 0x8808 then .drop 0x0F
      else if byteAt f 0 % 2 = 0 && beAt f 0 6 ≠ d.get (FP_MAC_ADDR p) then .drop 4
      else if byteAt f 0 % 2 = 1 || et ≠ 0x86DD then .slow tag
      else d.classifyIp p f h tag

/-- A timestamp of the time base now with a signed correction in 1/256 ns: ns and fraction (R80). -/
def Dev.stamp (d : Dev) (adj : Nat) : Nat × Nat :=
  let t := wrapI 72 ((d.now * 256 + d.get TB_FRAC_FRAC / 2 ^ 24 : Nat) + sgn 16 adj)
  (t / 256, t % 256)

/-- Ten nanoseconds of FP_SLRATE.RATE thousand frames per second come back to each port's token bucket (R77). -/
def Dev.slowRefill (d : Dev) : Dev :=
  forN 4 (fun p d =>
    let s := d.fport p
    if s.slUsed = 0 then d else d.setFport p { s with slUsed := s.slUsed - 10 * d.get (FP_SLRATE_RATE p) }) d

/-- Bytes in a port's slow-lane receive buffer. The spec does not say what a frame occupies there: the model counts the bytes its entry
will hold (DESIGN CHOICE, log entry 78). -/
def FpS.slowOcc (s : FpS) : Nat := sumN (s.slow.map (fun x => x.body.length))

/-- A frame for the slow lane: token bucket, then port p's 64 KiB slow-lane buffer (R77). -/
def Dev.slowEnter (d : Dev) (p l : Nat) (f : List Byte) (tagged : Bool) : Dev :=
  let s := d.fport p
  let full := d.get (FP_SLRATE_BURST p) * 1000000
  if d.get (FP_SLRATE_RATE p) = 0 || full < s.slUsed + 1000000 then d.inc (FP_RXDROP_COUNT p 0x0C)
  else
    let s := { s with slUsed := s.slUsed + 1000000 }
    let body := f.take (f.length - 4)
    if 65536 < s.slowOcc + body.length then (d.setFport p s).inc (FP_RXDROP_COUNT p 0x0D)
    else
      let (ns, fr) := d.stamp (d.get (FP_TS_ADJ_RX p))
      d.setFport p { s with slow := s.slow ++ [⟨l, tagged, ns, fr, body⟩] }

/-- The queue entry of a slow-lane frame of port p: its prefix and its bytes (R77). -/
def SlowFrame.entry (x : SlowFrame) (p : Nat) : Entry :=
  { words := leWords 4 x.ns ++ [BitVec.ofNat 16 (x.frac + x.link * 2 ^ 8 + p * 2 ^ 10 + b2n x.tagged * 2 ^ 12),
      BitVec.ofNat 16 x.body.length, 0, 0] ++ packWords x.body }

/-- One frame goes from the slow-lane buffer to the port's slow-lane queue; one that the queue refuses while OUT drains the port is dropped
under 0x0D (R77, Table 3-7). -/
def Dev.slowCommit (d : Dev) (p : Nat) (x : SlowFrame) : Dev :=
  match d.enqueue (0x1580 + p) (x.entry p) with
  | (d, .placed) => d.inc (FP_CNT_COUNT p 1)
  | (d, _) => if d.on (FP_SVC_BUSY p) then d.inc (FP_RXDROP_COUNT p 0x0D) else d

/-- Port p's slow-lane buffer drains into its slow-lane queue, oldest frame first: at each tick of the reference, and when OUT's drain ends
(DESIGN CHOICE, log entry 78). -/
def Dev.slowDrain (d : Dev) (p : Nat) : Dev :=
  let s := d.fport p
  if s.slow.isEmpty then d else s.slow.foldl (fun d x => d.slowCommit p x) (d.setFport p { s with slow := [] })

/-- The slow-lane buffers of the four ports drain. -/
def Dev.slowDrains (d : Dev) : Dev := forN 4 (fun p d => d.slowDrain p) d

/-- Event 0x0303 when occupancy is at or above high water for the first time in the tick (R72). DESIGN CHOICE (log entry 79): occupancy
that has stayed at or above high water since an earlier tick counts as reaching it at the first arrival of the tick. -/
def Dev.hiwatCheck (d : Dev) (p : Nat) : Dev :=
  let s := d.fport p
  if d.get (FP_BUF_HIWAT p) * 65536 ≤ s.occ && !s.hiwatEvent then
    (d.setFport p { s with hiwatEvent := true }).pfEvent 0x0303 [(1, p)]
  else d

/-- An MLP datagram at port p's receive buffer (R71, R72). -/
def Dev.mlpEnter (d : Dev) (p : Nat) (g : Dgram) : Dev :=
  let s := d.fport p
  let ty := byteAt g.bytes 1
  if d.get (FP_BUF_HIWAT p) * 65536 ≤ s.occ && (2 ≤ g.bytes.length && (ty = 1 || ty = 5)) then
    ((d.inc (FP_RXDROP_COUNT p 0x0A)).setFport p { s with tickA := s.tickA + 1 }).hiwatCheck p
  else if 1048576 < s.occ + g.bytes.length + 8 then
    ((d.inc (FP_RXDROP_COUNT p 0x0B)).setFport p { s with tickB := s.tickB + 1 }).hiwatCheck p
  else (d.setFport p { s with buf := s.buf ++ [g] }).hiwatCheck p

/-- A frame arrives on link l of port p (`begun`: its first bit came before an OUT that is being carried out), with the RS-FEC codewords and symbols corrected in it (R69, Table 3-11). -/
def Dev.fpReceive (d : Dev) (p l : Nat) (f : List Byte) (cw sym : Nat) (begun : Bool) : Dev :=
  let l := d.fpLink p l
  let d := ((d.inc (FP_LCNT_COUNT p (8 * l + 0))).addCnt (FP_LCNT_COUNT p (8 * l + 1)) f.length)
  let d := (d.addCnt (FP_LCNT_COUNT p (8 * l + 4)) cw).addCnt (FP_LCNT_COUNT p (8 * l + 6)) sym
  match d.classify p l f begun with
  | .drop r => d.inc (FP_RXDROP_COUNT p r)
  | .slow t => d.slowEnter p l f t
  | .mlp b src => d.mlpEnter p ⟨b, src, d.now⟩

/-! ### Service states and bring-up -/

/-- Turn port p's lanes off: no lock, no usable link, no frame waiting on a link. -/
def Dev.fpLanesOff (d : Dev) (p : Nat) : Dev :=
  let d := forN 4 (fun l d => ((d.put (FP_LANE_SIGNAL p l) 0).put (FP_LANE_CDR_LOCK p l) 0).put (FP_LANE_ADAPT_DONE p l) 0) d
  let d := ((d.put (FP_STATUS_LINK_UP p) 0).put (FP_STATUS_BLOCK_LOCK p) 0)
  let d := (d.put (FP_STATUS_FEC_LOCK p) 0).put (FP_STATUS_AM_LOCK p) 0
  d.setFport p { d.fport p with lanesOn := false, holdoff := 0, lost := 0 }

/-- Begin bring-up: STATE returning, transmitters on (Table 3-3). -/
def Dev.fpReturn (d : Dev) (p : Nat) : Dev :=
  (d.put (FP_SVC_STATE p) 1).setFport p { d.fport p with lanesOn := true }

/-- The return of a parked port with its cause, and event 0x0305 (R83). -/
def Dev.fpWake (d : Dev) (p cause : Nat) : Dev :=
  ((d.put (FP_WAKE_CAUSE p) cause).pfEvent 0x0305 [(1, p), (1, cause)]).fpReturn p

/-- FP_SVC.OP := OUT (R82, Table 3-8). DESIGN CHOICE (log entry 79): an MLP frame that waits on a link when OUT is written is a message
withheld for the port, counted under FP_TXDROP[2]; the frame being transmitted has left already. -/
def Dev.fpOut (d : Dev) (r : Requester) (p : Nat) : Dev :=
  if d.on (FP_SVC_BUSY p) then d.errBusy 3 p (fpOff p 2)
  else match d.get (FP_SVC_STATE p) with
    | 0 => d
    | 1 => (d.fpLanesOff p).put (FP_SVC_STATE p) 0
    | 2 =>
      let s := d.fport p
      ((d.put (FP_SVC_BUSY p) 1).addCnt (FP_TXDROP_COUNT p 2) s.txq.length).setFport p { s with txq := [] }
    | _ => d.errState 3 p (fpOff p 2) (srcOf r)

/-- The drain ends: the slow-lane buffer drained, lanes off, out of service, BUSY cleared (Table 3-7). While the MLP buffer still holds a
datagram, it has not ended. -/
def Dev.fpOutComplete (d : Dev) (p : Nat) : Dev :=
  if d.on (FP_SVC_BUSY p) && (d.fport p).buf.isEmpty then
    (((d.slowDrain p).fpLanesOff p).put (FP_SVC_STATE p) 0).put (FP_SVC_BUSY p) 0
  else d

/-- FP_SVC.OP := IN (R67, R83, Table 3-8). -/
def Dev.fpIn (d : Dev) (p : Nat) : Dev :=
  if d.on (FP_SVC_BUSY p) then d.errBusy 3 p (fpOff p 2)
  else match d.get (FP_SVC_STATE p) with
    | 0 => d.fpReturn p
    | 3 => d.fpWake p 0
    | _ => d

/-- FP_SVC.OP := PARK (R83, Table 3-8). -/
def Dev.fpPark (d : Dev) (r : Requester) (p : Nat) : Dev :=
  if d.on (FP_SVC_BUSY p) then d.errBusy 3 p (fpOff p 2)
  else if d.get (FP_SVC_STATE p) = 0 then d.put (FP_SVC_STATE p) 3
  else d.errState 3 p (fpOff p 2) (srcOf r)

/-- Place of a stage in the order of Table 3-3. -/
def stageNo : LinkStage → Nat
  | .signal => 0
  | .cdr => 1
  | .adapt => 2
  | .block => 3
  | .am => 4
  | .fec => 5

/-- The stages of link l numbered lo…hi are all reached, or all lost: on its own lane in MODE 1, on the four lanes in MODE 0. There is no
alignment-marker lock in MODE 1 (R67). -/
def Dev.fpLocks (d : Dev) (p l lo hi : Nat) (b : Bool) : Dev :=
  let has := fun k => decide (lo ≤ k) && decide (k ≤ hi)
  let lane := fun (i : Nat) (d : Dev) =>
    let d := if has 0 then d.putB (FP_LANE_SIGNAL p i) b else d
    let d := if has 1 then d.putB (FP_LANE_CDR_LOCK p i) b else d
    let d := if has 2 then d.putB (FP_LANE_ADAPT_DONE p i) b else d
    if has 3 then d.putBit (FP_STATUS_BLOCK_LOCK p) i b else d
  let d := if d.get (FP_CFG_MODE p) = 0 then forN 4 lane d else lane l d
  let d := if has 4 && d.get (FP_CFG_MODE p) = 0 then d.putB (FP_STATUS_AM_LOCK p) b else d
  if has 5 then d.putBit (FP_STATUS_FEC_LOCK p) l b else d

/-- Link l reaches a stage of Table 3-3, and with it every stage before; at RS-FEC lock its hold-off starts (R67). -/
def Dev.fpFecLock (d : Dev) (p l : Nat) (st : LinkStage) : Dev :=
  let l := d.fpLink p l
  let s := d.fport p
  let svc := d.get (FP_SVC_STATE p)
  if s.lanesOn && (svc = 1 || svc = 2) && !bit (d.get (FP_STATUS_FEC_LOCK p)) l then
    let d := d.fpLocks p l 0 (stageNo st) true
    if st = .fec then d.setFport p { s with holdoff := s.holdoff ||| 2 ^ l } else d
  else d

/-- Link l's hold-off ends without error: the link is usable, a returning port enters service (R67, R68). -/
def Dev.fpHoldoffEnd (d : Dev) (p l : Nat) : Dev :=
  let l := d.fpLink p l
  let s := d.fport p
  if bit s.holdoff l then
    let d := (d.putBit (FP_STATUS_LINK_UP p) l true).setFport p
      { s with holdoff := s.holdoff - 2 ^ l, lost := s.lost - (s.lost &&& 2 ^ l) }
    let d := if bit s.lost l then d.pfEvent 0x0301 [(1, p), (1, l)] else d
    if d.get (FP_SVC_STATE p) = 1 then (d.put (FP_SVC_STATE p) 2).pfEvent 0x0306 [(1, p), (1, l)] else d
  else d

/-- The first stage that goes when an uncorrectable codeword (none) or the loss of a stage stops a hold-off: a codeword costs the RS-FEC
lock alone, because the hold-off waits for the next FEC lock (DEDUCED, log entry 77). -/
def lossFrom : StageO → Nat
  | none => 5
  | some st => stageNo st

/-- An uncorrectable codeword, or the loss of a stage, on link l that is not usable (R67): the stages from the lost one on are lost, and a
hold-off restarts at the next FEC lock. On a usable link a codeword is counted; its loss of lock is FP_LOCK_LOSS. -/
def Dev.fpCodeword (d : Dev) (p l : Nat) (loss : StageO) : Dev :=
  let l := d.fpLink p l
  let s := d.fport p
  let d := if loss.isSome then d else d.inc (FP_LCNT_COUNT p (8 * l + 5))
  if bit s.holdoff l then (d.fpLocks p l (lossFrom loss) 5 false).setFport p { s with holdoff := s.holdoff - 2 ^ l }
  else if loss.isSome && !bit (d.get (FP_STATUS_LINK_UP p)) l then d.fpLocks p l (lossFrom loss) 5 false
  else d

/-- A usable link loses lock (R68): frames queued on it are lost (R75), and bring-up is repeated from CDR lock onward; SIGNAL goes only
where the signal itself is lost. -/
def Dev.fpLockLoss (d : Dev) (p l : Nat) (st : LinkStage) : Dev :=
  let l := d.fpLink p l
  if bit (d.get (FP_STATUS_LINK_UP p)) l then
    let s := d.fport p
    let d := ((d.fpLocks p l (min 1 (stageNo st)) 5 false).putBit (FP_STATUS_LINK_UP p) l false).inc (FP_LCNT_COUNT p (8 * l + 7))
    let d := d.setFport p { s with lost := s.lost ||| 2 ^ l, txq := s.txq.filter (fun t => t.link != l) }
    d.pfEvent 0x0302 [(1, p), (1, l)]
  else d

/-- FP_STATUS as one word. -/
def Dev.fpStatus (d : Dev) (p : Nat) : Nat :=
  d.get (FP_STATUS_LINK_UP p) + d.get (FP_STATUS_BLOCK_LOCK p) * 2 ^ 4 + d.get (FP_STATUS_FEC_LOCK p) * 2 ^ 8 +
  d.get (FP_STATUS_AM_LOCK p) * 2 ^ 12 + d.get (FP_STATUS_HIWAT p) * 2 ^ 16 + d.get (FP_STATUS_LEVEL p) * 2 ^ 20

/-- A port still returning 500 ms after IN or wake (R67). -/
def Dev.fpReturnTimeout (d : Dev) (p : Nat) : Dev :=
  if d.get (FP_SVC_STATE p) = 1 then d.pfEvent 0x0307 [(1, p), (4, d.fpStatus p)] else d

/-- The wake detector of a parked port recognises link activity, or the wake pattern (R83). -/
def Dev.fpWakeDetect (d : Dev) (p : Nat) (pattern : Bool) : Dev :=
  let m := d.get (FP_WAKE_MODE p)
  if d.get (FP_SVC_STATE p) = 3 && (m = 1 || (m = 2 && pattern)) then d.fpWake p (if m = 1 then 1 else 2) else d

/-- Block reset of a port: buffers, FIFO, counters and registers return to reset (Table 3-8). -/
def Dev.fpBlockReset (d : Dev) (p : Nat) : Dev :=
  (d.resetWords (fpOff p 0) (fpOff p 0x400)).setFport p {}

/-! ### Next hops -/

/-- FP_NH_CMD READ. -/
def Dev.nhRead (d : Dev) (i : Nat) : Dev :=
  let v := Tab.get 0 d.fp.nh i
  ((d.put FP_NH_ENTRY_MAC (bits v 47 0)).put FP_NH_ENTRY_LINK (bits v 49 48)).put FP_NH_ENTRY_VALID (bits v 50 50)

/-- FP_NH_CMD WRITE (R74). -/
def Dev.nhWrite (d : Dev) (i : Nat) : Dev :=
  let v := d.get FP_NH_ENTRY_MAC + d.get FP_NH_ENTRY_LINK * 2 ^ 48 + d.get FP_NH_ENTRY_VALID * 2 ^ 50
  { d with fp := { d.fp with nh := Tab.set 0 d.fp.nh i v } }

/-! ### Transmission -/

/-- The first usable link from `l` upward, wrapping from 3 to 0, in at most n tries (R75). -/
def usableFrom (up : Nat) : Nat → Nat → Option Nat
  | 0, _ => none
  | n + 1, l => if bit up (l % 4) then some (l % 4) else usableFrom up n (l + 1)

/-- The link a gateway's frame takes (R75). -/
def Dev.fpTxLink (d : Dev) (p link : Nat) : Option Nat :=
  let up := d.get (FP_STATUS_LINK_UP p)
  if d.get (FP_CFG_MODE p) = 0 then (if bit up 0 then some 0 else none) else usableFrom up 4 link

/-- The MLP frame of Table 3-6, FCS included. -/
def Dev.mlpFrame (d : Dev) (p mac : Nat) (g : Gateway) (msg : List Byte) : List Byte :=
  let src := beBytes 8 (d.get (FP_IP6_HI_ADDR p)) ++ beBytes 8 (d.get (FP_IP6_LO_ADDR p))
  let dst := beBytes 8 g.hi ++ beBytes 8 g.lo
  let len := 8 + msg.length
  let u0 := beBytes 2 (d.get MLE_CTRL_UDP_PORT) ++ beBytes 2 (g.cfg % 65536) ++ beBytes 2 len
  let ck := udpSum src dst (u0 ++ [0, 0] ++ msg)
  let tag := if d.on (FP_CFG_VLAN_EN p) then
      beBytes 2 0x8100 ++ beBytes 2 (d.get (FP_TXCFG_PCP p) * 8192 + d.get (FP_CFG_VID p)) else []
  let f := beBytes 6 mac ++ beBytes 6 (d.get (FP_MAC_ADDR p)) ++ tag ++ beBytes 2 0x86DD ++
    beBytes 4 (6 * 2 ^ 28 + d.get (FP_TXCFG_TCLASS p) * 2 ^ 20) ++ beBytes 2 len ++ beBytes 1 17 ++
    beBytes 1 (d.get (FP_TXCFG_HOP p)) ++ src ++ dst ++ u0 ++ beBytes 2 (if ck = 0 then 0xFFFF else ck) ++ msg
  f ++ fcs f

/-- The port builds the frame of a sealed message for gateway gw, or withholds it under FP_TXDROP (R73–R76). DESIGN CHOICE (log entry 79):
where several reasons hold at once, not in service (2) is counted before next hop not valid (1), and that before no usable link (3). -/
def Dev.fpSendMlp (d : Dev) (gw : Nat) (g : Gateway) (msg : List Byte) : Dev :=
  let p := bits g.cfg 17 16
  let nh := Tab.get 0 d.fp.nh gw
  let s := d.fport p
  if !d.fpOpen p then d.inc (FP_TXDROP_COUNT p 2)
  else if !bit nh 50 then
    (d.inc (FP_TXDROP_COUNT p 1)).setFport p
      { s with nhTick := s.nhTick + 1, nhFirst := if s.nhTick = 0 then gw else s.nhFirst }
  else match d.fpTxLink p (bits nh 49 48) with
    | none => d.inc (FP_TXDROP_COUNT p 3)
    | some l =>
      let moved := d.get (FP_CFG_MODE p) = 1 && l ≠ bits nh 49 48
      d.setFport p { s with txq := s.txq ++ [⟨l, d.mlpFrame p (bits nh 47 0) g msg, moved⟩] }

/-- A frame leaves on link l of port p. -/
def Dev.fpEmit (d : Dev) (p l : Nat) (f : List Byte) : Dev :=
  ((d.emit (.fpFrame p l f)).inc (FP_LCNT_COUNT p (8 * l + 2))).addCnt (FP_LCNT_COUNT p (8 * l + 3)) f.length

/-- The port takes a slow-lane egress entry and sends or discards its frame (R76, R78, R81). -/
def Dev.slowSend (d : Dev) (p : Nat) : Dev :=
  match d.takeFor (0x1584 + p) with
  | (d, .entry e) =>
    let w := fun i => (e.words.getD i 0).toNat
    let len := w 0
    let sel := bits (w 1) 2 2 = 1
    let up := d.get (FP_STATUS_LINK_UP p)
    let l? := if sel then (if bit up (bits (w 1) 1 0) then some (bits (w 1) 1 0) else none)
      else usableFrom up 4 0
    if !d.fpOpen p then d.inc (FP_TXDROP_COUNT p 2)
    else if len < 60 || 1518 < len then
      (d.inc (FP_TXDROP_COUNT p 3)).raiseErr 3 p 0x0009 2 (0x1584 + p) len
    else match l? with
      | none => d.inc (FP_TXDROP_COUNT p 3)
      | some l =>
        let f := slice (wordBytes (e.words.drop 8)) 0 len
        let d := (d.fpEmit p l (f ++ fcs f)).inc (FP_CNT_COUNT p 3)
        if bits (w 1) 3 3 = 1 then
          let s := d.fport p
          if s.fifo.length < 64 then
            let (ns, fr) := d.stamp (d.get (FP_TS_ADJ_TX p))
            (d.setFport p { s with fifo := s.fifo ++ [⟨ns, fr, w 2, l⟩] }).inc (FP_CNT_COUNT p 5)
          else d.put (FP_TXTS_INFO_OVF p) 1
        else d
  | (d, _) => d

/-- The oldest MLP frame leaves; one that leaves on another link than its next hop names is counted (R75). -/
def Dev.mlpSend (d : Dev) (p : Nat) : Dev :=
  let s := d.fport p
  match s.txq with
  | [] => d
  | t :: r =>
    let d := ((d.setFport p { s with txq := r }).fpEmit p t.link t.bytes).inc (FP_CNT_COUNT p 2)
    if t.moved then d.inc (FP_CNT_COUNT p 4) else d

/-- The bytes the next slow-lane egress entry would send, when there is one. DESIGN CHOICE (log entry 79): an entry that is malformed, or
whose link is not usable, is charged its length word and the FCS against the slow lane's deficit although nothing is sent. -/
def Dev.slowNext (d : Dev) (p : Nat) : Option Nat :=
  match (d.taken (0x1584 + p) ++ (d.queue (0x1584 + p)).es).find? Entry.live with
  | some e => some ((e.words.getD 0 0).toNat + 4)
  | none => none

/-- Deficit round-robin between MLP and slow-lane egress (R76): the class that sends next and the deficits after its turn came
round, within k turns; a turn adds 24 B for each unit of weight (log entry 14). True is the slow lane. -/
def drr : Nat → Nat → Option Nat → Option Nat → Bool → Nat → Nat → Option (Bool × Nat × Nat)
  | 0, _, _, _, _, _, _ => none
  | k + 1, share, m, sl, turn, dm, ds =>
    let want := if turn then sl else m
    let def' := if turn then ds else dm
    match want with
    | some n =>
      if n ≤ def' then some (turn, if turn then dm else dm - n, if turn then ds - n else ds)
      else
        let q := 24 * (if turn then 64 - share else share)
        drr k share m sl (!turn) (if turn then dm + q else dm) (if turn then ds else ds + q)
    | none =>
      let q := 24 * (if turn then 64 - share else share)
      drr k share m sl (!turn) (if turn then dm + q else 0) (if turn then 0 else ds + q)

/-- What a port may send next (R76): nothing, an MLP frame or a slow-lane frame, and the port's state with the deficits after that turn.
With SLSHARE 0 the slow lane sends only while MLP egress is empty. -/
def Dev.fpArbiter (d : Dev) (p : Nat) : Option (Bool × FpS) :=
  let s := d.fport p
  let m := s.txq.head?.map (fun t => t.bytes.length)
  let sl := d.slowNext p
  let share := d.get (FP_BUF_SLSHARE p)
  match m, sl with
  | none, none => none
  | some _, none => some (false, s)
  | none, some _ => some (true, s)
  | some _, some _ =>
    if share = 0 then some (false, s)
    else match drr 260 share m sl s.slowTurn s.dMlp s.dSlow with
      | some (b, dm, ds) => some (b, { s with slowTurn := b, dMlp := dm, dSlow := ds })
      | none => some (false, s)

/-- The port sends one frame, MLP or slow-lane as R76 arbitrates. -/
def Dev.fpTransmit (d : Dev) (p : Nat) : Dev :=
  match d.fpArbiter p with
  | none => d
  | some (true, s) => (d.setFport p s).slowSend p
  | some (false, s) => (d.setFport p s).mlpSend p

/-- The port sends or discards its next slow-lane frame, when it is the slow lane's turn (R76, R78). -/
def Dev.slowTurn (d : Dev) (p : Nat) : Dev :=
  match d.fpArbiter p with
  | some (true, s) => (d.setFport p s).slowSend p
  | _ => d

/-- FP_TXTS_INFO as one word. -/
def Dev.txtsInfo (d : Dev) (p : Nat) : Nat :=
  d.get (FP_TXTS_INFO_VALID p) + d.get (FP_TXTS_INFO_OVF p) * 2 + d.get (FP_TXTS_INFO_LINK p) * 4 +
  d.get (FP_TXTS_INFO_FRAC p) * 2 ^ 8 + d.get (FP_TXTS_INFO_COOKIE p) * 2 ^ 16

/-- A read of FP_TXTS_INFO without PEEK moves the oldest FIFO entry into the latch (R81). -/
def Dev.txtsMove (d : Dev) (p : Nat) : Dev :=
  let s := d.fport p
  match s.fifo with
  | [] => d.put (FP_TXTS_INFO_VALID p) 0
  | t :: r =>
    let d := d.setFport p { s with fifo := r }
    let d := ((d.put (FP_TXTS_INFO_VALID p) 1).put (FP_TXTS_INFO_LINK p) t.link).put (FP_TXTS_INFO_FRAC p) t.frac
    (d.put (FP_TXTS_INFO_COOKIE p) t.cookie).put (FP_TXTS_TIME_NS p) t.ns

/-- The ports' part of a management tick: events 0x0304 and 0x0308, and the tick's counts cleared (R72, R74). -/
def Dev.fpTick (d : Dev) : Dev :=
  forN 4 (fun p d =>
    let s := d.fport p
    let d := if s.tickA + s.tickB = 0 then d else d.pfEvent 0x0304 [(1, p), (4, s.tickA), (4, s.tickB)]
    let d := if s.nhTick = 0 then d else d.pfEvent 0x0308 [(1, p), (2, s.nhFirst), (4, s.nhTick)]
    d.setFport p { d.fport p with tickA := 0, tickB := 0, hiwatEvent := false, nhTick := 0, nhFirst := 0 }) d

end Sys2Proof.Machine
end

