-- ==== Sys2Proof/Machine/Mle.lean ====
section
/-!
DEFINITION. The message layer (chapter 2): inventory, key slots, gateways, receive checks, replay windows, admission, egress.
-/
namespace Sys2Proof.Machine

/-! ### Inventory and key slots -/

/-- The key slot of a parity (Table 2-2). -/
def Lantern.slot (l : Lantern) (par : Nat) : KeySlot := if par % 2 = 0 then l.slot0 else l.slot1

/-- Replace the key slot of a parity. -/
def Lantern.setSlot (l : Lantern) (par : Nat) (k : KeySlot) : Lantern :=
  if par % 2 = 0 then { l with slot0 := k } else { l with slot1 := k }

/-- The parity of the slot in a given state. -/
def Lantern.parOf (l : Lantern) (st : SlotState) : Option Nat :=
  if l.slot0.st = st then some 0 else if l.slot1.st = st then some 1 else none

/-- The registered lantern at a local index. -/
def Dev.lantern (d : Dev) (lix : Nat) : Option Lantern := Tab.find d.mle.inv lix

/-- Store a registered lantern. -/
def Dev.setLantern (d : Dev) (lix : Nat) (l : Lantern) : Dev := { d with mle := { d.mle with inv := Tab.ins d.mle.inv lix l } }

/-- The local index and entry of a UID (R12). -/
def Dev.byUid (d : Dev) (uid : Nat) : Option (Nat × Lantern) := d.mle.inv.find? (fun e => e.2.uid == uid)

/-- Gateway entry n (R27). -/
def Dev.gateway (d : Dev) (n : Nat) : Gateway := Tab.get {} d.mle.gw n

/-- A gateway entry in use. -/
def Gateway.valid (g : Gateway) : Bool := bit g.cfg 18

/-- End a rekey: it is no longer in progress and sends nothing more (R54). -/
def Dev.endRekey (d : Dev) (lix : Nat) : Dev :=
  let d := { d with mle := { d.mle with due := d.mle.due.filter (· != lix) } }
  match d.lantern lix with
  | some l => d.setLantern lix { l with rekey := none }
  | none => d

/-- MLE_INV_ENTRY.KEYS and GRACE of a lantern (Table 2-19). -/
def Lantern.keys (l : Lantern) : Nat × Nat :=
  match l.parOf .current with
  | none => (0, 0)
  | some p =>
    match (l.slot (p + 1)).st with
    | .next => (2, 0)
    | .old => (3, 1)
    | .retired => (3, 0)
    | _ => (1, 0)

/-- A UID's entry in the layout of MLE_INV_ENTRY, 0 when it is not registered (R212). -/
def Dev.invEntry (d : Dev) (uid : Nat) : Nat :=
  match d.byUid uid with
  | none => 0
  | some (lix, l) =>
    lix + l.owner * 2 ^ 18 + l.gw * 2 ^ 24 + (if l.suspended then 2 else 1) * 2 ^ 36 + l.keys.1 * 2 ^ 38 + l.keys.2 * 2 ^ 40

/-- OWNER above NumVFs while VF Enable is 1 (Table 2-19). -/
def Dev.ownerBad (d : Dev) (o : Nat) : Bool := d.on HIF_STATUS_VFE && decide (d.get HIF_STATUS_NUMVF < o)

/-- The RESULT an inventory operation ends with (Table 2-19, R58); several refusals at once: the lowest test of R58's order. -/
def Dev.invResult (d : Dev) (c : InvCmd) : Nat :=
  if c.op = 1 then
    if c.uid = 0 then 1
    else if (d.byUid c.uid).isSome then 2
    else if (d.lantern c.lix).isSome then 3
    else if !(d.gateway c.gw).valid then 5
    else if d.ownerBad c.owner then 7
    else 0
  else match d.byUid c.uid with
    | none => 4
    | some (lix, _) =>
      if c.op = 2 then
        if lix ≠ c.lix then 6
        else if !(d.gateway c.gw).valid then 5
        else if d.ownerBad c.owner then 7
        else 0
      else 0

/-- Apply an inventory operation whose RESULT is 0 (R58). The orders and the ledger's part of UPDATE and REMOVE follow in
`Dev.invApply` of the order merge's file. -/
def Dev.invStore (d : Dev) (c : InvCmd) : Dev :=
  match c.op with
  | 1 => d.setLantern c.lix { uid := c.uid, owner := c.owner, gw := c.gw }
  | 2 => match d.lantern c.lix with
    | some l => d.setLantern c.lix { l with owner := c.owner, gw := c.gw }
    | none => d
  | 3 => match d.byUid c.uid with
    | some (lix, l) => d.setLantern lix { l with suspended := true }
    | none => d
  | 4 => match d.byUid c.uid with
    | some (lix, l) => d.setLantern lix { l with suspended := false }
    | none => d
  | 5 => match d.byUid c.uid with
    | some (lix, _) =>
      let d := d.endRekey lix
      { d with mle := { d.mle with inv := Tab.del d.mle.inv lix } }
    | none => d
  | _ => d

/-- Load a UID's entry into MLE_INV_ENTRY (LOOKUP, R58). -/
def Dev.invLoad (d : Dev) (uid : Nat) : Dev :=
  match d.byUid uid with
  | none => ((d.put MLE_INV_ENTRY_STATE 0).put MLE_INV_ENTRY_KEYS 0).put MLE_INV_ENTRY_GRACE 0
  | some (lix, l) =>
    let d := ((d.put MLE_INV_ENTRY_LIX lix).put MLE_INV_ENTRY_OWNER l.owner).put MLE_INV_ENTRY_GW l.gw
    let d := d.put MLE_INV_ENTRY_STATE (if l.suspended then 2 else 1)
    (d.put MLE_INV_ENTRY_KEYS l.keys.1).put MLE_INV_ENTRY_GRACE l.keys.2

/-- The epoch of a slot that holds a key, whatever its state. -/
def KeySlot.holds (k : KeySlot) (epoch : Nat) : Bool := k.st != .empty && k.epoch == epoch

/-- The RESULT a key operation ends with (Table 2-19, R58). DESIGN CHOICE (log entry 81): where the blob also fails to unwrap, RESULT 3 of
LOAD_CURRENT and RESULT 6 or 4 of LOAD_NEXT and LOAD_NEXT_AND_REKEY come before RESULT 2. -/
def Dev.keyResult (d : Dev) (c : KeyCmd) : Nat :=
  match d.lantern c.lix with
  | none => 1
  | some l =>
    let bad := (keyUnwrap d.fuse.kek c.dblob).isNone
    let inProg := l.rekey.isSome
    match c.op with
    | 1 => if l.slot0.holds c.epoch || l.slot1.holds c.epoch then 3 else if bad then 2 else 0
    | 2 => if (l.parOf .current).isNone then 6 else if inProg then 4 else if bad then 2 else 0
    | 3 => if (l.parOf .current).isNone then 6 else if inProg then 4 else if bad then 2 else 0
    | 4 => if (l.parOf .next).isNone then 5 else if inProg then 4 else 0
    | _ => 0

/-- Start a rekey: its first REKEY is due (R54). -/
def Dev.startRekey (d : Dev) (lix : Nat) (lblob : List Byte) : Dev :=
  match d.lantern lix with
  | some l =>
    let d := d.setLantern lix { l with rekey := some { sends := 0, due := true, lblob := slice lblob 0 24 } }
    { d with mle := { d.mle with due := d.mle.due ++ [lix] } }
  | none => d

/-- The unwrapped next key goes into the slot that is not current, with epoch current + 1 (R33, R58). -/
def Lantern.loadNext (l : Lantern) (k : BitVec 128) : Lantern :=
  match l.parOf .current with
  | none => l
  | some p => l.setSlot (p + 1) { st := .next, key := k, epoch := ((l.slot p).epoch + 1) % 2 ^ 32 }

/-- Apply a key operation whose RESULT is 0 (R58). -/
def Dev.keyStore (d : Dev) (c : KeyCmd) : Dev :=
  match d.lantern c.lix with
  | none => d
  | some l =>
    let key := (keyUnwrap d.fuse.kek c.dblob).getD 0
    match c.op with
    | 1 =>
      let l := ({ l with slot0 := {}, slot1 := {}, txSeq := 0, warnRx := false, warnTx := false, acked := false }).setSlot c.epoch
        { st := .current, key := key, epoch := c.epoch }
      (d.setLantern c.lix l).endRekey c.lix
    | 2 => d.setLantern c.lix (l.loadNext key)
    | 3 => (d.setLantern c.lix (l.loadNext key)).startRekey c.lix c.lblob
    | 4 => d.startRekey c.lix c.lblob
    | 5 => match l.parOf .next with
      | some p => (d.setLantern c.lix (l.setSlot p {})).endRekey c.lix
      | none => d
    | 6 => (d.setLantern c.lix { l with slot0 := {}, slot1 := {} }).endRekey c.lix
    | _ => d

/-- Bytes of three quads of an operand array, byte 8i + k at bits [8k + 7:8k] of quad i (R57). -/
def Dev.blob (d : Dev) (f : Nat → Fld) : List Byte := leBytes 8 (d.get (f 0)) ++ leBytes 8 (d.get (f 1)) ++ leBytes 8 (d.get (f 2))

/-- MLE_INV_CMD.OP := op: the operands are taken at the write, the result is final when the command completes (R56, R58). -/
def Dev.invCommand (d : Dev) (op : Nat) : Dev :=
  if d.on MLE_INV_STATUS_BUSY then d.errBusy 4 0 0x30018
  else
    let c : InvCmd := ⟨op, d.get MLE_INV_UID_UID, d.get MLE_INV_ENTRY_LIX, d.get MLE_INV_ENTRY_OWNER, d.get MLE_INV_ENTRY_GW⟩
    { d.put MLE_INV_STATUS_BUSY 1 with mle := { d.mle with invPend := some c } }

/-- MLE_KEY_CMD with LIX and OP (R58). -/
def Dev.keyCommand (d : Dev) (lix op : Nat) : Dev :=
  if d.on MLE_KEY_STATUS_BUSY then d.errBusy 4 0 0x30020
  else
    let c : KeyCmd := ⟨op, lix, d.get MLE_KEY_EPOCH_EPOCH, d.blob MLE_KEY_DBLOB_BYTES, d.blob MLE_KEY_LBLOB_BYTES⟩
    { d.put MLE_KEY_STATUS_BUSY 1 with mle := { d.mle with keyPend := some c } }

/-- Run a key operation to its end: RESULT and the state after it. -/
def Dev.keyRun (d : Dev) (c : KeyCmd) : Dev × Nat :=
  let r := d.keyResult c
  (if r = 0 then d.keyStore c else d, r)


/-- MLE_GW_CMD READ (R57). -/
def Dev.gwRead (d : Dev) (i : Nat) : Dev :=
  let g := d.gateway i
  let d := (d.put MLE_GW_ADDR_HI_ADDR g.hi).put MLE_GW_ADDR_LO_ADDR g.lo
  ((d.put MLE_GW_CFG_UDP_PORT (bits g.cfg 15 0)).put MLE_GW_CFG_FP (bits g.cfg 17 16)).put MLE_GW_CFG_VALID (bits g.cfg 18 18)

/-- Store a gateway entry. -/
def Dev.setGateway (d : Dev) (i : Nat) (g : Gateway) : Dev := { d with mle := { d.mle with gw := Tab.set {} d.mle.gw i g } }

/-- MLE_GW_CMD WRITE (R58). -/
def Dev.gwWrite (d : Dev) (i : Nat) : Dev :=
  d.setGateway i ⟨d.get MLE_GW_ADDR_HI_ADDR, d.get MLE_GW_ADDR_LO_ADDR,
    d.get MLE_GW_CFG_UDP_PORT + d.get MLE_GW_CFG_FP * 2 ^ 16 + d.get MLE_GW_CFG_VALID * 2 ^ 18⟩

/-! ### Rekeying over time (R54) -/

/-- MLE_REKEY.INTERVAL has passed since a REKEY send without promotion: another becomes due while sends remain. -/
def Dev.rekeyResend (d : Dev) (lix : Nat) : Dev :=
  match d.lantern lix with
  | some l =>
    match l.rekey with
    | some r =>
      if r.due || r.sends = 0 || d.get MLE_REKEY_TRIES ≤ r.sends then d
      else { d.setLantern lix { l with rekey := some { r with due := true } } with
        mle := { (d.setLantern lix { l with rekey := some { r with due := true } }).mle with due := d.mle.due ++ [lix] } }
    | none => d
  | none => d

/-- The epoch a next key has or would have. -/
def Lantern.nextEpoch (l : Lantern) : Nat :=
  match l.parOf .next with
  | some p => (l.slot p).epoch
  | none => match l.parOf .current with
    | some p => ((l.slot p).epoch + 1) % 2 ^ 32
    | none => 0

/-- End a rekey without promotion, with event 0x0206 and its cause (R54, Table 2-26). -/
def Dev.rekeyFailed (d : Dev) (lix : Nat) (l : Lantern) (cause : Nat) : Dev :=
  (d.endRekey lix).pfEvent 0x0206 [(4, lix), (4, l.nextEpoch), (1, cause)]

/-- MLE_REKEY.INTERVAL has passed since the last allowed send. -/
def Dev.rekeyExhausted (d : Dev) (lix : Nat) : Dev :=
  match d.lantern lix with
  | some l =>
    match l.rekey with
    | some r => if !r.due && d.get MLE_REKEY_TRIES ≤ r.sends then d.rekeyFailed lix l 0 else d
    | none => d
  | none => d

/-- MLE_GRACE.MS has passed since promotion: the old slot is retired. -/
def Dev.retireOld (d : Dev) (lix : Nat) : Dev :=
  match d.lantern lix with
  | some l =>
    match l.parOf .old with
    | some p => d.setLantern lix (l.setSlot p { l.slot p with st := .retired })
    | none => d
  | none => d

/-- The next slot becomes current, the old one waits for its retirement, the egress SEQ restarts (R54). -/
def Lantern.promote (l : Lantern) (par : Nat) (retireNow : Bool) : Lantern :=
  let l := l.setSlot par { l.slot par with st := .current }
  let o := l.slot (par + 1)
  let l := l.setSlot (par + 1) { o with st := if o.st = .current then (if retireNow then .retired else .old) else o.st }
  { l with txSeq := 0, warnRx := false, warnTx := false, acked := false }

/-! ### Reception (R59) -/

/-- replay_check of R35: 0 for PASS, else the drop reason. -/
def KeySlot.replay (k : KeySlot) (seq : Nat) : Nat :=
  if seq = 0 then 0x0B
  else if seq + 64 ≤ k.h then 0x0C
  else if seq ≤ k.h && bit k.map (k.h - seq) then 0x0D
  else 0

/-- replay_update of R35. -/
def KeySlot.accept (k : KeySlot) (seq : Nat) : KeySlot :=
  if k.h < seq then { k with h := seq, map := (k.map * 2 ^ (seq - k.h)) % 2 ^ 64 ||| 1 }
  else { k with map := k.map ||| 2 ^ (k.h - seq) }

/-- The nonce of Table 2-3 as a 96-bit number. -/
def mlpNonce (dir epoch seq : Nat) : Nat := dir * 2 ^ 95 + epoch * 2 ^ 32 + seq

/-- The payload checks of Table 2-21. -/
def payloadOk (ty : Nat) (pl : List Byte) : Bool :=
  let n := pl.length
  if ty = 1 then
    let c := byteAt pl 0 % 16
    let m := byteAt pl 1
    decide (12 ≤ n) && decide (1 ≤ c) && decide (c ≤ 8) && decide (m < 2 ^ c) && decide (n = 12 + 16 * c + 64 * popc 8 m)
  else if ty = 2 then
    n == 76 && decide (sumN ((List.range 8).map (fun b => beAt pl (28 + 2 * b) 2)) ≤ beAt pl 8 4)
  else if ty = 3 then n == 20 && decide (byteAt pl 10 ≤ 2) && decide (byteAt pl 11 ≤ 1)
  else if ty = 4 then n == 28 && allDigits 16 (beAt pl 8 8)
  else if ty = 5 then n == 528 && decide (byteAt pl 10 ≤ 3) && decide (1 ≤ beAt pl 12 2)
  else if ty = 0x11 then n == 12 && decide (byteAt pl 10 ≤ 4)
  else if ty = 0x21 then n == 12 && decide (byteAt pl 8 ≤ 6)
  else if ty = 0x31 then n == 8 && decide (byteAt pl 4 ≤ 2)
  else false

/-- A refusal entered in the unregistered-UID table, or counted in MLE_UNREG_OVF (R60). -/
def Dev.unregister (d : Dev) (uid : Nat) (hello : Bool) (port src : Nat) : Dev :=
  if d.mle.unreg.any (fun u => u.uid == uid && u.hello == hello) then
    { d with mle := { d.mle with unreg := d.mle.unreg.map (fun u =>
      if u.uid == uid && u.hello == hello then { u with count := u.count + 1 } else u) } }
  else if d.mle.unreg.length < 64 then
    { d with mle := { d.mle with unreg := d.mle.unreg ++ [⟨uid, hello, port, src, 1⟩] } }
  else ({ d with mle := { d.mle with ovfTick := d.mle.ovfTick + 1 } }).inc MLE_UNREG_OVF_COUNT

/-- A tag failure of a lantern (Table 2-20, 0x0E). -/
def Dev.authFail (d : Dev) (lix : Nat) (l : Lantern) : Dev :=
  let n := l.tagFails + 1
  let c := d.get MLE_AUTH_WARN_COUNT
  let fire := c ≠ 0 && c ≤ n && !l.tagEvent
  let d := d.setLantern lix { l with tagFails := n, tagEvent := l.tagEvent || fire }
  if fire then d.pfEvent 0x0203 [(4, lix), (8, l.uid), (4, n)] else d

/-- Drop a datagram for reason r. -/
def Dev.mleDrop (d : Dev) (r : Nat) : Dev := d.inc (MLE_DROP_CNT_COUNT r)

/-- The admission prefix of R62. -/
def Dev.prefixWords (d : Dev) (lix owner port ep : Nat) : List Word :=
  leWords 4 d.now ++ [BitVec.ofNat 16 lix, BitVec.ofNat 16 (lix / 65536 + owner * 4 + port * 2 ^ 8 + ep * 2 ^ 10), 0, 0]

/-- The lantern queue a shard maps to, when its map entry is valid (R90). -/
def Dev.shardQueue (d : Dev) (s : Nat) : Option Nat :=
  let (q, v) := Tab.get (s / 2, true) d.bsk.shard s
  if v then some q else none

/-- Commit to the queue of the lantern's shard; without a valid map entry, count under 0x09 (R90, R100). -/
def Dev.sendShard (d : Dev) (lix : Nat) (e : Entry) : Dev :=
  match d.shardQueue (lix / 32) with
  | some q => d.send q e
  | none => d.inc (BSK_DROP_CNT_COUNT 9)

/-- The reflex unit reads the records of a DETECT (R17), in order. -/
def Dev.reflexRead (d : Dev) (lix : Nat) (pl : List Byte) : Dev :=
  { d.inc (RFX_CNT_COUNT 0) with rfx := { d.rfx with inq := d.rfx.inq ++ (List.range (byteAt pl 0 % 16)).map (fun i =>
    ⟨lix, beAt pl 4 8, slice pl (12 + 16 * i) 16, d.now, i⟩) } }

/-- A REKEY-ACK, consumed by the message layer (R54). -/
def Dev.rekeyAck (d : Dev) (lix : Nat) (l : Lantern) (pl : List Byte) : Dev :=
  let cur := match l.parOf .current with
    | some p => some (l.slot p).epoch
    | none => none
  let res := byteAt pl 4
  if res = 0 then
    if cur = some (beAt pl 0 4) && !l.acked then
      (d.setLantern lix { l with acked := true }).pfEvent 0x0205 [(4, lix), (4, beAt pl 0 4)]
    else d
  else if l.rekey.isSome then d.rekeyFailed lix l res
  else d

/-- Admit a message to its queues (R62, Table 2-4). -/
def Dev.mleAdmit (d : Dev) (lix : Nat) (l : Lantern) (port ep ty : Nat) (hdr pl : List Byte) : Dev :=
  let d := d.inc MLE_RX_CNT_COUNT
  let e : Entry := { words := d.prefixWords lix l.owner port ep ++ packWords (hdr ++ pl) }
  if ty = 0x31 then d.rekeyAck lix l pl
  else if ty = 1 then (d.sendShard lix e).reflexRead lix pl
  else if ty = 2 then (d.sendShard lix e).send 0x158B e
  else if ty = 3 then (d.sendShard lix e).send 0x1589 e
  else if ty = 4 then d.send 0x158B e
  else if ty = 5 then d.sendShard lix e
  else if ty = 0x11 then d.send 0x158A e
  else d.send (0x15C0 + l.owner) e

/-- Event 0x0204 when a SEQ first reaches the threshold in an epoch and direction (R38). -/
def Dev.seqWarn (d : Dev) (lix dir epoch seq : Nat) : Dev := d.pfEvent 0x0204 [(4, lix), (1, dir), (4, epoch), (4, seq)]

/-- The checks of R59 from the key slot onward. -/
def Dev.mleOpen (d : Dev) (lix : Nat) (l : Lantern) (port : Nat) (b : List Byte) : Dev :=
  let ep := bits (byteAt b 0) 2 2
  let k := l.slot ep
  let seq := beAt b 12 4
  let r := if k.st = .empty then 9 else if k.st = .retired then 0x0A else k.replay seq
  if r ≠ 0 then d.mleDrop r
  else match gcmOpen k.key (mlpNonce 0 k.epoch seq) (b.take 16) ((b.drop 16).take (b.length - 32)) (b.drop (b.length - 16)) with
    | none => (d.mleDrop 0x0E).authFail lix l
    | some pl =>
      let l := l.setSlot ep (k.accept seq)
      let next := k.st = .next
      let l := if next then l.promote ep (d.get MLE_GRACE_MS == 0) else l
      let d := d.setLantern lix l
      let d := if next then d.endRekey lix else d
      let l := (d.lantern lix).getD l
      let warn := (l.slot ep).st = .current && d.get MLE_SEQ_WARN_THRESHOLD ≤ seq && !l.warnRx
      let l := if warn then { l with warnRx := true } else l
      let d := if warn then (d.setLantern lix l).seqWarn lix 0 k.epoch seq else d
      let ty := byteAt b 1
      if payloadOk ty pl then d.mleAdmit lix l port ep ty (b.take 16) pl else d.mleDrop 0x0F

/-- The checks of R59 on one datagram. -/
def Dev.mleCheck (d : Dev) (port : Nat) (g : Dgram) : Dev :=
  let b := g.bytes
  let ty := byteAt b 1
  let plen := beAt b 2 2
  let uid := beAt b 4 8
  if b.length < 32 then d.mleDrop 1
  else if byteAt b 0 / 16 ≠ 3 then d.mleDrop 2
  else if ty = 0x3F then (d.mleDrop 5).unregister uid true port g.src
  else if 1200 < plen || plen + 32 ≠ b.length then d.mleDrop 3
  else if bit (byteAt b 0) 3 then d.mleDrop 4
  else if !([1, 2, 3, 4, 5, 0x11, 0x21, 0x31] : List Nat).contains ty then d.mleDrop 6
  else match d.byUid uid with
    | none => (d.mleDrop 7).unregister uid false port g.src
    | some (lix, l) => if l.suspended then d.mleDrop 8 else d.mleOpen lix l port b

/-- The first port with a datagram waiting, from `p` on round-robin (R63). -/
def Dev.nextPort (d : Dev) : Nat → Nat → Option Nat
  | 0, _ => none
  | n + 1, p => if (d.fport (p % 4)).buf.isEmpty then d.nextPort n (p + 1) else some (p % 4)

/-- The port whose datagram is checked next (R36, R63): the one whose turn it is, but of two copies of one message that arrived together
and wait first at two ports, the lower port's goes first. The model has no weave cycles: equal values of the time base at arrival stand for
one cycle (DESIGN CHOICE, log entry 80). -/
def Dev.portTurn (d : Dev) : Option Nat :=
  (d.nextPort 4 d.mle.rr).map (fun p =>
    let twin := fun q => match (d.fport q).buf.head?, (d.fport p).buf.head? with
      | some a, some b => a.bytes == b.bytes && a.arr == b.arr
      | _, _ => false
    ((List.range p).find? twin).getD p)

/-- The message layer takes the next received datagram of the port whose turn it is (R63) and checks it (R59). -/
def Dev.mleReceive (d : Dev) : Dev :=
  match d.portTurn with
  | none => d
  | some p =>
    let s := d.fport p
    match s.buf with
    | [] => d
    | g :: r =>
      let d := (d.setFport p { s with buf := r }).inc (FP_CNT_COUNT p 0)
      let d := { d with mle := { d.mle with rr := (p + 1) % 4 } }
      if d.on MLE_CTRL_ENABLE then d.mleCheck p g else d

/-! ### Egress (R61, R63) -/

/-- An egress entry of queues 0x158C and 0x158D: UID, local index with the type, payload length, payload (log entry 13). -/
def egressEntry (uid lix ty : Nat) (pl : List Byte) : Entry :=
  { words := leWords 4 uid ++ [BitVec.ofNat 16 lix, BitVec.ofNat 16 (lix / 65536 + ty * 256), BitVec.ofNat 16 pl.length, 0] ++ packWords pl }

/-- Seal and send a message to a lantern, or withhold it under Table 2-22. DESIGN CHOICE (log entry 81): where several reasons hold at once,
ENABLE = 0 (4) is counted first, then 1, 2 and 3, and last a gateway entry that is not valid (4). -/
def Dev.mleSend (d : Dev) (lix uid ty : Nat) (pl : List Byte) : Dev :=
  let hold := fun c => d.inc (MLE_TXDROP_CNT_COUNT c)
  if !d.on MLE_CTRL_ENABLE then hold 4
  else match d.lantern lix with
    | none => hold 1
    | some l =>
      if l.uid ≠ uid then hold 1
      else match l.parOf .current with
        | none => hold 1
        | some p =>
          let seq := l.txSeq + 1
          let g := d.gateway l.gw
          if l.suspended then hold 2
          else if 0xFFFFFFFF < seq || (0xFFFFFF00 ≤ seq && ty ≠ 0x30) then hold 3
          else if !g.valid then hold 4
          else
            let k := l.slot p
            let warn := d.get MLE_SEQ_WARN_THRESHOLD ≤ seq && !l.warnTx
            let d := d.setLantern lix { l with txSeq := seq, warnTx := l.warnTx || warn }
            let d := if warn then d.seqWarn lix 1 k.epoch seq else d
            let hdr := beBytes 1 (0x38 + (k.epoch % 2) * 4) ++ beBytes 1 ty ++ beBytes 2 pl.length ++ beBytes 8 uid ++ beBytes 4 seq
            let (ct, tag) := gcmSeal k.key (mlpNonce 1 k.epoch seq) hdr pl
            (d.inc MLE_TX_CNT_COUNT).fpSendMlp l.gw g (hdr ++ ct ++ tag)

/-- Send the REKEY that is due for a lantern; it counts as one of its sends even when it is withheld (R54). -/
def Dev.mleRekey (d : Dev) (lix : Nat) : Dev :=
  match d.lantern lix with
  | none => d
  | some l =>
    match l.rekey with
    | none => d
    | some r =>
      let d := d.setLantern lix { l with rekey := some { r with sends := r.sends + 1, due := false } }
      d.mleSend lix l.uid 0x30 (beBytes 4 l.nextEpoch ++ beBytes 2 24 ++ [0, 0] ++ slice r.lblob 0 24)

/-- The messages that leave through the egress queues: a head-end type with a payload length Table 2-4 gives it (R25, R39). -/
def egressFits (ty n : Nat) : Bool := (ty == 0x10 && n == 16) || (ty == 0x20 && decide (17 ≤ n) && decide (n ≤ 1040))

/-- Send the message of an egress entry. One whose type the head end does not send, or whose length its type does not have, is not sent
(R25, R39); the spec gives no reason to count it under (DESIGN CHOICE, log entry 80). -/
def Dev.mleSendEntry (d : Dev) (e : Entry) : Dev :=
  let w := fun i => (e.words.getD i 0).toNat
  if egressFits (w 5 / 256) (w 6) then
    d.mleSend (w 4 + (w 5 % 4) * 65536) (wordsNat (e.words.take 4)) (w 5 / 256) (slice (wordBytes (e.words.drop 8)) 0 (w 6))
  else d

/-- The message layer takes the next egress message: due REKEYs, then queue 0x158C, then queue 0x158D (R63). DESIGN CHOICE (log entry 81):
of several REKEYs that are due, the one that came due first is taken first. -/
def Dev.mleEgress (d : Dev) : Dev :=
  match d.mle.due with
  | lix :: r => { d with mle := { d.mle with due := r } }.mleRekey lix
  | [] =>
    match d.takeFor 0x158C with
    | (d, .entry e) => d.mleSendEntry e
    | (d, _) =>
      match d.takeFor 0x158D with
      | (d, .entry e) => d.mleSendEntry e
      | (d, _) => d

/-- The message layer's part of a management tick (R60, Table 2-20). DESIGN CHOICE (log entry 81): the events of the occupied
unregistered-UID entries are raised in the order of their first refusals. -/
def Dev.mleTick (d : Dev) : Dev :=
  let us := d.mle.unreg
  let ovf := d.mle.ovfTick
  let inv := d.mle.inv.map (fun e => (e.1, { e.2 with tagFails := 0, tagEvent := false }))
  let d := { d with mle := { d.mle with unreg := [], ovfTick := 0, inv := inv } }
  let d := us.foldl (fun d u => d.pfEvent (if u.hello then 0x0202 else 0x0201) [(8, u.uid), (1, u.port), (16, u.src), (4, u.count)]) d
  if ovf = 0 then d else d.pfEvent 0x0207 [(4, ovf)]

end Sys2Proof.Machine
end

