-- ==== Sys2Proof/Machine/Reflex.lean ====
section
/-!
DEFINITION. The reflex unit (R127–R133): its tables, the pseudocode of R129, the entries it emits, and rim_select (R170).
-/
namespace Sys2Proof.Machine

/-- rim_select of R170: the link that leads to device n. -/
def Dev.rimSelect (d : Dev) (n : Nat) : Option Nat :=
  let leads := fun i => d.on (RIM_LCFG_NBRV i) && d.get (RIM_LCFG_NBR i) == n
  if leads 0 && leads 1 then
    some (if d.get (RIM_SVC_STATE 0) = 2 || d.get (RIM_SVC_STATE 1) ≠ 2 then 0 else 1)
  else if leads 0 then some 0
  else if leads 1 then some 1
  else none

/-- Count a rise for event 0x0705, by its place in the parameters of Table 7-9. -/
def Dev.riseAt (d : Dev) (j n : Nat) : Dev := { d with rim := { d.rim with rise := bump d.rim.rise j n } }

/-- Send an entry for device n over the rim, or discard it and count it in RIM_GCNT[0] (R170). -/
def Dev.rimSend (d : Dev) (n : Nat) (e : Entry) : Dev :=
  match d.rimSelect n with
  | some i => d.send (0x158E + i) e
  | none => (d.inc (RIM_GCNT_COUNT 0)).riseAt 6 1

/-- The installation lantern number of a local index on this device (Table 0-4). -/
def Dev.iln (d : Dev) (lix : Nat) : Nat := d.get RIM_CFG_DEVNO * 2 ^ 18 + lix

/-- The reflex entry of a local index: eight quads, zeros after reset. -/
def Dev.rfxEnt (d : Dev) (lix : Nat) : List Nat := Tab.get [] d.rfx.ent lix

/-- Quad i of a stored list of quads. -/
def quadAt (l : List Nat) (i : Nat) : Nat := l.getD i 0

/-- Neighbour n of a reflex entry: local index and distance in 0.5 m (R127). -/
def rfxNbr (e : List Nat) (n : Nat) : Nat × Nat :=
  let f := (List.range 7).foldl (fun a i => a + quadAt e (i + 1) * 2 ^ (64 * i)) 0
  (bits f (28 * n + 17) (28 * n), bits f (28 * n + 27) (28 * n + 18))

/-- Number of points of a curve (R128). -/
def crvN (c : List Nat) : Nat := bits (quadAt c 4) 3 0
/-- T of point j, in 10 ms. -/
def crvT (c : List Nat) (j : Nat) : Nat := bits (quadAt c (j / 2)) (15 + 32 * (j % 2)) (32 * (j % 2))
/-- L of point j, in ‰. -/
def crvL (c : List Nat) (j : Nat) : Nat := bits (quadAt c (j / 2)) (25 + 32 * (j % 2)) (16 + 32 * (j % 2))

/-- The level a curve gives for an arrival time t in µs, none when the neighbour is skipped (R129). -/
def crvLevel (c : List Nat) (t : Nat) : Option Nat :=
  let n := crvN c
  if n = 0 || 10000 * crvT c (n - 1) < t then none
  else if t ≤ 10000 * crvT c 0 then some (crvL c 0)
  else if t = 10000 * crvT c (n - 1) then some (crvL c (n - 1))
  else
    match (List.range (n - 1)).find? (fun j => 10000 * crvT c j ≤ t && t < 10000 * crvT c (j + 1)) with
    | some j =>
      let a := crvL c j
      let b := crvL c (j + 1)
      let num : Int := ((b : Int) - a) * ((t : Int) - 10000 * crvT c j)
      some ((a : Int) + num.tdiv (10000 * ((crvT c (j + 1) : Int) - crvT c j))).toNat
    | none => none

/-- An order the unit builds: target, level, fade, expiry. -/
structure RfxOrder where
  target : Nat
  level : Nat
  fade : Nat
  expire : Nat
  deriving DecidableEq, Repr

/-- An entry of Table 5-6. -/
def rfxEntry (remote : Bool) (sdev slan dt : Nat) (os : List RfxOrder) : Entry :=
  { words := [BitVec.ofNat 16 (os.length + b2n remote * 16), BitVec.ofNat 16 sdev] ++ leWords 2 slan ++ leWords 4 dt ++
      os.flatMap (fun o => leWords 4 (o.target + o.level * 2 ^ 24 + o.fade * 2 ^ 36) ++ leWords 4 o.expire) }

/-- The orders of one record, for the neighbours k of a side from lo to hi (R129). -/
def Dev.rfxOrders (_d : Dev) (e c : List Nat) (base lo hi : Nat) (v : Nat) (s : Int) (along : Int) (dt dev : Nat) : List RfxOrder :=
  (List.range (hi - lo)).filterMap (fun i =>
    let (lix, dist) := rfxNbr e (base + lo + i)
    let r := (5 * (dist : Int) + s * along).toNat
    let t := r * 400000 / v
    match crvLevel c t with
    | none => none
    | some lv => if lv = 0 then none
        else some ⟨dev * 2 ^ 18 + lix, lv, bits (quadAt c 4) 31 16, dt + 1000 * t + 1000000 * bits (quadAt c 4) 47 32⟩)

/-- The latency of a DETECT that has one (R131, R132): at most 64 weave cycles; which value it is the spec leaves to timing. -/
def Dev.rfxLatency (d : Dev) : Dev :=
  let v := d.freeVal.toNat % 65
  let d := d.drawn.put RFX_LAT_LAST v
  d.put RFX_LAT_MAX (max v (d.get RFX_LAT_MAX))

/-- reflex() of R129 on one record. -/
def Dev.rfxRecord (d : Dev) (m : RfxIn) : Dev :=
  let d := d.inc (RFX_CNT_COUNT 1)
  let d := if m.idx = 0 then { d with rfx := { d.rfx with triggered := false } } else d
  let e := d.rfxEnt m.lix
  let q0 := quadAt e 0
  let d := if d.freeVal.toNat % 2 = 1 then d.drawn.inc (RFX_CNT_COUNT 8) else d.drawn
  let b2 := byteAt m.bytes 2
  let cls := b2 / 32
  let dt := m.base + 1000 * beAt m.bytes 0 2
  if !d.on RFX_CTRL_EN || !bit q0 0 then d.inc (RFX_CNT_COUNT 4)
  else if !bit (bits q0 52 45) cls || b2 % 16 < bits q0 56 53 then d.inc (RFX_CNT_COUNT 2)
  else if dt + d.get RFX_CTRL_MAXAGE * 1000000 < m.adm then d.inc (RFX_CNT_COUNT 3)
  else
    let sideA := !bit b2 4
    let s : Int := if sideA then -1 else 1
    let v := max (byteAt m.bytes 3) (d.get RFX_CTRL_VMIN)
    let c := Tab.get [] d.rfx.crv (if sideA then bits q0 36 29 else bits q0 44 37)
    let n := if sideA then bits q0 4 1 else bits q0 8 5
    let split := if sideA then bits q0 12 9 else bits q0 16 13
    let rdev := if sideA then bits q0 22 17 else bits q0 28 23
    let base := if sideA then 0 else 8
    let along := sgn 16 (beAt m.bytes 4 2)
    let loc := d.rfxOrders e c base 0 (min n split) v s along dt (d.get RIM_CFG_DEVNO)
    let rem := d.rfxOrders e c base split n v s along dt rdev
    let first := !d.rfx.triggered
    let d := { d with rfx := { d.rfx with triggered := true } }
    let dev := d.get RIM_CFG_DEVNO
    let d := (d.addCnt (RFX_CNT_COUNT 6) loc.length).addCnt (RFX_CNT_COUNT 7) rem.length
    let d := if loc.isEmpty then d else
      match (d.inc (RFX_CNT_COUNT 5)).enqueue 0x1588 (rfxEntry false dev (d.iln m.lix) dt loc) with
      | (d, .placed) => if first then d.rfxLatency else d
      | (d, _) => d
    if rem.isEmpty then d else d.rimSend rdev (rfxEntry true dev (d.iln m.lix) dt rem)

/-- The reflex unit works on the next record it has read. -/
def Dev.rfxStep (d : Dev) : Dev :=
  match d.rfx.inq with
  | [] => d
  | m :: r => { d with rfx := { d.rfx with inq := r } }.rfxRecord m

/-- Control-space offsets of RFX_TBL_CMD and RFX_CRV_CMD. -/
def rfxTblCmdOff : Nat := 0x30230
def rfxCrvCmdOff : Nat := 0x30254

/-- RFX_TBL_CMD READ. -/
def Dev.rfxRead (d : Dev) (lix : Nat) : Dev :=
  if d.on RFX_TBL_STATUS_BUSY then d.errBusy 9 0 rfxTblCmdOff
  else (forN 8 (fun i d => d.put (RFX_ENT_QUAD i) (quadAt (d.rfxEnt lix) i)) d).tblDone RFX_TBL_STATUS_RESULT RFX_TBL_STATUS_BUSY 0

/-- Why a reflex entry is refused: 1 NA or NB above 8, 2 SPLITA above NA or SPLITB above NB; 0 when it is stored. -/
def rfxEntCheck (q0 : Nat) : Nat :=
  if 8 < bits q0 4 1 || 8 < bits q0 8 5 then 1
  else if bits q0 4 1 < bits q0 12 9 || bits q0 8 5 < bits q0 16 13 then 2
  else 0

/-- Store a reflex entry whole, reserved bits as 0 (R127, R133), when its counts are valid. -/
def Dev.rfxStore (d : Dev) (lix : Nat) (e : List Nat) : Dev × Nat :=
  let r := rfxEntCheck (quadAt e 0)
  if r ≠ 0 then (d, r)
  else
    let e := bits (quadAt e 0) 56 0 :: (e.drop 1).take 7
    let e := if e.all (· == 0) then [] else e
    ({ d with rfx := { d.rfx with ent := Tab.set [] d.rfx.ent lix e } }, 0)

/-- RFX_TBL_CMD WRITE. -/
def Dev.rfxWrite (d : Dev) (lix : Nat) : Dev :=
  if d.on RFX_TBL_STATUS_BUSY then d.errBusy 9 0 rfxTblCmdOff
  else
    let (d, r) := d.rfxStore lix ((List.range 8).map (fun i => d.get (RFX_ENT_QUAD i)))
    d.tblDone RFX_TBL_STATUS_RESULT RFX_TBL_STATUS_BUSY r

/-- RFX_TBL_CMD CLEAR: VALID := 0. -/
def Dev.rfxClear (d : Dev) (lix : Nat) : Dev :=
  if d.on RFX_TBL_STATUS_BUSY then d.errBusy 9 0 rfxTblCmdOff
  else
    let e := d.rfxEnt lix
    let q0 := quadAt e 0
    let e := (q0 - q0 % 2) :: e.drop 1
    let e := if e.all (· == 0) then [] else e
    ({ d with rfx := { d.rfx with ent := Tab.set [] d.rfx.ent lix e } }).tblDone RFX_TBL_STATUS_RESULT RFX_TBL_STATUS_BUSY 0

/-- RFX_CRV_CMD READ. -/
def Dev.crvRead (d : Dev) (c : Nat) : Dev :=
  if d.on RFX_CRV_STATUS_BUSY then d.errBusy 9 0 rfxCrvCmdOff
  else
    let e := Tab.get [] d.rfx.crv c
    (forN 5 (fun i d => d.put (RFX_CRV_QUAD i) (quadAt e i)) d).tblDone RFX_CRV_STATUS_RESULT RFX_CRV_STATUS_BUSY 0

/-- Why a curve is refused: 1 NPTS 0 or above 8, 2 T not strictly rising. -/
def crvCheck (c : List Nat) : Nat :=
  let n := crvN c
  if n = 0 || 8 < n then 1
  else if (List.range (n - 1)).all (fun j => crvT c j < crvT c (j + 1)) then 0 else 2

/-- Store a curve whole, its other bits as 0 (R128). -/
def Dev.crvStore (d : Dev) (c : Nat) (e : List Nat) : Dev × Nat :=
  let r := crvCheck e
  if r ≠ 0 then (d, r)
  else
    let m := (List.range 4).map (fun i => quadAt e i &&& 0x03FFFFFF03FFFFFF) ++ [quadAt e 4 &&& 0xFFFFFFFF000F]
    ({ d with rfx := { d.rfx with crv := Tab.set [] d.rfx.crv c m } }, 0)

/-- RFX_CRV_CMD WRITE. -/
def Dev.crvWrite (d : Dev) (c : Nat) : Dev :=
  if d.on RFX_CRV_STATUS_BUSY then d.errBusy 9 0 rfxCrvCmdOff
  else
    let (d, r) := d.crvStore c ((List.range 5).map (fun i => d.get (RFX_CRV_QUAD i)))
    d.tblDone RFX_CRV_STATUS_RESULT RFX_CRV_STATUS_BUSY r

end Sys2Proof.Machine
end

