-- ==== Sys2Proof/Machine/Hoop.lean ====
section
/-!
DEFINITION. The hoops (chapter 5): shard table, dispatcher, the stock program's tracks, counts, waves and queue estimates,
pairing units, customer invocations, service states, and migration.
-/
namespace Sys2Proof.Machine

/-! ### Shards and records -/

/-- The hoop a shard is assigned to (R115). -/
def Dev.shardHoop (d : Dev) (s : Nat) : Nat := Tab.get (s / 2 % 32) d.hoop.shardT s

/-- Assign a shard. -/
def Dev.setShardHoop (d : Dev) (s h : Nat) : Dev :=
  { d with hoop := { d.hoop with shardT := Tab.set (s / 2 % 32) d.hoop.shardT s h } }

/-- Shards assigned to hoop h: 256 at reset, less those moved away, plus those moved in. -/
def Dev.nshard (d : Dev) (h : Nat) : Nat :=
  256 - (d.hoop.shardT.filter (fun e => e.1 / 2 % 32 == h)).length + (d.hoop.shardT.filter (fun e => e.2 == h)).length

/-- The shards that map to lantern queue q (R90). -/
def Dev.shardsOf (d : Dev) (q : Nat) : List Nat :=
  ([2 * q, 2 * q + 1].filter (fun s => s < 8192 && d.shardQueue s == some q)) ++
  ((d.bsk.shard.filter (fun e => e.2.2 && e.2.1 == q && e.1 / 2 != q)).map (·.1))

/-- The shard a migration moves toward its destination, while an SMOVE is in progress or pending. -/
def Dev.migShard (d : Dev) : Option Nat :=
  match d.hoop.mig with
  | some m => if m.op = 2 then some m.shard else none
  | none => none

/-- The local index of an admitted message's prefix (R62). -/
def msgLix (e : Entry) : Nat := (e.words.getD 4 0).toNat + ((e.words.getD 5 0).toNat % 4) * 65536

/-- The owner in an admitted message's prefix. -/
def msgOwner (e : Entry) : Nat := bits (e.words.getD 5 0).toNat 7 2

/-- The message bytes of an admitted entry: header and plaintext. -/
def msgBytes (e : Entry) : List Byte := wordBytes (e.words.drop 8)

/-- The target lantern of a hand-off entry (Table 5-2), as an installation lantern number. -/
def handTarget (e : Entry) : Nat := wordsNat ((e.words.drop 1).take 2) % 2 ^ 24

/-- The shard an entry concerns: of a hand-off its target's, of a message its lantern's. -/
def entryShard (e : Entry) : Nat := if e.hand then handTarget e % 2 ^ 18 / 32 else msgLix e / 32

/-- The hoop whose dispatcher serves lantern queue q: that of a shard it maps, a migrating shard counting for its destination; with no
shard mapped, the source of the migration that emptied it; else 32, no hoop. -/
def Dev.queueHoop (d : Dev) (q : Nat) : Nat :=
  match d.shardsOf q, d.hoop.mig with
  | s :: _, some m => if m.op = 2 && m.shard = s then m.dhoop else d.shardHoop s
  | s :: _, none => d.shardHoop s
  | [], some m => if m.op = 2 && m.queue = q then m.src else 32
  | [], none => 32

/-- A lantern's record (R117). -/
def Dev.lrec (d : Dev) (lix : Nat) : LRec := Tab.get {} d.hoop.recs lix

/-- Store a lantern's record. -/
def Dev.setLrec (d : Dev) (lix : Nat) (r : LRec) : Dev := { d with hoop := { d.hoop with recs := Tab.set {} d.hoop.recs lix r } }

/-- The lantern a line of the lantern state region belongs to: line n is record n, line 2^18 + 4n + k holds two of lantern n's slots (R117). -/
def lineLix (line : Nat) : Nat := if line < 2 ^ 18 then line else (line - 2 ^ 18) / 4

/-- Line k of a lantern's slots. -/
def LRec.slotLine (r : LRec) (k : Nat) : List Expect := (r.slots.drop (2 * k)).take 2

/-- Write one line back to DRAM (R117). -/
def Dev.lineBack (d : Dev) (line : Nat) : Dev :=
  let r := d.lrec (lineLix line)
  if line < 2 ^ 18 then { d with hoop := { d.hoop with dram := Tab.set {} d.hoop.dram line { r with slots := [] } } }
  else { d with hoop := { d.hoop with dramSl := Tab.set [] d.hoop.dramSl (line - 2 ^ 18) (r.slotLine ((line - 2 ^ 18) % 4)) } }

/-- The lines a hoop's lantern cache holds. -/
def Dev.cachedIn (d : Dev) (h : Nat) : List Nat := Tab.get [] d.hoop.cached h

/-- Bring a line into the lantern cache of the hoop its shard is assigned to: 16 ways, 512 sets. Set and victim the spec does not give (log
entry 85); the victim is written back. -/
def Dev.touch (d : Dev) (line : Nat) : Dev :=
  let h := d.shardHoop (lineLix line / 32)
  let ls := d.cachedIn h
  if ls.contains line then d
  else
    let set := ls.filter (fun l => Config.lcacheSet l == Config.lcacheSet line)
    if set.length < 16 then { d with hoop := { d.hoop with cached := Tab.set [] d.hoop.cached h (ls ++ [line]) } }
    else
      let v := set.getD (d.freeVal.toNat % set.length) 0
      let d := d.drawn.lineBack v
      { d with hoop := { d.hoop with cached := Tab.set [] d.hoop.cached h (ls.filter (· != v) ++ [line]) } }

/-- The lines of a lantern's slots. -/
def slotLines (lix : Nat) : List Nat := (List.range 4).map (fun k => 2 ^ 18 + 4 * lix + k)

/-- Bring a lantern's record, or its expectation slots, into the cache. -/
def Dev.touchRec (d : Dev) (lix : Nat) : Dev := d.touch lix
def Dev.touchSlots (d : Dev) (lix : Nat) : Dev := (slotLines lix).foldl Dev.touch d

/-- Set a lantern's successor lists in DRAM and cache together (R117). -/
def Dev.setSucc (d : Dev) (lix : Nat) (q : List Nat) : Dev :=
  let d := d.setLrec lix { d.lrec lix with succ := q }
  { d with hoop := { d.hoop with dram := Tab.set {} d.hoop.dram lix { Tab.get {} d.hoop.dram lix with succ := q } } }

/-- Write the lines of the lanterns that satisfy a test back to DRAM (R117). -/
def Dev.writeBack (d : Dev) (t : Nat → Bool) : Dev :=
  let keep := d.hoop.dram.filter (fun e => !t e.1)
  let keepSl := d.hoop.dramSl.filter (fun e => !t (e.1 / 4))
  let new := d.hoop.recs.filter (fun e => t e.1)
  { d with hoop := { d.hoop with
    dram := new.foldl (fun a e => Tab.set {} a e.1 { e.2 with slots := [] }) keep
    dramSl := new.foldl (fun a e => (List.range 4).foldl (fun a k => Tab.set [] a (4 * e.1 + k) (e.2.slotLine k)) a) keepSl } }

/-- The lanterns that satisfy a test leave every cache. -/
def Dev.uncache (d : Dev) (t : Nat → Bool) : Dev :=
  { d with hoop := { d.hoop with cached := d.hoop.cached.map (fun e => (e.1, e.2.filter (fun l => !t (lineLix l)))) } }

/-- A lantern as DRAM holds it. -/
def Dev.dramRec (d : Dev) (lix : Nat) : LRec :=
  { Tab.get {} d.hoop.dram lix with slots := (List.range 4).flatMap (fun k => Tab.get [] d.hoop.dramSl (4 * lix + k)) }

/-- Lose the cached lines of the lanterns that satisfy a test: their state is the DRAM copy again. -/
def Dev.dropCache (d : Dev) (t : Nat → Bool) : Dev :=
  let keep := d.hoop.recs.filter (fun e => !t e.1)
  let old := (d.hoop.dram.map (fun (e : Nat × LRec) => e.1) ++ d.hoop.dramSl.map (fun (e : Nat × List Expect) => e.1 / 4)).filter t
  ({ d with hoop := { d.hoop with recs := old.foldl (fun a i => Tab.set {} a i (d.dramRec i)) keep } }).uncache t

/-- The owner to whom a lantern's records go: its owner, or function 0 (R122). -/
def Dev.ownerOf (d : Dev) (lix : Nat) : Nat :=
  match d.lantern lix with
  | some l => l.owner
  | none => 0

/-! ### Dispatch (R116) -/

/-- Whether a context holds, or a queued invocation keeps, an entry of a shard. -/
def Dev.shardHeld (d : Dev) (s : Nat) : Bool :=
  d.hoop.ctxs.any (fun c => c.shard == s) ||
  d.hoop.running.any (fun r => r.inv.lix / 32 == s) ||
  d.hoop.invq.any (fun e => e.2.any (fun i => i.lix / 32 == s))

/-- Whether a customer program is loaded, so that contexts 3 do not run the stock program (R113). -/
def Dev.custLoaded (d : Dev) : Bool := d.boot.parts.any (fun e => e.2.cur.isSome)

/-- The first free context of hoop h, engine by engine, on engines that are not halted. -/
def Dev.freeCtx (d : Dev) (h : Nat) : Option (Nat × Nat) :=
  let n := if d.custLoaded then 3 else 4
  ((List.range 16).flatMap (fun e => (List.range n).map (fun c => (e, c)))).find? (fun ec =>
    !(d.on (DBG_ENG_STAT_HALTED (16 * h + ec.1))) && !d.hoop.ctxs.any (fun x => x.hoop == h && x.eng == ec.1 && x.ctx == ec.2))

/-- The entry hoop h's dispatcher would get from queue q: the first sound one; poisoned ones before it are discarded (R107). -/
def Dev.headFor (d : Dev) (q : Nat) : Option Entry := (d.taken q ++ (d.queue q).es).find? (fun e => e.live && !e.poison)

/-- Whether hoop h's dispatcher may take the head entry of queue q now (R116, R135): a queue is held at an entry whose shard migrates toward the
hoop, and at one whose shard a context holds. -/
def Dev.takeOk (d : Dev) (h q : Nat) : Bool :=
  match d.headFor q with
  | none => (d.taken q ++ (d.queue q).es).any Entry.live
  | some e =>
    let s := entryShard e
    if e.mark.isSome || e.lost || (e.hand && d.shardHoop s != h) then true
    else
      let toward := match d.hoop.mig with
        | some m => m.op == 2 && m.shard == s && m.dhoop == h && d.shardQueue s == some q
        | none => false
      let stopped := match d.hoop.mig with
        | some m => m.op == 1 && m.queue == q
        | none => false
      !toward && !stopped && !d.shardHeld s

/-- A queue holds an entry for its consumer. -/
def Dev.holds (d : Dev) (q : Nat) : Bool := !(d.queue q).noEntry || !(d.taken q).isEmpty

/-- The lantern queues hoop h serves that hold something, and its hand-off queue. -/
def Dev.hoopQueues (d : Dev) (h : Nat) : List Nat :=
  ((d.bsk.q.map (·.1)).filter (fun q => q < 0x1400 && d.holds q && d.queueHoop q == h)) ++
  (if d.holds (0x15A0 + h) then [0x15A0 + h] else [])

/-- The first element after x in a list, wrapping to its start. -/
def afterOf (l : List Nat) (x : Nat) : List Nat := l.filter (x < ·) ++ l.filter (· ≤ x)

/-- A dequeued drain marker (R135): while its SMOVE runs it is recorded in MARKS; one of a completed migration is discarded. -/
def Dev.markerSeen (d : Dev) (q m : Nat) : Dev :=
  match d.hoop.mig with
  | some g => if g.op = 2 && g.queue = q then d.putBit HOOP_MIG_STATUS_MARKS m true else d
  | none => d

/-- A context that gets an entry no longer waits for one (Table 10-8, WAIT). -/
def Dev.wakeCtx (d : Dev) (k : Nat) : Dev :=
  { d with thr := { d.thr with t := Tab.set {} d.thr.t k { (Tab.get {} d.thr.t k) with waiting := false } } }

/-- Hoop h discards an entry whose shard it does not process (R116). -/
def Dev.discarded (d : Dev) (h : Nat) : Dev :=
  ({ d with hoop := { d.hoop with discTick := Tab.set 0 d.hoop.discTick h (Tab.get 0 d.hoop.discTick h + 1) } }).inc (HOOP_CNT_COUNT h 2)

/-- What becomes of an entry hoop h's dispatcher took from queue q (R116). -/
def Dev.dispatched (d : Dev) (h q : Nat) (e : Entry) : Dev :=
  match e.mark with
  | some m => d.markerSeen q m
  | none =>
    let s := entryShard e
    let away := match d.hoop.mig with
      | some m => m.src == h && ((m.op == 2 && m.shard == s) || (m.op == 1 && (d.shardsOf m.queue).contains s))
      | none => false
    if e.lost then d.discarded h
    else if e.hand && d.shardHoop s ≠ h then
      (d.send (0x15A0 + d.shardHoop s) e).inc (HOOP_CNT_COUNT h 1)
    else if d.shardHoop s ≠ h && !away then d.discarded h
    else match d.freeCtx h with
      | some (eng, c) =>
        let d := d.wakeCtx (4 * (16 * h + eng) + c)
        ({ d with hoop := { d.hoop with ctxs := d.hoop.ctxs ++ [(⟨h, eng, c, q, s, e, 0, .run⟩ : Ctx)] } }).inc (HOOP_CNT_COUNT h 0)
      | none => d

/-- One visit of hoop h's dispatcher: it takes one entry, round-robin over its non-empty queues (R116); an idle poll with no entry in
any context kicks the hoop's watchdog (R316). -/
def Dev.hoopDispatch (d : Dev) (h : Nat) : Dev :=
  if d.get (HOOP_SVC_STATE h) ≠ 2 || (d.freeCtx h).isNone then d
  else
    match (afterOf (d.hoopQueues h) (Tab.get 0 d.hoop.rr h)).find? (fun q => d.takeOk h q) with
    | none => if d.hoop.ctxs.any (fun c => c.hoop == h) then d else d.wdKick 1 h
    | some q =>
      let d := { d with hoop := { d.hoop with rr := Tab.set 0 d.hoop.rr h q, doze := Tab.set false d.hoop.doze h false } }
      match d.takeFor q with
      | (d, .entry e) => d.dispatched h q e
      | (d, _) => d

/-! ### Tracks (R119, R120) -/

/-- The hand-off entry of an expectation for installation lantern `target` (Table 5-2). -/
def handEntry (target : Nat) (x : Expect) : Entry :=
  { words := [1] ++ leWords 2 target ++ [BitVec.ofNat 16 (x.side + x.cls * 2 + x.sigf * 16 + x.hops * 256)] ++ leWords 4 x.track ++
      leWords 4 x.eta ++ leWords 4 x.win ++ leWords 4 x.origin ++ leWords 4 x.otime ++ (if x.sigf = 0 then [] else packWords x.sig),
    hand := true }

/-- The expectation a hand-off entry carries. -/
def handExpect (e : Entry) : Expect :=
  let w := (e.words.getD 3 0).toNat
  let q := fun i => wordsNat ((e.words.drop i).take 4)
  ⟨w % 2, bits w 3 1, bits w 5 4, bits w 15 8, q 4 % 2 ^ 48, q 8, q 12, q 16 % 2 ^ 24, q 20, slice (wordBytes (e.words.drop 24)) 0 64⟩

/-- The expectation with the earliest ETA removed. -/
def dropEarliest (l : List Expect) : List Expect :=
  match l with
  | [] => []
  | x :: r =>
    let m := r.foldl (fun a b => if b.eta < a then b.eta else a) x.eta
    (l.takeWhile (fun y => y.eta != m)) ++ (l.dropWhile (fun y => y.eta != m)).drop 1

/-- Store an expectation in a slot of a lantern of hoop h; with all eight full it replaces the one with the earliest ETA (R119). -/
def Dev.postLocal (d : Dev) (h lix : Nat) (x : Expect) : Dev :=
  let d := d.touchSlots lix
  let r := d.lrec lix
  if r.slots.length < 8 then d.setLrec lix { r with slots := r.slots ++ [x] }
  else
    let d := d.setLrec lix { r with slots := dropEarliest r.slots ++ [x] }
    ({ d with hoop := { d.hoop with replTick := Tab.set 0 d.hoop.replTick h (Tab.get 0 d.hoop.replTick h + 1) } }).inc (HOOP_CNT_COUNT h 7)

/-- A track waits for an expectation on another device too (R120). -/
def Dev.trackAway (d : Dev) (x : Expect) : Dev :=
  match Tab.find d.hoop.tracks x.track with
  | some t => { d with hoop := { d.hoop with tracks := Tab.ins d.hoop.tracks x.track { t with away := max t.away (x.eta + x.win) } } }
  | none => d

/-- Post an expectation to successor m, an installation lantern number: in place, by the target hoop's hand-off queue, or by the
rim (R119). -/
def Dev.postExpect (d : Dev) (h m : Nat) (x : Expect) : Dev :=
  if m / 2 ^ 18 ≠ d.get RIM_CFG_DEVNO then (d.trackAway x).rimSend (m / 2 ^ 18) (handEntry m x)
  else
    let lix := m % 2 ^ 18
    let h' := d.shardHoop (lix / 32)
    if h' = h then d.postLocal h lix x else d.send (0x15A0 + h') (handEntry m x)

/-- The valid successors of a lantern on a side: installation lantern number and distance in 0.5 m (R213). -/
def LRec.succOn (r : LRec) (side : Nat) : List (Nat × Nat) :=
  ((r.succ.drop (8 * side)).take 8).filterMap (fun q => if bit q 63 then some (bits q 23 0, bits q 33 24) else none)

/-- A DETECT record's fields (Table 2-6) with its signature, if it has one. -/
structure DetRec where
  dt : Nat
  cls : Nat
  dir : Nat
  speed : Nat
  sigf : Nat
  sig : List Byte
  deriving DecidableEq, Repr

/-- Record i of a DETECT payload (R40). -/
def detRec (pl : List Byte) (i : Nat) : DetRec :=
  let n := byteAt pl 0 % 16
  let m := byteAt pl 1
  let o := 12 + 16 * i
  let b2 := byteAt pl (o + 2)
  let has := bit m i
  let j := popc i m
  ⟨beAt pl 4 8 + 1000 * beAt pl o 2, b2 / 32, b2 / 16 % 2, byteAt pl (o + 3),
    if has then byteAt pl 2 % 2 + 1 else 0, if has then slice pl (12 + 16 * n + 64 * j) 64 else []⟩

/-- The distance of two times. -/
def absDiff (a b : Nat) : Nat := max a b - min a b

/-- The expectations a record may match (R119). -/
def LRec.cands (r : LRec) (x : DetRec) : List Expect :=
  r.slots.filter (fun e => e.side == x.dir && decide (absDiff x.dt e.eta ≤ e.win))

/-- The pairing score of two signatures: the sum of signed products, or the Hamming distance (R124). -/
def pairScore (sigf : Nat) (a b : List Byte) : Int :=
  if sigf = 1 then (List.zipWith (fun x y => x.toInt * y.toInt) a b).foldl (· + ·) 0
  else ((List.zipWith (fun x y => popc 8 (x ^^^ y).toNat) a b).foldl (· + ·) 0 : Nat)

/-- The best of a list under a strict "better than". -/
def bestOf (better : Expect → Expect → Bool) : List Expect → Option Expect
  | [] => none
  | x :: r => some (r.foldl (fun a b => if better b a then b else a) x)

/-- Ties of R119: earlier ETA, then lower TRACK. -/
def tieBreak (a b : Expect) : Bool := a.eta < b.eta || (a.eta == b.eta && a.track < b.track)

/-- The candidate the scores select (R119). -/
def Dev.bestScored (d : Dev) (x : DetRec) (cs : List Expect) : Option Expect :=
  let sc := fun (e : Expect) => pairScore x.sigf x.sig e.sig
  if x.sigf = 1 then
    bestOf (fun a b => decide (sc b < sc a) || (sc a == sc b && tieBreak a b))
      (cs.filter (fun e => e.sigf == 1 && decide (sgn 24 (d.get HOOP_TRK_I8MIN) ≤ sc e)))
  else
    bestOf (fun a b => decide (sc a < sc b) || (sc a == sc b && tieBreak a b))
      (cs.filter (fun e => e.sigf == x.sigf && decide (sc e ≤ d.get HOOP_TRK_HAMMAX)))

/-- The candidate without a signature of the same format that R119 falls back to. -/
def bestPlain (x : DetRec) (cs : List Expect) : Option Expect :=
  bestOf (fun a b => decide (absDiff x.dt a.eta < absDiff x.dt b.eta) || (absDiff x.dt a.eta == absDiff x.dt b.eta && tieBreak a b))
    (cs.filter (fun e => (x.sigf == 0 || e.sigf != x.sigf) && (e.cls == x.cls || e.cls == 0 || x.cls == 0)))

/-- Whether a record needs the pairing unit: it has a signature and a candidate has one of the same format. -/
def needsPairing (x : DetRec) (cs : List Expect) : Bool := x.sigf != 0 && cs.any (fun e => e.sigf == x.sigf)

/-- Predicted travel time in ns over a distance in 0.5 m at a speed in 0.25 m/s; at speed 0 the spec states none: a free value. -/
def Dev.travel (d : Dev) (dist speed : Nat) : Nat × Dev :=
  if speed = 0 then (d.freeVal.toNat, d.drawn) else (dist * 2000000000 / speed, d)

/-- Post the expectations of a track to each successor of lantern lix on the record's side (R119). -/
def Dev.postAll (d : Dev) (h : Nat) (x : DetRec) (track hops origin otime : Nat) : List (Nat × Nat) → Dev
  | [] => d
  | (m, dist) :: r =>
    let (t, d) := d.travel dist x.speed
    let win := max (d.get HOOP_TRK_WINMIN * 1000000) (d.get HOOP_TRK_WIN * t / 16)
    Dev.postAll (d.postExpect h m ⟨x.dir, x.cls, x.sigf, hops % 256, track, x.dt + t, win, origin, otime, x.sig⟩) h x track hops origin otime r

/-- The lantern and time at which a track posted an expectation that carries HOPS `n`: the last one whose number among the lanterns passed has
these eight bits. -/
def Track.postedAt (t : Track) (n : Nat) : Nat × Nat :=
  match (t.path.reverse).find? (fun p => p.1 % 256 == n) with
  | some p => p.2
  | none => (t.origin, t.otime)

/-- The next track number of hoop h on this device (R120). -/
def Dev.newTrack (d : Dev) (h : Nat) : Nat × Dev :=
  let n := Tab.get 0 d.hoop.trackNo h
  (d.get RIM_CFG_DEVNO * 2 ^ 42 + h * 2 ^ 37 + n,
    ({ d with hoop := { d.hoop with trackNo := Tab.set 0 d.hoop.trackNo h ((n + 1) % 2 ^ 37) } }).inc (HOOP_CNT_COUNT h 4))

/-- The track that record x at lantern `here` opens or continues, given the expectation it matched, and the device then (R119, R120). An
expectation posted before the track went on elsewhere on this device splits it; HOPS tells the lanterns passed modulo 256, so one up to 127
ahead went on over another device. Track flags: 1 SPLIT, 2 SIG, 4 RIM. -/
def Dev.trackFor (d : Dev) (h here : Nat) (x : DetRec) (best : Option Expect) (sig : Nat) : Nat × Track × Dev :=
  let cnt0 := bump (List.replicate 8 0) x.cls 1
  match best with
  | none =>
    let (n, d) := d.newTrack h
    (n, ⟨h, cnt0, here, x.dt, here, x.dt, [(1, here, x.dt)], 1, x.speed, 1, 0, 0⟩, d)
  | some e =>
    match Tab.find d.hoop.tracks e.track with
    | some t =>
      let ahead := wsub 8 e.hops (t.hops % 256)
      if ahead < 128 then
        let n := t.hops + ahead + 1
        (e.track, ⟨h, bump t.cls x.cls 1, t.origin, t.otime, here, x.dt, t.path ++ [(n, here, x.dt)], n, t.spSum + x.speed, t.spN + 1,
          t.flags ||| sig ||| (if ahead = 0 then 0 else 4), 0⟩, d.inc (HOOP_CNT_COUNT h 5))
      else
        let (n, d) := d.newTrack h
        let (po, pt) := t.postedAt e.hops
        (n, ⟨h, cnt0, po, pt, here, x.dt, [(1, po, pt), (2, here, x.dt)], 2, x.speed, 1, 1 + sig, 0⟩, d)
    | none =>
      (e.track, ⟨h, bump cnt0 e.cls e.hops, e.origin, e.otime, here, x.dt, [(e.hops + 1, here, x.dt)], e.hops + 1, x.speed, 1, 4 + sig, 0⟩,
        d.inc (HOOP_CNT_COUNT h 5))

/-- Continue or open the track of a record at lantern lix of hoop h, given the expectation it matched: the track's slots at the lantern are
freed and its expectations go to the successors (R119, R120). -/
def Dev.assocWith (d : Dev) (h lix : Nat) (x : DetRec) (best : Option Expect) (bySig : Bool) : Dev :=
  let d := match best with
    | none => d
    | some e => d.setLrec lix { d.lrec lix with slots := (d.lrec lix).slots.filter (fun y => y.track != e.track) }
  let (tid, tr, d) := d.trackFor h (d.iln lix) x best (if bySig then 2 else 0)
  let d := { d with hoop := { d.hoop with tracks := Tab.ins d.hoop.tracks tid tr } }
  d.postAll h x tid tr.hops tr.origin tr.otime ((d.lrec lix).succOn x.dir)

/-- The expectations of a track stored on this device, with their lanterns. -/
def Dev.trackExpected (d : Dev) (tid : Nat) : List (Nat × Expect) :=
  d.hoop.recs.flatMap (fun e => (e.2.slots.filter (fun x => x.track == tid)).map (fun x => (e.1, x)))

/-- Whether an expectation of a track is on its way: in a context, a hand-off queue or a rim egress queue. -/
def Dev.trackMoving (d : Dev) (tid : Nat) : Bool :=
  (d.hoop.ctxs.map (·.entry) ++ (List.range 32 ++ [32, 33]).flatMap (fun i =>
    let q := if i < 32 then 0x15A0 + i else 0x158E + (i - 32)
    d.taken q ++ (d.queue q).es)).any (fun e => e.live && e.hand && (handExpect e).track == tid)

/-- The most frequent class of a track, the lowest on a tie. -/
def topClass (l : List Nat) : Nat :=
  ((List.range 8).foldl (fun (a : Nat × Nat) i => if a.2 < l.getD i 0 then (i, l.getD i 0) else a) (0, l.getD 0 0)).1

/-- A track's OD record (Table 9-14, kind 0x02). -/
def odBody (tid : Nat) (t : Track) : List Byte :=
  leBytes 8 tid ++ leBytes 1 (topClass t.cls) ++ leBytes 1 t.flags ++ leBytes 2 t.hops ++ leBytes 4 t.origin ++ leBytes 8 t.otime ++
  leBytes 4 t.last ++ leBytes 2 (25 * t.spSum / max 1 t.spN) ++ leBytes 2 0 ++ leBytes 8 t.ltime

/-- The track an expectation that came over the rim belongs to, as far as the expectation tells it. -/
def Dev.trackOf (d : Dev) (lix : Nat) (e : Expect) : Track :=
  ⟨d.shardHoop (lix / 32), bump (List.replicate 8 0) e.cls 1, e.origin, e.otime, e.origin, e.otime, [], e.hops, 0, 0, 4, 0⟩

/-- A track ends when its last expectation has passed ETA + WIN unmatched: its OD record is written (R120, R122). Where the last one lies on
another device, that device writes the record, and the track is gone from this one (log entry 86). -/
def Dev.trackEnd (d : Dev) (tid : Nat) : Dev :=
  let xs := d.trackExpected tid
  let last := xs.foldl (fun a e => max a (e.2.eta + e.2.win)) 0
  let tr := match Tab.find d.hoop.tracks tid, xs with
    | some t, _ => some t
    | none, (lix, e) :: _ => some (d.trackOf lix e)
    | none, [] => none
  match tr with
  | none => d
  | some t =>
    if d.trackMoving tid || (!xs.isEmpty && d.now ≤ last) || (t.away != 0 && d.now ≤ t.away) then d
    else
      let recs := d.hoop.recs.foldl (fun a e => Tab.set {} a e.1 { e.2 with slots := e.2.slots.filter (fun x => x.track != tid) }) d.hoop.recs
      let d := { d with hoop := { d.hoop with recs := recs, tracks := Tab.del d.hoop.tracks tid } }
      if last < t.away then d
      else
        let own := if t.last / 2 ^ 18 = d.get RIM_CFG_DEVNO then d.ownerOf (t.last % 2 ^ 18)
          else match xs with
            | (lix, _) :: _ => d.ownerOf lix
            | [] => 0
        (d.inc (HOOP_CNT_COUNT t.hoop 6)).sendRecord own 0x02 (odBody tid t)

/-! ### Count sites and queue estimates (R121, R122) -/

/-- A site's interval in ns. -/
def Site.ival (s : Site) : Nat := bits s.q0 43 32 * 1000000000

/-- A site in use. -/
def Site.valid (s : Site) : Bool := bit s.q0 21

/-- The lantern of a site. -/
def Site.lix (s : Site) : Nat := bits s.q0 17 0

/-- Mark the interval that starts at `start` PARTIAL. -/
def Site.markPart (s : Site) (start : Nat) : Site :=
  if s.accs.any (fun a => a.start == start) then
    { s with accs := s.accs.map (fun a => if a.start == start then { a with partly := true } else a) }
  else { s with accs := s.accs ++ [⟨start, [], [], false, true⟩] }

/-- Mark the intervals not yet written that meet t0…t1 PARTIAL. -/
def Site.markOut (s : Site) (t0 t1 : Nat) : Site :=
  if !s.valid || s.ival = 0 then s
  else
    let first := max (s.nextEnd - s.ival) (t0 - t0 % s.ival)
    (List.range ((t1 + s.ival - first) / s.ival)).foldl (fun s i => s.markPart (first + i * s.ival)) s

/-- Count one detection at a site (R121). -/
def Site.count (s : Site) (x : DetRec) (bad : Bool) : Site :=
  if s.ival = 0 then s
  else
    let start := x.dt - x.dt % s.ival
    if start + s.ival < s.nextEnd then { s with late := s.late + 1 }
    else if s.accs.any (fun a => a.start == start) then
      { s with accs := s.accs.map (fun a => if a.start == start then
        { a with cnt := bump a.cnt x.cls 1, spd := bump a.spd x.cls x.speed, degraded := a.degraded || bad } else a) }
    else { s with accs := s.accs ++ [⟨start, bump [] x.cls 1, bump [] x.cls x.speed, bad, false⟩] }

/-- Count a detection at every site of its lantern whose side mask has its direction, and keep it for the queue estimate. -/
def Dev.countSites (d : Dev) (lix : Nat) (x : DetRec) : Dev :=
  let r := d.lrec lix
  let sites := d.hoop.sites.map (fun e =>
    if e.2.valid && bits e.2.q0 17 0 == lix && bit e.2.q0 (18 + x.dir) then (e.1, e.2.count x r.unhealthy) else e)
  let d := { d with hoop := { d.hoop with sites := sites } }
  d.setLrec lix { r with recent := (r.recent.filter (fun t => decide (x.dt ≤ t.1 + 10000000000))) ++ [(x.dt, x.dir, x.speed)] }

/-- The mean speed test of a queue: at least one detection in the last 10 s and a mean below 2 m/s (8 quarter metres per second). -/
def Dev.slowAt (d : Dev) (lix dir : Nat) : Bool :=
  let ds := (d.lrec lix).recent.filter (fun t => t.2.1 == dir && decide (d.now ≤ t.1 + 10000000000))
  !ds.isEmpty && decide (sumN (ds.map (fun t => t.2.2)) < 8 * ds.length)

/-- The run of queued lanterns upstream of a lantern: length in 0.1 m and in lanterns. -/
def Dev.queueRun (d : Dev) (dir : Nat) : Nat → Nat → Nat × Nat
  | 0, _ => (0, 0)
  | k + 1, lix =>
    match (d.lrec lix).succOn (1 - dir) with
    | [] => (0, 0)
    | (m, dist) :: _ =>
      if m / 2 ^ 18 = d.get RIM_CFG_DEVNO && d.slowAt (m % 2 ^ 18) dir then
        let (l, n) := d.queueRun dir k (m % 2 ^ 18)
        (l + 5 * dist, n + 1)
      else (0, 0)

/-- A COUNT record's body (Table 9-14, kind 0x01); the spec gives occupancy no formula: a free value up to 1000 ‰. -/
def countBody (no : Nat) (s : Site) (a : SiteAcc) (occ late : Nat) : List Byte :=
  leBytes 4 no ++ leBytes 1 (b2n a.degraded + 2 * b2n a.partly) ++ leBytes 1 0 ++ leBytes 2 occ ++ leBytes 8 a.start ++
  leBytes 4 (s.ival / 1000000000) ++ leBytes 4 late ++ (List.range 8).flatMap (fun i => leBytes 4 (a.cnt.getD i 0)) ++
  (List.range 8).flatMap (fun i => leBytes 2 (25 * a.spd.getD i 0 / max 1 (a.cnt.getD i 0)))

/-- Write the records of a site's ended intervals whose second of grace has passed (R121); PARTIAL too while the hoop is out of service and
left service before the interval's end (R122). -/
def Dev.siteWrite : Nat → Dev → Nat → Dev
  | 0, d, _ => d
  | k + 1, d, no =>
    match Tab.find d.hoop.sites no with
    | none => d
    | some s =>
      if !s.valid || s.ival = 0 || d.now < s.nextEnd + 1000000000 then d
      else
        let start := s.nextEnd - s.ival
        let h := d.shardHoop (s.lix / 32)
        let out := d.get (HOOP_SVC_STATE h) != 2 && decide (Tab.get 0 d.hoop.outAt h < s.nextEnd)
        let a := (s.accs.find? (fun a => a.start == start)).getD ⟨start, [], [], false, false⟩
        let a := { a with partly := a.partly || out, degraded := a.degraded || (d.lrec s.lix).unhealthy }
        let d := (d.drawn.sendRecord (d.ownerOf s.lix) 0x01 (countBody no s a (d.freeVal.toNat % 1001) s.late))
        let s := { s with accs := s.accs.filter (fun a => a.start != start), nextEnd := s.nextEnd + s.ival, late := 0 }
        Dev.siteWrite k { d with hoop := { d.hoop with sites := Tab.ins d.hoop.sites no s } } no

/-- Every record of a site that is due. -/
def Dev.siteDue (d : Dev) (no : Nat) : Dev :=
  match Tab.find d.hoop.sites no with
  | none => d
  | some s => Dev.siteWrite ((d.now - s.nextEnd) / s.ival + 1) d no

/-- A site's queue estimate at a management tick (Table 5-3, kind 0x03). A run holds only lanterns with a record, so as many steps as there are
records follow it to its end. -/
def Dev.siteQueue (d : Dev) (no : Nat) : Dev :=
  match Tab.find d.hoop.sites no with
  | none => d
  | some s =>
    if !s.valid || !bit s.q0 20 then d
    else
      let runs := (List.range 2).filterMap (fun dir => if bit s.q0 (18 + dir) then some (d.queueRun dir d.hoop.recs.length s.lix) else none)
      let (l, n) := runs.foldl (fun a b => (a.1 + b.1, a.2 + b.2)) (0, 0)
      if n = s.qEst then d
      else
        let d := { d with hoop := { d.hoop with sites := Tab.ins d.hoop.sites no { s with qEst := n } } }
        d.sendRecord (d.ownerOf s.lix) 0x03 (leBytes 4 no ++ leBytes 4 l ++ leBytes 8 d.now ++ leBytes 2 n ++ leBytes 6 0)

/-! ### The stock program (R118) -/

/-- A WAVE snapshot goes to the owner of its lantern (R44, R122). -/
def Dev.waveOut (d : Dev) (w : Wave) : Dev :=
  d.sendBulkIn (d.ownerOf w.lix) 0x01 (leBytes 8 w.t0 ++ leBytes 2 w.snap ++ leBytes 2 w.ts ++ leBytes 1 w.mask ++ leBytes 3 0 ++ leBytes 4 w.lix ++
    leBytes 4 0 ++ (List.range 1024).flatMap (fun i => leBytes 2 (w.samples.getD i 0)))

/-- Join a part; the fourth one completes the snapshot. -/
def Dev.wavePart (d : Dev) (lix : Nat) (pl : List Byte) : Dev :=
  let snap := beAt pl 8 2
  let part := byteAt pl 10
  let mine := fun (w : Wave) => w.lix == lix && w.snap == snap
  let w := (d.hoop.waves.find? mine).getD ⟨lix, snap, beAt pl 0 8, beAt pl 12 2, 0, List.replicate 1024 0⟩
  let new := (List.range 256).map (fun k => beAt pl (16 + 2 * k) 2)
  let w := { w with mask := w.mask ||| 2 ^ part, samples := w.samples.take (256 * part) ++ new ++ w.samples.drop (256 * part + 256) }
  let rest := d.hoop.waves.filter (fun w => !mine w)
  if w.mask = 15 then ({ d with hoop := { d.hoop with waves := rest } }).waveOut w
  else { d with hoop := { d.hoop with waves := rest ++ [w] } }

/-- 60 s after its first part, an incomplete snapshot is written with event 0x0509. -/
def Dev.waveTimeout (d : Dev) (lix snap : Nat) : Dev :=
  let mine := fun (w : Wave) => w.lix == lix && w.snap == snap
  match d.hoop.waves.find? mine with
  | none => d
  | some w =>
    let d := { d with hoop := { d.hoop with waves := d.hoop.waves.filter (fun w => !mine w) } }
    (d.waveOut w).bothEvent (d.ownerOf lix) 0x0509 [(4, lix), (2, snap), (1, w.mask)]

/-- Replace a context. -/
def Dev.setCtx (d : Dev) (c : Ctx) : Dev :=
  { d with hoop := { d.hoop with ctxs := d.hoop.ctxs.map (fun x => if x.hoop == c.hoop && x.eng == c.eng && x.ctx == c.ctx then c else x) } }

/-- The context of an engine of a hoop, when it holds an entry. -/
def Dev.ctxOf (d : Dev) (h e c : Nat) : Option Ctx := d.hoop.ctxs.find? (fun x => x.hoop == h && x.eng == e && x.ctx == c)

/-- Queue the invocations of the customer programs that declare a message type: bit TYPE − 1 of MSGMASK (R125, Table 14-3). -/
def Dev.invoke (d : Dev) (h : Nat) (e : Entry) (ty : Nat) : Dev :=
  let own := msgOwner e
  d.boot.parts.foldl (fun d p =>
    match p.2.cur with
    | some img =>
      if own ≠ 0 && img.func = own && 1 ≤ ty && bit img.mask (ty - 1) && !p.2.disabled then
        let q := Tab.get [] d.hoop.invq h
        if q.length < 1024 then
          { d with hoop := { d.hoop with invq := Tab.set [] d.hoop.invq h (q ++ [⟨p.1, own, msgLix e, e⟩]) } }
        else d.inc (HOOP_CNT_COUNT h 9)
      else d
    | none => d) d

/-- The context finishes its entry and is free. -/
def Dev.ctxDone (d : Dev) (c : Ctx) : Dev :=
  let d := { d with hoop := { d.hoop with ctxs := d.hoop.ctxs.filter (fun x => !(x.hoop == c.hoop && x.eng == c.eng && x.ctx == c.ctx)) } }
  let d := d.wdKick 1 c.hoop
  if c.entry.hand then d else d.invoke c.hoop c.entry (byteAt (msgBytes c.entry) 1)

/-- The records of a DETECT from the context's next one on: each is counted and associated, until one needs the pairing unit. -/
def Dev.detectLoop : Nat → Dev → Ctx → Dev
  | 0, d, c => d.ctxDone c
  | k + 1, d, c =>
    let pl := (msgBytes c.entry).drop 16
    if byteAt pl 0 % 16 ≤ c.next then d.ctxDone c
    else
      let x := detRec pl c.next
      let lix := msgLix c.entry
      let d := ((d.touchRec lix).touchSlots lix).countSites lix x
      let cs := (d.lrec lix).cands x
      if needsPairing x cs then d.setCtx { c with phase := .wantPairing }
      else Dev.detectLoop k (d.assocWith c.hoop lix x (bestPlain x cs) false) { c with next := c.next + 1 }

/-- The stock program on one entry (Table 5-1). -/
def Dev.stockRun (d : Dev) (c : Ctx) : Dev :=
  if c.entry.hand then (d.postLocal c.hoop (handTarget c.entry % 2 ^ 18) (handExpect c.entry)).ctxDone c
  else
    let b := msgBytes c.entry
    let pl := b.drop 16
    let lix := msgLix c.entry
    let ty := byteAt b 1
    if ty = 1 then Dev.detectLoop 9 d c
    else if ty = 2 then ((d.touchRec lix).setLrec lix { d.lrec lix with unhealthy := !bit (byteAt pl 27) 0 }).ctxDone c
    else if ty = 3 then
      (d.bothEvent (msgOwner c.entry) 0x0501 [(4, lix), (2, beAt pl 8 2), (1, byteAt pl 10), (1, byteAt pl 11)]).ctxDone c
    else if ty = 5 then (d.wavePart lix pl).ctxDone c
    else d.ctxDone c

/-- A context runs the stock program on the entry it holds (R118). -/
def Dev.stockStep (d : Dev) (h e c : Nat) : Dev :=
  match d.ctxOf h e c with
  | some x => if x.phase = .run then d.stockRun x else d
  | none => d

/-- The pairing job of a context: its record's signature and the lantern's candidates that have one (R123). -/
def Dev.pairJob (d : Dev) (h e c : Nat) (x : Ctx) : PairJob :=
  let lix := msgLix x.entry
  let r := detRec ((msgBytes x.entry).drop 16) x.next
  ⟨h, e, c, r.sig, r.sigf, lix, ((d.lrec lix).cands r).filter (fun e => e.sigf != 0)⟩

/-- The context submits its pairing job and waits (R123). -/
def Dev.pairSubmit (d : Dev) (h e c : Nat) : Dev :=
  match d.ctxOf h e c with
  | some x =>
    if x.phase = .wantPairing then
      let j := d.pairJob h e c x
      let d := d.setCtx { x with phase := .pairing }
      { d with hoop := { d.hoop with jobs := d.hoop.jobs ++ [j] } }
    else d
  | none => d

/-- The scores of a job: of each candidate its score, or "no score" for one of the other format (R123, R124). -/
def PairJob.scores (j : PairJob) : List (Option Int) :=
  j.cands.map (fun e => if e.sigf = j.sigf then some (pairScore j.sigf j.query e.sig) else none)

/-- Hoop cycles a job stalls for candidate lines the lantern cache does not hold: how many, the spec does not say, a free value (R123). -/
def Dev.pairStall (d : Dev) (h : Nat) (j : PairJob) : Dev :=
  let miss := (slotLines j.lix).any (fun l => !(d.cachedIn (d.shardHoop (j.lix / 32))).contains l)
  if miss && !j.cands.isEmpty then ((d.addCnt (PAIR_CNT_COUNT h 3) d.freeVal.toNat).drawn).touchSlots j.lix else d

/-- The pairing unit of hoop h finishes its oldest job: scores go to the context's result words, and it associates its record by them and
resumes (R123, R124). -/
def Dev.pairResult (d : Dev) (h : Nat) : Dev :=
  match d.hoop.jobs.find? (fun j => j.hoop == h) with
  | none => d
  | some j =>
    let d := { d with hoop := { d.hoop with jobs := d.hoop.jobs.erase j } }
    match d.ctxOf h j.eng j.ctx with
    | none => d
    | some c =>
      let x := detRec ((msgBytes c.entry).drop 16) c.next
      let same := (j.cands.filter (fun e => e.sigf == j.sigf)).length
      let d := d.pairStall h j
      let d := ((d.inc (PAIR_CNT_COUNT h 0)).addCnt (PAIR_CNT_COUNT h 1) same).addCnt (PAIR_CNT_COUNT h 2) (j.cands.length - same)
      let d := { d with hoop := { d.hoop with scores := Tab.set [] d.hoop.scores (4 * (16 * h + j.eng) + j.ctx) j.scores } }
      let best := d.bestScored x j.cands
      let d := d.assocWith h j.lix x (if best.isSome then best else bestPlain x ((d.lrec j.lix).cands x)) best.isSome
      let c := { c with next := c.next + 1, phase := .run }
      Dev.detectLoop 9 (d.setCtx c) c

/-! ### Customer invocations (R125, R126) -/

/-- The invocation running on engine g (0…511). -/
def Dev.runningOn (d : Dev) (g : Nat) : Option Running := d.hoop.running.find? (fun r => r.eng == g)

/-- End the invocation on engine g; the words it wrote to the customer area stand. -/
def Dev.invEnd (d : Dev) (g : Nat) : Dev :=
  { d with hoop := { d.hoop with running := d.hoop.running.filter (fun r => r.eng != g) } }

/-- Deficit round-robin over functions (function, quantum), the first one due next: the function whose deficit covers the cost, and the
deficits then. -/
def strServe (h cost : Nat) : Nat → List (Nat × Nat) → Tab Nat → Option (Nat × Tab Nat)
  | 0, _, _ => none
  | _ + 1, [], _ => none
  | n + 1, (f, q) :: rest, t =>
    let a := Tab.get 0 t (64 * h + f) + q
    if cost ≤ a then some (f, Tab.set 0 t (64 * h + f) (a - cost))
    else strServe h cost n (rest ++ [(f, q)]) (Tab.set 0 t (64 * h + f) a)

/-- A program's partition is disabled (R126). -/
def Dev.partOff (d : Dev) (p : Nat) : Bool := (Tab.get {} d.boot.parts p).disabled

/-- Whether a queued invocation may run: its program is not disabled, and no context of the hoop holds its shard (R116, R126). -/
def Dev.invFree (d : Dev) (v : Invoc) : Bool :=
  !d.partOff v.part && !d.hoop.ctxs.any (fun c => c.shard == v.lix / 32) && !d.hoop.running.any (fun r => r.inv.lix / 32 == v.lix / 32)

/-- Where a partition's program starts: its ENTRY, a word offset in its body (R114, Table 14-3). -/
def Dev.partEntry (d : Dev) (p : Nat) : Nat :=
  0x18000 + 0x5000 * p + (match (Tab.get {} d.boot.parts p).cur with
    | some img => img.entry
    | none => 0)

/-- The function whose invocation hoop h runs next, with the deficits then (R189): the function served last while its deficit lasts, then
the others in turn, with a quantum of STRW × 256 hoop cycles. Functions with STRW = 0 share what the others leave. -/
def Dev.strandPick (d : Dev) (h cost : Nat) : Option (Nat × Tab Nat) :=
  let q := Tab.get [] d.hoop.invq h
  let have_ := (List.range 64).filter (fun f => q.any (fun v => v.fn == f && d.invFree v))
  let wt := have_.filter (fun f => d.get (HIF_QOS_SHARE_STRW f) != 0)
  let t := d.hoop.strDef.filter (fun e => e.1 / 64 != h || q.any (fun v => v.fn == e.1 % 64))
  let cur := Tab.get 0 d.hoop.strRr h
  let us := if wt.isEmpty then have_ else wt
  let turn := (us.filter (cur < ·) ++ us.filter (· ≤ cur)).map (fun f => (f, 256 * max 1 (d.get (HIF_QOS_SHARE_STRW f))))
  if us.contains cur && decide (cost ≤ Tab.get 0 t (64 * h + cur)) then
    some (cur, Tab.set 0 t (64 * h + cur) (Tab.get 0 t (64 * h + cur) - cost))
  else strServe h cost 16448 turn t

/-- The invocation on engine g of hoop h has run to its end, and context 3 takes the oldest queued one of the function that has the turn, for a
shard no context holds (R125, R116, R189); `cost` is the number of hoop cycles it will run for. Scratch and the upper quarter of the bit
space are zeroed when the function changes (R126). The context begins at the program's partition with its registers at their reset
values. -/
def Dev.custInvoke (d : Dev) (h e cost : Nat) : Dev :=
  let g := 16 * h + e
  let d := d.invEnd g
  let q := Tab.get [] d.hoop.invq h
  if d.get (HOOP_SVC_STATE h) ≠ 2 || !d.custLoaded || d.on (DBG_ENG_STAT_HALTED g) then d
  else match d.strandPick h cost with
    | none => d
    | some (f, t) => match q.find? (fun v => v.fn == f && d.invFree v) with
      | none => d
      | some v =>
        let d := { d with hoop := { d.hoop with
          strDef := t, strRr := Tab.set 0 d.hoop.strRr h f,
          invq := Tab.set [] d.hoop.invq h (q.erase v), running := d.hoop.running ++ [(⟨g, v, 0, 0⟩ : Running)] } }
        let d := if Tab.get 0 d.hoop.lastFn g = v.fn + 1 then d
          else { d with thr := { d.thr with
            scratch := Tab.delRange d.thr.scratch (g * 8192) (g * 8192 + 8192),
            bstore := Tab.delRange d.thr.bstore (g * 65536 + 0xC000) (g * 65536 + 0x10000) } }
        let d := { d with hoop := { d.hoop with lastFn := Tab.set 0 d.hoop.lastFn g (v.fn + 1) } }
        ({ d with thr := { d.thr with t := Tab.set {} d.thr.t (4 * g + 3) { pc := d.partEntry v.part } } }).inc (HOOP_CNT_COUNT h 8)

/-- Keep the queued invocations that satisfy a test. -/
def Dev.keepInvq (d : Dev) (t : Invoc → Bool) : Dev :=
  { d with hoop := { d.hoop with invq := (d.hoop.invq.map (fun (e : Nat × List Invoc) => (e.1, e.2.filter t))).filter (fun e => !e.2.isEmpty) } }

/-- A program is disabled on every hoop with event 0x0504; the invocations queued for it are dropped (R126). -/
def Dev.partDisable (d : Dev) (p fn : Nat) : Dev :=
  let part := Tab.get {} d.boot.parts p
  let d := { d with boot := { d.boot with parts := Tab.set {} d.boot.parts p { part with disabled := true } } }
  (d.keepInvq (fun v => v.part != p)).bothEvent fn 0x0504 [(1, fn), (1, p)]

/-- Abandon the invocation on engine g: it is counted, and STRIKES of them in a tick disable the program (R126). The causes of event
0x0503 are 1 address, 2 fault, 3 budget. -/
def Dev.invAbandon (d : Dev) (g cause : Nat) : Dev :=
  match d.runningOn g with
  | none => d
  | some r =>
    let p := r.inv.part
    let (n, first, fn) := Tab.get (0, 0, 0) d.hoop.abTick p
    let d := (d.invEnd g).inc (HOOP_CNT_COUNT (g / 16) 9)
    let d := { d with hoop := { d.hoop with
      abTick := Tab.set (0, 0, 0) d.hoop.abTick p (n + 1, if n = 0 then cause else first, if n = 0 then r.inv.fn else fn) } }
    if d.get HOOP_CUST_STRIKES ≤ n + 1 && !d.partOff p then d.partDisable p r.inv.fn else d

/-- An invocation's OUT_CMD write: its output buffer goes to its function's record or bulk-in queue (Table 5-4). `buf` is the
output buffer's words. -/
def Dev.outCmd (d : Dev) (g v : Nat) (buf : List Word) : Dev :=
  match d.runningOn g with
  | none => d
  | some r =>
    let len := bits v 11 0
    let sel := bits v 13 12
    let kind := bits v 23 16
    let setR := fun (d : Dev) (a b : Nat) => { d with hoop := { d.hoop with
      running := d.hoop.running.map (fun x => if x.eng == g then { x with outResult := a, outReason := b } else x) } }
    if len = 0 || 2048 < len || 1 < sel || kind < 0x80 then setR d 2 0
    else
      let body := wordBytes (buf.take len ++ List.replicate (len - buf.length) 0)
      let q := (if sel = 0 then 0x1403 else 0x1405) + 6 * r.inv.fn
      let before := (d.queue q).tickDrops
      let n := if sel = 0 then Tab.get 0 d.bsk.rseq r.inv.fn else Tab.get 0 d.bsk.bseq r.inv.fn
      let d' := if sel = 0 then d.sendRecord r.inv.fn kind body else d.sendBulkIn r.inv.fn kind body
      let n' := if sel = 0 then Tab.get 0 d'.bsk.rseq r.inv.fn else Tab.get 0 d'.bsk.bseq r.inv.fn
      let why := ((List.range 8).find? (fun i => i ≠ 0 && before.getD i 0 < ((d'.queue q).tickDrops.getD i 0))).map (· + 1)
      if n' ≠ n then setR d' 0 0 else setR d' 1 (why.getD 4)

/-! ### Service (R134) -/

/-- Enter a service state with event 0x0507. -/
def Dev.hoopState (d : Dev) (h st : Nat) : Dev :=
  (d.put (HOOP_SVC_STATE h) st).pfEvent 0x0507 [(1, h), (1, st), (1, d.get (HOOP_SVC_CAUSE h))]

/-- Control-space offset of HOOP_SVC[h]. -/
def hoopSvcOff (h : Nat) : Nat := 0x2D040 + 2 * h

/-- Hoop h leaves service for a cause, now. -/
def Dev.hoopLeft (d : Dev) (h cause : Nat) : Dev :=
  ({ d with hoop := { d.hoop with outAt := Tab.set 0 d.hoop.outAt h d.now } }).put (HOOP_SVC_CAUSE h) cause

/-- HOOP_SVC[h].OP := OUT, accepted only with no shard assigned (R134). -/
def Dev.hoopOut (d : Dev) (r : Requester) (h : Nat) : Dev :=
  if d.on (HOOP_SVC_BUSY h) then d.errBusy 7 h (hoopSvcOff h)
  else if d.nshard h ≠ 0 then d.errState 7 h (hoopSvcOff h) (srcOf r)
  else if d.get (HOOP_SVC_STATE h) = 2 then (d.hoopLeft h 0).hoopState h 0
  else d

/-- The lanterns of hoop h. -/
def Dev.hoopLix (d : Dev) (h lix : Nat) : Bool := d.shardHoop (lix / 32) == h

/-- HOOP_SVC[h].OP := IN: reload, clear the stores and the lantern cache, return (R134). -/
def Dev.hoopIn (d : Dev) (h : Nat) : Dev :=
  if d.get (HOOP_SVC_STATE h) = 1 then d
  else if d.on (HOOP_SVC_BUSY h) then d.errBusy 7 h (hoopSvcOff h)
  else if d.get (HOOP_SVC_STATE h) = 0 || d.get (HOOP_SVC_STATE h) = 3 then
    let d := d.dropCache (d.hoopLix h)
    let d := { d with hoop := { d.hoop with lastFn := d.hoop.lastFn.filter (fun e => e.1 / 16 != h) } }
    let d := { d with thr := { d.thr with
      scratch := d.thr.scratch.filter (fun e => e.1 / 8192 / 16 != h),
      wstore := d.thr.wstore.filter (fun e => e.1 / 32768 / 16 != h), bstore := d.thr.bstore.filter (fun e => e.1 / 65536 / 16 != h),
      lcache := d.thr.lcache.filter (fun e => e.1 / 2 ^ 24 != h) } }
    ((d.put (HOOP_SVC_BUSY h) 1).hoopState h 1)
  else d

/-- A returning hoop enters service (R134); the intervals of its lanterns' sites that it was out in are PARTIAL (R122). -/
def Dev.hoopInComplete (d : Dev) (h : Nat) : Dev :=
  if d.get (HOOP_SVC_STATE h) = 1 then
    let t0 := Tab.get 0 d.hoop.outAt h
    let sites := d.hoop.sites.map (fun e => if d.hoopLix h e.2.lix then (e.1, e.2.markOut t0 d.now) else e)
    (({ d with hoop := { d.hoop with sites := sites } }).put (HOOP_SVC_BUSY h) 0).hoopState h 2
  else d

/-- HOOP_SVC[h].OP := PARK, accepted only out of service (R134, Table 5-11). -/
def Dev.hoopPark (d : Dev) (r : Requester) (h : Nat) : Dev :=
  if d.on (HOOP_SVC_BUSY h) then d.errBusy 7 h (hoopSvcOff h)
  else if d.get (HOOP_SVC_STATE h) = 0 then d.hoopState h 3
  else d.errState 7 h (hoopSvcOff h) (srcOf r)

/-- A move ended by the reset of one of its hoops: QMOVE is undone, SMOVE is left pending (Table 5-11). -/
def Dev.migReset (d : Dev) (h : Nat) : Dev :=
  match d.hoop.mig with
  | none => d
  | some m =>
    if m.src ≠ h && m.dhoop ≠ h then d
    else
      let d := ((d.put HOOP_MIG_STATUS_BUSY 0).put HOOP_MIG_STATUS_RESULT (if m.src = h then 1 else 3))
      if m.op = 1 then { d.put HOOP_MIG_STATUS_PHASE 0 with hoop := { (d.put HOOP_MIG_STATUS_PHASE 0).hoop with mig := none } }
      else { d.put HOOP_MIG_STATUS_PHASE 3 with hoop := { (d.put HOOP_MIG_STATUS_PHASE 3).hoop with mig := some { m with pend := true } } }

/-- Block reset of hoop h for a cause of HOOP_SVC.CAUSE (R134): contexts stop, entries taken and not finished are counted. A hoop
already out of service stays out of service (R396). -/
def Dev.hoopReset (d : Dev) (h cause : Nat) : Dev :=
  if d.get (HOOP_SVC_STATE h) = 0 || d.get (HOOP_SVC_STATE h) = 3 then d
  else
    let n := (d.hoop.ctxs.filter (fun c => c.hoop == h)).length
    let d := d.addCnt (HOOP_CNT_COUNT h 3) n
    let d := { d with hoop := { d.hoop with
      doze := Tab.set false d.hoop.doze h false
      ctxs := d.hoop.ctxs.filter (fun c => c.hoop != h), jobs := d.hoop.jobs.filter (fun j => j.hoop != h),
      invq := Tab.set [] d.hoop.invq h [], running := d.hoop.running.filter (fun r => r.eng / 16 != h) } }
    let d := { d with thr := { d.thr with t := Tab.delRange d.thr.t (64 * h) (64 * h + 64) } }
    ((((d.dropCache (d.hoopLix h)).migReset h).hoopLeft h cause).put (HOOP_SVC_BUSY h) 0).hoopState h 0

/-- An uncorrectable error in a hoop's stores: its error record, and the hoop goes out of service with CAUSE 3 (R134, Table 17-4). -/
def Dev.hoopStoreBad (d : Dev) (h : Nat) : Dev := (d.raiseErr 7 h 0x0026 0 0 0).hoopReset h 3

/-! ### Shard table and migration (R115, R135) -/

/-- Whether a shard is in a move that is in progress or pending. -/
def Dev.shardMoving (d : Dev) (s : Nat) : Bool :=
  match d.hoop.mig with
  | some m => (m.op == 2 && m.shard == s) || (m.op == 1 && (d.shardsOf m.queue).contains s)
  | none => false

/-- HOOP_SHARD READ. -/
def Dev.shardRead (d : Dev) (s : Nat) : Dev :=
  ((d.put HOOP_SHARD_SHARD s).put HOOP_SHARD_HOOP (d.shardHoop s)).put HOOP_SHARD_STATE (b2n (d.shardMoving s))

/-- Shards leave their hoops for hoop h: the lines of those that come from another hoop are written back (R117). -/
def Dev.shardLeaves (d : Dev) (ss : List Nat) (h : Nat) : Dev :=
  let t := fun lix => ss.contains (lix / 32) && d.shardHoop (lix / 32) != h
  (d.writeBack t).uncache t

/-- HOOP_SHARD WRITE (R115, R135): the lines of a shard that leaves its hoop are written back (R117). A shard whose BSK_SHARDQ entry is not valid
has no queue that could hold an entry of it, and counts as one with an empty queue (log entry 87). -/
def Dev.shardWrite (d : Dev) (r : Requester) (s h : Nat) : Dev :=
  if d.shardMoving s then d.errState 7 0 0x2D012 (srcOf r)
  else
    let d := (d.put HOOP_SHARD_SHARD s).put HOOP_SHARD_HOOP h
    let busy := (match d.shardQueue s with
      | some q => d.holds q
      | none => false) || d.shardHeld s
    if busy then d.put HOOP_SHARD_REFUSED 1
    else ((d.shardLeaves [s] h).setShardHoop s h).put HOOP_SHARD_REFUSED 0

/-- End a migration command with a RESULT. -/
def Dev.migResult (d : Dev) (r : Nat) : Dev := d.put HOOP_MIG_STATUS_RESULT r

/-- Begin a move: BUSY, PHASE draining, MARKS cleared, MIGNO counted. -/
def Dev.migBegin (d : Dev) (m : Mig) : Dev :=
  let d := { d with hoop := { d.hoop with mig := some m } }
  let d := ((d.put HOOP_MIG_STATUS_BUSY 1).put HOOP_MIG_STATUS_PHASE 1).put HOOP_MIG_STATUS_MARKS 0
  d.put HOOP_MIG_STATUS_MIGNO (d.get HOOP_MIG_STATUS_MIGNO + 1)

/-- A move is pending. -/
def Dev.migPending (d : Dev) : Bool := d.hoop.mig.any (·.pend)

/-- Reassign shards and finish a move: BUSY and PHASE cleared, RESULT 0, event 0x0505. -/
def Dev.migFinish (d : Dev) (op arg dh : Nat) (ss : List Nat) : Dev :=
  let d := ss.foldl (fun d s => d.setShardHoop s dh) d
  let d := { d with hoop := { d.hoop with mig := none } }
  let d := ((d.put HOOP_MIG_STATUS_BUSY 0).put HOOP_MIG_STATUS_PHASE 0).migResult 0
  d.pfEvent 0x0505 [(1, op), (2, arg), (1, dh)]

/-- Whether hoop h is in service. -/
def Dev.hoopUp (d : Dev) (h : Nat) : Bool := d.get (HOOP_SVC_STATE h) == 2

/-- HOOP_MIG_CMD.OP := QMOVE (Table 5-10). -/
def Dev.migQmove (d : Dev) : Dev :=
  let q := d.get HOOP_MIG_ARG_QUEUE
  let dh := d.get HOOP_MIG_ARG_DHOOP
  if d.on HOOP_MIG_STATUS_BUSY then d.errBusy 7 0 0x2D018
  else if d.migPending then d.migResult 7
  else if 0x1400 ≤ q || (d.shardsOf q).isEmpty then d.migResult 5
  else if !d.hoopUp (d.queueHoop q) then d.migResult 1
  else if !d.hoopUp dh then d.migResult 3
  else d.migBegin ⟨1, q, 0, dh, d.queueHoop q, false⟩

/-- HOOP_MIG_CMD.OP := SMOVE (Table 5-10): the map changes and three drain markers go behind everything already sent. -/
def Dev.migSmove (d : Dev) : Dev :=
  let s := d.get HOOP_MIG_ARG_SHARD
  let dh := d.get HOOP_MIG_ARG_DHOOP
  let dq := d.get HOOP_MIG_ARG_DQUEUE
  if d.on HOOP_MIG_STATUS_BUSY then d.errBusy 7 0 0x2D018
  else if d.migPending then d.migResult 7
  else match d.shardQueue s with
    | none => d.migResult 5
    | some old =>
      if 0x1400 ≤ dq then d.migResult 5
      else if !d.hoopUp (d.shardHoop s) then d.migResult 1
      else if !d.hoopUp dh then d.migResult 3
      else if (d.shardsOf dq).any (fun x => d.shardHoop x != dh) then d.migResult 4
      else
        let d := d.migBegin ⟨2, old, s, dh, d.shardHoop s, false⟩
        let d := { d with bsk := { d.bsk with shard := Tab.set (s / 2, true) d.bsk.shard s (dq, true) } }
        ((d.send old { mark := some 0 }).send old { mark := some 1 }).send old { mark := some 2 }

/-- Shards taken from a hoop by a forced move: the state they had since the last write-back is lost, and what contexts and invocation queues hold
of them is abandoned and counted (R135, Table 5-15). -/
def Dev.shardTaken (d : Dev) (ss : List Nat) (src : Nat) : Dev :=
  let d := d.addCnt (HOOP_CNT_COUNT src 3) (d.hoop.ctxs.filter (fun c => ss.contains c.shard)).length
  let d := { d with hoop := { d.hoop with
    jobs := d.hoop.jobs.filter (fun j => !ss.contains (j.lix / 32)), ctxs := d.hoop.ctxs.filter (fun c => !ss.contains c.shard),
    running := d.hoop.running.filter (fun r => !ss.contains (r.inv.lix / 32)) } }
  (d.keepInvq (fun v => !ss.contains (v.lix / 32))).dropCache (fun lix => ss.contains (lix / 32))

/-- HOOP_MIG_CMD.OP := QMOVE forced (Table 5-10). -/
def Dev.migQforced (d : Dev) : Dev :=
  let q := d.get HOOP_MIG_ARG_QUEUE
  let dh := d.get HOOP_MIG_ARG_DHOOP
  if d.on HOOP_MIG_STATUS_BUSY then d.errBusy 7 0 0x2D018
  else if d.migPending then d.migResult 7
  else if 0x1400 ≤ q || (d.shardsOf q).isEmpty then d.migResult 5
  else if d.hoopUp (d.queueHoop q) then d.migResult 2
  else if !d.hoopUp dh then d.migResult 3
  else
    let ss := d.shardsOf q
    let d := d.shardTaken ss (d.queueHoop q)
    let d := d.put HOOP_MIG_STATUS_MIGNO (d.get HOOP_MIG_STATUS_MIGNO + 1)
    d.migFinish 3 q dh ss

/-- The entries of shard s still in queue q are marked: whichever hoop takes the queue discards them (Table 5-10). -/
def Dev.leftBehind (d : Dev) (q s : Nat) : Dev :=
  let f := fun (e : Entry) => if e.mark.isNone && !e.hand && entryShard e == s then { e with lost := true } else e
  let d := { d with bsk := { d.bsk with taken := Tab.set [] d.bsk.taken q ((d.taken q).map f) } }
  match Tab.find d.bsk.q q with
  | some x => d.setQueue q { x with es := x.es.map f }
  | none => d

/-- HOOP_MIG_CMD.OP := SMOVE forced (Table 5-10): with no SMOVE pending RESULT 8, with that of another shard pending RESULT 7. -/
def Dev.migSforced (d : Dev) : Dev :=
  let s := d.get HOOP_MIG_ARG_SHARD
  let dh := d.get HOOP_MIG_ARG_DHOOP
  if d.on HOOP_MIG_STATUS_BUSY then d.errBusy 7 0 0x2D018
  else match d.hoop.mig with
    | some m =>
      if !(m.pend && m.op = 2) then d.migResult 8
      else if m.shard ≠ s then d.migResult 7
      else if !d.hoopUp dh then d.migResult 3
      else
        let d := (d.shardTaken [s] m.src).leftBehind m.queue s
        (d.put HOOP_MIG_STATUS_MIGNO (d.get HOOP_MIG_STATUS_MIGNO + 1)).migFinish 4 s dh [s]
    | none => d.migResult 8

/-- Whether the move in progress has drained (Table 5-10, steps 2 and 3). -/
def Dev.migDrained (d : Dev) (m : Mig) : Bool :=
  if m.op = 1 then !(d.shardsOf m.queue).any d.shardHeld
  else d.get HOOP_MIG_STATUS_MARKS == 7 && !d.shardHeld m.shard

/-- PHASE while a move runs: draining, then writing back. -/
def Dev.migPhase (d : Dev) : Dev :=
  match d.hoop.mig with
  | some m => if m.pend then d else d.put HOOP_MIG_STATUS_PHASE (if d.migDrained m then 2 else 1)
  | none => d

/-- The write-back ends and the shards are reassigned (R135). -/
def Dev.migComplete (d : Dev) : Dev :=
  match d.hoop.mig with
  | none => d
  | some m =>
    if m.pend || !d.migDrained m then d
    else
      let ss := if m.op = 1 then d.shardsOf m.queue else [m.shard]
      (d.shardLeaves ss m.dhoop).migFinish m.op (if m.op = 1 then m.queue else m.shard) m.dhoop ss

/-- MIGTO ms have passed: RESULT 6, PHASE 3, event 0x0506; a QMOVE is undone, an SMOVE stays pending (R135). -/
def Dev.migTimeout (d : Dev) : Dev :=
  match d.hoop.mig with
  | none => d
  | some m =>
    if m.pend then d
    else
      let d := { d with hoop := { d.hoop with mig := if m.op = 1 then none else some { m with pend := true } } }
      let d := ((d.put HOOP_MIG_STATUS_BUSY 0).put HOOP_MIG_STATUS_PHASE 3).migResult 6
      d.pfEvent 0x0506 [(1, m.op), (2, if m.op = 1 then m.queue else m.shard), (1, d.get HOOP_MIG_STATUS_MARKS)]

/-- An idle hoop enters Doze; its watchdog reloads (R349). -/
def Dev.hoopDoze (d : Dev) (h : Nat) : Dev :=
  if d.hoopUp h && d.on PWR_ADOZE_HOOP && (d.hoopQueues h).isEmpty && !d.hoop.ctxs.any (fun c => c.hoop == h) &&
      !d.hoop.running.any (fun r => r.eng / 16 == h) then
    { d with hoop := { d.hoop with doze := Tab.set false d.hoop.doze h true } }.wdKick 1 h
  else d

/-- A commit to a queue of a dozing hoop's group wakes it (R349): at a tick none that has an entry waiting dozes on. -/
def Dev.dozeWake (d : Dev) : Dev :=
  { d with hoop := { d.hoop with doze := d.hoop.doze.filter (fun e => !e.2 || (d.hoopQueues e.1).isEmpty) } }

/-- The hoops' part of a management tick: count and queue records, write-back, events 0x0502, 0x0508, 0x0503 (R117, R121, R126). -/
def Dev.hoopTick (d : Dev) : Dev :=
  let nos := d.hoop.sites.map (·.1)
  let d := nos.foldl (fun d no => (d.siteDue no).siteQueue no) d
  let wb := d.hoop.wbTicks + 1
  let due := d.get HOOP_CFG_WBACK ≤ wb
  let d := if due then d.writeBack (fun _ => true) else d
  let rp := d.hoop.replTick
  let dc := d.hoop.discTick
  let ab := d.hoop.abTick
  let d := { d with hoop := { d.hoop with wbTicks := if due then 0 else wb, replTick := [], discTick := [], abTick := [] } }
  let d := rp.foldl (fun d e => d.pfEvent 0x0502 [(1, e.1), (4, e.2)]) d
  let d := dc.foldl (fun d e => d.pfEvent 0x0508 [(1, e.1), (4, e.2)]) d
  ab.foldl (fun d e => d.bothEvent e.2.2.2 0x0503 [(1, e.2.2.2), (1, e.1), (4, e.2.1), (1, e.2.2.1)]) d

end Sys2Proof.Machine
end

