-- ==== Sys2Proof/Machine/Order.lean ====
section
/-!
DEFINITION. The order merge (chapter 6, R138–R153, R172, R173): sources, the merge rule, calendars, order records, dark sets and
compensation, egress and acknowledgement, the ORD tables.
-/
namespace Sys2Proof.Machine

/-! ### Slots and liveness -/

/-- a is later than b, for slot numbers and CSEQ (R45). -/
def later (a b : Nat) : Bool :=
  let x := wsub 32 a b
  1 ≤ x && x ≤ 2 ^ 31 - 1

/-- The number of the slot that holds the time base (R142). -/
def Dev.slotNow (d : Dev) : Nat := d.now / 1000000 % 2 ^ 32

/-- A function is live (R139): its command ring is enabled, and no FLR of it and no host-interface reset (island operation, R201) is
in progress. -/
def Dev.live (d : Dev) (f : Nat) : Bool :=
  bit (d.get (RING_CTRL_EN f)) 0 && d.get (HIF_FN_STATUS_STATE f) != 2 && !d.on HIF_STATUS_ISLAND

/-! ### Calendars and day programs (R144, R145) -/

/-- Calendar k. -/
def Dev.calendar (d : Dev) (k : Nat) : List Nat := Tab.get [] d.ord.cal k

/-- A day program at reset (R162). -/
def progReset : List Nat := 0 :: (List.replicate 14 0x1FFFF ++ [0])

/-- Day program p. -/
def Dev.program (d : Dev) (p : Nat) : List Nat := Tab.get progReset d.ord.prog p

/-- OWNER of a calendar. -/
def Dev.calOwner (d : Dev) (k : Nat) : Nat := bits (quadAt (d.calendar k) 0) 5 0

/-- OWNER of a day program. -/
def Dev.progOwner (d : Dev) (p : Nat) : Nat := bits (quadAt (d.program p) 15) 5 0

/-- WEEK[n] of a calendar. -/
def calWeek (c : List Nat) (n : Nat) : Nat :=
  let f := quadAt c 2 + quadAt c 3 * 2 ^ 64
  bits f (12 * n + 11) (12 * n)

/-- The valid exception days of a calendar, lowest quad first: day and program. -/
def calExc (c : List Nat) : List (Int × Nat) :=
  ((c.drop 4).take 12).filterMap (fun q => if bit q 63 then some (sgn 32 q, bits q 43 32) else none)

/-- cal_level of R144: level and fade of calendar k in the slot that starts at `start` ns. -/
def Dev.calLevel (d : Dev) (k start : Nat) : Nat × Nat :=
  let c := d.calendar k
  let t : Int := (start / 1000000000 : Nat) + sgn 32 (quadAt c 1)
  let day := t / 86400
  let tod := (t - 86400 * day).toNat
  let p := match (calExc c).find? (fun e => e.1 == day) with
    | some e => e.2
    | none => calWeek c (((day + (bits (quadAt c 1) 34 32 : Nat)) % 7).toNat)
  let steps := (d.program p).take 15
  let q := steps.foldl (fun a q => if bits q 16 0 ≤ tod then q else a) 0
  (bits q 41 32, bits q 63 48)

/-- The conditions of R144 on a day program. -/
def progOk (p : List Nat) : Bool :=
  let tods := (List.range 15).map (fun j => bits (quadAt p j) 16 0)
  let used := tods.takeWhile (· != 0x1FFFF)
  used.head? == some 0 && (tods.drop used.length).all (· == 0x1FFFF) &&
  (List.zip used (used.drop 1)).all (fun e => decide (e.1 < e.2)) && used.all (· ≤ 86399) &&
  (List.range used.length).all (fun j => bits (quadAt p j) 41 32 ≤ 1000)

/-- The programs a calendar refers to. -/
def calProgs (c : List Nat) : List Nat := (List.range 7).map (calWeek c) ++ (calExc c).map (·.2)

/-! ### Order records (R142, R143) -/

/-- The merge's record of a lantern. -/
def Dev.olan (d : Dev) (lix : Nat) : OLan := Tab.get {} d.ord.lan lix

/-- Store it. -/
def Dev.setOlan (d : Dev) (lix : Nat) (r : OLan) : Dev := { d with ord := { d.ord with lan := Tab.set {} d.ord.lan lix r } }

/-- Road class c. -/
def Dev.roadClass (d : Dev) (c : Nat) : RoadClass := Tab.get {} d.ord.cls c

/-- Whether a record covers a local index. -/
def OrdRec.covers (r : OrdRec) (lix : Nat) : Bool := r.first ≤ lix && lix ≤ r.last

/-- "Active in S" (R140). -/
def OrdRec.active (r : OrdRec) (s : Nat) : Bool := (s == r.start || later s r.start) && later r.stop s

/-- The lowest-numbered free record, of n. -/
def freeRecord (t : Tab OrdRec) (n : Nat) : Option Nat := (List.range n).find? (fun i => (Tab.find t i).isNone)

/-- How many valid records cover a local index. -/
def Dev.covering (d : Dev) (lix : Nat) : Nat := (d.ord.recs.filter (fun e => e.2.covers lix)).length

/-- Whether some local index of first…last is covered by 8 valid records already: the count changes only at the first index and where
a record begins. -/
def Dev.coverFull (d : Dev) (first last : Nat) : Bool :=
  (first :: (d.ord.recs.map (·.2.first)).filter (fun i => first ≤ i && i ≤ last)).any (fun i => 8 ≤ d.covering i)

/-- The registered lanterns in a range. -/
def Dev.regIn (d : Dev) (first last : Nat) : List (Nat × Lantern) := d.mle.inv.filter (fun e => first ≤ e.1 && e.1 ≤ last)

/-- PLACE (R142): the completion status of Table 9-8, and the record number and CSEQ of an accepted command. -/
def Dev.ordPlace (d : Dev) (fn kind level fade first last start stop : Nat) : Dev × Nat × Nat × Nat :=
  let now := d.slotNow
  if kind = 0 && fn = 0 then (d, 2, 0, 0)
  else if last < first || 262143 < last || 1000 < level || !later stop start then (d, 4, 0, 0)
  else if 86400000 < wsub 32 stop start || (later start now && 86400000 < wsub 32 start now) then (d, 4, 0, 0)
  else
    let rs := d.regIn first last
    if fn ≠ 0 && (rs.isEmpty || rs.any (fun e => e.2.owner != fn)) then (d, 3, 0, 0)
    else if d.coverFull first last then (d, 6, 0, 0)
    else match freeRecord d.ord.recs 16384 with
      | none => (d, 6, 0, 0)
      | some n =>
        let c := (d.ord.cseq + 1) % 2 ^ 32
        let r : OrdRec := ⟨first, last, fn, kind, level, fade, start, stop, c⟩
        ({ d with ord := { d.ord with recs := Tab.ins d.ord.recs n r, cseq := c } }, 0, n, c)

/-- CANCEL (R142): the completion status. -/
def Dev.ordCancel (d : Dev) (fn n : Nat) : Dev × Nat :=
  match Tab.find d.ord.recs n with
  | none => (d, 4)
  | some r =>
    if 16383 < n then (d, 4)
    else if fn ≠ 0 && r.fn ≠ fn then (d, 3)
    else ({ d with ord := { d.ord with recs := Tab.del d.ord.recs n } }, 0)

/-- SCHEDULE (R212): the completion status, DETAIL, and the lanterns set. -/
def Dev.ordSchedule (d : Dev) (fn first last k : Nat) : Dev × Nat × Nat × Nat :=
  if last < first || 262143 < last || 1023 < k then (d, 4, 0, 0)
  else if fn ≠ 0 && k ≠ 0 && d.calOwner k ≠ fn then (d, 3, 0, 0)
  else
    let rs := (d.regIn first last).filter (fun e => fn == 0 || e.2.owner == fn)
    if rs.isEmpty then (d, 3, 0, 0)
    else if k ≠ 0 && rs.any (fun e => e.2.owner != d.calOwner k) then (d, 5, 3, 0)
    else (rs.foldl (fun d e => d.setOlan e.1 { d.olan e.1 with schcal := k }) d, 0, 0, rs.length)

/-- Free the ad hoc records of the functions that satisfy a test (Table 6-2). -/
def Dev.freeAdhoc (d : Dev) (t : Nat → Bool) : Dev :=
  { d with ord := { d.ord with recs := d.ord.recs.filter (fun e => !(e.2.kind == 0 && t e.2.fn)) } }

/-! ### Dark sets and compensation (R147, R148, R172, R173) -/

/-- A lantern is dark (R147). -/
def OLan.dark (r : OLan) : Bool := !r.codes.isEmpty || r.dovf

/-- The first FCN neighbours of a side of a lantern's reflex entry that are local (or, for `remote`, that are not), as local indexes;
a reflex entry that is not valid names nobody. -/
def Dev.sideNbrs (d : Dev) (lix side : Nat) (remote : Bool) : List Nat :=
  let e := d.rfxEnt lix
  let q0 := quadAt e 0
  if !bit q0 0 then []
  else
    let n := if side = 0 then bits q0 4 1 else bits q0 8 5
    let split := if side = 0 then bits q0 12 9 else bits q0 16 13
    let fcn := (d.roadClass (d.olan lix).cls).fcn
    ((List.range (min n fcn)).filter (fun j => if remote then split ≤ j else j < split)).map (fun j => (rfxNbr e (8 * side + j)).1)

/-- The device a lantern's remote neighbours of a side are on. -/
def Dev.sideDev (d : Dev) (lix side : Nat) : Nat :=
  let q0 := quadAt (d.rfxEnt lix) 0
  if side = 0 then bits q0 22 17 else bits q0 28 23

/-- The dark lanterns. -/
def Dev.darkList (d : Dev) : List Nat := (d.ord.lan.filter (fun e => e.2.dark)).map (·.1)

/-- How many dark lanterns and valid remote entries compensate lantern m (R148, R173). -/
def Dev.compCount (d : Dev) (m : Nat) : Nat :=
  (d.darkList.filter (fun x => (d.sideNbrs x 0 false).contains m || (d.sideNbrs x 1 false).contains m)).length +
  (d.ord.remote.filter (fun r => r.targets.contains (d.iln m))).length

/-- A compensation entry (Table 7-3). -/
def Dev.compEntry (d : Dev) (set : Bool) (side lix : Nat) (ts : List Nat) : Entry :=
  { words := [BitVec.ofNat 16 (16 + b2n set * 32 + ts.length * 64 + side * 1024), BitVec.ofNat 16 (d.get RIM_CFG_DEVNO)] ++
      leWords 2 (d.iln lix) ++ leWords 4 d.now ++ ts.flatMap (leWords 2) }

/-- The targets of a side: installation lantern numbers of the remote neighbours among the first FCN. -/
def Dev.compTargets (d : Dev) (lix side : Nat) : List Nat :=
  (d.sideNbrs lix side true).map (fun m => d.sideDev lix side * 2 ^ 18 + m)

/-- What the merge has sent for a side. -/
def Dev.compSent (d : Dev) (key : Nat) : Option CompOut := Tab.find d.ord.compOut key

/-- Send the compensation entry of one side of a lantern, when the sweep owes one (R172). -/
def Dev.compSide (d : Dev) (key : Nat) : Dev :=
  let lix := key / 2
  let side := key % 2
  let want := if (d.olan lix).dark && (d.lantern lix).isSome then d.compTargets lix side else []
  let dv := d.sideDev lix side
  match d.compSent key with
  | none =>
    if want.isEmpty then d
    else ({ d with ord := { d.ord with compOut := Tab.ins d.ord.compOut key ⟨dv, want, 0⟩ } }).rimSend dv (d.compEntry true side lix want)
  | some o =>
    if want.isEmpty then
      ({ d with ord := { d.ord with compOut := Tab.del d.ord.compOut key } }).rimSend o.dev (d.compEntry false side lix [])
    else if o.dev = dv && o.targets = want then d
    else
      let d := { d with ord := { d.ord with compOut := Tab.ins d.ord.compOut key ⟨dv, want, 0⟩ } }
      let d := if o.dev = dv then d else d.rimSend o.dev (d.compEntry false side lix [])
      d.rimSend dv (d.compEntry true side lix want)

/-- Compensation entries of a sweep, in rising local index and side. -/
def Dev.compSweep (d : Dev) : Dev :=
  let keys := d.darkList.flatMap (fun l => [2 * l, 2 * l + 1])
  let old := (d.ord.compOut.map (·.1)).filter (fun k => !keys.contains k)
  (keys ++ old).foldl Dev.compSide d

/-- At a management tick: SET again for a lantern that is still dark and registered, every CREF ticks (R172). -/
def Dev.compRefresh (d : Dev) : Dev :=
  d.ord.compOut.foldl (fun d e =>
    let o := e.2
    let lix := e.1 / 2
    if o.ticks + 1 < d.get RIM_CFG_CREF then
      { d with ord := { d.ord with compOut := Tab.ins d.ord.compOut e.1 { o with ticks := o.ticks + 1 } } }
    else
      let d := { d with ord := { d.ord with compOut := Tab.ins d.ord.compOut e.1 { o with ticks := 0 } } }
      if (d.olan lix).dark && (d.lantern lix).isSome then d.rimSend o.dev (d.compEntry true (e.1 % 2) lix o.targets) else d) d

/-- A compensation entry from queue 0x1588 (R173). Targets that lie on another device are discarded and counted (Table 6-3); an entry of such
targets alone changes nothing. -/
def Dev.compApply (d : Dev) (e : Entry) : Dev :=
  let w0 := (e.words.getD 0 0).toNat
  let sdev := (e.words.getD 1 0).toNat % 64
  let slan := wordsNat ((e.words.drop 2).take 2) % 2 ^ 24
  let side := bits w0 10 10
  let all := (List.range (bits w0 9 6)).map (fun k => wordsNat ((e.words.drop (8 + 2 * k)).take 2) % 2 ^ 24)
  let ts := all.filter (fun t => t / 2 ^ 18 == d.get RIM_CFG_DEVNO)
  let mine := fun (r : RComp) => r.sdev == sdev && r.slan == slan && r.side == side
  let rest := d.ord.remote.filter (fun r => !mine r)
  if bit w0 5 then
    let d := d.addCnt (ORD_CNT_COUNT 8) (all.length - ts.length)
    let new : RComp := ⟨sdev, slan, side, ts, d.ord.ticks + 3 * d.get RIM_CFG_CREF⟩
    if ts.isEmpty && !all.isEmpty then d
    else if d.ord.remote.any mine then
      { d with ord := { d.ord with remote := d.ord.remote.map (fun r => if mine r then new else r) } }
    else if d.ord.remote.length < 4096 then { d with ord := { d.ord with remote := d.ord.remote ++ [new] } }
    else
      let d := d.inc (RIM_GCNT_COUNT 2)
      if d.ord.ctabFull then d
      else { d with ord := { d.ord with ctabFull := true } }.pfEvent 0x0706 [(1, sdev), (4, slan), (1, side)]
  else { d with ord := { d.ord with remote := rest } }

/-- Remote compensation entries past their expiry are freed and counted (R173). -/
def Dev.compExpire (d : Dev) : Dev :=
  let dead := (d.ord.remote.filter (fun r => r.expiry ≤ d.ord.ticks)).length
  { d with ord := { d.ord with remote := d.ord.remote.filter (fun r => d.ord.ticks < r.expiry) } }.addCnt (RIM_GCNT_COUNT 3) dead

/-- reflex_apply of R146 on one order of an entry. -/
def Dev.reflexApply (d : Dev) (target level fade expire : Nat) : Dev :=
  let lix := target % 2 ^ 18
  if target / 2 ^ 18 ≠ d.get RIM_CFG_DEVNO || (d.lantern lix).isNone then d.inc (ORD_CNT_COUNT 8)
  else
    let r := d.olan lix
    let e := (expire + 999999) / 1000000 % 2 ^ 32
    let r := if !r.rv || !later r.rexp (d.ord.next % 2 ^ 32) then { r with rlevel := level, rfade := fade, rexp := e, rv := true }
      else
        let r := if r.rlevel ≤ level then { r with rlevel := level, rfade := fade } else r
        if later e r.rexp then { r with rexp := e } else r
    (d.setOlan lix r).inc (ORD_CNT_COUNT 7)

/-- Every order of a reflex entry (R146). -/
def Dev.reflexEntry (d : Dev) (e : Entry) : Dev :=
  (List.range ((e.words.getD 0 0).toNat % 16)).foldl (fun d k =>
    let q := wordsNat ((e.words.drop (8 + 8 * k)).take 4)
    d.reflexApply (bits q 23 0) (bits q 33 24) (bits q 51 36) (wordsNat ((e.words.drop (12 + 8 * k)).take 4))) d

/-- A reflex entry of queue 0x1588: COUNT 1…8; COUNT 0 tells a compensation entry (R169). -/
def isReflexEntry (e : Entry) : Bool := (e.words.getD 0 0).toNat % 16 != 0

/-- The merge takes the next entry of queue 0x1588 when it is a reflex entry (R146). -/
def Dev.takeReflex (d : Dev) : Dev :=
  match d.takeWhen 0x1588 isReflexEntry with
  | (d, some e) => d.reflexEntry e
  | (d, none) => d

/-- The merge takes the next entry of queue 0x1588 when it is a compensation entry (R173). -/
def Dev.takeComp (d : Dev) : Dev :=
  match d.takeWhen 0x1588 (fun e => !isReflexEntry e) with
  | (d, some e) => d.compApply e
  | (d, none) => d

/-- The UID in an admitted message's header. -/
def msgUid (e : Entry) : Nat := beAt (msgBytes e) 4 8

/-- Whether the lantern of an admitted message is still registered to the UID in its header. -/
def Dev.msgKnown (d : Dev) (e : Entry) : Bool :=
  match d.lantern (msgLix e) with
  | some l => l.uid == msgUid e
  | none => false

/-- A FAULT (R147). -/
def Dev.faultApply (d : Dev) (e : Entry) : Dev :=
  let d := d.inc (ORD_CNT_COUNT 9)
  if !d.msgKnown e then d
  else
    let lix := msgLix e
    let pl := (msgBytes e).drop 16
    let code := beAt pl 8 2
    let r := d.olan lix
    if byteAt pl 10 = 2 && byteAt pl 11 = 1 then
      if r.codes.contains code then d
      else if r.codes.length < 4 then d.setOlan lix { r with codes := r.codes ++ [code] }
      else (d.setOlan lix { r with dovf := true }).bothEvent (d.ownerOf lix) 0x0606 [(4, lix), (2, code)]
    else d.setOlan lix { r with codes := r.codes.filter (· != code) }

/-- The merge takes a FAULT from queue 0x1589. -/
def Dev.takeFault (d : Dev) : Dev :=
  match d.takeFor 0x1589 with
  | (d, .entry e) => d.faultApply e
  | (d, _) => d

/-- An ORDER-ACK (R152). -/
def Dev.ackApply (d : Dev) (e : Entry) : Dev :=
  let lix := msgLix e
  let pl := (msgBytes e).drop 16
  let r := d.olan lix
  let slot := beAt pl 4 4
  let res := byteAt pl 10
  if d.msgKnown e && slot = r.lslot && (r.ack = 1 || r.ack = 2) then
    let d := (d.setOlan lix { r with ack := 0, tries := 0 }).inc (ORD_CNT_COUNT 4)
    if res = 1 then d.inc (ORD_CNT_COUNT 5)
    else if res = 3 || res = 4 then d.bothEvent (d.ownerOf lix) 0x0603 [(4, lix), (4, slot), (1, res), (2, beAt pl 8 2)]
    else d
  else d.inc (ORD_CNT_COUNT 6)

/-- The merge takes an ORDER-ACK from queue 0x158A. -/
def Dev.takeAck (d : Dev) : Dev :=
  match d.takeFor 0x158A with
  | (d, .entry e) => d.ackApply e
  | (d, _) => d

/-! ### The merge rule (R140) -/

/-- The candidate of highest level; of equal levels the first in the list. -/
def topCand : List (Nat × Nat × Nat) → Option (Nat × Nat × Nat)
  | [] => none
  | c :: r => some (r.foldl (fun a b => if a.1 < b.1 then b else a) c)

/-- The ad hoc candidate: the highest level; among several of that level the rule does not say whose FADE counts, and a free value
selects one. -/
def Dev.adhocCand (d : Dev) (ks : List OrdRec) : List (Nat × Nat × Nat) :=
  let top := ks.foldl (fun a k => max a k.level) 0
  match ks.filter (fun k => k.level == top) with
  | [] => []
  | [k] => [(k.level, k.fade, 2)]
  | k :: r => [(top, ((k :: r).getD (d.freeVal.toNat % (r.length + 1)) k).fade, 2)]

/-- merge(n, S) of R140 for lantern n with owner o, slot number s starting at `start` ns: level, fade, SRC. -/
def Dev.merge (d : Dev) (n o s start : Nat) : Nat × Nat × Nat :=
  let r := d.olan n
  let c := d.roadClass r.cls
  let act := (d.ord.recs.map (·.2)).filter (fun k => k.covers n && k.active s)
  let locks := fun f => act.filter (fun k => k.kind == 1 && k.fn == f)
  let lk := if (locks 0).isEmpty && o ≠ 0 then locks o else locks 0
  match lk with
  | k :: ks =>
    let k := ks.foldl (fun a b => if later b.cseq a.cseq then b else a) k
    (k.level, k.fade, 5)
  | [] =>
    let live := o ≠ 0 && d.live o
    let cal := if live && r.schcal ≠ 0 then [((d.calLevel r.schcal start).1, (d.calLevel r.schcal start).2, 1)]
      else if r.fbcal ≠ 0 then [((d.calLevel r.fbcal start).1, (d.calLevel r.fbcal start).2, 0)] else []
    let adhoc := if live then d.adhocCand (act.filter (fun k => k.kind == 0 && k.fn == o)) else []
    let rfx := if r.rv && later r.rexp s then [(r.rlevel, r.rfade, 3)] else []
    let comp := if d.compCount n ≠ 0 then [(c.fclevel, c.fcfade, 4)] else []
    let (lv, fd, src) := (topCand (rfx ++ comp ++ adhoc ++ cal)).getD (0, c.flfade, 6)
    let lo := if c.darkcal = 0 || 0 < (d.calLevel c.darkcal start).1 then c.floor else 0
    let (lv, fd, src) := if lv < lo then (lo, c.flfade, 6) else if c.ceil < lv then (c.ceil, fd, 7) else (lv, fd, src)
    let fd := if r.lvalid && lv < r.llevel && src ≠ r.lsrc then max fd c.relfade else fd
    (lv, fd, src)

/-! ### Egress and acknowledgement (R150–R152) -/

/-- How many slots s lies after LSLOT; none when it does not lie after it (R45). -/
def slotsAfter (s l : Nat) : Nat := if s = l || later s l then wsub 32 s l else 0

/-- An acknowledgement fails (R152): at most 64 events 0x0601 in a management tick. -/
def Dev.ackFail (d : Dev) (lix : Nat) : Dev :=
  let r := d.olan lix
  let d := d.setOlan lix { r with ack := 2 }
  let n := d.ord.ackFails
  let d := { d with ord := { d.ord with ackFails := n + 1 } }
  if n < 64 then d.bothEvent (d.ownerOf lix) 0x0601 [(4, lix), (4, r.lslot), (1, r.tries)] else d

/-- Evaluate one lantern in the sweep of slot number s, given the merge's result for it (R150): a failed acknowledgement is recorded, a due
lantern is appended to the list. -/
def Dev.sweepOne (s : Nat) (a : Dev × List OrdDue) (x : OrdRes) : Dev × List OrdDue :=
  let d := a.1
  let n := x.lix
  let r := d.olan n
  let ago := slotsAfter s r.lslot
  let c := r.ack == 1 && decide (d.get ORD_EGR_ACKTO ≤ ago)
  let fail := c && decide (d.get ORD_EGR_RETRY ≤ r.tries)
  let d := if fail then d.ackFail n else d
  let c := c && !fail
  let first := !r.lvalid
  let diff := x.level != r.llevel
  let refresh := decide (1000 * d.get ORD_CFG_REFRESH ≤ ago)
  if first || diff || c || refresh then
    let cls := if x.src = 5 then 1 else if x.src = 3 || x.src = 4 then 2 else if c then 3 else if first || diff then 4 else 5
    (d, a.2 ++ [⟨x, cls, c, refresh⟩])
  else (d.setOlan n { d.olan n with deferred := 0 }, a.2)

/-- The due lanterns in priority order, each class in rising local index after its last one of the previous sweep (R150). -/
def orderDue (rot : List Nat) (due : List OrdDue) : List OrdDue :=
  (List.range 5).flatMap (fun i =>
    let c := due.filter (fun x => x.cls == i + 1)
    let p := rot.getD i 0
    c.filter (fun x => p ≤ x.res.lix) ++ c.filter (fun x => x.res.lix < p))

/-- Whether an ORDER asks for acknowledgement (R151). -/
def Dev.ackReq (d : Dev) (x : OrdDue) (ack : Nat) : Bool :=
  let m := d.get ORD_CFG_ACKMODE
  m == 2 || (m == 1 && (x.res.src == 5 || x.caseC || x.caseD || ack == 1))

/-- HLEVEL and HTIME of a lantern's ORDERs (R151). -/
def Dev.holdover (d : Dev) (r : OLan) : Nat × Nat :=
  if r.fbcal = 0 then ((d.roadClass r.cls).floor, d.get ORD_HOLD_HTIME)
  else
    let q := quadAt (d.calendar r.fbcal) 0
    (bits q 25 16, if bits q 47 32 = 0 then d.get ORD_HOLD_HTIME else bits q 47 32)

/-- The ORDER payload (Table 2-12). -/
def orderPayload (slot level fade src : Nat) (ack : Bool) (hlevel htime : Nat) : List Byte :=
  beBytes 4 slot ++ beBytes 2 level ++ beBytes 2 fade ++ beBytes 1 src ++ beBytes 1 (b2n ack) ++ beBytes 2 hlevel ++ beBytes 2 htime ++ [0, 0]

/-- Enqueue one due lantern's ORDER to queue 0x158C, or nothing when the queue has no room (R150, R151). -/
def Dev.ordSend (d : Dev) (s : Nat) (x : OrdDue) : Option Dev :=
  let v := x.res
  let r := d.olan v.lix
  let req := d.ackReq x r.ack
  match d.enqueue 0x158C (egressEntry v.uid v.lix 0x10 (orderPayload s v.level v.fade v.src req v.hlevel v.htime)) with
  | (d, .placed) =>
    let tries := if req && r.ack ≠ 1 then 0 else r.tries
    let r := { r with llevel := v.level, lsrc := v.src, lslot := s, lvalid := true, deferred := 0, ack := if req then 1 else r.ack, tries := if x.caseC then min 15 (tries + 1) else tries }
    let d := (d.setOlan v.lix r).inc (ORD_CNT_COUNT 1)
    let d := if x.caseC then d.inc (ORD_CNT_COUNT 3) else d
    some { d with ord := { d.ord with rot := d.ord.rot.set (x.cls - 1) (v.lix + 1) } }
  | _ => none

/-- Enqueue due lanterns while the budget and the queue's room last (R150); a lantern removed since the cut-off gets nothing. -/
def Dev.ordPump : Nat → Dev → Dev
  | 0, d => d
  | k + 1, d =>
    match d.ord.todo with
    | [] => d
    | x :: rest =>
      if (d.lantern x.res.lix).all (fun l => l.uid != x.res.uid) then Dev.ordPump k { d with ord := { d.ord with todo := rest } }
      else if d.ord.left = 0 then d
      else match d.ordSend (d.get ORD_STAT_SLOT) x with
        | some d => Dev.ordPump k { d with ord := { d.ord with todo := rest, left := d.ord.left - 1 } }
        | none => d

/-- The merge goes on enqueueing after room appeared in queue 0x158C; at the next cut-off nothing is left to enqueue. -/
def Dev.ordMore (d : Dev) : Dev := Dev.ordPump d.ord.todo.length d

/-- At the next cut-off the due lanterns that were not enqueued are deferred (R150, Table 6-3). -/
def Dev.ordDefer (d : Dev) : Dev :=
  let l := d.ord.todo
  if l.isEmpty then d
  else
    let n := l.length
    let d := l.foldl (fun d x => d.setOlan x.res.lix { d.olan x.res.lix with deferred := (d.olan x.res.lix).deferred + 1 }) d
    let long := l.foldl (fun a x => max a (d.olan x.res.lix).deferred) d.ord.defLong
    let d := { d with ord := { d.ord with todo := [], defCount := d.ord.defCount + n, defLong := long } }
    ((d.addCnt (ORD_CNT_COUNT 2) n).inc (ORD_CNT_COUNT 10)).put ORD_STAT_DEFER (min 65535 n)

/-- Whether the cut-off of the next slot has come (R140). -/
def Dev.sweepDue (d : Dev) : Bool := d.ord.next * 1000000 ≤ d.now + d.ord.lead * 1000

/-- Take every entry of queues 0x1588 and 0x1589 that has committed (R140): reflex and compensation entries and FAULTs in queue order. -/
def Dev.takeAll : Nat → Dev → Dev
  | 0, d => d
  | k + 1, d =>
    match d.takeFor 0x1588 with
    | (d, .entry e) => Dev.takeAll k (if isReflexEntry e then d.reflexEntry e else d.compApply e)
    | (d, _) => match d.takeFor 0x1589 with
      | (d, .entry e) => Dev.takeAll k (d.faultApply e)
      | (d, _) => d

/-- Every committed entry of the two queues. -/
def Dev.takeSources (d : Dev) : Dev :=
  let n := fun q => (d.queue q).es.length + (d.taken q).length
  Dev.takeAll (n 0x1588 + n 0x1589) d

/-- The merge's result for one registered lantern at a cut-off, appended to those before it (R140, R151). -/
def Dev.cutOne (s start : Nat) (a : Dev × List OrdRes) (e : Nat × Lantern) : Dev × List OrdRes :=
  let d := a.1
  let (lv, fd, src) := d.merge e.1 e.2.owner s start
  let (hl, ht) := d.holdover (d.olan e.1)
  (d.drawn, a.2 ++ [⟨e.1, e.2.uid, lv, fd, src, hl, ht⟩])

/-- C(S), the cut-off of the next slot S (R140), when it has come: what the previous sweep has not enqueued is deferred, the committed entries
of queues 0x1588 and 0x1589 are taken, and the sources are merged as they stand; nothing later affects S. -/
def Dev.ordCut (d : Dev) : Dev :=
  if !d.sweepDue then d
  else
    let k := d.ord.next
    let d := d.ordDefer.takeSources
    let (d, res) := d.mle.inv.foldl (Dev.cutOne (k % 2 ^ 32) (k * 1000000)) (d, [])
    { d with ord := { d.ord with cuts := d.ord.cuts ++ [⟨k, res⟩], next := k + 1, lead := d.get ORD_CFG_LEAD } }

/-- The sweep of a slot whose cut-off has passed (R140, R150): order records that have ended are freed, compensation entries go out, and due
lanterns are enqueued, unless the next cut-off has passed too. Its duration is timing: at most 82 µs, a free value. -/
def Dev.ordSweep (d : Dev) : Dev :=
  match d.ord.cuts with
  | [] => d
  | c :: cuts =>
    let s := c.slot % 2 ^ 32
    let d := { d with ord := { d.ord with cuts := cuts, recs := d.ord.recs.filter (fun e => later e.2.stop s) } }
    let d := d.compSweep
    let (d, due) := c.res.foldl (Dev.sweepOne s) (d, [])
    let d := { d with ord := { d.ord with todo := orderDue d.ord.rot due, left := d.get ORD_EGR_BUDGET } }
    let d := (d.inc (ORD_CNT_COUNT 0)).put ORD_STAT_SLOT s
    let d := ((d.put ORD_STAT_SWEEP (d.freeVal.toNat % 8201)).drawn).put ORD_STAT_DEFER 0
    if cuts.isEmpty then d.ordMore else d.ordDefer

/-- Slots that a forward step passed over receive no sweep (R308): the merge goes on at the first slot that begins later. -/
def Dev.ordSkip (d : Dev) : Dev :=
  if d.ord.next * 1000000 ≤ d.now then
    { d with ord := { d.ord with next := d.now / 1000000 + 1, lead := d.get ORD_CFG_LEAD } }
  else d

/-- A write of ORD_CFG.LEAD (R140): the slot pending takes the new lead when its cut-off under it lies after the write. -/
def Dev.leadWrite (d : Dev) : Dev :=
  let l := d.get ORD_CFG_LEAD
  if d.now + l * 1000 < d.ord.next * 1000000 && !d.sweepDue then { d with ord := { d.ord with lead := l } } else d

/-- A write of ORD_CFG. -/
def Dev.ordCfgWrite (d : Dev) (lead ack refresh : Nat) : Dev :=
  (((d.put ORD_CFG_LEAD lead).put ORD_CFG_ACKMODE ack).put ORD_CFG_REFRESH refresh).leadWrite

/-- The merge's part of a management tick: events 0x0602 and 0x0604, and compensation refresh (R152, R163, R172). -/
def Dev.ordTick (d : Dev) : Dev :=
  let af := d.ord.ackFails
  let dc := d.ord.defCount
  let dl := d.ord.defLong
  let d := { d with ord := { d.ord with ticks := d.ord.ticks + 1, ctabFull := false, ackFails := 0, defCount := 0, defLong := 0 } }
  let d := d.compRefresh
  let d := if 64 < af then d.pfEvent 0x0602 [(4, af - 64)] else d
  if dc = 0 then d else d.pfEvent 0x0604 [(4, dc), (4, dl)]

/-! ### ORD tables (R162, Table 6-9) -/

/-- A lantern entry as its four quads. -/
def Dev.olanQuads (d : Dev) (lix : Nat) : List Nat :=
  let r := d.olan lix
  [r.cls + r.fbcal * 2 ^ 8 + r.schcal * 2 ^ 18 + min 15 (d.compCount lix) * 2 ^ 32 + r.codes.length * 2 ^ 36 + b2n r.dovf * 2 ^ 39,
   r.llevel + b2n r.lvalid * 2 ^ 10 + r.lsrc * 2 ^ 11 + r.ack * 2 ^ 14 + r.tries * 2 ^ 16 + r.lslot * 2 ^ 32,
   r.rlevel + b2n r.rv * 2 ^ 10 + r.rfade * 2 ^ 16 + r.rexp * 2 ^ 32,
   (List.range 4).foldl (fun a j => a + r.codes.getD j 0 * 2 ^ (16 * j)) 0]

/-- A road class as its two quads. -/
def RoadClass.quads (c : RoadClass) : List Nat :=
  [c.floor + c.ceil * 2 ^ 16 + c.fclevel * 2 ^ 32 + c.fcn * 2 ^ 42 + c.darkcal * 2 ^ 48,
   c.relfade + c.flfade * 2 ^ 16 + c.fcfade * 2 ^ 32]

/-- The road class two quads spell. -/
def RoadClass.ofQuads (q : List Nat) : RoadClass :=
  let a := quadAt q 0
  let b := quadAt q 1
  ⟨bits a 9 0, bits a 25 16, bits a 41 32, bits a 45 42, bits a 57 48, bits b 15 0, bits b 31 16, bits b 47 32⟩

/-- An order record as its three quads; zeros for a free one. -/
def Dev.recQuads (d : Dev) (n : Nat) : List Nat :=
  match Tab.find d.ord.recs n with
  | none => [0, 0, 0]
  | some r => [r.first + r.last * 2 ^ 18 + r.fn * 2 ^ 36 + r.kind * 2 ^ 42 + 2 ^ 44 + r.level * 2 ^ 48, r.start + r.stop * 2 ^ 32, r.fade + r.cseq * 2 ^ 32]

/-- Index range of a table (Table 6-8). -/
def ordIndexOk (t i : Nat) : Bool :=
  if t = 0 then i < 262144 else if t = 1 then i < 256 else if t = 2 then 1 ≤ i && i < 1024 else if t = 3 then i < 4096 else i < 16384

/-- An entry of an ORD table as quads; none when the index is out of range. -/
def Dev.ordRead (d : Dev) (t i : Nat) : Option (List Nat) :=
  if !ordIndexOk t i then none
  else if t = 0 then some (d.olanQuads i)
  else if t = 1 then some (d.roadClass i).quads
  else if t = 2 then some ((List.range 16).map (quadAt (d.calendar i)))
  else if t = 3 then some (d.program i)
  else some (d.recQuads i)

/-- The defined bits of a calendar's quads. -/
def calMask (q : List Nat) : List Nat :=
  (List.range 16).map (fun i =>
    let v := quadAt q i
    if i = 0 then v &&& 0xFFFF03FF003F else if i = 1 then v &&& 0x7FFFFFFFF else if i = 2 then v % 2 ^ 64
    else if i = 3 then v % 2 ^ 20 else v &&& 0x80000FFFFFFFFFFF)

/-- The defined bits of a day program's quads. -/
def progMask (q : List Nat) : List Nat :=
  (List.range 16).map (fun i => let v := quadAt q i; if i = 15 then v % 64 else v &&& 0xFFFF03FF0001FFFF)

/-- Store a calendar. -/
def Dev.setCalendar (d : Dev) (k : Nat) (c : List Nat) : Dev :=
  let c := if c.all (· == 0) then [] else c
  { d with ord := { d.ord with cal := Tab.set [] d.ord.cal k c } }

/-- Whether OWNER `o` on calendar k would break a reference that lanterns or road classes hold (R145). -/
def Dev.calBreaks (d : Dev) (k o : Nat) : Bool :=
  d.ord.lan.any (fun e => (e.2.fbcal == k && o != 0) || (e.2.schcal == k && d.ownerOf e.1 != o)) ||
  (o != 0 && d.ord.cls.any (fun e => e.2.darkcal == k))

/-- Whether OWNER `o` on program p would break a reference that a calendar holds; calendars never written name program 0. -/
def Dev.progBreaks (d : Dev) (p o : Nat) : Bool :=
  d.ord.cal.any (fun e => (calProgs e.2).contains p && bits (quadAt e.2 0) 5 0 != o) ||
  (p == 0 && o != 0 && decide (d.ord.cal.length < 1023))

/-- Write an entry of an ORD table for function fn: RESULT (R144, R145, R149, R162). A VF's write keeps OWNER. -/
def Dev.ordWrite (d : Dev) (fn t i : Nat) (q : List Nat) : Dev × Nat :=
  if !ordIndexOk t i then (d, 1)
  else if t = 0 then
    let a := quadAt q 0
    let fb := bits a 17 8
    let sc := bits a 27 18
    if (fb ≠ 0 && d.calOwner fb ≠ 0) || (sc ≠ 0 && d.calOwner sc ≠ d.ownerOf i) then (d, 3)
    else (d.setOlan i { d.olan i with cls := bits a 7 0, fbcal := fb, schcal := sc }, 0)
  else if t = 1 then
    let c := RoadClass.ofQuads q
    if c.ceil < c.floor || 1000 < c.ceil || 1000 < c.fclevel || 8 < c.fcn then (d, 2)
    else if c.darkcal ≠ 0 && d.calOwner c.darkcal ≠ 0 then (d, 3)
    else ({ d with ord := { d.ord with cls := Tab.set {} d.ord.cls i c } }, 0)
  else if t = 2 then
    let old := d.calOwner i
    let c := calMask q
    let c := if fn = 0 then c else c.set 0 (quadAt c 0 - bits (quadAt c 0) 5 0 + old)
    let o := bits (quadAt c 0) 5 0
    if fn ≠ 0 && old ≠ fn then (d, 3)
    else if bits (quadAt c 1) 34 32 = 7 || 1000 < bits (quadAt c 0) 25 16 then (d, 2)
    else if (calProgs c).any (fun p => d.progOwner p != o) || (o ≠ old && d.calBreaks i o) then (d, 3)
    else (d.setCalendar i c, 0)
  else if t = 3 then
    let old := d.progOwner i
    let p := progMask q
    let p := if fn = 0 then p else p.set 15 old
    let o := quadAt p 15
    if fn ≠ 0 && old ≠ fn then (d, 3)
    else if !progOk p then (d, 2)
    else if o ≠ old && d.progBreaks i o then (d, 3)
    else ({ d with ord := { d.ord with prog := Tab.set progReset d.ord.prog i p } }, 0)
  else (d, 4)

/-- CLEAR of an ORD table entry: RESULT (R162). -/
def Dev.ordClear (d : Dev) (t i : Nat) : Dev × Nat :=
  if !ordIndexOk t i then (d, 1)
  else if t = 0 then (d.setOlan i { d.olan i with codes := [], dovf := false, rv := false, lvalid := false, ack := 0 }, 0)
  else if t = 4 then ({ d with ord := { d.ord with recs := Tab.del d.ord.recs i } }, 0)
  else (d, 4)

/-- Load quads into ORD_DATA. -/
def Dev.ordData (d : Dev) (q : List Nat) : Dev := (List.range q.length).foldl (fun d i => d.put (ORD_DATA_QUAD i) (quadAt q i)) d

/-- Control-space offset of ORD_TBL_CMD. -/
def ordTblCmdOff : Nat := 0x3010C

/-- ORD_TBL_CMD READ. -/
def Dev.ordTblRead (d : Dev) : Dev :=
  if d.on ORD_TBL_CMD_BUSY then d.errBusy 0xA 0 ordTblCmdOff
  else match d.ordRead (d.get ORD_TBL_SEL_TABLE) (d.get ORD_TBL_SEL_INDEX) with
    | some q => (d.ordData q).tblDone ORD_TBL_CMD_RESULT ORD_TBL_CMD_BUSY 0
    | none => d.tblDone ORD_TBL_CMD_RESULT ORD_TBL_CMD_BUSY 1

/-- ORD_TBL_CMD WRITE. -/
def Dev.ordTblWrite (d : Dev) : Dev :=
  if d.on ORD_TBL_CMD_BUSY then d.errBusy 0xA 0 ordTblCmdOff
  else
    let (d, r) := d.ordWrite 0 (d.get ORD_TBL_SEL_TABLE) (d.get ORD_TBL_SEL_INDEX) ((List.range 16).map (fun i => d.get (ORD_DATA_QUAD i)))
    d.tblDone ORD_TBL_CMD_RESULT ORD_TBL_CMD_BUSY r

/-- ORD_TBL_CMD CLEAR. -/
def Dev.ordTblClear (d : Dev) : Dev :=
  if d.on ORD_TBL_CMD_BUSY then d.errBusy 0xA 0 ordTblCmdOff
  else
    let (d, r) := d.ordClear (d.get ORD_TBL_SEL_TABLE) (d.get ORD_TBL_SEL_INDEX)
    d.tblDone ORD_TBL_CMD_RESULT ORD_TBL_CMD_BUSY r

end Sys2Proof.Machine
end

