-- ==== Sys2Proof/Machine/Ledger.lean ====
section
/-!
DEFINITION. The life ledger (R154–R163): STATUS and ENERGY, thresholds, archives, energy periods, the LDG tables; and the part of
the inventory commands that the orders and the ledger take (R143, R150, R158).
-/
namespace Sys2Proof.Machine

/-- A sum kept in w bits. Where it does not fit, the spec states no result: a free value. -/
def Dev.fit (d : Dev) (w v : Nat) : Nat × Dev := if v < 2 ^ w then (v, d) else (d.freeVal.toNat % 2 ^ w, d.drawn)

/-- A record as its sixteen quads (Table 6-4). -/
def LdgRec.quads (g : LdgRec) : List Nat :=
  [g.engid, g.drvid, g.eq + g.type * 2 ^ 48 + g.known * 2 ^ 56, g.ecyc + g.tflags * 2 ^ 32, g.dsec, g.einst, g.dinst, g.laststat,
   g.bcyc + g.bdrv * 2 ^ 32, g.lasten, g.beact, g.etot, g.last12, g.nstat + g.nenergy * 2 ^ 32, 0, 0]

/-- The record sixteen quads spell. -/
def LdgRec.ofQuads (q : List Nat) : LdgRec :=
  let a := quadAt q
  ⟨a 0, a 1, bits (a 2) 47 0, bits (a 2) 55 48, bits (a 2) 58 56, bits (a 3) 31 0, bits (a 3) 40 32, bits (a 4) 39 0, a 5, a 6, a 7,
   bits (a 8) 31 0, bits (a 8) 63 32, a 9, a 10, a 11, a 12, bits (a 13) 31 0, bits (a 13) 63 32⟩

/-- Byte address of ledger record n: 128 B each, from LDG_BASE (R155). -/
def Dev.ldgAddr (d : Dev) (n : Nat) : Nat := 2 * d.get LDG_BASE_ADDR + 128 * n

/-- Ledger record n, as its bytes in DRAM spell it (Table 6-4). -/
def Dev.ldgRec (d : Dev) (n : Nat) : LdgRec := LdgRec.ofQuads (quadsOf 16 (d.dramBytes (d.ldgAddr n) 128))

/-- Store ledger record n. -/
def Dev.setLdg (d : Dev) (n : Nat) (g : LdgRec) : Dev :=
  { d with mem := { d.mem with dram := dramPut d.mem.dram (d.ldgAddr n) (g.quads.flatMap (leBytes 8)) } }

/-- A type's two quads. -/
def Dev.ldgType (d : Dev) (y : Nat) : List Nat := Tab.get [] d.ldg.types y

/-- An ageing table's 32 quads after reset: every factor 0x0100. -/
def ageReset : List Nat := List.replicate 32 0x0100010001000100

/-- An ageing table. -/
def Dev.ldgAge (d : Dev) (y : Nat) : List Nat := Tab.get ageReset d.ldg.age y

/-- A(k, b): the factor at i = 8k + b (R161). -/
def Dev.ageFactor (d : Dev) (y k b : Nat) : Nat :=
  let i := 8 * k + b
  bits (quadAt (d.ldgAge y) (i / 4)) (16 * (i % 4) + 15) (16 * (i % 4))

/-- The temperature band of TENG (R156). -/
def tempBand (t : Int) : Nat := if t < -300 then 0 else if 1100 ≤ t then 15 else ((t + 400) / 100).toNat

/-- The archive of a part (Tables 6-5 and 9-12): part 0 engine, 1 driver. -/
def archive (n part cause : Nat) (g : LdgRec) : List Byte :=
  let eng := part = 0
  leBytes 4 (n + part * 2 ^ 18 + cause * 2 ^ 19 + (if eng then g.tflags % 64 else g.tflags / 64 % 8) * 2 ^ 21) ++
  leBytes 4 (if eng then g.ecyc else 0) ++ leBytes 8 (if eng then g.engid else g.drvid) ++
  leBytes 8 ((if eng then g.eq else g.dsec) + g.type * 2 ^ 48) ++ leBytes 8 (if eng then g.einst else g.dinst) ++ leBytes 8 g.laststat

/-- Raise an archive event to the PF and the lantern's owner (R158). -/
def Dev.archiveEvent (d : Dev) (n code part cause : Nat) (g : LdgRec) : Dev := d.bothBytes (d.ownerOf n) code (archive n part cause g)

/-- Archive both parts of a record as event 0x0616, then zero it (R158): cause 1 REMOVE, 2 CLEAR. -/
def Dev.ldgZero (d : Dev) (n cause : Nat) : Dev :=
  let g := d.ldgRec n
  ((d.archiveEvent n 0x0616 0 cause g).archiveEvent n 0x0616 1 cause g).setLdg n {}

/-- One threshold of R157: measure 0 EQ, 1 ECYC, 2 DSEC; p is 80, 95 or 100. -/
def Dev.threshold (d : Dev) (n m i p v ru : Nat) : Dev :=
  let g := d.ldgRec n
  let b := 3 * m + i
  if ru ≠ 0 && !bit g.tflags b && p * ru ≤ 100 * v then
    (d.setLdg n { g with tflags := g.tflags + 2 ^ b }).bothEvent (d.ownerOf n) 0x0613 [(4, n), (1, m), (1, p), (8, v)]
  else d

/-- thresholds(g, y) of R157. -/
def Dev.thresholds (d : Dev) (n : Nat) : Dev :=
  let g := d.ldgRec n
  let t := d.ldgType g.type
  let all := fun (d : Dev) (m v ru : Nat) =>
    ((d.threshold n m 0 80 v ru).threshold n m 1 95 v ru).threshold n m 2 100 v ru
  let d := all d 0 g.eq (bits (quadAt t 0) 31 0 * 921600)
  let d := all d 1 g.ecyc (bits (quadAt t 0) 63 32)
  all d 2 g.dsec (bits (quadAt t 1) 31 0 * 3600)

/-- The gain of a cumulative count since its last report. -/
def sinceLast (new old : Nat) : Nat := if old ≤ new then new - old else new

/-- The engine part of status(n, m) (R156). -/
def Dev.statusEngine (d : Dev) (n : Nat) (pl : List Byte) : Dev :=
  let g := d.ldgRec n
  let id := beAt pl 52 8
  let cyc := beAt pl 44 4
  let time := beAt pl 0 8
  if id = 0 then d.inc (LDG_CNT_COUNT 3)
  else if !bit g.known 0 || id ≠ g.engid then
    let d := if bit g.known 0 then (d.archiveEvent n 0x0611 0 0 g).inc (LDG_CNT_COUNT 4) else d
    d.setLdg n { g with engid := id, eq := 0, ecyc := 0, tflags := g.tflags / 64 * 64, einst := time, known := g.known ||| 1, bcyc := cyc }
  else
    let k := tempBand (sgn 16 (beAt pl 20 2))
    let add := sumN ((List.range 8).map (fun b => beAt pl (28 + 2 * b) 2 * d.ageFactor g.type k b))
    let (eq, d) := d.fit 48 (g.eq + add)
    let (ecyc, d) := d.fit 32 (g.ecyc + sinceLast cyc g.bcyc)
    d.setLdg n { g with eq := eq, ecyc := ecyc, bcyc := cyc }

/-- The driver part of status(n, m) (R156). -/
def Dev.statusDriver (d : Dev) (n : Nat) (pl : List Byte) : Dev :=
  let g := d.ldgRec n
  let id := beAt pl 60 8
  let sec := beAt pl 48 4
  let time := beAt pl 0 8
  if id = 0 then d.inc (LDG_CNT_COUNT 3)
  else if !bit g.known 1 || id ≠ g.drvid then
    let d := if bit g.known 1 then (d.archiveEvent n 0x0612 1 0 g).inc (LDG_CNT_COUNT 4) else d
    d.setLdg n { g with drvid := id, dsec := 0, tflags := g.tflags % 64, dinst := time, known := g.known ||| 2, bdrv := sec }
  else
    let (dsec, d) := d.fit 40 (g.dsec + sinceLast sec g.bdrv)
    d.setLdg n { g with dsec := dsec, bdrv := sec }

/-- status(n, m) of R156. -/
def Dev.ldgStatus (d : Dev) (n : Nat) (pl : List Byte) : Dev :=
  if beAt pl 0 8 ≤ (d.ldgRec n).laststat then d.inc (LDG_CNT_COUNT 2)
  else
    let d := ((d.inc (LDG_CNT_COUNT 0)).statusEngine n pl).statusDriver n pl
    let (ns, d) := d.fit 32 ((d.ldgRec n).nstat + 1)
    let g := d.ldgRec n
    let d := d.setLdg n { g with laststat := beAt pl 0 8, nstat := ns, last12 := beAt pl 12 2 + beAt pl 20 2 * 2 ^ 16 + beAt pl 22 2 * 2 ^ 32 + beAt pl 26 2 * 2 ^ 48 }
    d.thresholds n

/-- Add d digits to a decimal total: the total and whether it wrapped (R159). -/
def decAdd (total add : Nat) : Nat × Bool :=
  let s := bcdVal 16 total + add
  (toBcd 16 (s % 10 ^ 16), decide (10 ^ 16 ≤ s))

/-- energy(n, m) of R159. -/
def Dev.ldgEnergy (d : Dev) (n : Nat) (pl : List Byte) : Dev :=
  let g := d.ldgRec n
  let time := beAt pl 0 8
  let eact := beAt pl 8 8
  let f := d.ownerOf n
  if time ≤ g.lasten then d.inc (LDG_CNT_COUNT 2)
  else
    let d := d.inc (LDG_CNT_COUNT 1)
    let (ne, d) := d.fit 32 (g.nenergy + 1)
    let acc := Tab.get {} d.ldg.acc f
    let acc := if acc.lix.contains n then acc else { acc with lix := acc.lix ++ [n] }
    let setAcc := fun (d : Dev) (a : EnAcc) => { d with ldg := { d.ldg with acc := Tab.set {} d.ldg.acc f a } }
    if !bit g.known 2 then
      setAcc ((d.inc (LDG_CNT_COUNT 7)).setLdg n { g with beact := eact, known := g.known ||| 4, lasten := time, nenergy := ne }) acc
    else
      let restart := eact < g.beact
      let add := if restart then bcdVal 16 eact else bcdVal 16 eact - bcdVal 16 g.beact
      let d := if restart then (d.bothEvent f 0x0614 [(4, n), (8, g.beact), (8, eact)]).inc (LDG_CNT_COUNT 5) else d
      let (etot, w1) := decAdd g.etot add
      let (ftot, w2) := decAdd (d.get (LDG_ETOT_TOTAL f)) add
      let d := (d.setLdg n { g with beact := eact, lasten := time, nenergy := ne, etot := etot }).put (LDG_ETOT_TOTAL f) ftot
      let d := setAcc d { acc with delta := (acc.delta + add) % 10 ^ 16, restarts := acc.restarts + b2n restart }
      let d := if w1 then d.bothEvent f 0x0615 [(1, 0), (4, n)] else d
      if w2 then d.pfEvent 0x0615 [(1, 1), (1, f)] else d

/-- An entry of queue 0x158B (R154). -/
def Dev.ldgApply (d : Dev) (e : Entry) : Dev :=
  let b := msgBytes e
  if !d.on LDG_CFG_EN then d
  else if !d.msgKnown e then d.inc (LDG_CNT_COUNT 6)
  else if byteAt b 1 = 2 then d.ldgStatus (msgLix e) (b.drop 16)
  else d.ldgEnergy (msgLix e) (b.drop 16)

/-- A STATUS entry. -/
def isStatusEntry (e : Entry) : Bool := byteAt (msgBytes e) 1 == 2

/-- The ledger takes the next entry of queue 0x158B when it is a STATUS (or, with `st` false, when it is not). -/
def Dev.takeLedger (d : Dev) (st : Bool) : Dev :=
  match d.takeWhen 0x158B (fun e => isStatusEntry e == st) with
  | (d, some e) => d.ldgApply e
  | (d, none) => d

/-! ### Energy periods (R160) -/

/-- Length of an energy period in ns. -/
def Dev.ePeriod (d : Dev) : Nat := d.get LDG_CFG_EPERIOD * 60000000000

/-- The part of a tick that finds an energy period's end, given TB_HWM before the tick (R308). -/
def Dev.energyDue (d : Dev) (hwm : Nat) : Dev :=
  let b := d.now - d.now % max 1 d.ePeriod
  if hwm < b then { d with ldg := { d.ldg with due := some b } } else d

/-- The record of function f for a period that ends at b (Table 9-14, kind 0x10). -/
def Dev.energyBody (d : Dev) (f b : Nat) : List Byte :=
  let a := Tab.get {} d.ldg.acc f
  leBytes 1 f ++ [0, 0, 0] ++ leBytes 4 ((b - d.ldg.start) / 1000000000) ++ leBytes 8 d.ldg.start ++ leBytes 8 (d.get (LDG_ETOT_TOTAL f)) ++
  leBytes 8 (toBcd 16 a.delta) ++ leBytes 4 a.lix.length ++ leBytes 4 a.restarts

/-- The functions that own a lantern or have a non-zero total; 0 for unowned lanterns. -/
def Dev.energyFns (d : Dev) : List Nat :=
  (List.range 64).filter (fun f => d.mle.inv.any (fun e => e.2.owner == f) || d.get (LDG_ETOT_TOTAL f) != 0)

/-- An energy period ends (R160): its records wait for the next management tick. -/
def Dev.energyBoundary (d : Dev) : Dev :=
  match d.ldg.due with
  | none => d
  | some b =>
    let new := d.energyFns.map (fun f => (f, d.energyBody f b))
    { d with ldg := { d.ldg with due := none, out := d.ldg.out ++ new, acc := [], start := b } }

/-- The ledger's part of a management tick: the energy records that wait (R160). -/
def Dev.ldgTick (d : Dev) : Dev :=
  let l := d.ldg.out
  l.foldl (fun d e => d.sendRecord e.1 0x10 e.2) { d with ldg := { d.ldg with out := [] } }

/-! ### LDG tables (R161) -/

/-- Index range of a ledger table. -/
def ldgIndexOk (t i : Nat) : Bool := if t = 0 then i < 262144 else if t = 3 then i < 64 else i < 256

/-- An entry of a ledger table as quads. -/
def Dev.ldgRead (d : Dev) (t i : Nat) : Option (List Nat) :=
  if !ldgIndexOk t i then none
  else if t = 0 then some (d.ldgRec i).quads
  else if t = 1 then some [quadAt (d.ldgType i) 0, quadAt (d.ldgType i) 1]
  else if t = 2 then some (d.ldgAge i)
  else some [d.get (LDG_ETOT_TOTAL i)]

/-- Write an entry of a ledger table: RESULT. -/
def Dev.ldgWrite (d : Dev) (t i : Nat) (q : List Nat) : Dev × Nat :=
  if !ldgIndexOk t i then (d, 1)
  else if t = 0 then
    if !allDigits 16 (quadAt q 10) || !allDigits 16 (quadAt q 11) then (d, 2) else (d.setLdg i (LdgRec.ofQuads q), 0)
  else if t = 1 then
    let v := [quadAt q 0, quadAt q 1 % 2 ^ 32]
    ({ d with ldg := { d.ldg with types := Tab.set [] d.ldg.types i (if v = [0, 0] then [] else v) } }, 0)
  else if t = 2 then
    ({ d with ldg := { d.ldg with age := Tab.set ageReset d.ldg.age i ((List.range 32).map (quadAt q)) } }, 0)
  else (d, 4)

/-- CLEAR of a ledger table entry: RESULT. -/
def Dev.ldgClear (d : Dev) (t i : Nat) : Dev × Nat :=
  if !ldgIndexOk t i then (d, 1) else if t = 0 then (d.ldgZero i 2, 0) else (d, 4)

/-- Control-space offset of LDG_TBL_CMD. -/
def ldgTblCmdOff : Nat := 0x2F80C

/-- LDG_TBL_CMD READ. -/
def Dev.ldgTblRead (d : Dev) : Dev :=
  if d.on LDG_TBL_CMD_BUSY then d.errBusy 0xB 0 ldgTblCmdOff
  else match d.ldgRead (d.get LDG_TBL_SEL_TABLE) (d.get LDG_TBL_SEL_INDEX) with
    | some q => ((List.range q.length).foldl (fun d i => d.put (LDG_DATA_QUAD i) (quadAt q i)) d).tblDone LDG_TBL_CMD_RESULT LDG_TBL_CMD_BUSY 0
    | none => d.tblDone LDG_TBL_CMD_RESULT LDG_TBL_CMD_BUSY 1

/-- LDG_TBL_CMD WRITE. -/
def Dev.ldgTblWrite (d : Dev) : Dev :=
  if d.on LDG_TBL_CMD_BUSY then d.errBusy 0xB 0 ldgTblCmdOff
  else
    let (d, r) := d.ldgWrite (d.get LDG_TBL_SEL_TABLE) (d.get LDG_TBL_SEL_INDEX) ((List.range 32).map (fun i => d.get (LDG_DATA_QUAD i)))
    d.tblDone LDG_TBL_CMD_RESULT LDG_TBL_CMD_BUSY r

/-- LDG_TBL_CMD CLEAR. -/
def Dev.ldgTblClear (d : Dev) : Dev :=
  if d.on LDG_TBL_CMD_BUSY then d.errBusy 0xB 0 ldgTblCmdOff
  else
    let (d, r) := d.ldgClear (d.get LDG_TBL_SEL_TABLE) (d.get LDG_TBL_SEL_INDEX)
    d.tblDone LDG_TBL_CMD_RESULT LDG_TBL_CMD_BUSY r

/-! ### Inventory and key commands, whole (R58 with R143, R150, R158) -/

/-- Clear LVALID of a lantern (R150). -/
def Dev.orderAfresh (d : Dev) (lix : Nat) : Dev := d.setOlan lix { d.olan lix with lvalid := false }

/-- Event 0x0605 for each lockout of the old owner that is active on a lantern whose owner changes (Table 6-2). -/
def Dev.lockoutsEnd (d : Dev) (lix old : Nat) : Dev :=
  (d.ord.recs.filter (fun e => e.2.kind == 1 && e.2.fn == old && e.2.covers lix && e.2.active d.slotNow)).foldl
    (fun d e => d.bothEvent old 0x0605 [(4, lix), (2, e.1), (1, old)]) d

/-- Apply an inventory operation whose RESULT is 0, with its effect on orders and the ledger. -/
def Dev.invApply (d : Dev) (c : InvCmd) : Dev :=
  match c.op with
  | 1 => (d.invStore c).orderAfresh c.lix
  | 2 =>
    let old := d.ownerOf c.lix
    let d := d.invStore c
    if old = c.owner then d
    else
      let d := if old = 0 then d else d.lockoutsEnd c.lix old
      d.setOlan c.lix { d.olan c.lix with schcal := 0 }
  | 4 => match d.byUid c.uid with
    | some (lix, _) => (d.invStore c).orderAfresh lix
    | none => d
  | 5 => match d.byUid c.uid with
    | some (lix, _) => ((d.ldgZero lix 1).invStore c).setOlan lix {}
    | none => d
  | _ => d.invStore c

/-- Run an inventory operation to its end: the state after it and RESULT. -/
def Dev.invRun (d : Dev) (c : InvCmd) : Dev × Nat :=
  let r := d.invResult c
  (if r = 0 then d.invApply c else d, r)

/-- An inventory command's result becomes final and BUSY clears (R56, R58); LOOKUP loads MLE_INV_ENTRY. -/
def Dev.invComplete (d : Dev) : Dev :=
  match d.mle.invPend with
  | none => d
  | some c =>
    let d := { d with mle := { d.mle with invPend := none } }
    let (d, r) := d.invRun c
    let d := if c.op = 6 then d.invLoad c.uid else d
    (d.put MLE_INV_STATUS_RESULT r).put MLE_INV_STATUS_BUSY 0

/-- Run a key operation to its end, with LOAD_CURRENT's effect on orders (R150). -/
def Dev.keyRunAll (d : Dev) (c : KeyCmd) : Dev × Nat :=
  let (d, r) := d.keyRun c
  (if r = 0 && c.op = 1 then d.orderAfresh c.lix else d, r)

/-- The handle core finishes unwrapping: the result is final and BUSY clears (R58). -/
def Dev.keyFinish (d : Dev) : Dev :=
  match d.mle.keyPend with
  | none => d
  | some c =>
    let d := { d with mle := { d.mle with keyPend := none } }
    let (d, r) := d.keyRunAll c
    (d.put MLE_KEY_STATUS_RESULT r).put MLE_KEY_STATUS_BUSY 0

/-- The message layer takes an egress message; room in queue 0x158C lets the merge go on (R63, R150). -/
def Dev.egressTake (d : Dev) : Dev := d.mleEgress.ordMore

end Sys2Proof.Machine
end

