-- ==== Sys2Proof/Machine/Rim.lean ====
section
/-!
DEFINITION. The rim links (chapter 7): service states and bring-up, IDENT and SYNC, frames, credits and pools, receive checks and the
boundary set.
-/
namespace Sys2Proof.Machine

/-- Link i's own state. -/
def Dev.rlink (d : Dev) (i : Nat) : RimLink := Tab.get {} d.rim.link i

/-- Store link i's own state. -/
def Dev.setRlink (d : Dev) (i : Nat) (s : RimLink) : Dev := { d with rim := { d.rim with link := Tab.set {} d.rim.link i s } }

/-- Control-space offset of link i's register at offset o. -/
def rimOff (i o : Nat) : Nat := 0x2F500 + 0x80 * i + o

/-- Credits of a pool of n buffers (R168). -/
def poolCredit (n tx freed : Nat) : Nat := n - wsub 8 tx freed

/-- Show both pools' credits in RIM_STATUS. -/
def Dev.rimCred (d : Dev) (i : Nat) : Dev :=
  let s := d.rlink i
  (d.put (RIM_STATUS_CRED_R i) (poolCredit 32 s.txR s.freedR)).put (RIM_STATUS_CRED_H i) (poolCredit 96 s.txH s.freedH)

/-- In service and not draining. -/
def Dev.rimOpen (d : Dev) (i : Nat) : Bool := d.get (RIM_SVC_STATE i) == 2 && !d.on (RIM_SVC_BUSY i)

/-- The stages of link i numbered lo…hi are all reached, or all lost, on its four lanes (Table 3-3). -/
def Dev.rimLocks (d : Dev) (i lo hi : Nat) (b : Bool) : Dev :=
  let has := fun k => decide (lo ≤ k) && decide (k ≤ hi)
  let d := forN 4 (fun l d =>
    let d := if has 0 then d.putB (RIM_LANE_SIGNAL i l) b else d
    let d := if has 1 then d.putB (RIM_LANE_CDR_LOCK i l) b else d
    if has 2 then d.putB (RIM_LANE_ADAPT_DONE i l) b else d) d
  let d := if has 3 then d.put (RIM_STATUS_BLOCK_LOCK i) (if b then 15 else 0) else d
  let d := if has 4 then d.putB (RIM_STATUS_AM_LOCK i) b else d
  if has 5 then d.putB (RIM_STATUS_FEC_LOCK i) b else d

/-- Lanes off. -/
def Dev.rimLanesOff (d : Dev) (i : Nat) : Dev :=
  (d.rimLocks i 0 5 false).setRlink i { d.rlink i with lanesOn := false, holdoff := false, ident := false }

/-- RIM_SVC[i].OP := OUT (R166, R82, Table 7-5). -/
def Dev.rimOut (d : Dev) (r : Requester) (i : Nat) : Dev :=
  if d.on (RIM_SVC_BUSY i) then d.errBusy 0xC i (rimOff i 2)
  else match d.get (RIM_SVC_STATE i) with
    | 0 => d
    | 1 => (d.rimLanesOff i).put (RIM_SVC_STATE i) 0
    | 2 => d.put (RIM_SVC_BUSY i) 1
    | _ => d.errState 0xC i (rimOff i 2) (srcOf r)

/-- The drain ends: lanes off, out of service, BUSY cleared. -/
def Dev.rimOutComplete (d : Dev) (i : Nat) : Dev :=
  if d.on (RIM_SVC_BUSY i) then ((d.rimLanesOff i).put (RIM_SVC_STATE i) 0).put (RIM_SVC_BUSY i) 0 else d

/-- RIM_SVC[i].OP := IN (R165, R166). -/
def Dev.rimIn (d : Dev) (r : Requester) (i : Nat) : Dev :=
  if d.on (RIM_SVC_BUSY i) then d.errBusy 0xC i (rimOff i 2)
  else if !d.on RIM_CFG_DVALID || !d.on (RIM_LCFG_NBRV i) then d.errState 0xC i (rimOff i 2) (srcOf r)
  else if d.get (RIM_SVC_STATE i) = 0 || d.get (RIM_SVC_STATE i) = 3 then
    (d.put (RIM_SVC_STATE i) 1).setRlink i { d.rlink i with lanesOn := true, holdoff := false, ident := false }
  else d

/-- RIM_SVC[i].OP := PARK. -/
def Dev.rimPark (d : Dev) (r : Requester) (i : Nat) : Dev :=
  if d.on (RIM_SVC_BUSY i) then d.errBusy 0xC i (rimOff i 2)
  else if d.get (RIM_SVC_STATE i) = 0 then d.put (RIM_SVC_STATE i) 3
  else d.errState 0xC i (rimOff i 2) (srcOf r)

/-- The link reaches a stage of Table 3-3, and with it every stage before; at RS-FEC lock the hold-off of RIM_LCFG starts (R166). -/
def Dev.rimFecLock (d : Dev) (i : Nat) (st : LinkStage) : Dev :=
  let s := d.rlink i
  if s.lanesOn && !d.on (RIM_STATUS_FEC_LOCK i) then
    let d := d.rimLocks i 0 (stageNo st) true
    if st = .fec then d.setRlink i { s with holdoff := true } else d
  else d

/-- The hold-off ends: the link is in the returning state and exchanges IDENT frames (R166). A link that OUT is draining enters no state
but out of service (R82). -/
def Dev.rimHoldoffEnd (d : Dev) (i : Nat) : Dev :=
  let s := d.rlink i
  if s.holdoff then
    let d := d.setRlink i { s with holdoff := false, ident := true }
    if d.on (RIM_SVC_BUSY i) then d else d.put (RIM_SVC_STATE i) 1
  else d

/-- An uncorrectable codeword (counted), or the loss of a stage, on a link that exchanges no frames yet: the stages from the lost one on are
lost, and a hold-off restarts at the next FEC lock (R67, R166; log entry 77). On a link that has come up its loss of lock is RIM_LOCK_LOSS. -/
def Dev.rimCodeword (d : Dev) (i : Nat) (loss : StageO) : Dev :=
  let s := d.rlink i
  let d := if loss.isSome then d else d.inc (RIM_CNT_COUNT i 9)
  if s.holdoff then (d.rimLocks i (lossFrom loss) 5 false).setRlink i { s with holdoff := false }
  else if loss.isSome && !s.ident then d.rimLocks i (lossFrom loss) 5 false
  else d

/-- Loss of lock (R166, R177): an in-service link returns to the returning state with event 0x0702, and bring-up follows again from CDR lock
(R68); SIGNAL goes only where the signal itself is lost. A drain goes on. -/
def Dev.rimLockLoss (d : Dev) (i : Nat) (st : LinkStage) : Dev :=
  let s := d.rlink i
  if !s.ident then d
  else
    let d := (d.rimLocks i (min 1 (stageNo st)) 5 false).setRlink i { s with ident := false, holdoff := false }
    if d.get (RIM_SVC_STATE i) = 2 then
      let d := d.inc (RIM_CNT_COUNT i 10)
      (if d.on (RIM_SVC_BUSY i) then d else d.put (RIM_SVC_STATE i) 1).pfEvent 0x0702 [(1, i)]
    else d

/-- RIM_STATUS[i] as one word. -/
def Dev.rimStatus (d : Dev) (i : Nat) : Nat :=
  d.get (RIM_STATUS_BLOCK_LOCK i) + d.get (RIM_STATUS_AM_LOCK i) * 2 ^ 4 + d.get (RIM_STATUS_FEC_LOCK i) * 2 ^ 5 +
  d.get (RIM_STATUS_PEER i) * 2 ^ 8 + d.get (RIM_STATUS_PEERV i) * 2 ^ 14 + d.get (RIM_STATUS_CRED_R i) * 2 ^ 16 +
  d.get (RIM_STATUS_CRED_H i) * 2 ^ 24

/-- Still returning 500 ms after IN: event 0x0704. -/
def Dev.rimReturnTimeout (d : Dev) (i : Nat) : Dev :=
  if d.get (RIM_SVC_STATE i) = 1 then d.pfEvent 0x0704 [(1, i), (4, d.rimStatus i), (1, d.get (RIM_SVC_IDERR i))] else d

/-- Block reset of a rim link (Table 7-5, R396): its own registers and state return to reset. -/
def Dev.rimBlockReset (d : Dev) (i : Nat) : Dev := (d.resetWords (rimOff i 0) (rimOff i 0x80)).setRlink i {}

/-! ### Frames (R167) -/

/-- The eight header words, the payload and the CRC of a frame, as bytes in the order sent. -/
def Dev.rimFrame (d : Dev) (i type pseq : Nat) (w456 : List Word) (pl : List Word) : List Byte :=
  let s := d.rlink i
  let w := fun (n : Nat) => BitVec.ofNat 16 n
  let b := wordBytes ([w (type + pl.length * 256), w pseq, w (s.ownR % 256 + s.ownH % 256 * 256), w (d.get RIM_CFG_DEVNO)] ++ w456 ++ [0] ++ pl)
  b ++ fcs b

/-- Put a frame on link i. -/
def Dev.rimEmit (d : Dev) (i : Nat) (f : List Byte) : Dev := (d.emit (.rimFrame i f)).inc (RIM_CNT_COUNT i 0)

/-- Send an IDENT (R166): every 10 µs while returning, every 1 ms in service. A link that OUT is draining sends nothing more (R82). -/
def Dev.rimIdent (d : Dev) (i : Nat) : Dev :=
  if (d.rlink i).ident && !d.on (RIM_SVC_BUSY i) then
    d.rimEmit i (d.rimFrame i 4 0 (leWords 2 (d.get RIM_INSTALL_ID) ++ [BitVec.ofNat 16 (d.get RIM_CFG_DEVNO + d.get RIM_CFG_DVALID * 64)]) [])
  else d

/-- Send a SYNC (R168) on a link that has come up, in service or returning. A link that OUT is draining sends nothing more (R82). -/
def Dev.rimSync (d : Dev) (i : Nat) : Dev :=
  let s := d.rlink i
  if s.ident && !d.on (RIM_SVC_BUSY i) then
    d.rimEmit i (d.rimFrame i 3 0 [BitVec.ofNat 16 s.txR, BitVec.ofNat 16 s.txH, 0] [])
  else d

/-- A pool-R entry: reflex and compensation entries have REMOTE = 1 in word 0, a hand-off entry has KIND 1 there (R169). -/
def inPoolR (e : Entry) : Bool := bit (e.words.getD 0 0).toNat 4

/-- Whether link i has credit for an entry (R168). -/
def Dev.rimCanSend (d : Dev) (i : Nat) (e : Entry) : Bool :=
  let s := d.rlink i
  if inPoolR e then decide (0 < poolCredit 32 s.txR s.freedR) else decide (0 < poolCredit 96 s.txH s.freedH)

/-- Send an entry as a frame of its pool. -/
def Dev.rimSendEntry (d : Dev) (i : Nat) (e : Entry) : Dev :=
  let s := d.rlink i
  let r := inPoolR e
  let f := d.rimFrame i (if r then 1 else 2) (if r then s.txR else s.txH) [0, 0, 0] e.words
  let k := if !r then 4 else if (e.words.getD 0 0).toNat % 16 = 0 then 3 else 2
  let s := if r then { s with txR := (s.txR + 1) % 65536 } else { s with txH := (s.txH + 1) % 65536 }
  (((d.rimEmit i f).setRlink i s).inc (RIM_CNT_COUNT i k)).rimCred i

/-- Link i takes an entry from queue 0x158E + i (R168, R171): it sends it when its pool has credit, and discards it while the link is
not in service. -/
def Dev.rimTake (d : Dev) (i : Nat) : Dev :=
  let opn := d.rimOpen i
  match d.takeWhen (0x158E + i) (fun e => !opn || d.rimCanSend i e) with
  | (d, some e) => if opn then d.rimSendEntry i e else (d.inc (RIM_CNT_COUNT i 5)).riseAt (3 * i) 1
  | (d, none) => d

/-! ### Reception (R174) -/

/-- The fields of a received frame. -/
structure RimRx where
  type : Nat
  pseq : Nat
  freedR : Nat
  freedH : Nat
  sdev : Nat
  w4 : Nat
  w5 : Nat
  w6 : Nat
  pl : List Word
  deriving DecidableEq, Repr

/-- Parse a frame; none when it is too short or its CRC is wrong. -/
def rimParse (f : List Byte) : Option RimRx :=
  let w := fun k => leAt f (2 * k) 2
  let n := 16 + 2 * (w 0 / 256)
  if f.length ≠ n + 4 || fcs (f.take n) ≠ f.drop n then none
  else some ⟨w 0 % 16, w 1, w 2 % 256, w 2 / 256, w 3 % 64, w 4, w 5, w 6, packWords ((f.take n).drop 16)⟩

/-- How far PSEQ p lies past the expected e; 0 when it does not. -/
def pseqGap (e p : Nat) : Nat := let x := wsub 16 p e; if x < 32768 then x else 0

/-- Count missing frames of a pool: they are freed (R168). -/
def Dev.rimMissing (d : Dev) (i n : Nat) (r : Bool) : Dev :=
  let s := d.rlink i
  let s := if r then { s with rxR := (s.rxR + n) % 65536, ownR := (s.ownR + n) % 256 } else { s with rxH := (s.rxH + n) % 65536, ownH := (s.ownH + n) % 256 }
  let d := (d.setRlink i s).addCnt (RIM_CNT_COUNT i 7) n
  if n = 0 then d else d.riseAt (3 * i + 2) n

/-- A frame of a pool is received at its PSEQ, and its buffer freed at the end of this step. -/
def Dev.rimGot (d : Dev) (i : Nat) (r : Bool) : Dev :=
  let s := d.rlink i
  d.setRlink i (if r then { s with rxR := (s.rxR + 1) % 65536, ownR := (s.ownR + 1) % 256 } else { s with rxH := (s.rxH + 1) % 65536, ownH := (s.ownH + 1) % 256 })

/-- An IDENT (R166). A link that OUT is draining keeps its state (R82). -/
def Dev.rimGotIdent (d : Dev) (i : Nat) (f : RimRx) : Dev :=
  let dev := f.w6 % 64
  let inst := f.w4 + f.w5 * 65536
  let d := (d.put (RIM_STATUS_PEER i) dev).put (RIM_STATUS_PEERV i) 1
  let err := if inst ≠ d.get RIM_INSTALL_ID then 1 else if dev ≠ d.get (RIM_LCFG_NBR i) then 2 else if !bit f.w6 6 then 3 else 0
  let old := d.get (RIM_SVC_IDERR i)
  let d := d.put (RIM_SVC_IDERR i) err
  let d := if err ≠ 0 && err ≠ old then d.pfEvent 0x0703 [(1, i), (1, err), (4, inst), (1, dev)] else d
  if d.on (RIM_SVC_BUSY i) then d
  else if d.get (RIM_SVC_STATE i) = 1 && err = 0 then
    let s := d.rlink i
    let d := (d.setRlink i { lanesOn := s.lanesOn, holdoff := s.holdoff, ident := s.ident }).rimCred i
    (d.put (RIM_SVC_STATE i) 2).pfEvent 0x0701 [(1, i), (1, dev)]
  else if d.get (RIM_SVC_STATE i) = 2 && err ≠ 0 then d.put (RIM_SVC_STATE i) 1
  else d

/-- A SYNC (R168), whatever the link's state: every PSEQ below NEXT that was not received is missing. -/
def Dev.rimGotSync (d : Dev) (i : Nat) (f : RimRx) : Dev :=
  let s := d.rlink i
  (d.rimMissing i (pseqGap s.rxR f.w4) true).rimMissing i (pseqGap s.rxH f.w5) false

/-- Whether a target, an installation lantern number, is this device's and in the boundary set (R174). -/
def Dev.inBset (d : Dev) (t : Nat) : Bool := t / 2 ^ 18 == d.get RIM_CFG_DEVNO && Tab.get false d.rim.bset (t % 2 ^ 18)

/-- Keep the groups of `size` words whose target passes; how many were removed. -/
def Dev.keepTargets (d : Dev) (ws : List Word) (off size n : Nat) : List (List Word) :=
  ((List.range n).map (fun k => (ws.drop (off + size * k)).take size)).filter (fun g => d.inBset (wordsNat (g.take 2) % 2 ^ 24))

/-- Deliver an entry that passed (R169), less the targets the boundary set refuses. -/
def Dev.rimDeliver (d : Dev) (ty : Nat) (ws : List Word) : Dev :=
  let w0 := (ws.getD 0 0).toNat
  let cut := fun (d : Dev) (n : Nat) => if n = 0 then d else (d.addCnt (RIM_GCNT_COUNT 1) n).riseAt 7 n
  if ty = 2 then
    let t := handTarget { words := ws }
    if !d.inBset t then cut d 1
    else
      let sh := t % 2 ^ 18 / 32
      let q := (d.shardQueue sh).getD (0x15A0 + d.shardHoop sh)
      d.send q { words := ws, hand := true }
  else if w0 % 16 ≠ 0 then
    let n := w0 % 16
    let gs := d.keepTargets ws 8 8 n
    let d := cut d (n - gs.length)
    if gs.isEmpty then d
    else d.send 0x1588 { words := [BitVec.ofNat 16 (w0 - n + gs.length)] ++ (ws.drop 1).take 7 ++ gs.flatten }
  else
    let n := bits w0 9 6
    let gs := d.keepTargets ws 8 2 n
    let d := cut d (n - gs.length)
    if bit w0 5 && gs.isEmpty then d
    else d.send 0x1588 { words := [BitVec.ofNat 16 (w0 - n * 64 + gs.length * 64)] ++ (ws.drop 1).take 7 ++ gs.flatten }

/-- rim_rx of R174 on link i; a link whose hold-off has not ended takes nothing from its lanes. Of the frames that arrive
while OUT drains the link, those begun before it are handled, and the others find the link not in service (R82). -/
def Dev.rimReceive (d : Dev) (i : Nat) (bytes : List Byte) (ln : RimRxLine) : Dev :=
  if !(d.rlink i).ident then d
  else
    let d := (d.inc (RIM_CNT_COUNT i 1)).addCnt (RIM_CNT_COUNT i 8) ln.cw.toNat
    match rimParse bytes with
    | none => (d.inc (RIM_CNT_COUNT i 6)).riseAt (3 * i + 1) 1
    | some f =>
      let s := d.rlink i
      let d := if d.get (RIM_SVC_STATE i) = 2 then (d.setRlink i { s with freedR := f.freedR, freedH := f.freedH }).rimCred i else d
      if f.type = 4 then d.rimGotIdent i f
      else if f.type = 3 then d.rimGotSync i f
      else
        let pool := f.type = 1 || f.type = 2
        let r := f.type = 1
        let d := if pool then d.rimMissing i (pseqGap (if r then s.rxR else s.rxH) f.pseq) r else d
        let d := if pool then d.rimGot i r else d
        if !(d.rimOpen i || (ln.begun && d.on (RIM_SVC_BUSY i))) || f.sdev ≠ d.get (RIM_STATUS_PEER i) || !pool then d.inc (RIM_CNT_COUNT i 11)
        else d.rimDeliver f.type f.pl

/-! ### Boundary set and tick -/

/-- RIM_BSET READ. -/
def Dev.bsetRead (d : Dev) (lix : Nat) : Dev := (d.put RIM_BSET_LIX lix).putB RIM_BSET_BIT (Tab.get false d.rim.bset lix)

/-- RIM_BSET WRITE. -/
def Dev.bsetWrite (d : Dev) (lix : Nat) (b : Bool) : Dev :=
  { (d.put RIM_BSET_LIX lix).putB RIM_BSET_BIT b with rim := { d.rim with bset := Tab.set false d.rim.bset lix b } }

/-- The rim's part of a management tick: event 0x0705 (R180). -/
def Dev.rimTick (d : Dev) : Dev :=
  let r := d.rim.rise
  if r.isEmpty then d
  else { d with rim := { d.rim with rise := [] } }.pfEvent 0x0705 ((List.range 8).map (fun j => (4, r.getD j 0)))

end Sys2Proof.Machine
end

