-- ==== Sys2Proof/Machine/Hif.lean ====
section
/-!
DEFINITION. The host interface (chapter 8): functions, configuration writes, interrupts, AER, delivery, function-level reset,
host-interface reset and island operation.
-/
namespace Sys2Proof.Machine

/-- Function f's own state. -/
def Dev.fnS (d : Dev) (f : Nat) : FnS := Tab.get {} d.hif.fn f

/-- Store function f's own state. -/
def Dev.setFn (d : Dev) (f : Nat) (s : FnS) : Dev := { d with hif := { d.hif with fn := Tab.set {} d.hif.fn f s } }

/-- A function that exists: the PF, and the VFs that VF Enable and NumVFs give (R185). -/
def Dev.fnOn (d : Dev) (f : Nat) : Bool := f == 0 || (d.on HIF_STATUS_VFE && decide (f ≤ d.get HIF_STATUS_NUMVF))

/-- Control-space offset of register o of function f's page (R187, R390). -/
def pageOff (f o : Nat) : Nat := 0x10000 + 0x80 * f + o

/-- Configuration requests are answered: the link is up, and boot has reached STAGE 2 or a recovery stage (R182, R327). -/
def Dev.cfgOpen (d : Dev) : Bool := d.on HIF_STATUS_LINK_UP && decide (2 ≤ d.get BOOT_STATUS_STAGE)

/-- Memory Space Enable of function f; a VF's lies in the SR-IOV capability. -/
def Dev.mseOn (d : Dev) (f : Nat) : Bool := if f = 0 then (d.fnS 0).mse else d.hif.vfMse

/-- Function f may issue requests: link up, no FLR in progress, Bus Master Enable, the PF not in D3hot (R194, R195, R199). -/
def Dev.dmaOk (d : Dev) (f : Nat) : Bool :=
  d.on HIF_STATUS_LINK_UP && d.fnOn f && d.get (HIF_FN_STATUS_STATE f) != 2 && (d.fnS f).bme && !d.hif.d3

/-- HIF_FN_STATUS.STATE outside an FLR: island, live, or idle (Table 8-15). -/
def Dev.fixState (d : Dev) (f : Nat) : Dev :=
  if d.get (HIF_FN_STATUS_STATE f) = 2 then d
  else d.put (HIF_FN_STATUS_STATE f) (if d.on HIF_STATUS_ISLAND then 3 else if bit (d.get (RING_CTRL_EN f)) 0 then 1 else 0)

/-- `fixState` of every function. -/
def Dev.fixStates (d : Dev) : Dev := forN 64 (fun f d => d.fixState f) d

/-! ### Interrupts (R190, R191) -/

/-- HIF_FN_VEC's vector of cause c. -/
def Dev.vecOf (d : Dev) (f c : Nat) : Nat :=
  match c with
  | 0 => d.get (HIF_FN_VEC_VEC0 f)
  | 1 => d.get (HIF_FN_VEC_VEC1 f)
  | 2 => d.get (HIF_FN_VEC_VEC2 f)
  | 3 => d.get (HIF_FN_VEC_VEC3 f)
  | 4 => d.get (HIF_FN_VEC_VEC4 f)
  | _ => d.get (HIF_FN_VEC_VEC5 f)

/-- Count k entries for cause c of function f (Table 8-8). -/
def Dev.cause (d : Dev) (f c k : Nat) : Dev :=
  if k = 0 then d else
  let s := d.fnS f
  let n := s.modN.getD c 0
  let s := { s with modN := setAt s.modN c (n + k) }
  d.setFn f (if n = 0 then { s with modFirst := setAt s.modFirst c d.now } else s)

/-- A message of this vector becomes pending instead of being sent (R190). -/
def Dev.vecBlocked (d : Dev) (f v : Nat) : Bool :=
  let s := d.fnS f
  !d.dmaOk f || !s.msixEn || s.fmask || bit (Tab.get {} s.msix v).ctl 0

/-- Send vector v of function f, or set its pending bit (R190). -/
def Dev.msixOne (d : Dev) (f v : Nat) : Dev :=
  let s := d.fnS f
  if d.vecBlocked f v then d.setFn f { s with pba := s.pba ||| 2 ^ v }
  else
    let e := Tab.get {} s.msix v
    let d := d.setFn f { s with pba := if bit s.pba v then s.pba - 2 ^ v else s.pba }
    (d.emit (.msix f v e.addr e.data)).inc (HIF_CNT_COUNT 3)

/-- Send the pending messages whose condition has cleared (R190). -/
def Dev.flushPba (d : Dev) (f : Nat) : Dev :=
  forN 32 (fun v d => if bit (d.fnS f).pba v && !d.vecBlocked f v then d.msixOne f v else d) d

/-- One cause of moderate(f) (R191). -/
def Dev.moderate1 (d : Dev) (f c : Nat) : Dev :=
  let s := d.fnS f
  let n := s.modN.getD c 0
  if n = 0 then d
  else
    let due := c == 5 || decide (d.get (HIF_FN_MOD_COUNT f c) ≤ n) ||
      decide (1000 * d.get (HIF_FN_MOD_INTERVAL f c) ≤ d.now - s.modFirst.getD c 0)
    let v := d.vecOf f c
    let past := match Tab.find s.modLast v with
      | none => true
      | some t => decide (1000 * d.get (HIF_QOS_SHARE_MODMIN f) ≤ d.now - t)
    if due && past then
      let d := d.msixOne f v
      let s := d.fnS f
      d.setFn f { s with modLast := Tab.ins s.modLast v d.now, modN := (List.range 6).map (fun k => if d.vecOf f k = v then 0 else s.modN.getD k 0) }
    else d

/-- moderate(f) of R191, evaluated once. -/
def Dev.moderate (d : Dev) (f : Nat) : Dev := forN 6 (fun c d => d.moderate1 f c) d

/-! ### Errors of functions and of the link (R192–R194) -/

/-- HIF_FN_ERR of function f as a word. -/
def Dev.fnErr (d : Dev) (f : Nat) : Nat :=
  d.get (HIF_FN_ERR_UR f) + 2 * d.get (HIF_FN_ERR_CA f) + 4 * d.get (HIF_FN_ERR_CTO f) + 8 * d.get (HIF_FN_ERR_POISON f) +
  16 * d.get (HIF_FN_ERR_BMEOFF f)

/-- A HIF_FN_ERR bit is set: event 0x0804 to the PF and to f, and cause 5 (R193, R204). -/
def Dev.fnErrEvent (d : Dev) (f addr : Nat) : Dev :=
  (d.bothEvent f 0x0804 [(1, f), (4, d.fnErr f), (8, addr)]).cause f 5 1

/-- The AER status bit of an error, and whether it is correctable (PCI Express Base Specification 5.0). -/
def aerBit : AerErr → Nat × Bool
  | .receiver => (0, true)
  | .badTlp => (6, true)
  | .badDllp => (7, true)
  | .rollover => (8, true)
  | .replayTimer => (12, true)
  | .advisory => (13, true)
  | .headerOverflow => (15, true)
  | .dlProtocol => (4, false)
  | .poisoned => (12, false)
  | .flowControl => (13, false)
  | .compTimeout => (14, false)
  | .compAbort => (15, false)
  | .unexpected => (16, false)
  | .overflow => (17, false)
  | .malformed => (18, false)
  | .ecrc => (19, false)
  | .unsupported => (20, false)
  | .internal => (22, false)

/-- Set status bits in function f's AER; the header log keeps the first TLP header (R192). The PF's AER holds its own errors and the link's. -/
def Dev.aerSet (d : Dev) (f u c : Nat) (hdr : Option Nat) : Dev :=
  if f = 0 then
    { d with hif := { d.hif with
        aerU := d.hif.aerU ||| u, aerC := d.hif.aerC ||| c, aerHdr := if d.hif.aerHdr.isNone then hdr else d.hif.aerHdr } }
  else
    let s := d.fnS f
    d.setFn f { s with aer := s.aer ||| u, aerC := s.aerC ||| c, aerHdr := if s.aerHdr.isNone then hdr else s.aerHdr }

/-- The class in which error e of function f is signalled: 0 correctable, 1 non-fatal, 2 fatal, by its severity; an uncorrectable error of
severity non-fatal that concerns a request which its sender hears about (`adv`) is advisory, and correctable. -/
def Dev.aerKind (d : Dev) (f : Nat) (e : AerErr) (adv : Bool) : Nat :=
  if (aerBit e).2 then 0 else if (d.fnS f).cfg.sev.toNat.testBit (aerBit e).1 then 2 else if adv then 0 else 1

/-- Function f detects an error (R192): its AER status, Device Status, the count of correctable ones, and the error message where the host has
enabled its class and masked neither it nor, where it is advisory, the Advisory Non-Fatal class. -/
def Dev.aerNote (d : Dev) (f : Nat) (e : AerErr) (adv : Bool) (hdr : Option Nat) : Dev :=
  let (b, corr) := aerBit e
  let kind := d.aerKind f e adv
  let c := (d.fnS f).cfg
  let d := d.aerSet f (if corr then 0 else 2 ^ b) (if corr then 2 ^ b else if kind = 0 then 2 ^ 13 else 0) hdr
  let d := d.setFn f { d.fnS f with det := (d.fnS f).det ||| 2 ^ kind ||| (if e = .unsupported then 8 else 0) }
  let d := if kind = 0 then d.inc (HIF_CNT_COUNT 9) else d
  let masked := if corr then c.maskC.toNat.testBit b else c.maskU.toNat.testBit b || (kind == 0 && c.maskC.toNat.testBit 13)
  if c.report.toNat.testBit kind && !masked then d.emit (.errMsg f kind) else d

/-- The header of a TLP that the model does not see whole: a free value. -/
def Dev.freeHdr (d : Dev) : Nat × Dev := (d.freeVal.toNat + 2 ^ 64 * d.drawn.freeVal.toNat, d.drawn.drawn)

/-- Function f refuses a request of the host with Unsupported Request or Completer Abort (R192, R194); `read`: a completion tells the host so,
which makes the error advisory. -/
def Dev.aerRefused (d : Dev) (f : Nat) (e : AerErr) (read : Bool) : Dev :=
  let (h, d) := d.freeHdr
  d.aerNote f e read (some h)

/-- A DMA read of function f at an address failed (R193): the error bit, the event, AER of the function. A completion with Unsupported Request
or Completer Abort is an error of its completer's. -/
def Dev.dmaFailed (d : Dev) (f : Nat) (e : DmaErr) (addr : Nat) : Dev :=
  let d := match e with
    | .ur => d.put (HIF_FN_ERR_UR f) 1
    | .ca => d.put (HIF_FN_ERR_CA f) 1
    | .timeout => ((d.put (HIF_FN_ERR_CTO f) 1).aerNote f .compTimeout false none).inc (HIF_CNT_COUNT 5)
    | .poison => (d.put (HIF_FN_ERR_POISON f) 1).aerRefused f .poisoned false
  d.fnErrEvent f addr

/-- The link detects an error: AER of the PF; the header log keeps the first TLP header (R192). -/
def Dev.aerLink (d : Dev) (e : AerErr) (hdr : Option Nat) : Dev := if !d.on HIF_STATUS_LINK_UP then d else d.aerNote 0 e false hdr

/-! ### Ring arithmetic (R205) and waiting work -/

/-- Ring k of function f is enabled. -/
def Dev.ringOn (d : Dev) (f k : Nat) : Bool := bit (d.get (RING_CTRL_EN f)) k

/-- N of a ring. -/
def Dev.ringN (d : Dev) (f k : Nat) : Nat := 2 ^ d.get (RING_BASE_SIZE f k)

/-- Host byte address of descriptor i of a ring. -/
def Dev.descAddr (d : Dev) (f k i : Nat) : Nat := d.get (RING_BASE_ADDR f k) * 4096 + 64 * (i % d.ringN f k)

/-- Device index, and host index as last accepted, of a ring. -/
def FnS.devIx (s : FnS) (k : Nat) : Nat := s.di.getD k 0
def FnS.hostIx (s : FnS) (k : Nat) : Nat := s.hi.getD k 0

/-- Free slots of a device-to-host ring. -/
def Dev.ringFree (d : Dev) (f k : Nat) : Nat := d.ringN f k - wsub 32 ((d.fnS f).devIx k) ((d.fnS f).hostIx k)

/-- The queue of ring k (Table 9-1). -/
def ringQ (f k : Nat) : Nat := 0x1400 + 6 * f + k

/-- Slots of the record ring an entry takes (R216); 1 on other rings. -/
def slotsOf (k : Nat) (e : Entry) : Nat := if k = 3 then max 1 (byteAt (wordBytes (e.words.take 1)) 1) else 1

/-- The entry ring k of function f delivers next: a kept one whose delivery is due again, else the queue's (R197). -/
def Dev.ringHead (d : Dev) (f k : Nat) : Option Entry :=
  match (d.fnS f).kept.find? (fun e => e.redo && e.ring == k) with
  | some e => some e.entry
  | none => d.peek (ringQ f k)

/-- Room of ring k for an entry. -/
def Dev.ringRoom (d : Dev) (f k : Nat) (e : Entry) : Bool :=
  if k = 5 then !(d.fnS f).bufs.isEmpty else decide (slotsOf k e ≤ d.ringFree f k)

/-- Entries kept beyond the functions' reserves (R197). -/
def Dev.sharedKept (d : Dev) : Nat := sumN (d.hif.fn.map (fun e => e.2.kept.length - 32))

/-- Function f may receive one more kept entry (R197). -/
def Dev.keepRoom (d : Dev) (f : Nat) : Bool :=
  let n := (d.fnS f).kept.length
  decide (n < 256) && (decide (n < 32) || decide (d.sharedKept < 2048))

/-- Function f has host-bound work on an enabled ring, reads to issue, or a status write owed. -/
def Dev.workWaits (d : Dev) (f : Nat) : Bool :=
  let s := d.fnS f
  !s.want.isEmpty || s.owed || [1, 2, 3, 5].any (fun k => d.ringOn f k && (d.ringHead f k).isSome)

/-- HIF_FN_ERR.BMEOFF of a function that has work waiting while Bus Master Enable is 0 (R194); the spec names no request whose
address event 0x0804 could carry: a free value. -/
def Dev.bmeOff (d : Dev) (f : Nat) : Dev :=
  let off := !(d.fnS f).bme || d.hif.d3
  if d.fnOn f && off && d.get (HIF_FN_STATUS_STATE f) != 2 && d.workWaits f && !d.on (HIF_FN_ERR_BMEOFF f) then
    (d.put (HIF_FN_ERR_BMEOFF f) 1).drawn.fnErrEvent f d.freeVal.toNat
  else d

/-! ### Configuration writes (R182, R185, R194, R195) -/

/-- Event 0x0805 when VF Enable or NumVFs changed from what they were in `old`. -/
def Dev.vfChanged (d old : Dev) : Dev :=
  if d.get HIF_STATUS_VFE = old.get HIF_STATUS_VFE && d.get HIF_STATUS_NUMVF = old.get HIF_STATUS_NUMVF then d
  else d.pfEvent 0x0805 [(1, d.get HIF_STATUS_VFE), (1, d.get HIF_STATUS_NUMVF)]

/-- A configuration request that finds boot before STAGE 2 is answered with Request Retry Status; one that finds the link down does not arrive
(R182, R327). -/
def Dev.cfgRetry (d : Dev) (f : Nat) : Dev := if d.get BOOT_STATUS_STAGE < 2 then d.emit (.cfgRetry f) else d

/-- The ones written to the PF's AER status clear it; a header log whose error is cleared is free again. -/
def HifS.aerClear (h : HifS) (c : HostCtl) : HifS :=
  let u := h.aerU &&& (0xFFFFFFFF ^^^ c.clrU.toNat)
  { h with aerU := u, aerC := h.aerC &&& (0xFFFFFFFF ^^^ c.clrC.toNat), aerHdr := if u = 0 then none else h.aerHdr }

/-- The fields that configuration writes set in a function's own state. -/
def FnS.config (s : FnS) (pf : Bool) (c : HostCtl) : FnS :=
  let u := s.aer &&& (0xFFFFFFFF ^^^ c.clrU.toNat)
  let s := { s with bme := c.bme, mse := c.mse && pf, ero := c.ero, msixEn := c.msixEn, fmask := c.fmask, cfg := c.cfg }
  { s with aer := u, aerC := s.aerC &&& (0xFFFFFFFF ^^^ c.clrC.toNat), aerHdr := if u = 0 then none else s.aerHdr,
           det := s.det &&& (15 ^^^ c.clrDet.toNat) }

/-- A write of Bus Master Enable and the fields of the same kind in function f (R194). -/
def Dev.busMaster (d : Dev) (f : Nat) (c : HostCtl) : Dev :=
  if !d.cfgOpen then d.cfgRetry f
  else if !d.fnOn f then d
  else
    let d := d.setFn f ((d.fnS f).config (f == 0) c)
    let d := if f = 0 then { d with hif := { d.hif.aerClear c with tag10 := c.tag10 } } else d
    (d.flushPba f).bmeOff f

/-- A power-state write of the PF (R195). -/
def Dev.d3hot (d : Dev) (b : Bool) : Dev :=
  if !d.cfgOpen then d.cfgRetry 0
  else forN 64 (fun f d => (d.flushPba f).bmeOff f) { d with hif := { d.hif with d3 := b } }

/-- The highest link speed: HIF_CFG.MAXSPEED caps what is advertised (R181), and in ROM recovery the ROM trains the link at up to 8 GT/s (R333). -/
def Dev.topSpeed (d : Dev) : Nat := if d.get BOOT_STATUS_STAGE = 14 then min 3 (d.get HIF_CFG_MAXSPEED) else d.get HIF_CFG_MAXSPEED

/-- The link trains to another speed or width without DL_Down (R182). -/
def Dev.linkSpeed (d : Dev) (speed width : Nat) : Dev :=
  let s := d.get HIF_STATUS_SPEED
  let w := d.get HIF_STATUS_WIDTH
  if !d.on HIF_STATUS_LINK_UP || d.topSpeed < speed || (s = speed && w = width) then d
  else ((d.put HIF_STATUS_SPEED speed).put HIF_STATUS_WIDTH width).pfEvent 0x0803 [(1, s), (1, w), (1, speed), (1, width)]

/-- Event 0x0801, which a host-interface reset raises once the link is up again (R201). -/
def Dev.linkEvent (d : Dev) : Dev :=
  if d.hif.hirPend then
    { d with hif := { d.hif with hirPend := false } }.pfEvent 0x0801 [(1, d.get HIF_ISL_INFO_CAUSE), (8, d.get HIF_ISL_TIME_TIME), (8, d.now)]
  else d

/-- The link is up (R182), unless the host interface is off in Hush or on its way there (R350). -/
def Dev.linkUp (d : Dev) (speed width : Nat) : Dev :=
  if d.on HIF_STATUS_LINK_UP || d.get BOOT_STATUS_STAGE < 2 || d.topSpeed < speed ||
     d.get PWR_STATUS_STATE == 1 || d.get PWR_STATUS_STATE == 2 then d
  else (((d.put HIF_STATUS_LINK_UP 1).put HIF_STATUS_SPEED speed).put HIF_STATUS_WIDTH width).linkEvent

/-! ### Configuration space (R182–R185) -/

/-- How the Vezan answers a configuration read. -/
inductive CfgAnswer where
  /-- The link is down: the request does not arrive. -/
  | absent
  /-- Request Retry Status. -/
  | retry
  /-- Unsupported Request: no such function. -/
  | unsupported
  | data (v : Nat)
  deriving DecidableEq, Repr

/-- The header of a capability structure at 0x40–0xFF: its ID and the offset of the next. -/
def capHdr (id next : Nat) : Nat := id + next * 2 ^ 8

/-- The header of an extended capability: ID, version, next. -/
def extHdr (id ver next : Nat) : Nat := id + ver * 2 ^ 16 + next * 2 ^ 20

/-- Command and Status of a function: Memory Space Enable in the PF, Bus Master Enable, Capabilities List. -/
def Dev.cfgCommand (d : Dev) (f : Nat) : Nat := b2n ((d.fnS f).mse && f == 0) * 2 + b2n (d.fnS f).bme * 4 + 2 ^ 20

/-- Message Control of the MSI-X capability: 32 vectors, Function Mask, MSI-X Enable. -/
def Dev.cfgMsix (d : Dev) (f : Nat) : Nat := capHdr 0x11 0x70 + (31 + b2n (d.fnS f).fmask * 2 ^ 14 + b2n (d.fnS f).msixEn * 2 ^ 15) * 2 ^ 16

/-- Device Control and Device Status; the size fields are the PF's. -/
def Dev.cfgDevCtl (d : Dev) (f : Nat) : Nat :=
  let s := d.fnS f
  let c := s.cfg
  c.report.toNat + b2n s.ero * 2 ^ 4 + c.mps.toNat * 2 ^ 5 + b2n c.extTag * 2 ^ 8 + b2n c.noSnoop * 2 ^ 11 + c.mrrs.toNat * 2 ^ 12 +
    (s.det + b2n (!s.reads.isEmpty) * 2 ^ 5) * 2 ^ 16

/-- The doublewords both kinds of function have (Tables 8-2 and 8-3), `base` the MSI-X table's byte offset in BAR0. -/
def Dev.cfgCommon (d : Dev) (f base o : Nat) : Nat :=
  let s := d.fnS f
  match o with
  | 0x04 => d.cfgCommand f
  | 0x08 => 0xB0 + 0x120000 * 2 ^ 8
  | 0x2C => 0x1FC6 + 0x0001 * 2 ^ 16
  | 0x50 => d.cfgMsix f
  | 0x54 => base
  | 0x58 => base + 0x4000
  | 0x70 => capHdr 0x10 0 + 0x0002 * 2 ^ 16
  | 0x74 => 2 + 2 ^ 5 + 2 ^ 15 + 2 ^ 28
  | 0x78 => d.cfgDevCtl f
  | 0x7C => 5 + 8 * 2 ^ 4 + 2 * 2 ^ 10 + 2 * 2 ^ 15
  | 0x80 => s.cfg.aspm.toNat + (d.get HIF_STATUS_SPEED + d.get HIF_STATUS_WIDTH * 2 ^ 4) * 2 ^ 16
  | 0x94 => 15 + 2 ^ 4 + 2 ^ 16 + 2 ^ 17
  | 0x98 => s.cfg.ctoVal.toNat + b2n s.cfg.ctoDis * 2 ^ 4 + b2n (d.hif.tag10 && f == 0) * 2 ^ 12
  | 0x9C => 0x3E
  | 0x104 => if f = 0 then d.hif.aerU else s.aer
  | 0x108 => s.cfg.maskU.toNat
  | 0x10C => s.cfg.sev.toNat
  | 0x110 => if f = 0 then d.hif.aerC else s.aerC
  | 0x114 => s.cfg.maskC.toNat
  | 0x118 => 2 ^ 5 + b2n s.cfg.ecrcGen * 2 ^ 6 + 2 ^ 7 + b2n s.cfg.ecrcChk * 2 ^ 8
  | _ =>
    if 0x11C ≤ o && o < 0x12C then ((if f = 0 then d.hif.aerHdr else s.aerHdr).getD 0) / 2 ^ (8 * (o - 0x11C)) % 2 ^ 32
    else 0

/-- The doublewords of the PF that a VF has not (Tables 8-2 to 8-5). -/
def Dev.cfgPf (d : Dev) (o : Nat) : Option Nat :=
  let c := (d.fnS 0).cfg
  match o with
  | 0x00 => some (0x1FC6 + 0x6400 * 2 ^ 16)
  | 0x10 => some (c.bar0.toNat % 2 ^ 32 / 2 ^ 24 * 2 ^ 24 + 4)
  | 0x14 => some (c.bar0.toNat / 2 ^ 32)
  | 0x18 => some (c.bar2.toNat % 2 ^ 32 / 2 ^ 28 * 2 ^ 28 + 12)
  | 0x1C => some (c.bar2.toNat / 2 ^ 32)
  | 0x34 => some 0x40
  | 0x40 => some (capHdr 0x01 0x50 + 3 * 2 ^ 16)
  | 0x44 => some (b2n d.hif.d3 * 3 + 2 ^ 3)
  | 0x100 => some (extHdr 0x0001 2 0x148)
  | 0x148 => some (extHdr 0x0003 1 0x160)
  | 0x14C => some (d.fuse.serial % 2 ^ 32)
  | 0x150 => some (d.fuse.serial / 2 ^ 32 % 2 ^ 32)
  | 0x160 => some (extHdr 0x000E 1 0x170)
  | 0x170 => some (extHdr 0x0019 1 0x190)
  | 0x190 => some (extHdr 0x0025 1 0x1B0)
  | 0x194 => some (1 + 2 ^ 31)
  | 0x1B0 => some (extHdr 0x0026 1 0x200)
  | 0x200 => some (extHdr 0x002A 1 0x240)
  | 0x240 => some (extHdr 0x0027 1 0x2A0)
  | 0x2A0 => some (extHdr 0x0010 1 0)
  | 0x2A4 => some 4
  | 0x2A8 => some (d.get HIF_STATUS_VFE + b2n d.hif.vfMse * 2 ^ 3 + b2n d.hif.ari * 2 ^ 4 + b2n c.vfTag10 * 2 ^ 5)
  | 0x2AC => some (63 + 63 * 2 ^ 16)
  | 0x2B0 => some (d.get HIF_STATUS_NUMVF)
  | 0x2B4 => some (1 + 1 * 2 ^ 16)
  | 0x2B8 => some (0x6401 * 2 ^ 16)
  | 0x2BC => some 0x1F
  | 0x2C0 => some c.sysPage.toNat
  | 0x2C4 => some (c.vfBar0.toNat % 2 ^ 32 / 2 ^ 16 * 2 ^ 16 + 4)
  | 0x2C8 => some (c.vfBar0.toNat / 2 ^ 32)
  | _ => none

/-- The doubleword at byte offset o of function f's configuration space (R183–R185). A field that no table names has the value of a function
that lacks the feature (R184), which is 0; the lane equalisation controls, whose values no table gives, are free. -/
def Dev.cfgDword (d : Dev) (f o : Nat) : Nat :=
  if f = 0 then
    if 0x17C ≤ o && o < 0x18C then (Config.laneEq (o - 0x17C)).toNat
    else (d.cfgPf o).getD (d.cfgCommon 0 0x0F08000 o)
  else match o with
    | 0x00 => 0xFFFFFFFF
    | 0x34 => 0x50
    | 0x100 => extHdr 0x0001 2 0x160
    | 0x160 => extHdr 0x000E 1 0
    | _ => d.cfgCommon f 0x8000 o

/-- A configuration read of function f at byte offset o (R182): Request Retry Status until STAGE reaches 2 or a recovery stage. -/
def Dev.cfgRead (d : Dev) (f o : Nat) : CfgAnswer :=
  if d.get BOOT_STATUS_STAGE < 2 then .retry
  else if !d.on HIF_STATUS_LINK_UP then .absent
  else if !d.fnOn f then .unsupported
  else .data (d.cfgDword f (o / 4 * 4))

/-- The bytes that one write and one read request of the Vezan carry at most (Table 8-1): the PF's Max_Payload_Size and
Max_Read_Request_Size, no more than 512 B and 4 KiB. -/
def Dev.maxPayload (d : Dev) : Nat := 128 * 2 ^ min 2 (d.fnS 0).cfg.mps.toNat
def Dev.maxRead (d : Dev) : Nat := 128 * 2 ^ min 5 (d.fnS 0).cfg.mrrs.toNat

/-- The requests that move n bytes at an address, none of them above `size` bytes and none across a multiple of it (log entry 88): address and
length of each. -/
def pieces (size : Nat) : Nat → Nat → Nat → List (Nat × Nat)
  | 0, _, _ => []
  | k + 1, a, n =>
    let m := min n (size - a % size)
    if n = 0 then [] else (a, m) :: pieces size k (a + m) (n - m)

/-! ### Resets (R199–R202) -/

/-- Function f's page at its reset values, except GEN and STATE. -/
def Dev.pageReset (d : Dev) (f : Nat) : Dev :=
  let g := d.get (HIF_FN_STATUS_GEN f)
  let s := d.get (HIF_FN_STATUS_STATE f)
  ((d.resetWords (pageOff f 0) (pageOff f 0x80)).put (HIF_FN_STATUS_GEN f) g).put (HIF_FN_STATUS_STATE f) s

/-- GEN increments, wrapping (R196). -/
def Dev.genUp (d : Dev) (f : Nat) : Dev := d.put (HIF_FN_STATUS_GEN f) (d.get (HIF_FN_STATUS_GEN f) + 1)

/-- The kept entries of a function whose host side is reset: all are due again (R197). -/
def FnS.redo (s : FnS) : List Kept := s.kept.map (fun k => { k with redo := true, sw := 0 })

/-- What a host-interface reset leaves of a function's own state: the entries kept, and the numbers that tell one enable of a ring from
another. -/
def FnS.wipe (s : FnS) (kept : List Kept) : FnS := { kept := kept, cep := s.cep, bep := s.bep }

/-- What an FLR leaves: the same, and the sticky fields of configuration space. -/
def FnS.afterFlr (s : FnS) : FnS :=
  { s.wipe s.kept with aer := s.aer, aerC := s.aerC, aerHdr := s.aerHdr, cfg := s.cfg.sticky }

/-- The steps of Table 8-10 at t0, for one function. -/
def Dev.flrStart (d : Dev) (f : Nat) : Dev :=
  if d.get (HIF_FN_STATUS_STATE f) = 2 then d
  else
    let d := ((d.put (HIF_FN_STATUS_STATE f) 2).genUp f).inc (HIF_CNT_COUNT 7)
    let s := d.fnS f
    let s := { s with want := [], abandoned := 0, kept := s.redo, sws := [], deficit := 0, owed := false, owedTime := none, fetchNow := false }
    let s := { s with modN := [0, 0, 0, 0, 0, 0], modLast := [], pba := 0, msixEn := false, fmask := false }
    let s := { s with msix := s.msix.map (fun e => (e.1, { e.2 with ctl := e.2.ctl ||| 1 })) }
    (d.setFn f s).freeAdhoc (· == f)

/-- The VFs present take an FLR, as at a PF FLR or VF Enable := 0 (R200). -/
def Dev.vfsFlr (d : Dev) : Dev := forN 64 (fun f d => if f ≠ 0 && d.fnOn f then d.flrStart f else d) d

/-- Initiate Function Level Reset of function f (R199, R200, R202). -/
def Dev.flr (d : Dev) (f : Nat) : Dev :=
  if !d.cfgOpen then d.cfgRetry f
  else if !d.fnOn f || d.get (HIF_FN_STATUS_STATE f) = 2 then d
  else if f ≠ 0 then d.flrStart f
  else
    let d1 := d.vfsFlr.flrStart 0
    let d1 := { (d1.put HIF_STATUS_VFE 0).put HIF_STATUS_NUMVF 0 with
      hif := { d1.hif with ari := false, vfMse := false, tag10 := false, d3 := false } }
    d1.vfChanged d

/-- Reads of an FLR outstanding after 90 ms are abandoned (Table 8-10). -/
def Dev.flrAbandon (d : Dev) (f : Nat) : Dev :=
  if d.get (HIF_FN_STATUS_STATE f) ≠ 2 then d
  else
    let s := d.fnS f
    let n := s.reads.length
    (d.setFn f { s with reads := [], abandoned := s.abandoned + n }).addCnt (HIF_CNT_COUNT 4) n

/-- An FLR with no read outstanding completes (Table 8-10). -/
def Dev.flrDone (d : Dev) (f : Nat) : Dev :=
  let s := d.fnS f
  if d.get (HIF_FN_STATUS_STATE f) ≠ 2 || !s.reads.isEmpty then d
  else
    let d := (d.pageReset f).setFn f s.afterFlr
    let d := (d.put (HIF_FN_STATUS_STATE f) 0).fixState f
    d.pfEvent 0x0802 [(1, f), (1, d.get (HIF_FN_STATUS_GEN f)), (4, s.abandoned), (4, s.kept.length)]

/-- A configuration write of the SR-IOV control register: VF Enable, VF Memory Space Enable, ARI Capable Hierarchy (R185, R200). -/
def Dev.vfEnable (d : Dev) (en mse ari : Bool) : Dev :=
  if !d.cfgOpen then d.cfgRetry 0
  else
    let d := { d with hif := { d.hif with ari := ari, vfMse := mse } }
    if en = d.on HIF_STATUS_VFE then d
    else if en then
      if 7 < d.get HIF_STATUS_NUMVF && !ari then d.errState 1 0 2 0x65
      else (d.put HIF_STATUS_VFE 1).fixStates.vfChanged d
    else (d.vfsFlr.put HIF_STATUS_VFE 0).vfChanged d

/-- A configuration write of NumVFs, accepted only while VF Enable is 0 (R185). -/
def Dev.numVfs (d : Dev) (n : Nat) : Dev :=
  if !d.cfgOpen then d.cfgRetry 0 else if d.on HIF_STATUS_VFE || 63 < n then d else (d.put HIF_STATUS_NUMVF n).vfChanged d

/-- One function at t0 of Table 8-11. -/
def Dev.islandFn (d : Dev) (f : Nat) : Dev :=
  let s := d.fnS f
  let d := d.addCnt (HIF_CNT_COUNT 4) s.reads.length
  (((d.pageReset f).genUp f).put (HIF_FN_STATUS_STATE f) 3).setFn f (s.wipe s.redo)

/-- A host-interface reset: 0 DL_Down, 1 hot reset, 2 PERST# (R182, R201). The first two need a link that is up. -/
def Dev.hostReset (d : Dev) (cause : Nat) : Dev :=
  if cause < 2 && !d.on HIF_STATUS_LINK_UP then d
  else
    let d1 := (forN 64 (fun f d => d.islandFn f) d).freeAdhoc (· != 0)
    let d1 := ((d1.put HIF_STATUS_ISLAND 1).put HIF_ISL_TIME_TIME d.now).put HIF_ISL_INFO_CAUSE cause
    let d1 := (d1.put HIF_ISL_INFO_COUNT (satw 16 (d.get HIF_ISL_INFO_COUNT + 1))).inc (HIF_CNT_COUNT 6)
    let d1 := ((d1.put HIF_STATUS_LINK_UP 0).put HIF_STATUS_SPEED 0).put HIF_STATUS_WIDTH 0
    let d1 := (d1.put HIF_STATUS_VFE 0).put HIF_STATUS_NUMVF 0
    let d1 := { d1 with hif := { d1.hif with d3 := false, ari := false, tag10 := false, vfMse := false, aerU := 0, aerC := 0, aerHdr := none, hirPend := true } }
    d1.vfChanged d

end Sys2Proof.Machine
end

