-- ==== Sys2Proof/Machine/Rings.lean ====
section
/-!
DEFINITION. The rings (chapter 9): polling, enables, ring errors, fetches, writes to the host, status records, DMA rounds,
retries under HOLD, timer requests.
-/
namespace Sys2Proof.Machine

/-! ### Ring enables and errors (R209–R211) -/

/-- The kind of read that serves a host-to-device ring. -/
def RdKind.ring : RdKind → Option Nat
  | .cmd _ => some 0
  | .bout _ => some 4
  | .bin _ => some 5
  | .doorbell => none
  | .stale => none

/-- Stop the fetches of ring k: reads not issued are dropped, data of outstanding ones is not used. -/
def Dev.stopFetch (d : Dev) (f k : Nat) : Dev :=
  let s := d.fnS f
  let s := { s with want := s.want.filter (fun r => r.kind.ring != some k) }
  let s := { s with reads := s.reads.map (fun r => if r.kind.ring = some k then { r with kind := .stale } else r) }
  let s := if k = 0 then { s with cmds := s.cmds.filter (fun c => c.fetched) } else s
  d.setFn f s

/-- The EN field of function f with bit k as given. -/
def Dev.setEn (d : Dev) (f k : Nat) (b : Bool) : Dev :=
  let e := d.get (RING_CTRL_EN f)
  d.put (RING_CTRL_EN f) (e - (if bit e k then 2 ^ k else 0) + (if b then 2 ^ k else 0))

/-- RING_CTRL.EN[k] := 0 (R209): issued writes are published by a final status write (Table 9-17). -/
def Dev.ringOff (d : Dev) (f k : Nat) : Dev :=
  if !d.ringOn f k then d
  else
    let d := (d.setEn f k false).stopFetch f k
    let s := d.fnS f
    (d.setFn f { s with owed := s.owed || s.devIx k != s.pub.getD k 0 }).fixState f

/-- Why the enable of ring k is refused (R209). -/
def Dev.enableBad (d : Dev) (f k : Nat) : Bool :=
  !d.on (RING_DB_ADDR_V f) || !d.on (RING_ST_ADDR_V f) || d.get (RING_BASE_SIZE f k) == 0 ||
  (k == 3 && d.get (RING_BASE_SIZE f k) == 6) || bit (d.get (RING_ERR_ERR f)) k

/-- RING_CTRL.EN[k] := 1 (R209); an accepted enable of the PF's command ring ends island operation (R201). -/
def Dev.ringEnable (d : Dev) (f k src : Nat) : Dev :=
  if d.ringOn f k then d
  else if d.enableBad f k then d.errState 2 f (pageOff f 0x62) src
  else
    let d := (d.setEn f k true).stopFetch f k
    let s := d.fnS f
    let s := { s with di := setAt s.di k 0, hi := setAt s.hi k 0, pub := setAt s.pub k 0, owed := true, fetchNow := true }
    let s := if k = 0 then { s with cmdNext := 0, cep := s.cep + 1 }
      else if k = 4 then { s with boutNext := 0, bep := s.bep + 1 }
      else if k = 5 then { s with binNext := 0, bufs := [] }
      else s
    let d := d.setFn f s
    if f = 0 && k = 0 && d.on HIF_STATUS_ISLAND then (d.put HIF_STATUS_ISLAND 0).fixStates else d.fixState f

/-- A write of RING_CTRL: each ring whose bit changes is judged alone (R209). -/
def Dev.ringCtrl (d : Dev) (f v src : Nat) : Dev :=
  forN 6 (fun k d => if bit v k then d.ringEnable f k src else d.ringOff f k) d

/-- A ring error on ring k (R211). -/
def Dev.ringError (d : Dev) (f k code ix : Nat) : Dev :=
  let first := d.get (RING_ERR_ERR f) == 0
  let d := (d.ringOff f k).put (RING_ERR_ERR f) (d.get (RING_ERR_ERR f) ||| 2 ^ k)
  let d := if first then ((d.put (RING_ERR_RING f) k).put (RING_ERR_CODE f) code).put (RING_ERR_INDEX f) ix else d
  let d := d.setFn f { d.fnS f with owed := true }
  let par := [(1, f), (1, k), (1, code), (4, ix)]
  let d := d.pfEvent 0x0901 par
  if f ≠ 0 && k ≠ 2 && d.ringOn f 2 then d.event f 0x0901 par else d

/-! ### Commands in flight (R212) -/

/-- Commands scheduled or fetched and not yet completed. -/
def FnS.outstanding (s : FnS) : Nat := (s.cmds.filter (fun c => !c.done)).length

/-- Pop the commands at the front that are done; CMD_C passes those of the present enable `ep`. -/
def popDone (ep : Nat) : List CmdSlot → Nat → List CmdSlot × Nat
  | [], n => ([], n)
  | c :: r, n => if c.done then popDone ep r (n + b2n (c.ep == ep)) else (c :: r, n)

/-- Mark the command of an index and an enable done. -/
def markDone (ep i : Nat) : List CmdSlot → List CmdSlot
  | [] => []
  | c :: r => if c.idx = i && c.ep = ep && !c.done then { c with done := true } :: r else c :: markDone ep i r

/-- A command completed or was consumed without completion (R212): CMD_C advances in ring order. -/
def Dev.cmdDone (d : Dev) (f : Nat) (e : Entry) : Dev :=
  let s := d.fnS f
  let (l, n) := popDone s.cep (markDone e.ep e.cidx s.cmds) 0
  d.setFn f { s with cmds := l, di := setAt s.di 0 (wadd 32 (s.devIx 0) n) }

/-- The ring engine holds an entry for queue q (R99): it fetches nothing further of that ring, and later entries wait behind it. -/
def Dev.holding (d : Dev) (q : Nat) : Bool := d.bsk.held.any (fun h => h.q == q)

/-- Free slots of the completion ring for further commands (R212). -/
def Dev.cplFree (d : Dev) (f : Nat) : Nat :=
  if d.ringOn f 1 then d.ringFree f 1 - ((d.queue (ringQ f 1)).es.filter Entry.live).length - (d.taken (ringQ f 1)).length else 0

/-- Schedule descriptor reads of commands while R212 permits them. -/
def Dev.wantCmds : Nat → Dev → Nat → Dev
  | 0, d, _ => d
  | k + 1, d, f =>
    let s := d.fnS f
    if d.ringOn f 0 && s.cmdNext != s.hostIx 0 && s.outstanding < 64 && s.outstanding < d.cplFree f && !d.holding (ringQ f 0) then
      let i := s.cmdNext
      let s := { s with want := s.want ++ [⟨.cmd i, d.descAddr f 0 i, 64⟩], cmds := s.cmds ++ [{ idx := i, ep := s.cep }], cmdNext := wadd 32 i 1 }
      Dev.wantCmds k (d.setFn f s) f
    else d

/-- Schedule descriptor reads of the bulk-out ring, at most 64 ahead. -/
def Dev.wantBout : Nat → Dev → Nat → Dev
  | 0, d, _ => d
  | k + 1, d, f =>
    let s := d.fnS f
    if d.ringOn f 4 && s.boutNext != s.hostIx 4 && wsub 32 s.boutNext (s.devIx 4) < 64 && !d.holding (ringQ f 4) then
      let i := s.boutNext
      Dev.wantBout k (d.setFn f { s with want := s.want ++ [⟨.bout i, d.descAddr f 4 i, 64⟩], boutNext := wadd 32 i 1 }) f
    else d

/-- Schedule descriptor reads of the bulk-in ring, at most 64 ahead. -/
def Dev.wantBin : Nat → Dev → Nat → Dev
  | 0, d, _ => d
  | k + 1, d, f =>
    let s := d.fnS f
    if d.ringOn f 5 && s.binNext != s.hostIx 5 && wsub 32 s.binNext (s.devIx 5) < 64 then
      let i := s.binNext
      Dev.wantBin k (d.setFn f { s with want := s.want ++ [⟨.bin i, d.descAddr f 5 i, 64⟩], binNext := wadd 32 i 1 }) f
    else d

/-- Schedule every descriptor read that function f's indices permit. -/
def Dev.wantAll (d : Dev) (f : Nat) : Dev := Dev.wantBin 64 (Dev.wantBout 64 (Dev.wantCmds 64 d f) f) f

/-! ### Reads (R181, R193, R208, R210) -/

/-- Reads outstanding device-wide. -/
def Dev.readsAll (d : Dev) : Nat := sumN (d.hif.fn.map (fun e => e.2.reads.length))

/-- A read may be issued: at most 64 per function, 512 or 256 device-wide (Table 8-1). -/
def Dev.readRoom (d : Dev) (f : Nat) : Bool :=
  decide ((d.fnS f).reads.length < 64) && decide (d.readsAll < if d.hif.tag10 then 512 else 256)

/-- Charge n bytes of DMA work to function f (R189). -/
def Dev.charge (d : Dev) (f n : Nat) : Dev := d.setFn f { d.fnS f with deficit := (d.fnS f).deficit - (n : Int) }

/-- Read n bytes at a host address for function f, in requests no longer than Max_Read_Request_Size (R181, Table 8-16). -/
def Dev.hostReads (d : Dev) (f addr n : Nat) : Dev :=
  let ps := pieces d.maxRead (n + 1) addr n
  ((ps.foldl (fun d p => d.emit (.hostRead f p.1 p.2)) d).addCnt (HIF_CNT_COUNT 0) ps.length).addCnt (HIF_CNT_COUNT 1) n

/-- Issue a DMA read, charged to the function (R189). -/
def Dev.issueRead (d : Dev) (f : Nat) (r : DmaRd) : Dev :=
  let s := d.fnS f
  ((d.setFn f { s with reads := s.reads ++ [r] }).charge f r.len).hostReads f r.addr r.len

/-- A read that function f has scheduled may go out: a command's only while the completion ring has room for it and neither the command queue
nor, for a bulk-out descriptor, its queue holds (R99, R212). -/
def Dev.mayIssue (d : Dev) (f : Nat) (r : DmaRd) : Bool :=
  let s := d.fnS f
  match r.kind with
  | .cmd _ => decide (s.outstanding - (s.want.filter (fun x => x.kind.ring == some 0)).length < min 64 (d.cplFree f)) && !d.holding (ringQ f 0)
  | .bout _ => !d.holding (ringQ f 4)
  | _ => true

/-- Take the first scheduled read that may go out. -/
def Dev.nextWant (d : Dev) (f : Nat) : Option DmaRd := (d.fnS f).want.find? (d.mayIssue f)

/-- poll(f) whose time has come while no ring is enabled or Bus Master Enable is 0: it waits again, for PMAX, and a fetch_now is spent
(R208). -/
def Dev.pollSkip (d : Dev) (f : Nat) : Dev :=
  let s := d.fnS f
  if d.fnOn f && d.get (HIF_FN_STATUS_STATE f) != 2 && (s.fetchNow || decide (s.pollNext ≤ d.now)) && (d.get (RING_CTRL_EN f) == 0 || !d.dmaOk f) then
    d.setFn f { s with fetchNow := false, pollNext := d.now + 250 * d.get (RING_POLL_PMAX f) }
  else d

/-- The doorbell record's read of poll(f), when its time has come (R208). -/
def Dev.doorbellFetch (d : Dev) (f : Nat) : Dev :=
  let s := d.fnS f
  if d.get (HIF_FN_STATUS_STATE f) = 2 || !d.fnOn f || !d.on HIF_STATUS_LINK_UP then d
  else if s.reads.any (fun r => r.kind == .doorbell) || !(s.fetchNow || decide (s.pollNext ≤ d.now)) then d
  else if d.get (RING_CTRL_EN f) = 0 || !d.dmaOk f then d.pollSkip f
  else if !d.readRoom f then d
  else (d.setFn f { s with fetchNow := false, issued := d.now }).issueRead f ⟨.doorbell, d.get (RING_DB_ADDR_ADDR f) * 64, 64⟩

/-- Take the first outstanding read of function f that satisfies a test. -/
def takeRead (t : RdKind → Bool) : List DmaRd → Option (DmaRd × List DmaRd)
  | [] => none
  | r :: l => if t r.kind then some (r, l) else (takeRead t l).map (fun x => (x.1, r :: x.2))

/-- The first read of function f that satisfies a test leaves the outstanding ones. -/
def Dev.readBack (d : Dev) (f : Nat) (t : RdKind → Bool) : Option (DmaRd × Dev) :=
  let s := d.fnS f
  (takeRead t s.reads).map (fun x => (x.1, d.setFn f { s with reads := x.2 }))

/-- Whether a host index passes its check (R210). -/
def Dev.indexOk (d : Dev) (f k v : Nat) : Bool :=
  let s := d.fnS f
  let prev := s.hostIx k
  if k = 0 || k = 4 || k = 5 then decide (wsub 32 v prev ≤ wsub 32 (s.devIx k + d.ringN f k) prev)
  else decide (wsub 32 v prev ≤ wsub 32 (s.devIx k) prev)

/-- The host's index of ring k in a doorbell record (Table 9-2). -/
def dbIndex (bytes : List Byte) (k : Nat) : Nat := leAt bytes (4 * k) 4

/-- check_indices(d) for one ring (R210). -/
def Dev.checkIndex (d : Dev) (f : Nat) (bytes : List Byte) (k : Nat) : Dev :=
  if !d.ringOn f k then d
  else
    let v := dbIndex bytes k
    if d.indexOk f k v then d.setFn f { d.fnS f with hi := setAt (d.fnS f).hi k v }
    else d.ringError f k (if k = 0 || k = 4 || k = 5 then 1 else 2) v

/-- Function f has host-bound entries waiting for ring room. -/
def Dev.roomWaits (d : Dev) (f : Nat) : Bool :=
  [1, 2, 3, 5].any (fun k => d.ringOn f k && (match d.ringHead f k with | some e => !d.ringRoom f k e | none => false))

/-- The doorbell record has returned: checks, back-off, and the reads it schedules (R206, R208, R210). -/
def Dev.doorbellData (d : Dev) (f : Nat) (bytes : List Byte) : Dev :=
  let d := forN 6 (fun k d => d.checkIndex f bytes k) d
  let now := (List.range 6).map (fun k => if d.ringOn f k then dbIndex bytes k else 2 ^ 32)
  let s := d.fnS f
  let busy := s.seen != some now || d.roomWaits f || s.cmds.any (fun c => c.fetched && !c.done)
  let p := if busy then d.get (RING_POLL_PMIN f) else min (2 * s.pollP) (d.get (RING_POLL_PMAX f))
  (d.setFn f { s with pollP := p, seen := some now, pollNext := s.issued + 250 * p }).wantAll f

/-! ### Commands, bulk-out and bulk-in descriptors (R212, R217, R218) -/

/-- The producer of an entry under HOLD keeps it for a retry (R99). -/
def Dev.hold (d : Dev) (q : Nat) (e : Entry) : Dev := { d with bsk := { d.bsk with held := d.bsk.held ++ [⟨q, e⟩] } }

/-- What follows the queue's verdict on a command: queued, consumed when refused (R212). -/
def Dev.cmdQueued (d : Dev) (f : Nat) (e : Entry) (v : Verdict) : Dev :=
  match v with
  | .refused _ => d.cmdDone f e
  | _ => d

/-- A command's descriptor has arrived: it is tagged with GEN and commits (R196, R212). -/
def Dev.cmdData (d : Dev) (f i : Nat) (bytes : List Byte) : Dev :=
  let q := ringQ f 0
  let s := d.fnS f
  let e : Entry := { words := packWords (slice bytes 0 64), gen := d.get (HIF_FN_STATUS_GEN f), cidx := i, ep := s.cep }
  let d := d.setFn f { s with cmds := s.cmds.map (fun c => if c.idx = i && c.ep = s.cep then { c with fetched := true } else c) }
  if d.holding q then d.hold q e
  else
    let (d, v) := d.enqueue q e
    match v with
    | .held => d.hold q e
    | v => d.cmdQueued f e v

/-- A bulk-out descriptor of the enable `ep` is consumed: BOUT_C advances, cause 4 counts (R217, Table 8-8); one of an earlier enable moves no
index of this one. -/
def Dev.boutUsed (d : Dev) (f ep : Nat) : Dev :=
  let s := d.fnS f
  if ep = s.bep then (d.setFn f { s with di := setAt s.di 4 (wadd 32 (s.devIx 4) 1) }).cause f 4 1 else d

/-- A bulk-out descriptor consumed with nothing committed: event 0x0902 (R217, Table 9-20). -/
def Dev.boutLost (d : Dev) (f ep i cause : Nat) : Dev := (d.boutUsed f ep).bothEvent f 0x0902 [(1, f), (4, i), (1, cause)]

/-- What follows the bulk-out queue's verdict. -/
def Dev.boutQueued (d : Dev) (f : Nat) (e : Entry) (v : Verdict) : Dev :=
  match v with
  | .placed => d.boutUsed f e.ep
  | .refused _ => d.boutLost f e.ep e.cidx 3
  | .held => d

/-- KIND of a bulk-out descriptor is one of Table 9-15. -/
def boutKindOk (k : Nat) : Bool := k == 1 || k == 2 || (0x40 ≤ k && k ≤ 0x7F)

/-- The lanterns of a KIND 1 descriptor are the VF's own, and at least one is registered. -/
def Dev.boutOwned (d : Dev) (f : Nat) (desc : List Byte) : Bool :=
  let rs := d.regIn (leAt desc 20 4) (leAt desc 24 4)
  f == 0 || byteAt desc 12 != 1 || (!rs.isEmpty && rs.all (fun e => e.2.owner == f))

/-- A bulk-out descriptor and its data, or the failure of the data's read, which is charged to the function (R189, R217). -/
def Dev.boutData (d : Dev) (f i : Nat) (desc data : List Byte) (err : Option DmaErr) : Dev :=
  let len := leAt desc 8 4
  let ep := (d.fnS f).bep
  if !boutKindOk (byteAt desc 12) || len = 0 || 4032 < len then d.ringError f 4 4 i
  else if !d.boutOwned f desc then d.boutLost f ep i 2
  else
    let d := (d.hostReads f (leAt desc 0 8) len).charge f len
    match err with
    | some x => (d.dmaFailed f x (leAt desc 0 8)).boutLost f ep i 1
    | none =>
      let q := ringQ f 4
      let e : Entry := { words := packWords (slice desc 0 64 ++ slice data 0 len), gen := d.get (HIF_FN_STATUS_GEN f), cidx := i, ep := ep }
      let (d, v) := d.enqueue q e
      match v with
      | .held => d.hold q e
      | v => d.boutQueued f e v

/-- A bulk-in descriptor: a buffer is posted, or ring error 4 (R218, Table 9-4). -/
def Dev.binData (d : Dev) (f i : Nat) (desc : List Byte) : Dev :=
  let a := leAt desc 0 8
  let l := leAt desc 8 4
  if l < 4096 || a % 64 ≠ 0 then d.ringError f 5 4 i
  else d.setFn f { d.fnS f with bufs := (d.fnS f).bufs ++ [⟨i, a, l⟩] }

/-- The ring engine's read engine is past a bulk-out descriptor only when no earlier one is held (R99). -/
def Dev.boutFree (d : Dev) (f : Nat) : Bool := !d.holding (ringQ f 4)

/-- A completion for function f during its FLR is discarded (Table 8-10, R202). -/
def Dev.discardRead (d : Dev) : Dev := d.inc (HIF_CNT_COUNT 4)

/-- A read of an FLR ends: its completion is discarded, or it reaches its completion timeout, which is counted and logged as well (Tables 8-10
and 8-16). -/
def Dev.flrRead (d : Dev) (f : Nat) (err : Option DmaErr) : Dev :=
  if err = some .timeout then (d.discardRead.inc (HIF_CNT_COUNT 5)).aerNote f .compTimeout false none else d.discardRead

/-- COMMAND_FETCH: the oldest outstanding command read returns its descriptor. -/
def Dev.commandFetch (d : Dev) (f : Nat) (bytes : List Byte) : Dev :=
  match d.readBack f (fun k => k.ring == some 0) with
  | none => d
  | some (r, d) =>
    if d.get (HIF_FN_STATUS_STATE f) = 2 then d.discardRead
    else match r.kind with
      | .cmd i => d.cmdData f i bytes
      | _ => d

/-- BULK_OUT_FETCH: the oldest outstanding bulk-out read returns its descriptor, and the data follows. -/
def Dev.bulkOutFetch (d : Dev) (f : Nat) (desc data : List Byte) (err : Option DmaErr) : Dev :=
  if !d.boutFree f then d
  else match d.readBack f (fun k => k.ring == some 4) with
  | none => d
  | some (r, d) =>
    if d.get (HIF_FN_STATUS_STATE f) = 2 then d.discardRead
    else match r.kind with
      | .bout i => d.boutData f i desc data err
      | _ => d

/-- DOORBELL_RETURN: the doorbell record's read returns. -/
def Dev.doorbellReturn (d : Dev) (f : Nat) (bytes : List Byte) : Dev :=
  match d.readBack f (fun k => k == .doorbell) with
  | none => d
  | some (_, d) => if d.get (HIF_FN_STATUS_STATE f) = 2 then d.discardRead else d.doorbellData f bytes

/-- A DMA read of function f failed (R193): what its ring does (R208, R211). -/
def Dev.readFailed (d : Dev) (f : Nat) (r : DmaRd) (e : DmaErr) : Dev :=
  let d := d.dmaFailed f e r.addr
  match r.kind with
  | .doorbell => d.setFn f { d.fnS f with pollNext := d.now + 250 * d.get (RING_POLL_PMAX f) }
  | .cmd i => d.ringError f 0 3 i
  | .bout i => d.ringError f 4 3 i
  | .bin i => d.ringError f 5 3 i
  | .stale => d

/-- What an outstanding read's data does. -/
def Dev.readData (d : Dev) (f : Nat) (r : DmaRd) (bytes : List Byte) : Dev :=
  match r.kind with
  | .doorbell => d.doorbellData f bytes
  | .cmd i => d.cmdData f i bytes
  | .bout i => d.boutData f i (slice bytes 0 64) (bytes.drop 64) none
  | .bin i => d.binData f i bytes
  | .stale => d

/-- DMA_READ_COMPLETE: the completion of the oldest outstanding read of the kind of the n-th one; reads of one ring complete in ring
order. The bytes of a bulk-out read are the descriptor and the data behind it. -/
def Dev.readComplete (d : Dev) (f n : Nat) (bytes : List Byte) (err : Option DmaErr) : Dev :=
  match (d.fnS f).reads[n]? with
  | none => d
  | some x =>
    match d.readBack f (fun k => k.ring == x.kind.ring && (k == .stale) == (x.kind == .stale) && (k == .doorbell) == (x.kind == .doorbell)) with
    | none => d
    | some (r, d1) =>
      if d.get (HIF_FN_STATUS_STATE f) = 2 then d1.flrRead f err
      else match err with
        | some e => d1.readFailed f r e
        | none => if r.kind.ring = some 4 && !d.boutFree f then d else d1.readData f r bytes

/-! ### Held entries (R99) -/

/-- Remove the first held entry of queue q. -/
def dropHeld (q : Nat) : List Held → List Held
  | [] => []
  | h :: r => if h.q = q then r else h :: dropHeld q r

/-- HELD_RETRY: the ring engine offers the oldest entry it holds for queue q again. -/
def Dev.heldRetry (d : Dev) (q : Nat) : Dev :=
  match d.bsk.held.find? (fun h => h.q == q) with
  | none => d
  | some h =>
    let f := (q - 0x1400) / 6
    let (d, v) := d.enqueue q h.e
    match v with
    | .held => d
    | v =>
      let d := { d with bsk := { d.bsk with held := dropHeld q d.bsk.held } }
      if (q - 0x1400) % 6 = 0 then d.cmdQueued f h.e v else d.boutQueued f h.e v

/-! ### Writes to the host (R197, R198, R207, R214–R218) -/

/-- Write bytes to host memory for function f, in requests no longer than Max_Payload_Size; `ro`: a ring entry or bulk-in data, which carries
Relaxed Ordering when enabled (R181, R198). -/
def Dev.hostWrite (d : Dev) (f addr : Nat) (bytes : List Byte) (ro : Bool) : Dev :=
  let a := ro && (d.fnS f).ero && d.on HIF_CFG_RO_EN
  ((pieces d.maxPayload (bytes.length + 1) addr bytes.length).foldl
    (fun d p => d.emit (.hostWrite f p.1 (slice bytes (p.1 - addr) p.2) a)) d).addCnt (HIF_CNT_COUNT 2) bytes.length

/-- An entry's bytes with POISON set where the ring shows it: STATUS 0x08 in a completion, FLAGS bit 1 of an event, LEN bit 15 of a record
(Tables 9-7, 9-11, 9-13). -/
def entryBytes (k : Nat) (e : Entry) : List Byte :=
  let b := wordBytes e.words
  if !e.poison then b
  else if k = 1 then (b.set 2 8).set 3 0
  else if k = 2 then b.set 2 (BitVec.ofNat 8 (byteAt b 2 ||| 2))
  else if k = 3 then b.set 3 (BitVec.ofNat 8 (byteAt b 3 ||| 0x80))
  else b

/-- The bytes that ring k's entry takes on the link (R189): its slots, or the body and the descriptor's rest. -/
def entryCost (k : Nat) (e : Entry) : Nat := if k = 5 then 52 + (2 * e.words.length - 24) else 64 * slotsOf k e

/-- Device index k advances by n. -/
def Dev.advance (d : Dev) (f k n : Nat) : Dev :=
  let s := d.fnS f
  d.setFn f { s with di := setAt s.di k (wadd 32 (s.devIx k) n) }

/-- Write an entry into its slots of ring k, or into the oldest posted buffer and its descriptor (R216, R218), charged to the function. -/
def Dev.writeEntry (d : Dev) (f k : Nat) (e : Entry) : Dev :=
  let b := entryBytes k e
  let d := d.charge f (entryCost k e)
  let s := d.fnS f
  if k = 5 then
    match s.bufs with
    | [] => d
    | x :: r =>
      let len := leAt b 4 4
      let desc := leBytes 1 (byteAt b 0) ++ leBytes 1 (b2n e.poison) ++ leBytes 2 0 ++ leBytes 4 len ++ slice b 8 4 ++ slice b 16 8
      let d := d.setFn f { s with bufs := r }
      ((d.hostWrite f x.addr (slice b 24 len) true).hostWrite f (d.descAddr f 5 x.idx + 12) (slice desc 0 52) true).advance f 5 1
  else
    let n := slotsOf k e
    let d := forN n (fun j d => d.hostWrite f (d.descAddr f k (wadd 32 (s.devIx k) j)) (slice b (64 * j) 64) true) d
    d.advance f k n

/-- The next entry of a ring that keeps its entries: 2, 3 or 5 (R197). -/
def Dev.sendKept (d : Dev) (f k : Nat) : Dev :=
  match (d.fnS f).kept.find? (fun e => e.redo && e.ring == k) with
  | some x =>
    if !d.ringRoom f k x.entry then d
    else
      let d := d.writeEntry f k x.entry
      let s := d.fnS f
      d.setFn f { s with kept := s.kept.replace x { x with redo := false, sw := 0 } }
  | none =>
    match d.peek (ringQ f k) with
    | none => d
    | some e =>
      if !d.ringRoom f k e || !d.keepRoom f then d
      else match d.take (ringQ f k) with
        | (d, .entry e) =>
          let d := d.writeEntry f k e
          d.setFn f { d.fnS f with kept := (d.fnS f).kept ++ [⟨k, e, 0, false⟩] }
        | (d, _) => d

/-- Completions of commands of an older generation are discarded (R196). -/
def Dev.dropOldCpl : Nat → Dev → Nat → Dev
  | 0, d, _ => d
  | n + 1, d, f =>
    match d.peek (ringQ f 1) with
    | some e => if e.gen = d.get (HIF_FN_STATUS_GEN f) then d
        else match d.take (ringQ f 1) with
          | (d, .entry _) => Dev.dropOldCpl n (d.inc (HIF_CNT_COUNT 8)) f
          | (d, _) => d
    | none => d

/-- COMPLETION_WRITE (R214). -/
def Dev.sendCpl (d : Dev) (f : Nat) : Dev :=
  let d := Dev.dropOldCpl ((d.queue (ringQ f 1)).es.length + (d.taken (ringQ f 1)).length) d f
  match d.peek (ringQ f 1) with
  | none => d
  | some e =>
    if !d.ringRoom f 1 e then d
    else match d.take (ringQ f 1) with
      | (d, .entry e) => d.writeEntry f 1 e
      | (d, _) => d

/-- One entry of ring k for the host, when the function may write and the ring is enabled. -/
def Dev.ringWrite (d : Dev) (f k : Nat) : Dev :=
  if !d.dmaOk f || !d.ringOn f k then d
  else if k = 1 then d.sendCpl f else d.sendKept f k

/-- Cells waiting for the host (Table 9-3, PEND). -/
def Dev.pend (d : Dev) (f : Nat) : Nat := min (2 ^ 32 - 1) (sumN ([1, 2, 3, 5].map (fun k => d.waiting (ringQ f k))))

/-- Whether a status write is due: an index or RERR changed, an enable, a timer request (R207). -/
def FnS.statusDue (s : FnS) : Bool := s.owed || s.di != s.pub

/-- STATUS_RECORD_WRITE (R207): it publishes what its indices cover, counts the causes, and sets fetch_now after a completion. -/
def Dev.statusWrite (d : Dev) (f : Nat) : Dev :=
  let s := d.fnS f
  if !d.dmaOk f || !d.on (RING_ST_ADDR_V f) || !s.statusDue then d
  else
    let no := s.swNo + 1
    let sseq := wadd 32 s.sseq 1
    let body := (List.range 6).flatMap (fun k => leBytes 4 (s.devIx k)) ++ leBytes 1 (d.get (HIF_FN_STATUS_GEN f)) ++
      leBytes 1 (d.get (HIF_FN_STATUS_STATE f)) ++ leBytes 1 (d.get (RING_ERR_ERR f)) ++ leBytes 1 0 ++ leBytes 4 sseq ++
      leBytes 8 (s.owedTime.getD d.now) ++ leBytes 4 (d.pend f)
    let gain := fun k => wsub 32 (s.devIx k) (s.pub.getD k 0)
    let s := { s with kept := s.kept.map (fun (k : Kept) => if k.sw = 0 && !k.redo then { k with sw := no } else k), sws := s.sws ++ [no] }
    let s := { s with swNo := no, sseq := sseq, pub := s.di, owed := false, owedTime := none, fetchNow := s.fetchNow || gain 1 != 0 }
    let d := ((d.setFn f s).charge f 64).hostWrite f (d.get (RING_ST_ADDR_ADDR f) * 64) (slice body 0 64) false
    (((d.cause f 0 (gain 1)).cause f 1 (gain 2)).cause f 2 (gain 3)).cause f 3 (gain 5)

/-- DLL_ACK_RECEIVE: the oldest status write not yet acknowledged releases the entries it published (R197). -/
def Dev.dllAck (d : Dev) (f : Nat) : Dev :=
  let s := d.fnS f
  match s.sws with
  | [] => d
  | n :: r => d.setFn f { s with sws := r, kept := s.kept.filter (fun (k : Kept) => k.redo || k.sw == 0 || decide (n < k.sw)) }

/-! ### DMA rounds (R189) -/

/-- The next piece of DMA work of function f, and its bytes: a doorbell read, a read it wants, then the rings 1, 2, 3 and 5. -/
inductive DmaItem where
  | doorbell
  | read
  | ring (k : Nat)
  deriving DecidableEq, Repr

/-- Ring k of function f has an entry that can be written now. -/
def Dev.ringReady (d : Dev) (f k : Nat) : Option Nat :=
  if !d.ringOn f k then none
  else match d.ringHead f k with
    | none => none
    | some e =>
      if !d.ringRoom f k e then none
      else if !(d.fnS f).kept.any (fun x => x.redo && x.ring == k) && (!d.canTake (ringQ f k) || (k ≠ 1 && !d.keepRoom f)) then none
      else some (entryCost k e)

/-- The item function f would be served next. -/
def Dev.nextItem (d : Dev) (f : Nat) : Option (DmaItem × Nat) :=
  let s := d.fnS f
  if !d.dmaOk f then none
  else if d.readRoom f && !s.reads.any (fun r => r.kind == .doorbell) && d.get (RING_CTRL_EN f) != 0 &&
      (s.fetchNow || decide (s.pollNext ≤ d.now)) then some (.doorbell, 64)
  else if d.readRoom f && (d.nextWant f).isSome then some (.read, 64)
  else ([1, 2, 3, 5].findSome? (fun k => (d.ringReady f k).map (fun n => (DmaItem.ring k, n))))

/-- Serve one item. -/
def Dev.doItem (d : Dev) (f : Nat) : DmaItem → Dev
  | .doorbell => d.doorbellFetch f
  | .read =>
    match d.nextWant f with
    | none => d
    | some r => (d.setFn f { d.fnS f with want := (d.fnS f).want.erase r }).issueRead f r
  | .ring k => d.ringWrite f k

/-- A function without work keeps no deficit, only what it owes (R189). -/
def Dev.noWork (d : Dev) (f : Nat) : Dev := d.setFn f { d.fnS f with deficit := min 0 (d.fnS f).deficit }

/-- Serve function f while its deficit lasts; every item charges what it moves. -/
def Dev.dmaServe : Nat → Dev → Nat → Dev
  | 0, d, _ => d
  | n + 1, d, f =>
    match d.nextItem f with
    | none => d.noWork f
    | some (i, c) => if (d.fnS f).deficit < (c : Int) then d else Dev.dmaServe n (d.doItem f i) f

/-- Function f's turn in a round with quantum `q`: reads its room permits are scheduled, the deficit grows, a status write ends it. -/
def Dev.dmaTurn (d : Dev) (f q : Nat) : Dev :=
  let d := d.wantAll f
  let d := match d.nextItem f with
    | none => d.noWork f
    | some _ => Dev.dmaServe 4096 (d.setFn f { d.fnS f with deficit := (d.fnS f).deficit + (q : Int) }) f
  d.statusWrite f

/-- One round over all functions, from the one after the function served first in the round before (R189). -/
def Dev.dmaRound (d : Dev) : Dev :=
  if !d.on HIF_STATUS_LINK_UP then d
  else
    let order := (List.range 64).map (fun i => (d.hif.rr + 1 + i) % 64)
    let weighted := order.any (fun f => d.get (HIF_QOS_SHARE_DMAW f) != 0 && (d.nextItem f).isSome)
    let d := order.foldl (fun d f =>
      let d := d.pollSkip f
      if !d.dmaOk f then (d.noWork f).bmeOff f
      else
        let w := d.get (HIF_QOS_SHARE_DMAW f)
        if w ≠ 0 then d.dmaTurn f (512 * w)
        else if weighted then d else d.dmaTurn f 512) d
    { d with hif := { d.hif with rr := (d.hif.rr + 1) % 64 } }

/-! ### Timer requests (R220) -/

/-- A timer's ring request: action 0 FETCH, 1 STATUS, 2 EVENT (R220). -/
def Dev.ringRequest (d : Dev) (f action chan time late : Nat) : Dev :=
  if d.get (RING_CTRL_EN f) = 0 || d.get (HIF_FN_STATUS_STATE f) = 2 || d.on HIF_STATUS_ISLAND then d
  else if action = 0 then d.setFn f { d.fnS f with fetchNow := true }
  else if action = 1 then d.setFn f { d.fnS f with owed := true, owedTime := some time }
  else d.event f 0x0903 [(1, chan), (8, time), (1, late)]

end Sys2Proof.Machine
end

