-- ==== Sys2Proof/Machine/HostCmd.lean ====
section
/-!
DEFINITION. Command dispatch and the commands of Table 9-5 (R188, R196, R212–R214).
-/
namespace Sys2Proof.Machine

/-- How a command ends: STATUS, DETAIL and the RESULT bytes (Table 9-7). -/
structure CmdEnd where
  status : Nat
  detail : Nat := 0
  result : List Byte := []

/-- The opcodes of Table 9-5. -/
def opcodeKnown (op : Nat) : Bool :=
  [0x0001, 0x0002, 0x0101, 0x0102, 0x0103, 0x0110, 0x0111, 0x0112, 0x0120, 0x0121, 0x0122].contains op

/-- Discard the commands at the front of function f's queue that are poisoned (R107) or of an older generation (R196). -/
def Dev.cmdDiscard : Nat → Dev → Nat → Dev
  | 0, d, _ => d
  | n + 1, d, f =>
    let q := ringQ f 0
    match d.peek q with
    | none => d
    | some e =>
      let old := e.gen != d.get (HIF_FN_STATUS_GEN f)
      if !d.canTake q || !(e.poison || old) then d
      else match d.take q with
        | (d, .entry e) =>
          let d := if e.poison then d.countDrop q 7 1 else d.inc (HIF_CNT_COUNT 8)
          Dev.cmdDiscard n (d.cmdDone f e) f
        | (d, _) => d

/-- The completion of a command commits to queue 0x1401 + 6f (R212, R214). -/
def Dev.complete (d : Dev) (f : Nat) (e : Entry) (r : CmdEnd) : Dev :=
  let b := wordBytes e.words
  let c := slice b 0 2 ++ leBytes 1 r.status ++ leBytes 1 r.detail ++ slice b 4 4 ++ leBytes 4 e.cidx ++ leBytes 4 0 ++ slice r.result 0 48
  (d.send (ringQ f 1) { words := packWords c, gen := e.gen, cidx := e.cidx }).cmdDone f e

/-- The block of a command with opcode o of function f can begin it now: INV and KEY wait while a command of MLE_INV_CMD or MLE_KEY_CMD is
in progress, TWRITE and TREAD while the function may issue no request. -/
def Dev.opReady (d : Dev) (f o : Nat) : Bool :=
  match o with
  | 0x0101 => d.mle.invPend.isNone
  | 0x0102 => d.mle.keyPend.isNone
  | 0x0110 => d.dmaOk f
  | 0x0111 => d.dmaOk f
  | _ => true

/-- Function f has a command that dispatch can serve now: one to discard, or one whose block can begin it. -/
def Dev.cmdWaits (d : Dev) (f : Nat) : Bool :=
  match d.peek (ringQ f 0) with
  | none => false
  | some e => d.canTake (ringQ f 0) &&
      (e.poison || e.gen != d.get (HIF_FN_STATUS_GEN f) || d.opReady f (leAt (wordBytes e.words) 0 2))

/-- It is function f's turn (R212): round-robin from the one after the function served last, no other function that can be served comes before
it. -/
def Dev.cmdTurn (d : Dev) (f : Nat) : Bool := (List.range ((f + 63 - d.hif.crr) % 64)).all (fun i => !d.cmdWaits ((d.hif.crr + 1 + i) % 64))

/-- Dispatch has served function f. -/
def Dev.served (d : Dev) (f : Nat) : Dev := { d with hif := { d.hif with crr := f } }

/-- Dispatch the command at the head of function f's queue when it is f's turn, it has opcode `op` (or an undefined one, which ends with STATUS
0x01) and its block can begin now; `run` gives its effect and its end. -/
def Dev.dispatchCmd (d : Dev) (f op : Nat) (run : Dev → List Byte → Dev × CmdEnd) : Dev :=
  if !d.cmdTurn f then d else
  let q := ringQ f 0
  let d := Dev.cmdDiscard ((d.queue q).es.length + (d.taken q).length) d f
  match d.peek q with
  | none => d
  | some e =>
    let o := leAt (wordBytes e.words) 0 2
    if !d.canTake q || (o ≠ op && opcodeKnown o) || !d.opReady f o then d
    else match d.take q with
      | (d, .entry e) =>
        let d := d.served f
        if o ≠ op then d.complete f e ⟨1, 0, []⟩
        else
          let (d, r) := run d (wordBytes e.words)
          d.complete f e r
      | (d, _) => d

/-- A command that only the PF may issue (R188). -/
def pfOnly (f : Nat) (run : Dev → List Byte → Dev × CmdEnd) (d : Dev) (b : List Byte) : Dev × CmdEnd :=
  if f ≠ 0 then (d, ⟨2, 0, []⟩) else run d b

/-- STATUS 0x00, or 0x05 with the block's RESULT as DETAIL. -/
def blockEnd (r : Nat) (res : List Byte) : CmdEnd := if r = 0 then ⟨0, 0, res⟩ else ⟨5, r, res⟩

/-- NOP. -/
def Dev.cmdNop (d : Dev) (f : Nat) : Dev := d.dispatchCmd f 0x0001 (fun d _ => (d, ⟨0, 0, []⟩))

/-- TIME. -/
def Dev.cmdTime (d : Dev) (f : Nat) : Dev := d.dispatchCmd f 0x0002 (fun d _ => (d, ⟨0, 0, leBytes 8 d.now⟩))

/-- INV (R58, R212): it waits while an inventory command of MLE_INV_CMD is in progress. -/
def Dev.cmdInv (d : Dev) (f : Nat) : Dev :=
  d.dispatchCmd f 0x0101 (pfOnly f (fun d b =>
    let op := byteAt b 22
    if op = 0 || 6 < op then (d, ⟨1, 0, []⟩)
    else if 4095 < leAt b 20 2 then (d, ⟨4, 0, []⟩)
    else
      let a := leAt b 16 4
      let c : InvCmd := ⟨op, leAt b 8 8, bits a 17 0, bits a 23 18, leAt b 20 2⟩
      let (d, r) := d.invRun c
      (d, blockEnd r (leBytes 8 (d.invEntry c.uid)))))

/-- KEY (R58): it waits while a key command of MLE_KEY_CMD is in progress. -/
def Dev.cmdKey (d : Dev) (f : Nat) : Dev :=
  d.dispatchCmd f 0x0102 (pfOnly f (fun d b =>
    let a := leAt b 8 4
    let op := bits a 20 18
    if op = 0 || 6 < op then (d, ⟨1, 0, []⟩)
    else
      let (d, r) := d.keyRunAll ⟨op, bits a 17 0, leAt b 12 4, slice b 16 24, slice b 40 24⟩
      (d, blockEnd r [])))

/-- GATEWAY. -/
def Dev.cmdGateway (d : Dev) (f : Nat) : Dev :=
  d.dispatchCmd f 0x0103 (pfOnly f (fun d b =>
    let i := leAt b 8 2
    let op := byteAt b 10
    if op ≠ 1 && op ≠ 2 then (d, ⟨1, 0, []⟩)
    else if 4095 < i then (d, ⟨4, 0, []⟩)
    else if op = 1 then
      let g := d.gateway i
      (d, ⟨0, 0, leBytes 4 g.cfg ++ beBytes 8 g.hi ++ beBytes 8 g.lo⟩)
    else (d.setGateway i ⟨beAt b 16 8, beAt b 24 8, leAt b 12 4 % 2 ^ 19⟩, ⟨0, 0, []⟩)))

/-! ### TWRITE, TREAD, TCLEAR (R213) -/

/-- Entry size of a table of Table 9-6; 0 for a value that names none. -/
def tableSize (t : Nat) : Nat :=
  match t with
  | 1 => 64
  | 2 => 40
  | 3 => 32
  | 4 => 16
  | 5 => 128
  | 6 => 128
  | 7 => 16
  | 8 => 256
  | 9 => 128
  | 10 => 128
  | 11 => 8
  | 12 => 16
  | _ => 0

/-- Index range of a table of Table 9-6. -/
def tableIndexOk (t i : Nat) : Bool :=
  match t with
  | 5 => decide (1 ≤ i) && decide (i < 1024)
  | 6 => decide (i < 4096)
  | 11 => decide (i < 64)
  | 12 => decide (i < 16384)
  | 1 => decide (i < 262144)
  | 3 => decide (i < 262144)
  | 9 => decide (i < 262144)
  | 10 => decide (i < 262144)
  | _ => decide (i < 256)

/-- Function f may use table t this way at all (Table 9-6, R188). -/
def tableAllowed (f t : Nat) (write : Bool) : Bool :=
  if write then t != 11 && (f == 0 || t == 5 || t == 6 || t == 12) else f == 0 || (5 ≤ t && t != 9)

/-- A VF reaches site n: not valid, or on a registered lantern it owns (R213). -/
def Dev.siteReach (d : Dev) (f : Nat) (s : Site) : Bool :=
  let l := bits s.q0 17 0
  f == 0 || !s.valid || ((d.lantern l).isSome && d.ownerOf l == f)

/-- A site's interval is one R213 accepts. -/
def siteIntervalOk (q0 : Nat) : Bool :=
  let v := bits q0 43 32
  !bit q0 21 || (decide (10 ≤ v) && decide (v ≤ 3600) && 86400 % v == 0)

/-- Site n, and its store. -/
def Dev.site (d : Dev) (n : Nat) : Site := Tab.get {} d.hoop.sites n
def Dev.setSite (d : Dev) (n : Nat) (s : Site) : Dev := { d with hoop := { d.hoop with sites := Tab.set {} d.hoop.sites n s } }

/-- Write a count site: STATUS. A site in use begins with the interval the time base is in, which is PARTIAL (R122). -/
def Dev.siteStore (d : Dev) (f n : Nat) (q0 : Nat) : Dev × Nat :=
  let q0 := q0 &&& 0xFFF003FFFFF
  let lix := bits q0 17 0
  if !d.siteReach f (d.site n) then (d, 3)
  else if f ≠ 0 && bit q0 21 && !((d.lantern lix).isSome && d.ownerOf lix == f) then (d, 3)
  else if !siteIntervalOk q0 then (d, 4)
  else
    let iv := bits q0 43 32 * 1000000000
    (d.setSite n (if bit q0 21 then { q0 := q0, nextEnd := (d.now / iv + 1) * iv, accs := [⟨d.now / iv * iv, [], [], false, true⟩] } else { q0 := q0 }), 0)

/-- The quads of table bytes. -/
def tableQuads (b : List Byte) : List Nat := quadsOf (b.length / 8) b

/-- Apply one entry of TWRITE: STATUS and DETAIL. -/
def Dev.tablePut (d : Dev) (f t i : Nat) (b : List Byte) : Dev × Nat × Nat :=
  let q := tableQuads b
  let blk := fun (x : Dev × Nat) => (x.1, if x.2 = 0 then 0 else 5, x.2)
  match t with
  | 1 => blk (d.rfxStore i q)
  | 2 => blk (d.crvStore i q)
  | 3 => blk (d.ordWrite f 0 i q)
  | 4 => blk (d.ordWrite f 1 i q)
  | 5 => if f ≠ 0 && d.calOwner i ≠ f then (d, 3, 0) else blk (d.ordWrite f 2 i q)
  | 6 => if f ≠ 0 && d.progOwner i ≠ f then (d, 3, 0) else blk (d.ordWrite f 3 i q)
  | 7 => blk (d.ldgWrite 1 i q)
  | 8 => blk (d.ldgWrite 2 i q)
  | 9 =>
    let q := q.map (fun v => v &&& 0x80000003FFFFFFFF)
    (d.setSucc i (if q.all (· == 0) then [] else q), 0, 0)
  | 10 => blk (d.ldgWrite 0 i q)
  | 12 => let (d, s) := d.siteStore f i (quadAt q 0); (d, s, 0)
  | _ => (d, 2, 0)

/-- One entry of TREAD: STATUS and the quads. -/
def Dev.tableGet (d : Dev) (f t i : Nat) : Nat × List Nat :=
  let own := fun (o : Nat) (q : List Nat) => if f = 0 || o = f then (0, q) else (3, [])
  match t with
  | 1 => (0, d.rfxEnt i)
  | 2 => (0, Tab.get [] d.rfx.crv i)
  | 3 => (0, (d.ordRead 0 i).getD [])
  | 4 => (0, (d.ordRead 1 i).getD [])
  | 5 => own (d.calOwner i) ((d.ordRead 2 i).getD [])
  | 6 => own (d.progOwner i) ((d.ordRead 3 i).getD [])
  | 7 => (0, (d.ldgRead 1 i).getD [])
  | 8 => (0, (d.ldgRead 2 i).getD [])
  | 9 => (0, (d.lrec i).succ)
  | 10 => if f ≠ 0 && !((d.lantern i).isSome && d.ownerOf i == f) then (3, []) else (0, (d.ldgRead 0 i).getD [])
  | 11 => own i ((d.ldgRead 3 i).getD [])
  | 12 =>
    let s := d.site i
    if !d.siteReach f s then (3, [])
    else (0, if f ≠ 0 && !s.valid then [0, 0] else [s.q0, if s.q0 = 0 then 0 else d.ownerOf s.lix])
  | _ => (2, [])

/-- Entry i of table t lies in a DRAM line that is poisoned: the ledger records and the lantern records of the successor lists do. -/
def Dev.tblPoison (d : Dev) (t i : Nat) : Bool :=
  let at0 := fun (a n : Nat) => (List.range n).any (fun k => d.linePoison (a / 64 + k))
  if t = 10 then at0 (d.ldgAddr i) 2 else if t = 9 then at0 (2 * d.get HOOP_LS_BASE_ADDR + 256 * i) 4 else false

/-- The entries of TWRITE from the j-th one: the first refused one ends the command (R213). `fail` is the entry whose read fails. -/
def Dev.twriteLoop : Nat → Dev → Nat → Nat → Nat → Nat → List Byte → Option (DmaErr × Nat) → Nat → Dev × CmdEnd
  | 0, d, _, _, _, _, _, _, j => (d, ⟨0, 0, leBytes 4 j⟩)
  | n + 1, d, f, t, ix, addr, buf, fail, j =>
    let size := tableSize t
    if !tableIndexOk t (ix + j) then (d, ⟨4, 0, leBytes 4 j⟩)
    else
      let d := d.hostReads f (addr + j * size) size
      let stop := match fail with
        | some (e, k) => if k = j then some e else none
        | none => none
      match stop with
      | some e => (d.dmaFailed f e (addr + j * size), ⟨7, 0, leBytes 4 j⟩)
      | none =>
        let (d, st, det) := d.tablePut f t (ix + j) (slice buf (j * size) size)
        if st ≠ 0 then (d, ⟨st, det, leBytes 4 j⟩)
        else Dev.twriteLoop n d f t ix addr buf fail (j + 1)

/-- The entries of TREAD from the j-th one; an uncorrectable entry ends the command with STATUS 0x08 (Table 9-8). -/
def Dev.treadLoop : Nat → Dev → Nat → Nat → Nat → Nat → Nat → Dev × CmdEnd
  | 0, d, _, _, _, _, j => (d, ⟨0, 0, leBytes 4 j⟩)
  | n + 1, d, f, t, ix, addr, j =>
    let size := tableSize t
    if !tableIndexOk t (ix + j) then (d, ⟨4, 0, leBytes 4 j⟩)
    else
      let (st, q) := d.tableGet f t (ix + j)
      if st = 0 && d.tblPoison t (ix + j) then (d, ⟨8, 0, leBytes 4 j⟩)
      else if st ≠ 0 then (d, ⟨st, 0, leBytes 4 j⟩)
      else Dev.treadLoop n (d.hostWrite f (addr + j * size) (slice (q.flatMap (leBytes 8)) 0 size) false) f t ix addr (j + 1)

/-- The checks TWRITE and TREAD share, before any entry. -/
def tableRefusal (f t count : Nat) (write : Bool) : Option CmdEnd :=
  if tableSize t = 0 then some ⟨1, 0, []⟩
  else if !tableAllowed f t write then some ⟨2, 0, []⟩
  else if count = 0 || 4096 < count then some ⟨4, 0, []⟩
  else none

/-- TWRITE: `buf` is what the host buffer at DADDR holds, `fail` a read of it that fails, by its entry. -/
def Dev.cmdTwrite (d : Dev) (f : Nat) (buf : List Byte) (fail : Option (DmaErr × Nat)) : Dev :=
  d.dispatchCmd f 0x0110 (fun d b =>
    match tableRefusal f (byteAt b 8) (leAt b 16 4) true with
    | some r => (d, r)
    | none => Dev.twriteLoop (leAt b 16 4) d f (byteAt b 8) (leAt b 12 4) (leAt b 24 8) buf fail 0)

/-- TREAD. -/
def Dev.cmdTread (d : Dev) (f : Nat) : Dev :=
  d.dispatchCmd f 0x0111 (fun d b =>
    match tableRefusal f (byteAt b 8) (leAt b 16 4) false with
    | some r => (d, r)
    | none => Dev.treadLoop (leAt b 16 4) d f (byteAt b 8) (leAt b 12 4) (leAt b 24 8) 0)

/-- The entries of TCLEAR from the j-th one. -/
def Dev.tclearLoop : Nat → Dev → Nat → Nat → Nat → Dev × CmdEnd
  | 0, d, _, _, j => (d, ⟨0, 0, leBytes 4 j⟩)
  | n + 1, d, t, ix, j =>
    if !tableIndexOk t (ix + j) then (d, ⟨4, 0, leBytes 4 j⟩)
    else if d.tblPoison t (ix + j) then (d, ⟨8, 0, leBytes 4 j⟩)
    else
      let (d, r) := if t = 3 then d.ordClear 0 (ix + j) else d.ldgClear 0 (ix + j)
      if r ≠ 0 then (d, ⟨5, r, leBytes 4 j⟩) else Dev.tclearLoop n d t ix (j + 1)

/-- TCLEAR of table 3 or 10. -/
def Dev.cmdTclear (d : Dev) (f : Nat) : Dev :=
  d.dispatchCmd f 0x0112 (pfOnly f (fun d b =>
    let t := byteAt b 8
    let n := leAt b 16 4
    if t ≠ 3 && t ≠ 10 then (d, ⟨1, 0, []⟩)
    else if n = 0 || 4096 < n then (d, ⟨4, 0, []⟩)
    else Dev.tclearLoop n d t (leAt b 12 4) 0))

/-! ### Orders (R142, R145) -/

/-- PLACE. -/
def Dev.cmdPlace (d : Dev) (f : Nat) : Dev :=
  d.dispatchCmd f 0x0120 (fun d b =>
    if 1 < byteAt b 8 then (d, ⟨1, 0, []⟩)
    else
      let (d, st, n, c) := d.ordPlace f (byteAt b 8) (leAt b 10 2) (leAt b 12 2) (leAt b 16 4) (leAt b 20 4) (leAt b 24 4) (leAt b 28 4)
      (d, ⟨st, 0, if st = 0 then leBytes 2 n ++ leBytes 2 0 ++ leBytes 4 c else []⟩))

/-- CANCEL. -/
def Dev.cmdCancel (d : Dev) (f : Nat) : Dev :=
  d.dispatchCmd f 0x0121 (fun d b =>
    let (d, st) := d.ordCancel f (leAt b 8 2)
    (d, ⟨st, 0, []⟩))

/-- SCHEDULE. -/
def Dev.cmdSchedule (d : Dev) (f : Nat) : Dev :=
  d.dispatchCmd f 0x0122 (fun d b =>
    let (d, st, det, n) := d.ordSchedule f (leAt b 8 4) (leAt b 12 4) (leAt b 16 2)
    (d, ⟨st, det, leBytes 4 n⟩))

end Sys2Proof.Machine
end

