-- ==== Sys2Proof/Machine/Memory.lean ====
section
/-!
DEFINITION. The memory system (R274–R305): targets and protected regions, coherent L2 lines, DRAM errors, cache ways, merging and
combining buffers, lost stores, training, zero fill and the scrubber.
-/
namespace Sys2Proof.Machine

/-! ### Targets and protection (R274–R276, R286) -/

/-- Who accesses memory (R286, Table 12-5). -/
inductive Agent where
  | stake (c : Nat)
  | handle
  | bar2
  | dbg
  | qa
  | trace
  | counter
  | scrub
  deriving DecidableEq, Repr

/-- The trace source ID of an agent (Table 16-3). -/
def Agent.id : Agent → Nat
  | .stake c => c
  | .handle => 0x5B
  | .bar2 => 0x65
  | .dbg => 0x66
  | .qa => 0x5C
  | .trace => 0x7F
  | .counter => 0x5B
  | .scrub => 0xFF

/-- The first word address above installed DRAM (Table 12-1). -/
def Dev.dramTop (d : Dev) : Nat :=
  match d.get MEM_STATUS_SIZE with
  | 0 => 0
  | 1 => 2 ^ 37
  | _ => 2 ^ 38

/-- Control space, 1 Mi-words. -/
def isControl (pa : Nat) : Bool := 0x0F0000000000 ≤ pa && pa < 0x0F0000100000

/-- Whether a protected region admits an agent (Tables 12-5, 14-8). -/
def Dev.admits (d : Dev) (i : Nat) (a : Agent) (write : Bool) : Bool :=
  match a with
  | .scrub => true
  | .handle => decide (3 ≤ i)
  | .stake _ => i == 3 && !write
  | .bar2 => i == 7 && d.get BOOT_STATUS_STAGE == 15
  | _ => false

/-- The active region that refuses an access to words [pa, pa + n). -/
def Dev.refusing (d : Dev) (a : Agent) (pa n : Nat) (write : Bool) : Option Nat :=
  (d.mem.prot.find? (fun e => decide (pa < e.2.2) && decide (e.2.1 < pa + n) && !d.admits e.1 a write)).map (·.1)

/-- A request of n words that a memory controller would serve. -/
def Dev.memOk (d : Dev) (a : Agent) (pa n : Nat) (write : Bool) : Bool :=
  d.on MEM_STATUS_READY && decide (pa + n ≤ d.dramTop) && (d.refusing a pa n write).isNone

/-- Count and report a request that is not served: no target (R275), or refused by protection (R286). -/
def Dev.memRefuse (d : Dev) (a : Agent) (pa n : Nat) (write : Bool) : Dev :=
  if d.dramTop < pa + n then d.inc (MEM_CNT_COUNT 4)
  else match d.refusing a pa n write with
    | some i => (d.inc (MEM_CNT_COUNT 3)).raiseErr 0xE 0 0x0010 1 pa (a.id + i * 256)
    | none => d

/-- Whether region i may become active over [base, limit): it overlaps no active region. -/
def Dev.protFree (d : Dev) (base limit : Nat) : Bool :=
  d.mem.prot.all (fun e => decide (limit ≤ e.2.1) || decide (e.2.2 ≤ base))

/-- A protected region becomes active, unless it overlaps an active one (R286). -/
def Dev.protect (d : Dev) (i base limit : Nat) : Dev :=
  if d.protFree base limit then { d with mem := { d.mem with prot := Tab.ins d.mem.prot i (base, limit) } }
  else d.raiseErr 0xE 0 0x000B 1 base i

/-- Channel and subchannel of a word address (R276). -/
def chanOf (pa : Nat) : Nat := bits pa 9 7 ^^^ bits pa 17 15 ^^^ bits pa 25 23
def subOf (pa : Nat) : Nat := bits pa 5 5

/-! ### Lines, L2 and DRAM contents (R287, R288) -/

/-- The 64 bytes DRAM holds for a line. -/
def Dev.dramLine (d : Dev) (ln : Nat) : List Byte := d.dramBytes (64 * ln) 64

/-- Write a line to DRAM, poisoned or not. -/
def Dev.dramWrite (d : Dev) (ln : Nat) (b : List Byte) (poison : Bool) : Dev :=
  { d with mem := { d.mem with dram := dramPut d.mem.dram (64 * ln) b, poison := Tab.set false d.mem.poison ln poison } }

/-- The byte at a byte address as coherent agents see it. -/
def Dev.memByte (d : Dev) (a : Nat) : Byte :=
  match Tab.find d.mem.l2 (a / 64) with
  | some l => l.data.getD (a % 64) 0
  | none => Tab.get 0 d.mem.dram a

/-- n bytes from a byte address as coherent agents see them. -/
def Dev.bytesAt (d : Dev) (a n : Nat) : List Byte := (List.range n).map (fun i => d.memByte (a + i))

/-- n words from a word address, as a number. -/
def Dev.wordsAt (d : Dev) (pa n : Nat) : Nat := leNat (d.bytesAt (2 * pa) (2 * n))

/-- The key of a thread. -/
def tid : ThreadId → Nat
  | .engine e c => 4 * e.val + c.val
  | .handle => 2048
  | .stake c => 4096 + c.val

/-- A store by `own` (a thread key, or none of them) to a line clears the other threads' reservations on it (R243). -/
def Dev.clearResv (d : Dev) (ln own : Nat) : Dev :=
  { d with thr := { d.thr with t := d.thr.t.map (fun e =>
      if e.1 ≠ own && (match e.2.resv with | some r => r.1 / 32 == ln | none => false) then (e.1, { e.2 with resv := none }) else e) } }

/-- Replace bytes o, o + 1, … of a list. -/
def patch : List Byte → Nat → List Byte → List Byte
  | l, _, [] => l
  | l, o, b :: r => patch (l.set o b) (o + 1) r

/-- The stake core that a thread key names. -/
def stakeOf (own : Nat) : Option Nat := if 4096 ≤ own ∧ own < 4144 then some (own - 4096) else none

/-- A coherent write of bytes within one line: into the L2 line where one holds it, else into DRAM. A line written whole is sound again (R302). -/
def Dev.writeLine (d : Dev) (a : Nat) (b : List Byte) (own : Nat) : Dev :=
  let ln := a / 64
  let d := d.clearResv ln own
  match Tab.find d.mem.l2 ln with
  | some l => { d with mem := { d.mem with l2 := Tab.ins d.mem.l2 ln { l with
      data := patch l.data (a % 64) b, dirty := true, poison := l.poison && b.length != 64, own := stakeOf own } } }
  | none => { d with mem := { d.mem with
      dram := dramPut d.mem.dram a b, poison := if b.length = 64 then Tab.del d.mem.poison ln else d.mem.poison } }

/-- A coherent write of bytes that may cross lines. -/
def Dev.writeBytes : Nat → Dev → Nat → List Byte → Nat → Dev
  | 0, d, _, _, _ => d
  | k + 1, d, a, b, own =>
    if b.isEmpty then d
    else
      let n := 64 - a % 64
      Dev.writeBytes k (d.writeLine a (b.take n) own) (a + n) (b.drop n) own

/-- Write n words at a word address, coherently. -/
def Dev.writeWords (d : Dev) (pa n v own : Nat) : Dev := Dev.writeBytes (n / 32 + 2) d (2 * pa) (leBytes (2 * n) v) own

/-! ### Lost stores (R295) -/

/-- The error record of a lost store or a failed load as four quads for MCREC (R295). -/
def Dev.mcRecord (d : Dev) (c pa detail : Nat) : ErrRec := ⟨0xD, c, 2, 1, 0x0011, 1, pa, d.now, d.err.rseq, detail⟩

/-- A stake core loses a store, or a load gets no data: the record, MCREC, and a machine check pending (R295). -/
def Dev.lostAccess (d : Dev) (c pa : Nat) (absent : Bool) : Dev :=
  let detail := c + b2n absent * 256
  let r := d.mcRecord c pa detail
  let d := d.raiseErr 0xD c 0x0011 1 pa detail
  let t := Tab.get {} d.thr.t (4096 + c)
  let info := Tab.get 0 t.ctl 0x1C4
  let ctl := if bit info 0 then Tab.set 0 t.ctl 0x1C4 (1 + min 65535 (bits info 31 16 + 1) * 65536)
    else ((List.range 4).foldl (fun a j => Tab.set 0 a (0x1C0 + j) (r.quads.getD j 0)) t.ctl |> fun a => Tab.set 0 a 0x1C4 1)
  { d with thr := { d.thr with t := Tab.ins d.thr.t (4096 + c) { t with ctl := ctl, mc := some (0x0011, 2, 0) } } }

/-- A line's poison where coherent agents read it. -/
def Dev.setPoison (d : Dev) (ln : Nat) (b : Bool) : Dev :=
  match Tab.find d.mem.l2 ln with
  | some l => { d with mem := { d.mem with l2 := Tab.ins d.mem.l2 ln { l with poison := b } } }
  | none => { d with mem := { d.mem with poison := Tab.set false d.mem.poison ln b } }

/-! ### Cache ways (R287, R290) -/

/-- Set indexes (R287), from the word address. -/
def l1iSet (pa : Nat) : Nat := bits pa 12 5
def l1dSet (pa : Nat) : Nat := bits pa 11 5 ^^^ bits pa 18 12 ^^^ bits pa 25 19
def l2Set (pa : Nat) : Nat := bits pa 16 5 ^^^ bits pa 28 17 ^^^ bits pa 40 29

/-- Keys of caches in `wayOff` and `wayErr`. -/
def cL1i (c : Nat) : Nat := c
def cL1d (c : Nat) : Nat := 64 + c
def cL2 (k : Nat) : Nat := 128 + k

/-- The ways of a cache that are enabled. -/
def Dev.waysOn (d : Dev) (cache n : Nat) : List Nat := (List.range n).filter (fun w => !bit (Tab.get 0 d.mem.wayOff cache) w)

/-- Key of a line in a core's L1. -/
def l1Key (c ln : Nat) : Nat := c * 2 ^ 40 + ln

/-- A line leaves a core's L1D: its reservation on the line is lost (R243). -/
def Dev.dropL1d (d : Dev) (c ln : Nat) : Dev :=
  let t := Tab.get {} d.thr.t (4096 + c)
  let d := { d with mem := { d.mem with l1d := Tab.del d.mem.l1d (l1Key c ln) } }
  match t.resv with
  | some r => if r.1 / 32 = ln then { d with thr := { d.thr with t := Tab.ins d.thr.t (4096 + c) { t with resv := none } } } else d
  | none => d

/-- A line leaves a core's L1I and its fetch buffer. -/
def Dev.dropL1i (d : Dev) (c ln : Nat) : Dev :=
  { d with mem := { d.mem with
    l1i := Tab.del d.mem.l1i (l1Key c ln), fbuf := Tab.set [] d.mem.fbuf c ((Tab.get [] d.mem.fbuf c).filter (fun e => e.1 != ln)) } }

/-- A dirty line is written back by cluster k. One that protection refuses, or that DRAM does not take, is a lost store of the core that stored to
it (R286, R295). -/
def Dev.writeBackL2 (d : Dev) (k ln : Nat) (l : L2Line) : Dev :=
  let a := Agent.stake (l.own.getD (4 * k))
  if d.memOk a (32 * ln) 32 true then d.dramWrite ln l.data l.poison
  else
    let d := d.memRefuse a (32 * ln) 32 true
    match l.own with
    | some c => d.lostAccess c (32 * ln) false
    | none => d

/-- A line leaves the L2 of cluster k, and the L1s it includes; the last holder of a dirty line writes it back (R287). -/
def Dev.dropL2 (d : Dev) (k ln : Nat) : Dev :=
  match Tab.find d.mem.l2 ln with
  | none => d
  | some l =>
    if !l.holders.any (fun h => h.1 == k) then d
    else
      let d := (List.range 4).foldl (fun d j => (d.dropL1d (4 * k + j) ln).dropL1i (4 * k + j) ln) d
      let hs := l.holders.filter (fun h => h.1 != k)
      if !hs.isEmpty then
        { d with mem := { d.mem with l2 := Tab.ins d.mem.l2 ln { l with holders := hs, lru := l.lru.filter (fun x => x != k) } } }
      else
        let d := { d with mem := { d.mem with l2 := Tab.del d.mem.l2 ln } }
        if l.dirty then d.writeBackL2 k ln l else d

/-- Write a dirty line back to DRAM; it stays valid (R291). -/
def Dev.cleanLine (d : Dev) (ln : Nat) : Dev :=
  match Tab.find d.mem.l2 ln with
  | none => d
  | some l =>
    if !l.dirty then d
    else
      let d := { d with mem := { d.mem with l2 := Tab.ins d.mem.l2 ln { l with dirty := false } } }
      d.writeBackL2 (l.holders.getD 0 (0, 0)).1 ln l

/-- Lines of a set that cluster k holds, with their ways. -/
def Dev.l2InSet (d : Dev) (k s : Nat) : List (Nat × Nat) :=
  d.mem.l2.filterMap (fun e => if l2Set (32 * e.1) = s then (e.2.holders.find? (fun h => h.1 == k)).map (fun h => (e.1, h.2)) else none)

/-- Choose a way for a new line: a free one, else the one whose line `first` names, else a victim the spec leaves open (a free value). Answers the
way and the line it held. -/
def Dev.pickWay (d : Dev) (on : List Nat) (used : List (Nat × Nat)) (first : Nat → Bool) : Dev × Nat × Option Nat :=
  match on.find? (fun w => !used.any (fun u => u.2 == w)) with
  | some w => (d, w, none)
  | none =>
    match used.find? (fun u => first u.1) with
    | some u => (d, u.2, some u.1)
    | none =>
      let w := on.getD (d.freeVal.toNat % max 1 on.length) 0
      (d.drawn, w, (used.find? (fun u => u.2 == w)).map (·.1))

/-- A line lies at the least-recently-used position of cluster k's L2. -/
def Dev.atLru (d : Dev) (k ln : Nat) : Bool := (Tab.find d.mem.l2 ln).any (fun l => l.lru.contains k)

/-- A line that cluster k uses leaves the least-recently-used position. -/
def Dev.usedL2 (d : Dev) (k ln : Nat) : Dev :=
  match Tab.find d.mem.l2 ln with
  | some l => if l.lru.contains k then { d with mem := { d.mem with l2 := Tab.ins d.mem.l2 ln { l with lru := l.lru.filter (fun x => x != k) } } } else d
  | none => d

/-- Cluster k's L2 takes a line that it does not hold: from another L2, or from DRAM; `lru` puts it at the least-recently-used position, from
where it is the next to go (Table 12-4; DEDUCED, log entry 89). -/
def Dev.fillL2 (d : Dev) (k ln : Nat) (lru : Bool := false) : Dev :=
  let held := match Tab.find d.mem.l2 ln with
    | some l => l.holders.any (fun h => h.1 == k)
    | none => false
  if held then d
  else
    let (d, w, old) := d.pickWay (d.waysOn (cL2 k) 16) (d.l2InSet k (l2Set (32 * ln))) (d.atLru k)
    let d := match old with
      | some o => d.dropL2 k o
      | none => d
    let at0 := if lru then [k] else []
    let l : L2Line := match Tab.find d.mem.l2 ln with
      | some l => { l with holders := l.holders ++ [(k, w)], lru := l.lru ++ at0 }
      | none => { data := d.dramLine ln, dirty := false, poison := Tab.get false d.mem.poison ln, holders := [(k, w)], lru := at0 }
    { d with mem := { d.mem with l2 := Tab.ins d.mem.l2 ln l } }

/-- Core c's L1D takes a line. -/
def Dev.fillL1d (d : Dev) (c ln : Nat) : Dev :=
  if (Tab.find d.mem.l1d (l1Key c ln)).isSome then d
  else
    let s := l1dSet (32 * ln)
    let used := d.mem.l1d.filterMap (fun e => if e.1 / 2 ^ 40 = c && l1dSet (32 * (e.1 % 2 ^ 40)) = s then some (e.1 % 2 ^ 40, e.2) else none)
    let (d, w, old) := d.pickWay (d.waysOn (cL1d c) 8) used (fun _ => false)
    let d := match old with
      | some o => d.dropL1d c o
      | none => d
    { d with mem := { d.mem with l1d := Tab.ins d.mem.l1d (l1Key c ln) w } }

/-- Core c's L1I takes a line, as the coherent view holds it now. -/
def Dev.fillL1i (d : Dev) (c ln : Nat) : Dev :=
  if (Tab.find d.mem.l1i (l1Key c ln)).isSome then d
  else
    let s := l1iSet (32 * ln)
    let used := d.mem.l1i.filterMap (fun e => if e.1 / 2 ^ 40 = c && l1iSet (32 * (e.1 % 2 ^ 40)) = s then some (e.1 % 2 ^ 40, e.2.1) else none)
    let (d, w, old) := d.pickWay (d.waysOn (cL1i c) 4) used (fun _ => false)
    let d := match old with
      | some o => d.dropL1i c o
      | none => d
    { d with mem := { d.mem with l1i := Tab.ins d.mem.l1i (l1Key c ln) (w, d.bytesAt (64 * ln) 64) } }

/-- Empty a way of a cache: cache 0 L1I, 1 L1D, 2 L2, of core or cluster u. -/
def Dev.emptyWay (d : Dev) (cache u w : Nat) : Dev :=
  match cache with
  | 0 => (d.mem.l1i.filter (fun e => e.1 / 2 ^ 40 == u && e.2.1 == w)).foldl (fun d e => d.dropL1i u (e.1 % 2 ^ 40)) d
  | 1 => (d.mem.l1d.filter (fun e => e.1 / 2 ^ 40 == u && e.2 == w)).foldl (fun d e => d.dropL1d u (e.1 % 2 ^ 40)) d
  | _ => (d.mem.l2.filter (fun e => e.2.holders.contains (u, w))).foldl (fun d e => d.dropL2 u e.1) d

/-- Disable a way (R290), down to 4 ways of the L1D and 8 of the L2; the L1I has no limit stated and keeps one. An error beyond the limits is only
reported, with the record of the way (DESIGN CHOICE, log entry 89). -/
def Dev.disableWay (d : Dev) (cache u w : Nat) : Dev :=
  let key := if cache = 0 then cL1i u else if cache = 1 then cL1d u else cL2 u
  let (n, least) := if cache = 0 then (4, 1) else if cache = 1 then (8, 4) else (16, 8)
  let off := Tab.get 0 d.mem.wayOff key
  if bit off w then d
  else if (d.waysOn key n).length ≤ least then d.raiseErr 0xD u 0x0025 0 0 (w + cache * 16)
  else
    let d := d.emptyWay cache u w
    let d := { d with mem := { d.mem with wayOff := Tab.set 0 d.mem.wayOff key (off + 2 ^ w) } }
    (d.raiseErr 0xD u 0x0025 0 0 (w + cache * 16)).pfEvent 0x1202 [(1, u), (1, cache), (1, w)]

/-- An error in a way: the eighth within a management tick disables it, where the limits let it (R290). -/
def Dev.wayError (d : Dev) (cache u w : Nat) : Dev :=
  let key := if cache = 0 then cL1i u else if cache = 1 then cL1d u else cL2 u
  let n := Tab.get 0 d.mem.wayErr (16 * key + w) + 1
  let d := { d with mem := { d.mem with wayErr := Tab.set 0 d.mem.wayErr (16 * key + w) n } }
  if 8 ≤ n then d.disableWay cache u w else d

/-! ### The DRAM code (R298) -/

/-- Multiply by α = x in GF(2^8) with x^8 + x^4 + x^3 + x^2 + 1. -/
def gfX (a : Nat) : Nat := if 128 ≤ a then (2 * a) ^^^ 0x11D else 2 * a

/-- a α^n. -/
def gfPow (a : Nat) : Nat → Nat
  | 0 => a
  | n + 1 => gfX (gfPow a n)

/-- S0 = Σ c_j. -/
def synd0 (c : List Nat) : Nat := c.foldl (· ^^^ ·) 0

/-- S1 = Σ c_j α^j. -/
def synd1 (c : List Nat) : Nat := c.foldr (fun x s => x ^^^ gfX s) 0

/-- Symbols 8 and 9 of the data symbols 0…7: c_8 + c_9 = S0 and α^8 c_8 + α^9 c_9 = S1 of the data, where 1 + α = α^25. -/
def checkSyms (c : List Nat) : List Nat :=
  let c9 := gfPow (synd0 c ^^^ gfPow (synd1 c) 247) 230
  [synd0 c ^^^ c9, c9]

/-- The ten symbols DRAM holds for a quad, its eight bytes as the data symbols; a poisoned line's check symbols are inverted. -/
def codewordOf (q : List Byte) (poison : Bool) : List Nat :=
  let c := q.map BitVec.toNat
  c ++ (checkSyms c).map (fun x => if poison then 255 - x else x)

/-- How a codeword reads: good, or with the symbol that is corrected and what it is corrected by, or uncorrectable. -/
inductive CwRead where
  | good
  | fixed (p by_ : Nat)
  | bad
  deriving DecidableEq, Repr

/-- The decoding of R298. -/
def readCw (c : List Nat) : CwRead :=
  let s0 := synd0 c
  let s1 := synd1 c
  if s0 = 0 ∧ s1 = 0 then .good
  else if s0 = 0 ∨ s1 = 0 then .bad
  else match (List.range 10).find? (fun p => gfPow s0 p == s1) with
    | some p => .fixed p s0
    | none => .bad

/-- A burst as the controller reads it: the 64 bytes with their corrections made, the codewords corrected with the positions, the codewords that
are uncorrectable. -/
structure Burst where
  data : List Byte
  fixed : List (Nat × Nat)
  bad : List Nat
  deriving DecidableEq, Repr

/-- Codeword k of a line as the devices give it: the stored symbols, some with bits inverted. -/
def givenCw (line : List Byte) (poison : Bool) (e : DramEnv) (k : Nat) : List Nat :=
  e.foldl (fun c f => if f.cw.val = k then c.set f.sym.val (c.getD f.sym.val 0 ^^^ f.bits.toNat) else c) (codewordOf (slice line (8 * k) 8) poison)

/-- Read a line's burst: every codeword is decoded, and two that need correction at different positions make all of it uncorrectable. -/
def readBurst (line : List Byte) (poison : Bool) (e : DramEnv) : Burst :=
  let cws := (List.range 8).map (fun k => (k, givenCw line poison e k, readCw (givenCw line poison e k)))
  let data := cws.flatMap (fun x => (match x.2.2 with
    | .fixed p b => x.2.1.set p (x.2.1.getD p 0 ^^^ b)
    | _ => x.2.1).take 8 |>.map (BitVec.ofNat 8))
  let fixed := cws.filterMap (fun x => match x.2.2 with
    | .fixed p _ => some (x.1, p)
    | _ => none)
  let bad := (cws.filter (fun x => x.2.2 == .bad)).map (·.1)
  if fixed.all (fun x => x.2 == (fixed.getD 0 (0, 0)).2) then ⟨data, fixed, bad⟩ else ⟨data, [], List.range 8⟩

/-! ### DRAM errors (R299) -/

/-- Count a correction at a position, with event 0x1203 at DEVTHR (R299). -/
def Dev.symCount (d : Dev) (pa pos : Nat) : Dev :=
  let ch := chanOf pa
  let s := subOf pa
  let key := 32 * ch + 16 * s + pos
  let n := Tab.get 0 d.mem.symTick key + 1
  let d := { d with mem := { d.mem with symTick := Tab.set 0 d.mem.symTick key n } }
  let d := (d.inc (MEM_CNT_COUNT 0)).inc (MEM_SYM_CNT_COUNT (2 * ch + s) pos)
  if n = d.get MEM_THR_DEVTHR then d.pfEvent 0x1203 [(1, ch), (1, s), (1, pos), (2, n)] else d

/-- The burst of a line, as it is stored and as its devices give it. A sound line that nothing befalls reads as it was written. -/
def Dev.burst (d : Dev) (ln : Nat) (e : DramEnv) : Burst :=
  let p := Tab.get false d.mem.poison ln
  if !p && e.isEmpty then ⟨d.dramLine ln, [], []⟩ else readBurst (d.dramLine ln) p e

/-- What a burst shows: codewords corrected with their positions, and codewords uncorrectable. -/
def Dev.burstShows (d : Dev) (ln : Nat) (e : DramEnv) : List (Nat × Nat) × List Nat := ((d.burst ln e).fixed, (d.burst ln e).bad)

/-- A burst of a line is read for requester `who` (R299): each correction is counted and reported, a burst without an uncorrectable codeword
that was corrected is written back, an uncorrectable one is reported; the last result says that the data is poisoned. Symbols given wrong
that the code does not see are what DRAM holds from then on. -/
def Dev.dramBurst (d : Dev) (ln : Nat) (e : DramEnv) (who : Nat) : Dev × Bool :=
  let pa := 32 * ln
  let inst := 2 * chanOf pa + subOf pa
  let b := d.burst ln e
  let d := b.fixed.foldl (fun d s => (d.symCount pa s.2).dramCorrected (chanOf pa) inst (pa + 4 * s.1) (s.1 + s.2 * 16 + who * 256)) d
  if b.bad.isEmpty then
    (if b.data = d.dramLine ln then (if b.fixed.isEmpty then d else d.inc (MEM_CNT_COUNT 2))
     else (fun x : Dev => if b.fixed.isEmpty then x else x.inc (MEM_CNT_COUNT 2)) (d.dramWrite ln b.data false), false)
  else
    let cw := b.bad.getD 0 0
    let d := (d.addCnt (MEM_CNT_COUNT 1) b.bad.length).raiseErr 0xE inst 0x0024 1 (pa + 4 * cw) (cw + who * 256)
    (d.pfEvent 0x1204 [(8, pa + 4 * cw), (1, who)], true)

/-! ### Lines for the agents (R287–R290, R299) -/

/-- What a line's DRAM burst meets. -/
def burstOf (e : DramEnvs) (ln : Nat) : DramEnv := ((e.find? (fun x => x.1.toNat == ln)).map (·.2)).getD []

/-- A line is read coherently by an agent that has no cache, and may be served: as an L2 holds it, else from DRAM. Answers whether it is
poisoned. -/
def Dev.readCoherent (d : Dev) (ln : Nat) (e : DramEnv) (who : Nat) : Dev × Bool :=
  match Tab.find d.mem.l2 ln with
  | some l => (d, l.poison)
  | none => d.dramBurst ln e who

/-- The lines ln, ln + 1, … are read coherently; whether one is poisoned. -/
def Dev.readLines (env : DramEnvs) (who : Nat) : Nat → Dev → Nat → Dev × Bool
  | 0, d, _ => (d, false)
  | n + 1, d, ln =>
    let (d, x) := d.readCoherent ln (burstOf env ln) who
    let (d, y) := Dev.readLines env who n d (ln + 1)
    (d, x || y)

/-- The lines that n words from a word address lie in are read coherently. -/
def Dev.readSpan (d : Dev) (env : DramEnvs) (who pa n : Nat) : Dev × Bool := Dev.readLines env who ((pa + n - 1) / 32 + 1 - pa / 32) d (pa / 32)

/-- How a line comes to an access: sound, not at all (R104), or refused or poisoned. -/
inductive Got where
  | sound
  | absent
  | bad
  deriving DecidableEq, Repr

/-- A line is prefetched into core c's L2, unless it begins a page or is not to be had (R289). -/
def Dev.prefetchL2 (d : Dev) (c : Nat) (env : MemEnv) (ln : Nat) : Dev :=
  match Tab.find d.mem.l2 ln with
  | some l => if l.poison then d else d.fillL2 (c / 4) ln
  | none =>
    if !d.memOk (.stake c) (32 * ln) 32 false then d
    else
      let (d, bad) := d.dramBurst ln (burstOf env.dram ln) c
      if bad then d else d.fillL2 (c / 4) ln

/-- The next line is prefetched, within its 4 Ki-word page. -/
def Dev.nextL2 (d : Dev) (c : Nat) (env : MemEnv) (ln : Nat) : Dev := if (ln + 1) % 128 = 0 then d else d.prefetchL2 c env (ln + 1)

/-- A line that core c's cluster does not hold is read, for requester core c, into its L2; `next` has the following line prefetched. -/
def Dev.missL2 (d : Dev) (c : Nat) (env : MemEnv) (ln : Nat) (lru next : Bool) : Dev × Got :=
  let more := fun d : Dev => if next then d.nextL2 c env ln else d
  match Tab.find d.mem.l2 ln with
  | some l => if l.poison then (d, .bad) else (more (d.fillL2 (c / 4) ln lru), .sound)
  | none =>
    if env.absent then (d, .absent)
    else if !d.memOk (.stake c) (32 * ln) 32 false then (d.memRefuse (.stake c) (32 * ln) 32 false, .bad)
    else
      let (d, bad) := d.dramBurst ln (burstOf env.dram ln) c
      if bad then (d, .bad) else (more (d.fillL2 (c / 4) ln lru), .sound)

/-- Core c's access to a line through its cluster's L2 (R287–R290): a corrected quad, an uncorrectable one of a clean line, which is read again,
and one of a dirty line, which is written back poisoned. -/
def Dev.takeL2 (d : Dev) (c : Nat) (env : MemEnv) (ln : Nat) (lru next : Bool) : Dev × Got :=
  let k := c / 4
  match Tab.find d.mem.l2 ln with
  | none => d.missL2 c env ln lru next
  | some l =>
    match l.holders.find? (fun h => h.1 == k) with
    | none => d.missL2 c env ln lru next
    | some h =>
      match (env.l2.find? (fun x => x.1.toNat == ln)).map (·.2) with
      | none => (if lru then d else d.usedL2 k ln, if l.poison then .bad else .sound)
      | some false => ((d.raiseErr 0xD k 0x0020 1 (32 * ln) 2).wayError 2 k h.2, if l.poison then .bad else .sound)
      | some true =>
        if l.dirty then (((d.setPoison ln true).cleanLine ln).raiseErr 0xD k 0x0021 1 (32 * ln) 2 |>.disableWay 2 k h.2, .bad)
        else ((d.dropL2 k ln).disableWay 2 k h.2).missL2 c env ln lru next

/-! ### Buffers (R288) -/

/-- Add to the PMCs of a core that count events in a list, with the privilege bit of the core's mode set (R383). A halted core's PMCs
hold while DBG_FRZ.PMC = 1 (R374). -/
def Dev.pmcAdd (d : Dev) (c : Nat) (evs : List Nat) (n : Nat) : Dev :=
  let t := Tab.get {} d.thr.t (4096 + c)
  if !bit (Tab.get 0 t.ctl 0x320) 0 || (d.get (STK_CORE_CTL_STATE c) == 2 && d.on DBG_FRZ_PMC) then d
  else
    let m := if bit (Tab.get 0 t.ctl 0x000) 0 then 6 else 7
    let ctl := (List.range 6).foldl (fun a j =>
      let sel := Tab.get 0 a (0x328 + j)
      if evs.contains (bits sel 5 0) && bit sel m then Tab.set 0 a (0x330 + j) (satw 48 (Tab.get 0 a (0x330 + j) + n)) else a) t.ctl
    { d with thr := { d.thr with t := Tab.set {} d.thr.t (4096 + c) { t with ctl := ctl } } }

/-- One PMC event of a core. -/
def Dev.pmc (d : Dev) (c ev : Nat) : Dev := d.pmcAdd c [ev] 1

/-- TCTL.PFD2 of core c lets its L2 misses prefetch. -/
def Dev.pfd2 (d : Dev) (c : Nat) : Bool := !bit (Tab.get 0 (Tab.get {} d.thr.t (4096 + c)).ctl 0x100) 2

/-- A line is allocated for core c's store: sound, or poisoned where it could not be read sound. A line stored whole is not read. -/
def Dev.allocL2 (d : Dev) (c : Nat) (env : MemEnv) (ln : Nat) (whole : Bool) : Dev :=
  if whole then d.fillL2 (c / 4) ln
  else match d.takeL2 c env ln false (d.pfd2 c) with
    | (d, .sound) => d
    | (d, _) => (d.fillL2 (c / 4) ln).setPoison ln true

/-- A buffer entry drains as one write (R288). A cacheable line is allocated in the cluster's L2; a streaming line goes to the L2 that
holds it, else to memory, as an uncached line does: a part of a line there by a read and a write at the controller, which leaves an uncorrectable line
poisoned. A write that no controller serves is lost (R295). -/
def Dev.drainEnt (d : Dev) (c : Nat) (merging : Bool) (e : BufEnt) (env : MemEnv := {}) : Dev :=
  let d := if merging then d.pmc c 13 else d
  let pa := 32 * e.line
  let whole := e.words.length == 32
  if (Tab.find d.mem.l2 e.line).isNone && !d.memOk (.stake c) pa 32 true then
    (d.memRefuse (.stake c) pa 32 true).lostAccess c (pa + (e.words.getD 0 (0, 0, 0)).1) false
  else
    let d :=
      if merging && e.cached then d.allocL2 c env e.line whole
      else if whole then d
      else match d.readCoherent e.line (burstOf env.dram e.line) c with
        | (d, false) => d
        | (d, true) => d.setPoison e.line true
    let d := e.words.foldl (fun d w => d.writeLine (64 * e.line + 2 * w.1) (leBytes 2 w.2.1) (4096 + c)) d
    if whole then d.setPoison e.line false else d

/-- Core c's buffer: 0 merging, 1 combining. -/
def Dev.bufOf (d : Dev) (c k : Nat) : List BufEnt := Tab.get [] d.mem.buf (2 * c + k)
def Dev.setBuf (d : Dev) (c k : Nat) (b : List BufEnt) : Dev := { d with mem := { d.mem with buf := Tab.set [] d.mem.buf (2 * c + k) b } }

/-- Drain the entries of a buffer that satisfy a test, oldest first. -/
def Dev.drainBuf (d : Dev) (c k : Nat) (t : BufEnt → Bool) (env : MemEnv := {}) : Dev :=
  let b := d.bufOf c k
  (b.filter t).foldl (fun d e => d.drainEnt c (k == 0) e env) (d.setBuf c k (b.filter (fun e => !t e)))

/-- Drain every store core c has buffered in entries that satisfy a test. -/
def Dev.drainEnts (d : Dev) (c : Nat) (t : BufEnt → Bool) (env : MemEnv := {}) : Dev := (d.drainBuf c 0 t env).drainBuf c 1 t env

/-- Drain every store core c has buffered to lines that satisfy a test. -/
def Dev.drainLines (d : Dev) (c : Nat) (t : Nat → Bool) (env : MemEnv := {}) : Dev := d.drainEnts c (fun e => t e.line) env

/-- Drain both of core c's buffers. -/
def Dev.drainAll (d : Dev) (c : Nat) (env : MemEnv := {}) : Dev := d.drainLines c (fun _ => true) env

/-- Words o, o + 1, … of a value, as stored by store number `no`. -/
def bufWords : Nat → Nat → Nat → Nat → List (Nat × Nat × Nat)
  | 0, _, _, _ => []
  | n + 1, o, v, no => (o, v % 65536, no) :: bufWords n (o + 1) (v / 65536) no

/-- The words of an entry after a store: younger words replace older ones. -/
def mergeWords (old new : List (Nat × Nat × Nat)) : List (Nat × Nat × Nat) := old.filter (fun w => !new.any (fun x => x.1 == w.1)) ++ new

/-- A retired store of n words within one line enters a buffer (R288), with the translation it was made with; where no entry is left, an entry
drains whose choice the spec leaves open. -/
def Dev.bufStore (d : Dev) (c k : Nat) (cached : Bool) (pa n v no : Nat) (tr : Option TlbEnt) (env : MemEnv := {}) : Dev :=
  let ln := pa / 32
  let ws := bufWords n (pa % 32) v no
  let trs := fun l : List TlbEnt => match tr with
    | some e => if l.contains e then l else l ++ [e]
    | none => l
  let b := d.bufOf c k
  if b.any (fun e => e.line == ln) then
    d.setBuf c k (b.map (fun e => if e.line = ln then { e with words := mergeWords e.words ws, trs := trs e.trs } else e))
  else
    let cap := if k = 0 then 16 else 8
    let d :=
      if cap ≤ b.length then
        match b[d.freeVal.toNat % b.length]? with
        | some v => d.drawn.drainBuf c k (fun e => e.line == v.line) env
        | none => d
      else d
    d.setBuf c k (d.bufOf c k ++ [⟨ln, cached, ws, trs []⟩])

end Sys2Proof.Machine
end

