-- ==== Sys2Proof/Machine/Float.lean ====
section
/-!
DEFINITION. Binary floating point (R245–R247): binary32 and binary64 by exact arithmetic on integers and one rounding.
Flags are the five bits of FPSR: NV 1, DZ 2, OF 4, UF 8, IX 16.
-/
namespace Sys2Proof.Machine

/-- A format: precision with the hidden bit, width of the exponent field. -/
structure Fmt where
  p : Nat
  eb : Nat
  deriving DecidableEq, Repr

def f32 : Fmt := ⟨24, 8⟩
def f64 : Fmt := ⟨53, 11⟩

/-- The format X selects. -/
def fmtOf (x : Bool) : Fmt := if x then f64 else f32

def Fmt.bias (f : Fmt) : Nat := 2 ^ (f.eb - 1) - 1
def Fmt.mb (f : Fmt) : Nat := f.p - 1
def Fmt.width (f : Fmt) : Nat := f.p + f.eb
def Fmt.emin (f : Fmt) : Int := 1 - (f.bias : Int)
def Fmt.infBits (f : Fmt) (s : Bool) : Nat := (2 ^ f.eb - 1) * 2 ^ f.mb + b2n s * 2 ^ (f.width - 1)
def Fmt.maxBits (f : Fmt) (s : Bool) : Nat := f.infBits s - 1
def Fmt.zero (f : Fmt) (s : Bool) : Nat := b2n s * 2 ^ (f.width - 1)
/-- The default NaN. -/
def Fmt.nan (f : Fmt) : Nat := (2 ^ f.eb - 1) * 2 ^ f.mb + 2 ^ (f.mb - 1)

/-- A value: NaN with its bits, infinity, or (−1)^s × m × 2^e. -/
inductive FV where
  | nan (bits : Nat)
  | inf (s : Bool)
  | fin (s : Bool) (m : Nat) (e : Int)
  deriving DecidableEq, Repr

/-- Unpack bits; under FTZ a subnormal reads as a zero of its sign (R246). -/
def Fmt.unpack (f : Fmt) (ftz : Bool) (v : Nat) : FV :=
  let s := v.testBit (f.width - 1)
  let x := v / 2 ^ f.mb % 2 ^ f.eb
  let m := v % 2 ^ f.mb
  if x = 2 ^ f.eb - 1 then (if m = 0 then .inf s else .nan (v % 2 ^ f.width))
  else if x = 0 then .fin s (if ftz then 0 else m) (f.emin - f.mb)
  else .fin s (m + 2 ^ f.mb) ((x : Int) - f.bias - f.mb)

/-- A signalling NaN. -/
def Fmt.signals (f : Fmt) (v : Nat) : Bool := !v.testBit (f.mb - 1)

/-- A NaN made quiet. -/
def Fmt.quiet (f : Fmt) (v : Nat) : Nat := v ||| 2 ^ (f.mb - 1)

/-- Bits of a natural number. -/
def blen (m : Nat) : Nat := if m = 0 then 0 else m.log2 + 1

/-- Round a magnitude down to an integer and say by RM whether the next one is taken: q the integer, `half` the comparison of what is
lost with one half (0 none, 1 below, 2 exactly, 3 above). -/
def roundUp (rm : Nat) (s : Bool) (q lost : Nat) : Bool :=
  match rm with
  | 0 => lost == 3 || (lost == 2 && q % 2 == 1)
  | 1 => false
  | 2 => lost != 0 && !s
  | _ => lost != 0 && s

/-- What is lost when m × 2^e, plus a little if `sticky`, is cut at 2^k of m. -/
def lostOf (m k : Nat) (sticky : Bool) : Nat :=
  if k = 0 then (if sticky then 1 else 0)
  else
    let r := m % 2 ^ k
    let h := 2 ^ (k - 1)
    if r = 0 then (if sticky then 1 else 0)
    else if r < h then 1
    else if r = h then (if sticky then 3 else 2)
    else 3

/-- Cut m × 2^e at the quantum 2^q and round: the integer multiple of 2^q, and whether the result is inexact. -/
def cutAt (rm : Nat) (s : Bool) (m : Nat) (e q : Int) (sticky : Bool) : Nat × Bool :=
  if q ≤ e then (m * 2 ^ (e - q).toNat, sticky)
  else
    let k := (q - e).toNat
    let l := lostOf m k sticky
    let r := m / 2 ^ k
    (r + b2n (roundUp rm s r l), l != 0)

/-- Pack r × 2^q, r at most 2^p, q the quantum of its binade. -/
def Fmt.pack (f : Fmt) (s : Bool) (r : Nat) (q : Int) : Nat :=
  let (r, q) := if r = 2 ^ f.p then (r / 2, q + 1) else (r, q)
  f.zero s + (if r < 2 ^ f.mb then r else ((q + f.mb + f.bias).toNat) * 2 ^ f.mb + (r - 2 ^ f.mb))

/-- Round the nonzero exact value (−1)^s × (m × 2^e, plus a little if sticky) into the format: bits and flags (R245, R246). Tininess
is detected after rounding. -/
def Fmt.round (f : Fmt) (rm : Nat) (ftz s : Bool) (m : Nat) (e : Int) (sticky : Bool) : Nat × Nat :=
  let top := e + blen m - 1
  let qn := top - f.mb
  let q := max qn (f.emin - f.mb)
  let (rn, _) := cutAt rm s m e qn sticky
  let tiny := decide (top < f.emin) && !(rn == 2 ^ f.p && decide (top + 1 = f.emin))
  let (r, inex) := cutAt rm s m e q sticky
  if tiny && ftz then (f.zero s, 24)
  else
    let ebig := q + f.mb + b2n (r == 2 ^ f.p)
    if (f.bias : Int) < ebig then
      (if rm = 0 || (rm = 2 && !s) || (rm = 3 && s) then f.infBits s else f.maxBits s, 20)
    else (f.pack s r q, (if inex then 16 else 0) + (if tiny && inex then 8 else 0))

/-- The NaN result of operands in the order RA, RB, RD, and NV when one of them signals; none when no operand is a NaN. -/
def Fmt.nanOf (f : Fmt) (l : List FV) : Option (Nat × Nat) :=
  let ns := l.filterMap (fun v => match v with | .nan b => some b | _ => none)
  match ns with
  | [] => none
  | b :: _ => some (f.quiet b, b2n (ns.any f.signals))

/-- The invalid operation's default NaN. -/
def Fmt.invalid (f : Fmt) : Nat × Nat := (f.nan, 1)

/-- The exact sum of two finite values. -/
def exactSum (s1 : Bool) (m1 : Nat) (e1 : Int) (s2 : Bool) (m2 : Nat) (e2 : Int) : Int × Int :=
  let e := min e1 e2
  let a : Int := (m1 * 2 ^ (e1 - e).toNat : Nat)
  let b : Int := (m2 * 2 ^ (e2 - e).toNat : Nat)
  ((if s1 then -a else a) + (if s2 then -b else b), e)

/-- Round a sum; an exact zero is +0, or −0 toward −∞, or the operands' common sign. -/
def Fmt.roundSum (f : Fmt) (rm : Nat) (ftz s1 s2 : Bool) (x : Int × Int) (bothZero : Bool) : Nat × Nat :=
  if x.1 = 0 then (f.zero (if bothZero && s1 == s2 then s1 else rm == 3), 0)
  else f.round rm ftz (decide (x.1 < 0)) x.1.natAbs x.2 false

/-- a + b. -/
def Fmt.add (f : Fmt) (rm : Nat) (ftz : Bool) (a b : FV) : Nat × Nat :=
  match f.nanOf [a, b], a, b with
  | some r, _, _ => r
  | none, .inf s, .inf t => if s = t then (f.infBits s, 0) else f.invalid
  | none, .inf s, _ => (f.infBits s, 0)
  | none, _, .inf t => (f.infBits t, 0)
  | none, .fin s1 m1 e1, .fin s2 m2 e2 => f.roundSum rm ftz s1 s2 (exactSum s1 m1 e1 s2 m2 e2) (m1 == 0 && m2 == 0)
  | none, _, _ => f.invalid

/-- The value with its sign flipped; a NaN stays as it is. -/
def FV.neg : FV → FV
  | .nan b => .nan b
  | .inf s => .inf (!s)
  | .fin s m e => .fin (!s) m e

/-- a × b. -/
def Fmt.mul (f : Fmt) (rm : Nat) (ftz : Bool) (a b : FV) : Nat × Nat :=
  match f.nanOf [a, b], a, b with
  | some r, _, _ => r
  | none, .inf s, .inf t => (f.infBits (s != t), 0)
  | none, .inf s, .fin t m _ => if m = 0 then f.invalid else (f.infBits (s != t), 0)
  | none, .fin s m _, .inf t => if m = 0 then f.invalid else (f.infBits (s != t), 0)
  | none, .fin s1 m1 e1, .fin s2 m2 e2 =>
    if m1 = 0 || m2 = 0 then (f.zero (s1 != s2), 0) else f.round rm ftz (s1 != s2) (m1 * m2) (e1 + e2) false
  | none, _, _ => f.invalid

/-- a ÷ b. -/
def Fmt.div (f : Fmt) (rm : Nat) (ftz : Bool) (a b : FV) : Nat × Nat :=
  match f.nanOf [a, b], a, b with
  | some r, _, _ => r
  | none, .inf _, .inf _ => f.invalid
  | none, .inf s, .fin t _ _ => (f.infBits (s != t), 0)
  | none, .fin s _ _, .inf t => (f.zero (s != t), 0)
  | none, .fin s1 m1 e1, .fin s2 m2 e2 =>
    if m2 = 0 then (if m1 = 0 then f.invalid else (f.infBits (s1 != s2), 2))
    else if m1 = 0 then (f.zero (s1 != s2), 0)
    else
      let k := f.p + 3 + blen m2
      let n := m1 * 2 ^ k
      f.round rm ftz (s1 != s2) (n / m2) (e1 - e2 - k) (n % m2 != 0)
  | none, _, _ => f.invalid

/-- The integer square root, one result bit a step. -/
def isqrt : Nat → Nat → Nat → Nat
  | 0, _, r => r
  | k + 1, n, r => isqrt k n (let t := r + 2 ^ k; if t * t ≤ n then t else r)

/-- √a. -/
def Fmt.sqrt (f : Fmt) (rm : Nat) (ftz : Bool) (a : FV) : Nat × Nat :=
  match f.nanOf [a], a with
  | some r, _ => r
  | none, .inf s => if s then f.invalid else (f.infBits false, 0)
  | none, .fin s m e =>
    if m = 0 then (f.zero s, 0)
    else if s then f.invalid
    else
      let k := 2 * (f.p + 2) + (if (e - 2 * (f.p + 2) : Int) % 2 = 0 then 0 else 1)
      let n := m * 2 ^ k
      let r := isqrt (blen n / 2 + 1) n 0
      f.round rm ftz false r ((e - k) / 2) (r * r != n)
  | none, _ => f.invalid

/-- a × b + c with one rounding. -/
def Fmt.fma (f : Fmt) (rm : Nat) (ftz : Bool) (a b c : FV) : Nat × Nat :=
  let zeroInf := match a, b with
    | .inf _, .fin _ m _ => m == 0
    | .fin _ m _, .inf _ => m == 0
    | _, _ => false
  match f.nanOf [a, b, c] with
  | some (r, fl) => (r, if zeroInf then 1 else fl)
  | none =>
    if zeroInf then f.invalid
    else
      let sgnOf := fun v => match v with | .nan _ => false | .inf s => s | .fin s _ _ => s
      let ps := sgnOf a != sgnOf b
      let pInf := match a, b with | .inf _, _ => true | _, .inf _ => true | _, _ => false
      match c with
      | .inf t => if pInf && ps != t then f.invalid else (f.infBits t, 0)
      | .fin t m3 e3 =>
        if pInf then (f.infBits ps, 0)
        else match a, b with
          | .fin _ m1 e1, .fin _ m2 e2 =>
            if m1 * m2 = 0 && m3 = 0 then f.roundSum rm ftz ps t (0, 0) true
            else f.roundSum rm ftz ps t (exactSum ps (m1 * m2) (e1 + e2) t m3 e3) false
          | _, _ => f.invalid
      | .nan _ => f.invalid

/-- Compare two values that are no NaNs: whether a < b, and whether they are equal. -/
def FV.cmp (a b : FV) : Bool × Bool :=
  match a, b with
  | .inf s, .inf t => (s && !t, s == t)
  | .inf s, _ => (s, false)
  | _, .inf t => (!t, false)
  | .fin s1 m1 e1, .fin s2 m2 e2 => let d := (exactSum s1 m1 e1 (!s2) m2 e2).1; (decide (d < 0), decide (d = 0))
  | _, _ => (false, false)

/-- Pack an exact value of the format again. -/
def Fmt.repack (f : Fmt) : FV → Nat
  | .nan b => b
  | .inf s => f.infBits s
  | .fin s m e => if m = 0 then f.zero s else (f.round 0 false s m e false).1

/-- minimumNumber (mx false) and maximumNumber (mx true); −0 orders below +0. -/
def Fmt.minmax (f : Fmt) (mx : Bool) (a b : FV) : Nat × Nat :=
  let sig := b2n ([a, b].any (fun v => match v with | .nan x => f.signals x | _ => false))
  match a, b with
  | .nan x, .nan _ => (f.quiet x, sig)
  | .nan _, v => (f.repack v, sig)
  | v, .nan _ => (f.repack v, sig)
  | _, _ =>
    let (lt, eq) := a.cmp b
    let neg := match a with | .inf s => s | .fin s _ _ => s | .nan _ => false
    let aLow := lt || (eq && neg)
    (f.repack (if aLow != mx then a else b), 0)

/-- Round a finite value to an integer by RM: the integer and whether it is inexact. -/
def toInteger (rm : Nat) (s : Bool) (m : Nat) (e : Int) : Int × Bool :=
  let (r, inex) := cutAt rm s m e 0 false
  (if s then -(r : Int) else (r : Int), inex)

/-- Convert to a 64-bit integer, saturating (R245): the 64 bits and flags. -/
def FV.toInt (rm : Nat) (signed : Bool) (a : FV) : Nat × Nat :=
  let lo : Int := if signed then -(2 ^ 63 : Int) else 0
  let hi : Int := if signed then 2 ^ 63 - 1 else 2 ^ 64 - 1
  match a with
  | .nan _ => (0, 1)
  | .inf s => (wrapI 64 (if s then lo else hi), 1)
  | .fin s m e =>
    let (v, inex) := toInteger rm s m e
    if v < lo then (wrapI 64 lo, 1) else if hi < v then (wrapI 64 hi, 1) else (wrapI 64 v, if inex then 16 else 0)

/-- Convert an integer. -/
def Fmt.ofInt (f : Fmt) (rm : Nat) (ftz : Bool) (v : Int) : Nat × Nat :=
  if v = 0 then (f.zero false, 0) else f.round rm ftz (decide (v < 0)) v.natAbs 0 false

/-- Convert a value of format g into format f; a NaN keeps the upper bits of its payload. -/
def Fmt.convert (f g : Fmt) (rm : Nat) (ftz : Bool) (a : FV) : Nat × Nat :=
  match a with
  | .nan b =>
    let q := g.quiet b
    let pl := q % 2 ^ g.mb
    let pl := if f.mb ≤ g.mb then pl / 2 ^ (g.mb - f.mb) else pl * 2 ^ (f.mb - g.mb)
    (f.infBits (b.testBit (g.width - 1)) + pl, b2n (g.signals b))
  | .inf s => (f.infBits s, 0)
  | .fin s m e => if m = 0 then (f.zero s, 0) else f.round rm ftz s m e false

end Sys2Proof.Machine
end

