-- ==== Sys2Proof/Machine/Operands.lean ====
section
/-!
DEFINITION. Plait's registers and operand forms (R225–R231, R236, R237): the register files, the fields of an instruction with the
illegal-instruction rule, sizes, sign extension, effective-address sums and packed-decimal operands.
-/
namespace Sys2Proof.Machine

/-- A thread's record. -/
def Dev.th (d : Dev) (k : Nat) : Thr := Tab.get {} d.thr.t k

/-- Change a thread's record. -/
def Dev.updThr (d : Dev) (k : Nat) (f : Thr → Thr) : Dev := { d with thr := { d.thr with t := Tab.set {} d.thr.t k (f (d.th k)) } }

/-- The configurations of Table 10-1. -/
inductive Kind where
  | handle | engine | stake
  deriving DecidableEq, Repr

/-- The configuration a thread belongs to. -/
def kindOf : ThreadId → Kind
  | .handle => .handle
  | .engine _ _ => .engine
  | .stake _ => .stake

/-- Width of an effective address (Table 10-1). -/
def Kind.eaw : Kind → Nat
  | .handle => 44
  | .engine => 24
  | .stake => 42

/-! ### Register files (R227) -/

/-- g[n]: g0 reads 0. -/
def Thr.gr (t : Thr) (n : Nat) : Nat := if n = 0 then 0 else Tab.get 0 t.g n

/-- Write g[n]: writes to g0 are discarded. -/
def Thr.setG (t : Thr) (n v : Nat) : Thr := if n = 0 then t else { t with g := Tab.set 0 t.g n (v % 2 ^ 64) }

/-- f[n]. -/
def Thr.fr (t : Thr) (n : Nat) : Nat := Tab.get 0 t.f n

/-- Write f[n]. -/
def Thr.setF (t : Thr) (n v : Nat) : Thr := { t with f := Tab.set 0 t.f n (v % 2 ^ 64) }

/-- p[n]: p0 reads 1. -/
def Thr.pr (t : Thr) (n : Nat) : Bool := n == 0 || bit t.p n

/-- Write p[n]: writes to p0 are discarded. -/
def Thr.setP (t : Thr) (n : Nat) (b : Bool) : Thr :=
  if n = 0 || 7 < n then t else { t with p := t.p - (if bit t.p n then 2 ^ n else 0) + (if b then 2 ^ n else 0) }

/-- p7…p0 in bits [7:0], with bit 0 read as 1. -/
def Thr.preds (t : Thr) : Nat := t.p / 2 % 128 * 2 + 1

/-- b[n]. -/
def Thr.br (t : Thr) (n : Nat) : Nat := Tab.get 0 t.b n

/-- Write b[n]. -/
def Thr.setB (t : Thr) (n v : Nat) : Thr := { t with b := Tab.set 0 t.b n (v % 2 ^ 64) }

/-- Reset value of a control register: zero, but for region entries 0 and 1 (R285). -/
def ctlRst (n : Nat) : Nat :=
  if n = 0x140 then 0xB
  else if n = 0x141 then 0x03FFFFFF * 4096
  else if n = 0x142 then 5 + 0xF0000000 * 4096
  else if n = 0x143 then 0xF00000FF * 4096
  else 0

/-- A control register in a table of them. -/
def ctlGet (c : Tab Nat) (n : Nat) : Nat := Tab.get (ctlRst n) c n

/-- Write a control register in a table. -/
def ctlPut (c : Tab Nat) (n v : Nat) : Tab Nat := Tab.set (ctlRst n) c n v

/-- A thread's control register as its last applied write left it. -/
def Thr.cr (t : Thr) (n : Nat) : Nat := ctlGet t.ctl n

/-- Write a thread's control register. -/
def Thr.setCr (t : Thr) (n v : Nat) : Thr := { t with ctl := ctlPut t.ctl n v }

/-- STATUS.LVL (Table 11-3). -/
def Thr.lvl (t : Thr) : Nat := bits (t.cr 0) 3 2

/-- STATUS.REL. -/
def Thr.rel (t : Thr) : Bool := bit (t.cr 0) 4

/-- A HOLD window is open. -/
def Thr.held (t : Thr) : Bool := bit (t.cr 0) 5

/-- g(28 + j) of bank b: the live register for the bank in use (R258, Table 11-4). -/
def Thr.bankG (t : Thr) (b j : Nat) : Nat := if b = t.lvl then t.gr (28 + j) else Tab.get 0 t.bg (4 * b + j)

/-- Write g(28 + j) of bank b. -/
def Thr.setBankG (t : Thr) (b j v : Nat) : Thr :=
  if b = t.lvl then t.setG (28 + j) v else { t with bg := Tab.set 0 t.bg (4 * b + j) (v % 2 ^ 64) }

/-- Write STATUS, bringing in g28–g31 of the bank its LVL selects. -/
def Thr.toStatus (t : Thr) (v : Nat) : Thr :=
  let o := t.lvl
  let n := bits v 3 2
  let t' := t.setCr 0 (v % 64)
  if o = n then t'
  else
    let bg := (List.range 4).foldl (fun b j => Tab.set 0 (Tab.set 0 b (4 * o + j) (t.gr (28 + j))) (4 * n + j) 0) t.bg
    (List.range 4).foldl (fun a j => a.setG (28 + j) (Tab.get 0 t.bg (4 * n + j))) { t' with bg := bg }

/-! ### Fields of an instruction (R230, Table 10-5) -/

/-- An instruction's fields: CLASS, FN and the others as Table 10-5 places them, with what the memory system meets as it runs. -/
structure PIns where
  gp : Nat
  gs : Bool
  l : Bool
  cls : Nat
  rd : Nat
  x : Bool
  ra : Nat
  rb : Nat
  fn : Nat
  imm : Nat
  env : MemEnv
  deriving DecidableEq, Repr

/-- Length in words. -/
def PIns.len (i : PIns) : Nat := if i.l then 3 else 2

/-- Bits [31:16] as one field. -/
def PIns.arg (i : PIns) : Nat := i.ra + 32 * i.rb + 1024 * i.fn

/-- A register-form operand as an instruction of a class with a FN. -/
def ofReg (a : PReg) (cls fn : Nat) : PIns :=
  ⟨a.gp.toNat, a.gs, a.l, cls, a.rd.toNat, a.x, a.ra.toNat, a.rb.toNat, fn, a.imm.toNat, a.env⟩

/-- A one-operand form (branch, short absolute, immediate, system) of a class. -/
def ofArg (a : PArg) (cls : Nat) : PIns :=
  ⟨a.gp.toNat, a.gs, a.l, cls, a.rd.toNat, a.x, a.arg.toNat % 32, a.arg.toNat / 32 % 32, a.arg.toNat / 1024, a.imm.toNat, a.env⟩

/-- A system instruction: RD is the sub-operation (Table 10-8). -/
def ofSys (a : PArg) (sub : Nat) : PIns := { ofArg a 0xF with rd := sub }

/-- A cache operation: RD is the operation (Table 12-7). -/
def ofCache (a : PReg) (op : Nat) : PIns := { ofReg a 4 24 with rd := op }

/-- The instruction a 48-bit value holds (R230). -/
def rawIns (v : Nat) : PIns :=
  let l := bit v 4
  ⟨bits v 2 0, bit v 3, l, bits v 9 5, bits v 14 10, bit v 15, bits v 20 16, bits v 25 21, bits v 31 26,
   if l then bits v 47 32 else 0, {}⟩

/-- PT and MODE in RD. -/
def PIns.pt (i : PIns) : Nat := i.rd % 8
def PIns.mode (i : PIns) : Nat := i.rd / 8

/-- Sign extension from w bits to 64. -/
def sext (w v : Nat) : Nat := wrapI 64 (sgn w v)

/-- The second operand of INT, CMP and MEM: RB, or the sign-extended IMM16 (Tables 10-6, 10-9). -/
def PIns.opB (i : PIns) (t : Thr) : Nat := if i.l then sext 16 i.imm else t.gr i.rb

/-- The operand of IMM and BR: bits [31:16], in three words bits [47:16], sign-extended. -/
def PIns.disp (i : PIns) : Nat := if i.l then sext 32 (i.arg + 65536 * i.imm) else sext 16 i.arg

/-- Words of a size code. -/
def szWords (sz : Nat) : Nat := if sz = 0 then 1 else if sz = 1 then 2 else 4

/-- The operations the classes assign (Tables 10-6 to 10-8), with fields not used 0 (R231). -/
def PIns.assigned (k : Kind) (i : PIns) : Bool :=
  let immOk := !i.l || i.rb == 0
  let op := i.fn / 4
  let sz := i.fn % 4
  match i.cls with
  | 0 =>
    if i.fn ≤ 13 then immOk
    else if i.fn ≤ 19 then !i.l && i.rb == 0
    else if i.fn = 22 then !i.l && i.rb == 0 && i.ra == 0
    else i.fn == 23 && !i.l && i.rb == 0 && i.rd == 0
  | 1 => i.l || !i.x
  | 2 =>
    !i.l && !i.x &&
    (if i.fn ≤ 5 then i.rd == 0
     else if i.fn ≤ 7 then i.ra == 0 && i.rb == 0
     else decide (i.fn ≤ 9) && i.rd == 0 && i.rb == 0)
  | 3 =>
    decide (i.mode ≠ 3) &&
    (if i.fn ≤ 7 then immOk
     else decide (16 ≤ i.fn ∧ i.fn ≤ 19) && !i.l && !i.x && decide (i.ra < 8) && decide (i.rb < 8))
  | 4 =>
    decide (sz ≠ 3) && (!i.l || (i.rb == 0 && !i.x)) &&
    (if op = 0 ∨ op = 2 then true
     else if op = 1 then decide (sz ≤ 1)
     else if op = 3 ∨ op = 4 then decide (1 ≤ sz) && decide (k ≠ .handle)
     else if op = 5 then i.rd == 0
     else op == 6 && sz == 0 && [0, 1, 2, 3, 4, 8, 9, 10, 11, 16, 17, 18].contains i.rd)
  | 5 | 6 | 7 => !i.l
  | 8 =>
    decide (k ≠ .handle) && !i.x && immOk &&
    (if i.fn = 0 then decide (i.mode ≠ 3) else if i.fn ≤ 3 then i.mode == 0 else decide (i.fn ≤ 5))
  | 9 => true
  | 10 => !i.l && i.fn == 0 && i.rb == 0
  | 11 => !i.l && !i.x && (i.fn / 8 == 0 || i.fn % 8 == 3)
  | 12 =>
    !i.l &&
    (if i.fn % 8 ≤ 1 then true
     else if i.fn % 8 = 2 then !i.x && i.rd == 0 && i.rb == 0
     else if i.fn % 8 = 3 then !i.x && i.rb == 0 && i.fn / 8 == 0
     else i.fn % 8 == 4 && !i.x && i.rb == 0)
  | 13 =>
    decide (k ≠ .handle) && !i.l &&
    (if i.fn ≤ 9 then decide (i.fn ≠ 4) || i.rb == 0
     else if i.fn ≤ 12 then i.rb == 0
     else if i.fn ≤ 15 then false
     else if i.fn ≤ 23 then i.rb == 0
     else decide (i.fn ≤ 27) && decide (i.mode ≠ 3))
  | 14 =>
    !i.l && !i.x && (sz == 1 || sz == 2) && decide (op ≤ 6) && (decide (op ≠ 0) || i.rb == 0) && (decide (op ≠ 1) || i.mode == 0)
  | 15 =>
    !i.l && !i.x &&
    (if i.rd = 1 ∨ i.rd = 12 then decide (i.arg < 4096)
     else if i.rd = 3 then decide (i.arg < 4)
     else if i.rd = 4 ∨ i.rd = 5 then decide (i.arg < 32768)
     else if i.rd = 8 then decide (k = .stake) && decide (1 ≤ i.arg) && decide (i.arg ≤ 4096)
     else if i.rd = 9 then decide (k = .stake) && i.arg == 0
     else decide (i.rd ≤ 11) && i.arg == 0)
  | _ => false

/-- R231: an instruction that raises no illegal-instruction fault by its fields. -/
def PIns.legal (k : Kind) (i : PIns) : Bool := !(i.gs && i.gp == 0) && i.assigned k

/-- Instructions that may not stand in a delay slot (R234). -/
def PIns.noSlot (i : PIns) : Bool :=
  i.cls == 9 || i.cls == 10 || i.cls == 11 || (i.cls == 15 && [1, 2, 8, 9, 10, 11, 12].contains i.rd)

/-- The guard (R232). -/
def PIns.guard (i : PIns) (t : Thr) : Bool := t.pr i.gp != i.gs

/-- The effective address of MEM and BIT (Table 10-9), modulo 2^64. -/
def PIns.ea (i : PIns) (t : Thr) (n : Nat) : Nat := wadd 64 (t.gr i.ra) (if i.x then i.opB t * n else i.opB t)

/-- A short absolute address (Table 10-9). -/
def PIns.sha (i : PIns) (t : Thr) : Nat := t.br (bits i.arg 15 13) / 8192 * 8192 + bits i.arg 12 0

/-! ### Integer operations (R236) -/

/-- INT on w-bit operands. -/
def aluW (w fn a b : Nat) : Nat :=
  let n := b % w
  match fn with
  | 0 => wadd w a b
  | 1 => wsub w a b
  | 2 => a &&& b
  | 3 => a ||| b
  | 4 => a ^^^ b
  | 5 => a &&& (2 ^ w - 1 - b)
  | 6 => a * 2 ^ n % 2 ^ w
  | 7 => a / 2 ^ n
  | 8 => wrapI w (sgn w a / (2 ^ n : Nat))
  | 9 => (a * 2 ^ n % 2 ^ w) ||| (a / 2 ^ (w - n))
  | 10 => if sgn w a ≤ sgn w b then a else b
  | 11 => if sgn w a ≤ sgn w b then b else a
  | 12 => min a b
  | 13 => max a b
  | 14 => wrapI w (sgn 16 a)
  | 15 => wrapI w (sgn 32 a)
  | 16 => a % 2 ^ 16
  | 17 => a % 2 ^ 32
  | 18 => if a = 0 then w else w - 1 - Nat.log2 a
  | _ => popc w a

/-- INT: with X = 1 on bits [31:0], the result sign-extended from bit 31. -/
def alu (x : Bool) (fn a b : Nat) : Nat :=
  if x then sext 32 (aluW 32 fn (a % 2 ^ 32) (b % 2 ^ 32)) else aluW 64 fn a b

/-! ### Packed decimal (R244) -/

/-- A nibble above 9 among the n low nibbles of v. -/
def badDigits (n v : Nat) : Bool := !allDigits n v

/-- Decimal sum of n digits with a carry: the sum and the carry out. -/
def digAdd (n a b c : Nat) : Nat × Bool :=
  let s := bcdVal n a + bcdVal n b + c
  (toBcd n (s % 10 ^ n), decide (10 ^ n ≤ s))

/-- Decimal difference of n digits with a borrow: the difference and the borrow out. -/
def digSub (n a b c : Nat) : Nat × Bool :=
  let x := bcdVal n a
  let y := bcdVal n b + c
  (toBcd n (if x < y then x + 10 ^ n - y else x - y), decide (x < y))

/-! ### Multiplier and divider (R238) -/

/-- mh and ml after MUL, MULU, MAC, MACU, DIV or DIVU (fn 0…5) of a and b, mh:ml before being m. -/
def mulDiv (fn a b m : Nat) : Nat × Nat :=
  let sp := wrapI 128 (sgn 64 a * sgn 64 b)
  let split := fun p => (p / 2 ^ 64, p % 2 ^ 64)
  match fn with
  | 0 => split sp
  | 1 => split (a * b)
  | 2 => split (wadd 128 m sp)
  | 3 => split (wadd 128 m (a * b))
  | 4 => if b = 0 then (a, 0) else (wrapI 64 ((sgn 64 a).tmod (sgn 64 b)), wrapI 64 ((sgn 64 a).tdiv (sgn 64 b)))
  | _ => if b = 0 then (a, 0) else (a % b, a / b)

end Sys2Proof.Machine
end

