-- ==== Sys2Proof/Machine/Flags.lean ====
section
/-!
DEFINITION. Plait's predicates and floating-point flags: what a compare writes to a predicate (R236), the comparisons themselves, and
how FPSR, FPCR.TE and the pending FP trap collect the flags of an FP instruction (R229, R245, R268).
-/
namespace Sys2Proof.Machine

/-- A compare's result under MODE: 0 sets PT, 1 ands, 2 ors (R236). -/
def Thr.cmpTo (t : Thr) (pt mode : Nat) (c : Bool) : Thr :=
  t.setP pt (if mode = 0 then c else if mode = 1 then t.pr pt && c else t.pr pt || c)

/-- The integer comparisons, on w-bit operands. -/
def cmpW (w fn a b : Nat) : Bool :=
  match fn with
  | 0 => a == b
  | 1 => a != b
  | 2 => decide (sgn w a < sgn w b)
  | 3 => decide (sgn w b ≤ sgn w a)
  | 4 => decide (a < b)
  | 5 => decide (b ≤ a)
  | 6 => a &&& b != 0
  | _ => a &&& b == 0

/-- CMP: with X = 1 on bits [31:0]. -/
def cmpOp (x : Bool) (fn a b : Nat) : Bool := if x then cmpW 32 fn (a % 2 ^ 32) (b % 2 ^ 32) else cmpW 64 fn a b

/-- Predicate logic (fn 16…19). -/
def predOp (fn : Nat) (a b : Bool) : Bool :=
  match fn with
  | 16 => a && b
  | 17 => a || b
  | 18 => a != b
  | _ => a && !b

/-- Bits of FPSR that a flag set raises: NV, DZ, OF, UF, IX from bit 0. -/
def Thr.fpFlags (t : Thr) (fl : Nat) : Thr := t.setCr 0x011 (t.cr 0x011 ||| (fl % 32))

/-- Flags whose trap is enabled (FPCR.TE, bits [12:8]). -/
def Thr.fpTraps (t : Thr) (fl : Nat) : Nat := fl % 32 &&& bits (t.cr 0x010) 12 8

/-- An FP instruction at pc raised flags: they are sticky in FPSR, and on a stake core the enabled ones set an FP trap pending, the
first one's PC being kept (R268). -/
def Thr.fpRaise (t : Thr) (k : Kind) (pc fl : Nat) : Thr :=
  let t := t.fpFlags fl
  let e := t.fpTraps fl
  if k ≠ .stake ∨ e = 0 then t
  else match t.fpt with
    | some (p, u, n) => { t with fpt := some (p, u ||| e, n) }
    | none => { t with fpt := some (pc, e, 0) }

end Sys2Proof.Machine
end

