-- ==== Sys2Proof/Machine/StakeMem.lean ====
section
/-!
DEFINITION. A stake core's accesses (R225, R226, R240, R242, R243, R277–R295): translation with its walk and accessed/dirty updates,
regions, watch units, split accesses, loads through the buffers and caches, stores into the buffers, atomics, cache maintenance,
fences and instruction fetch.
-/
namespace Sys2Proof.Machine

/-- How an instruction fails: a synchronous cause of Table 11-5 with EADDR, EINFO and HALF2; a watch unit that halts before it; a load
that got an error response, absent or uncorrectable data (R295). -/
inductive Fail where
  | exc (code addr info : Nat) (half2 : Bool)
  | halt (unit : Nat)
  | err
  deriving DecidableEq, Repr

/-- The result of a part of an instruction. -/
inductive Res (α : Type) where
  | ok (d : Dev) (a : α)
  | bad (d : Dev) (f : Fail)

/-- Go on with a result. -/
def Res.bind {α β : Type} (r : Res α) (f : Dev → α → Res β) : Res β :=
  match r with
  | .ok d a => f d a
  | .bad d e => .bad d e

/-- Mark a failure as one of the second half of a split access. -/
def Res.second {α : Type} (r : Res α) : Res α :=
  match r with
  | .bad d (.exc c a i _) => .bad d (.exc c a i true)
  | r => r

/-- Accesses to control space, given to the cores: requester, word offset, words, and for a write the value; a read of a target that
answers with an error gives none. -/
structure Io where
  read : Dev → Requester → Nat → Nat → Dev × Option Nat
  write : Dev → Requester → Nat → Nat → Nat → Dev × Bool

/-- What one instruction runs under: its thread, whether a debugger's EXEC runs it, the control registers as it sees them (R228), its
privilege, its PC, and what the memory system meets. -/
structure Cx where
  t : ThreadId
  exec : Bool
  ctl : Tab Nat
  user : Bool
  pc : Nat
  env : MemEnv
  io : Io
  /-- Loads performed ahead, of which this instruction may take one (R292). -/
  ahead : List Ahead := []

/-- The thread's key. -/
def Cx.k (cx : Cx) : Nat := tid cx.t

/-- The stake core's number. -/
def Cx.core (cx : Cx) : Nat :=
  match cx.t with
  | .stake c => c.val
  | _ => 0

/-- The requester that the thread's control-space accesses come from. -/
def Cx.req (cx : Cx) : Requester :=
  match cx.t with
  | .stake c => .stake c
  | _ => .handle

/-! ### Regions and translation (R277–R283) -/

/-- Kinds of access the check of R279 tells apart. -/
inductive Acc where
  | fetch | load | store | rmw
  deriving DecidableEq, Repr

/-- Region kinds (Table 12-4): 0 cacheable, 1 streaming, 2 uncached, 3 device; none where no valid entry holds the address or the
combination is reserved. -/
def regionKind (ctl : Tab Nat) (pa : Nat) : Option Nat :=
  let pg := pa / 4096
  match (List.range 32).find? (fun r =>
      bit (ctlGet ctl (0x140 + 2 * r)) 0 && decide (bits (ctlGet ctl (0x140 + 2 * r)) 43 12 ≤ pg) && decide (pg ≤ bits (ctlGet ctl (0x141 + 2 * r)) 43 12)) with
  | none => none
  | some r =>
    let v := ctlGet ctl (0x140 + 2 * r)
    match bit v 1, bit v 2, bit v 4 with
    | true, false, false => some 0
    | true, false, true => some 1
    | false, false, _ => some 2
    | false, true, false => some 3
    | _, _, _ => none

/-- What translation answers: physical address, whether the page is global, the update of A and D that the leaf still needs (R280), and the
translation to cache. -/
structure Leaf where
  pa : Nat
  glob : Bool
  upd : Option (Nat × Nat)
  ent : Option TlbEnt
  deriving DecidableEq, Repr

/-- A translated access: physical address, region kind, whether its page is global, and the translation it was made with. -/
structure Tr where
  pa : Nat
  kind : Nat
  glob : Bool
  ent : Option TlbEnt := none
  deriving DecidableEq, Repr

/-- A translation fault (Table 12-3). -/
def tFault {α : Type} (d : Dev) (va info lvl sub : Nat) : Res α := .bad d (.exc 0x09 va (info + lvl * 256 + sub * 1024) false)

/-- The permission check of R279: the sub-cause of a refusal. -/
def permSub (e : Nat) (acc : Acc) (user : Bool) : Option Nat :=
  let r := bit e 2
  let w := bit e 3
  let x := bit e 4
  let u := bit e 5
  if acc = .fetch ∧ !x then some 2
  else if (acc = .load ∨ acc = .rmw) ∧ !r then some 0
  else if (acc = .store ∨ acc = .rmw) ∧ !w then some 1
  else if user && !u then some 3
  else if !user && u && acc == .fetch then some 5
  else none

/-- One quad of a table through the cluster L2 (R278), in a region of the kind given; none where the read fails. -/
def Dev.tableQuad (d : Dev) (cx : Cx) (kind pa : Nat) : Dev × Option Nat :=
  match d.takeL2 cx.core cx.env (pa / 32) (kind == 1) (kind == 0 && !bit (ctlGet cx.ctl 0x100) 2) with
  | (d, .sound) => (d, some (d.wordsAt pa 4))
  | (d, _) => (d, none)

/-- A leaf entry with A, or A and D, set as an access needs them (R280). -/
def withAd (e : Nat) (acc : Acc) : Nat := e ||| (if acc = .store ∨ acc = .rmw then 0x180 else 0x80)

/-- The physical address a leaf gives (R278). -/
def leafPa (e lvl va : Nat) : Nat :=
  let m := if lvl = 3 then 0xFFF else 0x3FFFFF
  bits e 43 12 * 4096 ||| va % (m + 1)

/-- The walk of R278 from a level down: the leaf's address, its content before the update of R280, and its level. -/
def Dev.walk (d : Dev) (cx : Cx) (acc : Acc) (info va : Nat) : Nat → Nat → Nat → Res (Nat × Nat × Nat)
  | 0, _, _ => tFault d va info 3 0
  | n + 1, lvl, t =>
    let ea := t + 4 * bits va (51 - 10 * lvl) (42 - 10 * lvl)
    match regionKind cx.ctl t with
    | some 0 | some 1 =>
      let (d, q) := d.tableQuad cx ((regionKind cx.ctl t).getD 0) ea
      (match q with
      | none => tFault d va info lvl 4
      | some e =>
        if !bit e 0 then tFault d va info lvl 0
        else if bits e 63 44 ≠ 0 then tFault d va info lvl 1
        else if !bit e 1 then
          if bits e 8 2 ≠ 0 then tFault d va info lvl 1
          else Dev.walk d cx acc info va n (lvl + 1) (bits e 43 12 * 4096)
        else if lvl = 1 then tFault d va info lvl 2
        else if bit e 3 && !bit e 2 then tFault d va info lvl 1
        else if lvl = 2 && bits e 21 12 ≠ 0 then tFault d va info lvl 3
        else match permSub e acc cx.user with
          | some s => .bad d (.exc 0x0A va (info + lvl * 256 + s * 1024) false)
          | none => .ok d (ea, e, lvl))
    | _ => tFault d va info lvl 4

/-- Page number of an address at a leaf level. -/
def vpnOf (va lvl : Nat) : Nat := if lvl = 3 then va / 4096 else va / 4194304

/-- A cached translation covers an address under an ASID (R281). -/
def TlbEnt.covers (e : TlbEnt) (va asid : Nat) : Bool := vpnOf va e.lvl == e.vpn && (e.asid == asid || bit e.pte 6)

/-- The attributes of a translated address (R283). -/
def Dev.attr (d : Dev) (cx : Cx) (acc : Acc) (info va : Nat) (l : Leaf) : Res Tr :=
  match regionKind cx.ctl l.pa with
  | none => .bad d (.exc 0x0B va info false)
  | some k => if acc = .fetch ∧ k = 3 then .bad d (.exc 0x0B va (info + 1024) false) else .ok d ⟨l.pa, k, l.glob, l.ent⟩

/-- Translate an address and check its permission (R277–R281), the update of R280 not made yet. Whether a translation already cached is used, or the
table walked, is left open (R281): where cached ones match, a free value chooses. -/
def Dev.leafOf (d : Dev) (cx : Cx) (acc : Acc) (info va : Nat) : Res Leaf :=
  if 2 ^ 42 ≤ va then .bad d (.exc 0x05 va info false)
  else if !bit (ctlGet cx.ctl 0x100) 0 then
    if cx.user then .bad d (.exc 0x0A va (info + 4 * 1024) false)
    else .ok d ⟨if bit va 41 then va + 3 * 2 ^ 42 else va, false, none, none⟩
  else
    let asid := ctlGet cx.ctl 0x102
    let st := acc == .store || acc == .rmw
    let l := (Tab.get [] d.mem.tlb cx.core).filter (fun e => e.covers va asid && (!st || bit e.pte 8))
    let pick := if l.isEmpty then none else l[d.freeVal.toNat % (l.length + 1)]?
    let d := if l.isEmpty then d else d.drawn
    match pick with
    | some e =>
      (match permSub e.pte acc cx.user with
      | some s => .bad d (.exc 0x0A va (info + e.lvl * 256 + s * 1024) false)
      | none => .ok d ⟨leafPa e.pte e.lvl va, bit e.pte 6, none, some e⟩)
    | none =>
      (d.walk cx acc info va 3 1 (bits (ctlGet cx.ctl 0x101) 43 12 * 4096)).bind fun d r =>
        let e := withAd r.2.1 acc
        .ok d ⟨leafPa e r.2.2 va, bit e 6, if e = r.2.1 then none else some (r.1, e), some ⟨vpnOf va r.2.2, r.2.2, asid, e⟩⟩

/-- An access that is no longer speculative updates its leaf with one read-modify-write (R280), and its translation is cached (R281). -/
def Dev.settleLeaf (d : Dev) (cx : Cx) (l : Leaf) : Dev :=
  let d := match l.upd with
    | some (ea, e) => d.writeWords ea 4 e (4096 + cx.core)
    | none => d
  match l.ent with
  | some e =>
    let old := Tab.get [] d.mem.tlb cx.core
    if old.contains e then d else { d with mem := { d.mem with tlb := Tab.set [] d.mem.tlb cx.core (old ++ [e]) } }
  | none => d

/-- Translate an address of one access (R277–R283). -/
def Dev.translate (d : Dev) (cx : Cx) (acc : Acc) (info va : Nat) : Res Tr :=
  (d.leafOf cx acc info va).bind fun d l => (d.settleLeaf cx l).attr cx acc info va l

/-! ### Break and watch units (R371) -/

/-- Whether some transport holds full (R371). -/
def Dev.fullHeld (d : Dev) : Bool := d.get DBG_STATUS_LVL0 == 2 || d.get DBG_STATUS_LVL1 == 2

/-- Bounds of unit u, or none where the even unit below takes it as its high bound. -/
def Dev.unitRange (d : Dev) (c u : Nat) : Option (Nat × Nat) :=
  let lo := d.get (DBG_BW_ADDR_ADDR c u)
  if u % 2 = 1 then (if d.on (DBG_BW_CTL_RANGE c (u - 1)) then none else some (lo, lo))
  else if d.on (DBG_BW_CTL_RANGE c u) then some (lo, d.get (DBG_BW_ADDR_ADDR c (u + 1)))
  else some (lo, lo)

/-- The first word of [va, va + n) that unit u of core c matches, for one of the types given. -/
def Dev.unitMatch (d : Dev) (cx : Cx) (types : List Nat) (va n : Nat) (glob : Bool) (u : Nat) : Option Nat :=
  let c := cx.core
  match d.unitRange c u with
  | none => none
  | some (lo, hi) =>
    if types.contains (d.get (DBG_BW_CTL_TYPE c u)) && bit (d.get (DBG_BW_CTL_PRIV c u)) (if cx.user then 0 else 1) &&
       (!d.on (DBG_BW_CTL_ASIDEN c u) || glob || d.get (DBG_BW_CTL_ASID c u) == ctlGet cx.ctl 0x102) &&
       (!d.on (DBG_BW_CTL_LINKEN c u) || d.on (DBG_BW_CTL_HIT c (d.get (DBG_BW_CTL_LINK c u)))) &&
       decide (max va lo ≤ min (va + n - 1) hi) then some (max va lo)
    else none

/-- The units that an access or an instruction matches: each sets HIT; ACTION 1 traps, and with it goes a halt that ACTION 0 asks for, taken at the
next boundary (R261); else ACTION 0 halts, or waits for the end of a HOLD window, which holds no trap (R267). A debugger's EXEC matches none. -/
def Dev.units (d : Dev) (cx : Cx) (types : List Nat) (va n : Nat) (glob : Bool) : Res Unit :=
  if cx.exec then .ok d ()
  else
    let c := cx.core
    let m := (List.range 8).filterMap (fun u => (d.unitMatch cx types va n glob u).map (fun a => (u, a)))
    let act := fun u => if d.get (DBG_BW_CTL_ACTION c u) = 0 ∧ !d.fullHeld then 2 else d.get (DBG_BW_CTL_ACTION c u)
    let d := m.foldl (fun d x => d.putB (DBG_BW_CTL_HIT c x.1) true) d
    let asked := fun (d : Dev) u => d.updThr cx.k (fun t => { t with haltReq := some (t.haltReq.getD (4, u)) })
    match m.find? (fun x => act x.1 == 1), m.find? (fun x => act x.1 == 0) with
    | some x, some y => .bad (asked d y.1) (.exc 0x0C x.2 x.1 false)
    | some x, none => .bad d (.exc 0x0C x.2 x.1 false)
    | none, some y => if (d.th cx.k).held then .ok (asked d y.1) () else .bad d (.halt y.1)
    | none, none => .ok d ()

/-! ### Lines through the caches (R287–R290, R295) -/

/-- A load of a line failed: the record, and the machine check pending. -/
def Dev.loadErr {α : Type} (d : Dev) (c pa : Nat) (absent : Bool) : Res α := .bad (d.lostAccess c pa absent) .err

/-- Core c's cluster takes the line of a physical address, of a region of the kind given, for a demand access (R288–R290, R298). -/
def Dev.demandL2 (d : Dev) (cx : Cx) (kind pa : Nat) : Res Unit :=
  match d.takeL2 cx.core cx.env (pa / 32) (kind == 1) (kind == 0 && !bit (ctlGet cx.ctl 0x100) 2) with
  | (d, .sound) => .ok d ()
  | (d, .absent) => d.loadErr cx.core pa true
  | (d, .bad) => d.loadErr cx.core pa false

/-- A line that core c's cluster holds sound enters its L1D. -/
def Dev.prefetchL1 (d : Dev) (c : Nat) (env : MemEnv) (ln : Nat) : Dev :=
  let d := d.prefetchL2 c env ln
  match Tab.find d.mem.l2 ln with
  | some l => if l.poison || !l.holders.any (fun h => h.1 == c / 4) then d else d.fillL1d c ln
  | none => d

/-- Words [pa, pa + n) and the place of a load performed ahead overlap. -/
def Ahead.overlaps (a : Ahead) (pa n : Nat) : Bool := decide (a.pa < pa + n) && decide (pa < a.pa + a.n)

/-- An access of core c to words [pa, pa + n) leaves no load ahead of it there (R292, case 1). -/
def Dev.passed (d : Dev) (c pa n : Nat) : Dev :=
  if (d.th (4096 + c)).ahead.any (fun a => a.overlaps pa n) then
    d.updThr (4096 + c) (fun t => { t with ahead := t.ahead.filter (fun a => !a.overlaps pa n) })
  else d

/-- Core c performs a load ahead of its place (R292): of a line in a cacheable region that its cluster has or can have sound, and of words that no
store of its own waits for. Tables, registers and the buffers stay as they are (R254). -/
def Dev.lookAhead (d : Dev) (ctl : Tab Nat) (c : Nat) (env : MemEnv) (a : LookAhead) : Dev :=
  let pa := a.pa.toNat
  let n := 2 ^ a.sz.val
  let ln := pa / 32
  let mine := (d.bufOf c 0 ++ d.bufOf c 1).any (fun e => e.line == ln && e.words.any (fun w => decide (pa % 32 ≤ w.1) && decide (w.1 < pa % 32 + n)))
  if regionKind ctl pa ≠ some 0 || isControl pa || decide (32 < pa % 32 + n) || mine then d
  else
    let d := d.prefetchL1 c env ln
    if (Tab.find d.mem.l1d (l1Key c ln)).isSome then
      let x : Ahead := ⟨a.ra.toNat, a.rb.toNat, pa, n, d.wordsAt pa n⟩
      d.updThr (4096 + c) (fun t => { t with ahead := t.ahead ++ [x] })
    else d

/-- Loads performed ahead that an instruction leaves ahead: a fence other than FENCE.S keeps none, and one whose address comes from a register that
the instruction writes, or may write, is performed again (R292, cases 3 and 4). -/
def Thr.keepAhead (t : Thr) (i : PIns) : Thr :=
  if t.ahead.isEmpty then t
  else
    let wr := if i.cls = 11 then [i.rd, i.ra, i.rb] else [i.rd]
    { t with ahead :=
      if i.cls = 15 then (if i.rd = 3 && i.arg == 1 then t.ahead else [])
      else t.ahead.filter (fun a => !wr.any (fun r => r != 0 && (r == a.ra || r == a.rb))) }

/-- A line of an uncached region is read (Table 12-4), coherently with every L2. -/
def Dev.uncachedLine (d : Dev) (cx : Cx) (pa : Nat) : Res Unit :=
  let c := cx.core
  let ln := pa / 32
  if cx.env.absent then d.loadErr c pa true
  else if (Tab.find d.mem.l2 ln).isNone && !d.memOk (.stake c) (32 * ln) 32 false then (d.memRefuse (.stake c) (32 * ln) 32 false).loadErr c pa false
  else
    let (d, bad) := d.readCoherent ln (burstOf cx.env.dram ln) c
    if bad then d.loadErr c pa false else .ok d ()

/-- Load n words that lie within one line, at a physical address of a region kind (R284, R287–R289, R292). -/
def Dev.lineLoad (d : Dev) (cx : Cx) (kind pa n : Nat) : Res Nat :=
  let c := cx.core
  let ln := pa / 32
  let o := pa % 32
  let inside := fun (w : Nat × Nat × Nat) => decide (o ≤ w.1) && decide (w.1 < o + n)
  let ws := ((d.bufOf c 0 ++ d.bufOf c 1).filter (fun e => e.line == ln)).flatMap (fun e => e.words.filter inside)
  let one := ws.all (fun w => w.2.2 == (ws.getD 0 (0, 0, 0)).2.2)
  let d := d.passed c pa n
  match (if kind = 0 then cx.ahead.find? (fun a => a.pa == pa && a.n == n) else none) with
  | some a => .ok d a.v
  | none =>
    if kind ≠ 3 && ws.length == n && one then
      .ok d (sumN (ws.map (fun w => w.2.1 * 65536 ^ (w.1 - o))))
    else
      let d := if ws.isEmpty then d else d.drainLines c (fun x => x == ln) cx.env
      if isControl pa && kind ≠ 3 then d.loadErr c pa false
      else if isControl pa then
        if cx.env.absent then d.loadErr c pa true
        else match cx.io.read d cx.req (pa - 0x0F0000000000) n with
          | (d, some v) => .ok d v
          | (d, none) => d.loadErr c pa true
      else if kind = 0 then
        let d := match Tab.find d.mem.l1d (l1Key c ln) with
          | some w => if cx.env.l1d.any (fun x => x.toNat == ln) then (d.dropL1d c ln).wayError 1 c w else d
          | none => d
        if (Tab.find d.mem.l1d (l1Key c ln)).isSome then .ok d (d.wordsAt pa n)
        else (d.demandL2 cx 0 pa).bind fun d _ =>
          let v := d.wordsAt pa n
          let d := d.fillL1d c ln
          .ok (if !bit (ctlGet cx.ctl 0x100) 1 && (ln + 1) % 128 != 0 then d.prefetchL1 c cx.env (ln + 1) else d) v
      else if kind = 1 then
        if (Tab.find d.mem.l1d (l1Key c ln)).isSome then .ok d (d.wordsAt pa n)
        else (d.demandL2 cx 1 pa).bind fun d _ => .ok d (d.wordsAt pa n)
      else (d.uncachedLine cx pa).bind fun d _ => .ok d (d.wordsAt pa n)

/-- Perform or buffer a store of n words within one line (R284, R288, R295). -/
def Dev.lineStore (d : Dev) (cx : Cx) (t : Tr) (n v : Nat) : Dev :=
  let c := cx.core
  let pa := t.pa
  let d := d.passed c pa n
  if isControl pa && t.kind = 3 then
    if cx.env.absent then d.lostAccess c pa true
    else
      let (d, done) := cx.io.write d cx.req (pa - 0x0F0000000000) n v
      if done then d else d.lostAccess c pa true
  else if t.kind = 3 then
    if cx.env.absent then d.lostAccess c pa true
    else if d.memOk (.stake c) pa n true then d.writeWords pa n v (4096 + c)
    else (d.memRefuse (.stake c) pa n true).lostAccess c pa false
  else
    let d := { d with mem := { d.mem with stores := d.mem.stores + 1 } }
    d.bufStore c (if t.kind = 1 then 1 else 0) (t.kind == 0) pa n v d.mem.stores t.ent cx.env

/-! ### Whole accesses (R225, R226) -/

/-- The parts of an access: one where it is aligned or lies within a line, else one on each side of the line boundary. -/
def parts (va n : Nat) : List (Nat × Nat) :=
  if va % n = 0 ∨ va % 32 + n ≤ 32 then [(va, n)] else [(va, 32 - va % 32), (va + (32 - va % 32), n - (32 - va % 32))]

/-- One part of a split access is translated, its leaf not updated yet. -/
def Dev.trPart (d : Dev) (cx : Cx) (acc : Acc) (info va : Nat) : Res (Leaf × Tr) :=
  (d.leafOf cx acc info va).bind fun d l => (d.attr cx acc info va l).bind fun d t => .ok d (l, t)

/-- Translate both parts of an access, the first one first. A split access updates its leaves when both halves have passed (R226). -/
def Dev.trParts (d : Dev) (cx : Cx) (acc : Acc) (info va n : Nat) : Res (List (Tr × Nat)) :=
  match parts va n with
  | [a] => (d.translate cx acc info a.1).bind fun d t => .ok d [(t, a.2)]
  | a :: b :: _ =>
    (d.trPart cx acc info a.1).bind fun d x =>
    (d.trPart cx acc info b.1).second.bind fun d y =>
      .ok ((d.settleLeaf cx x.1).settleLeaf cx y.1) [(x.2, a.2), (y.2, b.2)]
  | [] => .ok d []

/-- An unaligned access any part of which falls in a device region. -/
def badAlign (ts : List (Tr × Nat)) (va n : Nat) : Bool := va % n != 0 && ts.any (fun t => t.1.kind == 3)

/-- A load of n words (R226). -/
def Dev.sload (d : Dev) (cx : Cx) (info va n : Nat) : Res Nat :=
  (d.trParts cx .load info va n).bind fun d ts =>
  if badAlign ts va n then .bad d (.exc 0x06 va info false)
  else (d.units cx [2, 4] va n (ts.any (fun t => t.1.glob))).bind fun d _ =>
  match ts with
  | [a] => d.lineLoad cx a.1.kind a.1.pa a.2
  | a :: b :: _ =>
    (d.lineLoad cx a.1.kind a.1.pa a.2).bind fun d v =>
    (d.lineLoad cx b.1.kind b.1.pa b.2).bind fun d w => .ok d (v + w * 65536 ^ a.2)
  | [] => .ok d 0

/-- A store of n words (R226). -/
def Dev.sstore (d : Dev) (cx : Cx) (info va n v : Nat) : Res Unit :=
  (d.trParts cx .store info va n).bind fun d ts =>
  if badAlign ts va n then .bad d (.exc 0x06 va info false)
  else (d.units cx [3, 4] va n (ts.any (fun t => t.1.glob))).bind fun d _ =>
  match ts with
  | [a] => .ok (d.lineStore cx a.1 a.2 (v % 65536 ^ a.2)) ()
  | a :: b :: _ => .ok ((d.lineStore cx a.1 a.2 (v % 65536 ^ a.2)).lineStore cx b.1 b.2 (v / 65536 ^ a.2 % 65536 ^ b.2)) ()
  | [] => .ok d ()

/-- Checks of an ATOM access: aligned, translated, in a cacheable region, past the units (R242, R371). -/
def Dev.atomTr (d : Dev) (cx : Cx) (acc : Acc) (types : List Nat) (va n : Nat) : Res Tr :=
  if va < 2 ^ 42 ∧ va % n ≠ 0 then .bad d (.exc 0x06 va 4 false)
  else (d.translate cx acc 4 va).bind fun d t =>
  if 2 ≤ t.kind then .bad d (.exc 0x07 va 4 false)
  else (d.units cx types va n t.glob).bind fun d _ => .ok ((d.drainLines cx.core (fun x => x == t.pa / 32) cx.env).passed cx.core t.pa n) t

/-- An atomic: one read and, where f answers a value, one write of the target; answers the old value (R242). -/
def Dev.satom (d : Dev) (cx : Cx) (va n : Nat) (f : Nat → Option Nat) : Res Nat :=
  (d.atomTr cx .rmw [2, 3, 4] va n).bind fun d t =>
  (d.demandL2 cx t.kind t.pa).bind fun d _ =>
  let old := d.wordsAt t.pa n
  match f old with
  | some v => .ok (d.writeWords t.pa n v cx.k) old
  | none => .ok d old

/-- LDRES: load and reserve (R243). -/
def Dev.sldres (d : Dev) (cx : Cx) (va n : Nat) : Res Nat :=
  (d.atomTr cx .load [2, 4] va n).bind fun d t =>
  (d.lineLoad cx t.kind t.pa n).bind fun d v => .ok (d.updThr cx.k (fun h => { h with resv := some (t.pa, n) })) v

/-- STCOM: store under a valid reservation of the same address and size (R243). -/
def Dev.sstcom (d : Dev) (cx : Cx) (va n v : Nat) : Res Bool :=
  (d.atomTr cx .store [3, 4] va n).bind fun d t =>
  let ok := (d.th cx.k).resv == some (t.pa, n)
  let d := d.updThr cx.k (fun h => { h with resv := none })
  if !ok then .ok d false
  else (d.demandL2 cx t.kind t.pa).bind fun d _ => .ok (d.writeWords t.pa n v cx.k) true

/-- A bit access (R240): the bit, and for a store type its new value. -/
def Dev.sbit (d : Dev) (cx : Cx) (n : Nat) (acc : Acc) (f : Bool → Option Bool) : Res Bool :=
  let va := wadd 64 (bits (ctlGet cx.ctl 0x028) 41 0) (n / 16)
  let info := if acc = .load then 1 else 3
  (d.translate cx acc info va).bind fun d t =>
  if t.kind = 3 then .bad d (.exc 0x06 va info false)
  else (d.units cx (if acc = .load then [2, 4] else [3, 4]) va 1 t.glob).bind fun d _ =>
  if acc = .load then (d.lineLoad cx t.kind t.pa 1).bind fun d w => .ok d (bit w (n % 16))
  else
    let d := (d.drainLines cx.core (fun x => x == t.pa / 32) cx.env).passed cx.core t.pa 1
    (if t.kind ≤ 1 then (d.demandL2 cx t.kind t.pa).bind fun d _ => .ok d (d.wordsAt t.pa 1) else d.lineLoad cx t.kind t.pa 1).bind fun d w =>
    let old := bit w (n % 16)
    match f old with
    | some b =>
      let w' := w - b2n old * 2 ^ (n % 16) + b2n b * 2 ^ (n % 16)
      .ok (d.writeWords t.pa 1 w' cx.k) old
    | none => .ok d old

/-! ### Maintenance (R291) -/

/-- Invalidate a line in every L1D and L2. -/
def Dev.dropEverywhere (d : Dev) (ln : Nat) : Dev :=
  let d := forN 48 (fun c d => d.dropL1d c ln) d
  forN 12 (fun k d => d.dropL2 k ln) d

/-- A line operation of Table 12-7 on a physical line; DZERO allocates the line in the cluster of core c. -/
def Dev.lineOp (d : Dev) (op ln c : Nat) : Dev :=
  let d := if op = 3 then d else d.clearResv ln 9999
  match op with
  | 0 => d.cleanLine ln
  | 1 => (d.cleanLine ln).dropEverywhere ln
  | 2 =>
    (match Tab.find d.mem.l2 ln with
    | some l => { d with mem := { d.mem with l2 := Tab.ins d.mem.l2 ln { l with dirty := false } } }
    | none => d).dropEverywhere ln
  | 3 => forN 48 (fun c d => d.dropL1i c ln) d
  | _ =>
    let d := d.fillL2 (c / 4) ln
    match Tab.find d.mem.l2 ln with
    | some l => { d with mem := { d.mem with l2 := Tab.ins d.mem.l2 ln { l with
        data := List.replicate 64 0, dirty := true, poison := false, own := some c } } }
    | none => d

/-- A TLBI: the cores named perform the stores translated with the translations named, and discard these (R281). -/
def Dev.tlbi (d : Dev) (cores : List Nat) (t : TlbEnt → Bool) (env : MemEnv) : Dev :=
  let d := cores.foldl (fun d c => d.drainEnts c (fun e => e.trs.any t) env) d
  { d with mem := { d.mem with tlb :=
    (d.mem.tlb.map (fun e => if cores.contains e.1 then (e.1, e.2.filter (fun x => !t x)) else e)).filter (fun e => !e.2.isEmpty) } }

/-- The CACHE forms that name no single line: TLBI (8–11), L1DINV.ALL, L2CLEAN.ALL, L2FLUSH.ALL (16–18). -/
def Dev.cacheAll (d : Dev) (cx : Cx) (op va : Nat) : Dev :=
  let c := cx.core
  let stake := kindOf cx.t == .stake
  let inL2 := fun (d : Dev) (t : L2Line → Bool) ln => (Tab.find d.mem.l2 ln).any (fun l => l.holders.any (fun h => h.1 == c / 4) && t l)
  match op with
  | 8 => d.tlbi (List.range 48) (fun e => e.covers va (ctlGet cx.ctl 0x102)) cx.env
  | 9 => d.tlbi (List.range 48) (fun e => e.asid == va % 65536 && !bit e.pte 6) cx.env
  | 10 => d.tlbi (List.range 48) (fun _ => true) cx.env
  | 11 => if stake then d.tlbi [c] (fun _ => true) cx.env else d
  | 16 =>
    if stake then
      let d := d.drainBuf c 0 (fun _ => true) cx.env
      (d.mem.l1d.filter (fun e => e.1 / 2 ^ 40 == c)).foldl (fun d e => d.dropL1d c (e.1 % 2 ^ 40)) d
    else d
  | _ =>
    if stake then
      let d := d.drainLines c (inL2 d (fun l => op == 18 || l.dirty)) cx.env
      let ls := d.mem.l2.filter (fun e => e.2.holders.any (fun h => h.1 == c / 4))
      let d := ls.foldl (fun d e => d.cleanLine e.1) d
      if op = 18 then ls.foldl (fun d e => d.dropL2 (c / 4) e.1) d else d
    else d

/-- A CACHE operation of a stake core (R291). -/
def Dev.scache (d : Dev) (cx : Cx) (op va : Nat) : Res Unit :=
  if 8 ≤ op then .ok (d.cacheAll cx op va) ()
  else
    let acc := if op = 2 ∨ op = 4 then Acc.store else Acc.load
    let info := if op = 2 ∨ op = 4 then 2 else 1
    (d.translate cx acc info va).bind fun d t =>
    if 2 ≤ t.kind then (if op = 4 then .bad d (.exc 0x0B va (info + 2 * 1024) false) else .ok d ())
    else .ok (((d.drainLines cx.core (fun x => x == t.pa / 32) cx.env).passed cx.core (t.pa / 32 * 32) 32).lineOp op (t.pa / 32) cx.core) ()

/-- PREF: a hint that never faults, sets no A (R289) and takes only a line of a cacheable region. -/
def Dev.spref (d : Dev) (cx : Cx) (va : Nat) : Dev :=
  match d.trPart cx .load 1 va with
  | .ok d (l, t) =>
    if l.upd.isSome then d
    else
      let d := d.settleLeaf cx l
      if t.kind = 0 && !isControl t.pa then d.prefetchL1 cx.core cx.env (t.pa / 32) else d
  | .bad _ _ => d

/-! ### Instruction fetch (R253, R257, Table 12-6) -/

/-- Core c's fetch buffer or L1I holds a line. -/
def Dev.fetchHeld (d : Dev) (c ln : Nat) : Option (List Byte) :=
  match (Tab.get [] d.mem.fbuf c).find? (fun e => e.1 == ln) with
  | some e => some e.2
  | none => (Tab.find d.mem.l1i (l1Key c ln)).map (·.2)

/-- The word an instruction fetch from a physical address finds: the fetch buffer's or the L1I's copy, which stores do not change, else memory. -/
def Dev.fetchWord (d : Dev) (c pa : Nat) : Nat :=
  match d.fetchHeld c (pa / 32) with
  | some l => leAt l (2 * (pa % 32)) 2
  | none => d.wordsAt pa 1

/-- The word at a translated address can be fetched: it is held, or memory serves it sound. -/
def Dev.fetchable (d : Dev) (cx : Cx) (t : Tr) : Bool :=
  let ln := t.pa / 32
  !isControl t.pa && ((t.kind ≤ 1 && (d.fetchHeld cx.core ln).isSome) ||
    (match Tab.find d.mem.l2 ln with
    | some l => !l.poison
    | none => d.memOk (.stake cx.core) (32 * ln) 32 false && (d.burstShows ln (burstOf cx.env.dram ln)).2.isEmpty))

/-- A line enters core c's fetch buffer, the older of two lines going. -/
def Dev.toFbuf (d : Dev) (c ln : Nat) (b : List Byte) : Dev :=
  let l := Tab.get [] d.mem.fbuf c
  { d with mem := { d.mem with fbuf := Tab.set [] d.mem.fbuf c (l.drop (l.length - 1) ++ [(ln, b)]) } }

/-- Fetch of the line of a word of an instruction, through the fetch buffer and the L1I. What the words are comes with the command. A fetch that gets
no line is reported as a load that gets none (DEDUCED, log entry 89). -/
def Dev.sfetch (d : Dev) (cx : Cx) (va : Nat) : Res Unit :=
  (d.translate cx .fetch 0 va).bind fun d t =>
  let ln := t.pa / 32
  let c := cx.core
  if isControl t.pa then d.loadErr c t.pa false
  else if 2 ≤ t.kind then d.uncachedLine cx t.pa
  else
    let d := match Tab.find d.mem.l1i (l1Key c ln) with
      | some w => if cx.env.l1i.any (fun x => x.toNat == ln) then (d.dropL1i c ln).wayError 0 c w.1 else d
      | none => d
    if (Tab.get [] d.mem.fbuf c).any (fun e => e.1 == ln) then .ok d ()
    else match d.fetchHeld c ln with
      | some b => .ok (d.toFbuf c ln b) ()
      | none =>
        (d.demandL2 cx t.kind t.pa).bind fun d _ =>
          let d := if t.kind = 0 then d.fillL1i c ln else d
          .ok (d.toFbuf c ln (d.bytesAt (64 * ln) 64)) ()

/-- Fetch of an instruction of `len` words: its first word, and its last where that lies on another line. -/
def Dev.fetchIns (d : Dev) (cx : Cx) (len : Nat) : Res Unit :=
  (d.sfetch cx cx.pc).bind fun d _ =>
  if (cx.pc + len - 1) / 32 = cx.pc / 32 then .ok d () else d.sfetch cx (wadd 64 cx.pc (len - 1))

end Sys2Proof.Machine
end

