-- ==== Sys2Proof/Machine/Trap.lean ====
section
/-!
DEFINITION. Exceptions, halts and resets of the threads (R228, R235, R239, R255–R270, R361–R368, R372): the boundary pair, entry,
return, Table 11-6's destinations, HOLD windows, FP traps, machine checks, interrupts, debug halt and resume, and the core reset.
-/
namespace Sys2Proof.Machine

/-- Core c belongs to a cluster that is not in service, or that an OUT has taken from it (R271). -/
def Dev.coreDead (d : Dev) (c : Nat) : Bool := d.get (STK_CLU_SVC_STATE (c / 4)) != 2 || d.get (STK_CORE_CTL_STATE c) == 3

/-- A source event sets its IPEND bit; those of a cluster that is not in service are discarded (R269, R271). -/
def Dev.irq (d : Dev) (c s : Nat) : Dev :=
  if d.coreDead c then d
  else d.updThr (4096 + c) (fun t => t.setCr 0x203 (t.cr 0x203 ||| 2 ^ s))

/-! ### Control registers and SYNC (R228, R249) -/

/-- A masked value is written to a control register; in STATUS only U and IE change (R255). -/
def ctlApply (c : Tab Nat) (n v : Nat) : Tab Nat := if n = 0 then ctlPut c 0 (ctlGet c 0 / 4 * 4 + v % 4) else ctlPut c n v

/-- The control registers as one instruction sees them: of each SYNC-marked write not yet applied the old or the new value (R228). -/
def Dev.effCtl (d : Dev) (k : Nat) : Dev × Tab Nat :=
  let t := d.th k
  t.pend.foldl (fun a w => (a.1.drawn, if bit a.1.freeVal.toNat 0 then ctlApply a.2 w.1 w.2 else a.2)) (d, t.ctl)

/-- SYNC applies every marked write. -/
def Thr.sync (t : Thr) : Thr := { t with ctl := t.pend.foldl (fun a w => ctlApply a w.1 w.2) t.ctl, pend := [] }

/-- A thread runs in user mode (Table 10-1): a customer invocation always, the handle core and the stock program never, a stake core under STATUS.U. -/
def Dev.userMode (d : Dev) (t : ThreadId) (ctl : Tab Nat) : Bool :=
  match t with
  | .engine e c => c.val == 3 && (d.runningOn e.val).isSome
  | .handle => false
  | .stake _ => bit (ctlGet ctl 0) 0

/-- What a thread's instruction runs under; a stake core performs there the loads that come ahead of their place (R292). -/
def Dev.ctxFor (d : Dev) (io : Io) (t : ThreadId) (exec : Bool) (env : MemEnv) : Dev × Cx :=
  let (d, ctl) := d.effCtl (tid t)
  let cx : Cx := { t := t, exec := exec, ctl := ctl, user := !exec && d.userMode t ctl, pc := (d.th (tid t)).pc, env := env, io := io }
  match t with
  | .stake c => (if exec then d else env.ahead.foldl (fun d a => d.lookAhead ctl c.val env a) d, cx)
  | _ => (d, cx)

/-! ### The boundary (R235, R239, R243, R257) -/

/-- A word of the instruction store of the hoops (R114): stock program below w:0x18000, then eight partitions of 20 Ki-words. -/
def Dev.istore (d : Dev) (a : Nat) : Nat :=
  if a < 0x18000 then leAt d.boot.stock (2 * a) 2
  else match (Tab.get {} d.boot.parts ((a - 0x18000) / 0x5000)).cur with
    | some img => leAt img.code (2 * ((a - 0x18000) % 0x5000)) 2
    | none => 0

/-- Length of the instruction at an address as fetch finds it; two words where it cannot be fetched, by translation or by memory (R257). -/
def Dev.peekLen (d : Dev) (cx : Cx) (va : Nat) : Nat :=
  let w := match cx.t with
    | .stake c =>
      (match d.translate cx .fetch 0 va with
      | .ok d t => if d.fetchable cx t then d.fetchWord c.val t.pa else 0
      | .bad _ _ => 0)
    | .handle => if d.memOk .handle va 1 false && !d.linePoison (va / 32) then d.wordsAt va 1 else 0
    | .engine _ _ => d.istore va
  if bit w 4 then 3 else 2

/-- The pair of the first instruction not executed. The branch that has run is complete: a link register waiting for the slot's end is
written, and an annulled slot lies behind. -/
def Dev.boundary (d : Dev) (cx : Cx) : Dev × Nat × Nat :=
  let k := cx.k
  let t := d.th k
  let d := match t.link with
    | some rd => d.updThr k (fun t => { t.setG rd (wadd 64 t.pc (d.peekLen cx t.pc)) with link := none })
    | none => d
  if t.annul then
    let pc := wadd 64 t.pc (d.peekLen cx t.pc)
    (d, pc, wadd 64 pc (d.peekLen cx pc))
  else (d, t.pc, t.npc.getD (wadd 64 t.pc (d.peekLen cx t.pc)))

/-- Complete the pending writes of mh and ml (R239). -/
def Thr.drainMul (t : Thr) : Thr :=
  let t := t.mulq.foldl (fun t m => { t with mh := m.2.1, ml := m.2.2 }) t
  match t.acc with
  | some (h, l) => { t with mh := h, ml := l, mulq := [], acc := none }
  | none => { t with mulq := [] }

/-- A HOLD window ends: an FP trap that it held is due at the next boundary where it may be taken (R267). -/
def Thr.unhold (t : Thr) : Thr :=
  if t.held then { t.setCr 0 (t.cr 0 - 32) with hold := 0, fpt := t.fpt.map (fun x => (x.1, x.2.1, 256)) } else { t with hold := 0 }

/-- Leave the place in the program: pending multiplier writes complete, the reservation, the loads performed ahead and an open HOLD window end
(R262). -/
def Thr.leave (t : Thr) : Thr :=
  { t.drainMul.unhold with
    resv := none, ahead := [], slot := false, annul := false, npc := none, link := none, inLong := false, waiting := false }

/-! ### Debug halt (R365, R366) -/

/-- Index of a thread's DBG_CORE registers. -/
def dbgCore (t : ThreadId) : Nat :=
  match t with
  | .stake c => c.val
  | _ => 48

/-- A halt at this boundary: the pair goes to DPC and DNPC, STATUS to DSTAT (`ui` its U and IE as the boundary sees them), the thread to
level 3 (R365). -/
def Dev.haltWith (d : Dev) (t : ThreadId) (cause unit ui : Nat) (pair : Nat × Nat) : Dev :=
  let c := dbgCore t
  let d := d.updThr (tid t) (fun h =>
    let w := h.waiting
    let h := { h.leave with haltReq := none, stepping := 0, waiting := w, pend := h.pend.filter (fun w => w.1 != 0) }
    let h := ((h.setCr 0x300 pair.1).setCr 0x301 pair.2).setCr 0x302 (h.cr 0 / 4 * 4 + ui % 4)
    ({ h with pc := pair.1, npc := some pair.2 }.setCr 0x303 cause).toStatus (h.cr 0 / 16 * 16 + 12))
  let d := (((d.putB (DBG_CORE_STAT_HALTED c) true).putB (DBG_CORE_STAT_HALTPEND c) false).put (DBG_CORE_STAT_CAUSE c) cause).put
    (DBG_CORE_STAT_UNIT c) unit
  match t with
  | .stake c => d.put (STK_CORE_CTL_STATE c.val) 2
  | _ => d

/-- RESUME: from DSTAT and the pair, with the SYNC-marked writes made while halted applied (R366). -/
def Dev.resumeThr (d : Dev) (t : ThreadId) : Dev :=
  let d := d.updThr (tid t) (fun h =>
    let h := h.sync
    let s := h.cr 0x302
    let h := h.toStatus (s - (if bit s 5 then 32 else 0))
    { h with pc := h.cr 0x300, npc := some (h.cr 0x301) })
  let d := d.putB (DBG_CORE_STAT_HALTED (dbgCore t)) false
  match t with
  | .stake c => d.put (STK_CORE_CTL_STATE c.val) 1
  | _ => d

/-! ### Core reset (R265) -/

/-- A core reset begins: issue stops, the reset record is filled, event 0x1101 is raised. -/
def Dev.resetBegin (d : Dev) (c reason code : Nat) : Dev :=
  if d.on (STK_CORE_CTL_BUSY c) then d
  else
    let t := d.th (4096 + c)
    let d := ((d.put (STK_RST_INFO_REASON c) reason).put (STK_RST_INFO_CODE c) code).put (STK_RST_INFO_CODE1 c) (bits (t.cr 0x213) 7 0)
    let d := (d.put (STK_RST_INFO_CODE2 c) (bits (t.cr 0x21B) 7 0)).inc (STK_RST_INFO_COUNT c)
    let d := ((d.put (STK_RST_PC_PC c 0) t.pc).put (STK_RST_PC_PC c 1) (t.cr 0x210)).put (STK_RST_PC_PC c 2) (t.cr 0x218)
    let d := d.put (STK_RST_TIME_TIME c) d.now
    (d.putB (STK_CORE_CTL_BUSY c) true).pfEvent 0x1101 [(1, c), (1, reason), (1, code), (8, t.pc)]

/-- The reset completes: buffers drain, L1I, L1D and translations are invalid, every register is at its reset value, STATE 0. A halt
ends with it (R368). -/
def Dev.resetEnd (d : Dev) (c : Nat) : Dev :=
  if !d.on (STK_CORE_CTL_BUSY c) then d
  else
    let d := d.updThr (4096 + c) (fun t => { t with resv := none })
    let d := d.drainAll c
    let d := { d with
      thr := { d.thr with t := Tab.del d.thr.t (4096 + c) }
      mem := { d.mem with
        l1i := d.mem.l1i.filter (fun e => e.1 / 2 ^ 40 != c), l1d := d.mem.l1d.filter (fun e => e.1 / 2 ^ 40 != c),
        fbuf := Tab.del d.mem.fbuf c, tlb := Tab.del d.mem.tlb c } }
    let d := ((d.putB (DBG_CORE_STAT_HALTED c) false).putB (DBG_CORE_STAT_HALTPEND c) false).putB (DBG_CORE_STAT_TXFULL c) false
    let d := (d.putB (DBG_CORE_STAT_RXFULL c) false).put (STK_CORE_CTL_STATE c) 0
    (d.putB (STK_CORE_CTL_BUSY c) false).updThr (4096 + c) (fun t => { t with autoDue := true })

/-! ### Exception entry (R260–R262, R264) -/

/-- VEC of a cause (Table 11-5). -/
def vecOfCause (code : Nat) : Nat :=
  match code with
  | 0x01 | 0x02 => 1
  | 0x03 => 2
  | 0x04 | 0x0C => 3
  | 0x05 | 0x06 | 0x07 => 4
  | 0x08 => 5
  | 0x09 | 0x0A | 0x0B => 6
  | 0x10 => 7
  | 0x18 => 8
  | _ => 9

/-- Entry to level b (R262): the pair, STATUS, cause, address and detail are saved, and the thread goes on at the vector. A STATUS write
that no SYNC has applied yet is settled as this boundary sees it. -/
def Dev.enterLvl (d : Dev) (cx : Cx) (b code addr info : Nat) (half2 : Bool) (pair : Nat × Nat) : Dev :=
  let o := 0x210 + 8 * (b - 1)
  let vec := if b = 1 then bits (ctlGet cx.ctl 0x200) 41 10 * 1024 + 0x40 * vecOfCause code else bits (ctlGet cx.ctl 0x201) 41 0
  let stepped := (d.th cx.k).stepping != 0
  let d := d.updThr cx.k (fun t =>
    let t := { t.leave with pend := t.pend.filter (fun w => w.1 != 0), stepping := 0 }
    let st := t.cr 0 / 4 * 4 + ctlGet cx.ctl 0 % 4
    let t := (((t.setCr o pair.1).setCr (o + 1) pair.2).setCr (o + 2) st).setCr (o + 3) (code + b2n half2 * 256)
    let t := ((t.setCr (o + 4) (addr % 2 ^ 64)).setCr (o + 5) info).toStatus (4 * b)
    { t with pc := vec, npc := none })
  let d := match cx.t with
    | .stake c =>
      let d := (d.pmc c.val 11).inc (STK_CNT_COUNT c.val (b - 1))
      if code = 0x10 then d.inc (STK_CNT_COUNT c.val 3) else if code = 0x1C then d.pmc c.val 14 else d
    | _ => d
  if stepped then
    let (d, p) := d.boundary cx
    d.haltWith cx.t 5 0 0 p
  else d

/-- The pair an instruction at PC of a given length saves (R235). -/
def Dev.ownPair (d : Dev) (cx : Cx) (len : Nat) : Nat × Nat :=
  let t := d.th cx.k
  (t.pc, t.npc.getD (wadd 64 t.pc len))

/-- The pair a synchronous fault saves: a TRAP's is that of the instruction after it (R257). -/
def Dev.faultPair (d : Dev) (cx : Cx) (code len : Nat) : Nat × Nat :=
  if code = 0x03 then (wadd 64 cx.pc 2, wadd 64 (wadd 64 cx.pc 2) (d.peekLen cx (wadd 64 cx.pc 2))) else d.ownPair cx len

/-- A synchronous fault: Table 11-6 for a stake core, a debugger's EXEC (R367), the handle core's one level and a strand engine
(Table 10-1). -/
def Dev.syncFault (d : Dev) (cx : Cx) (code addr info : Nat) (half2 : Bool) (pair : Nat × Nat) : Dev :=
  let t := d.th cx.k
  if cx.exec then (d.putB (DBG_CORE_STAT_EXCFAULT (dbgCore cx.t)) true).put (DBG_CORE_STAT_ECODE (dbgCore cx.t)) code
  else match cx.t with
    | .stake c =>
      if t.lvl = 0 || (t.lvl == 1 && t.rel) then d.enterLvl cx 1 code addr info half2 pair
      else if t.lvl = 1 then d.enterLvl cx 2 code addr info half2 pair
      else if t.lvl = 2 then d.resetBegin c.val 1 code
      else d
    | .handle =>
      if t.lvl = 0 then d.enterLvl cx 1 code addr info half2 pair
      else { d with thr := { d.thr with t := Tab.del d.thr.t 2048 } }
    | .engine e c =>
      if c.val = 3 && (d.runningOn e.val).isSome then d.invAbandon e.val (if code = 0x05 then 1 else 2)
      else d.updThr cx.k (fun t => { t.drainMul with stopped := true })

/-! ### Asynchronous requests (R261, Table 11-6) -/

/-- A machine check may be taken: its destination level. -/
def Thr.mcLevel (t : Thr) : Option Nat :=
  if t.mc.isNone then none
  else if t.lvl = 0 || (t.lvl == 1 && t.rel) then some 1
  else if t.lvl = 1 then some 2
  else none

/-- FP traps and interrupts may be taken by level and HOLD. -/
def Thr.openLvl (t : Thr) : Bool := !t.held && (t.lvl == 0 || (t.lvl == 1 && t.rel)) && t.stepping != 2

/-- A pending FP trap may be taken. -/
def Thr.fptNow (t : Thr) : Bool := t.fpt.isSome && t.openLvl

/-- A pending FP trap may wait no longer (R267, R268). -/
def Thr.fptDue (t : Thr) : Bool := t.fptNow && t.fpt.any (fun x => decide (256 ≤ x.2.2))

/-- The enabled interrupt source taken first (R269). -/
def Thr.irqNow (t : Thr) : Option Nat := (List.range 58).find? (fun s => bit (t.cr 0x203) s && bit (t.cr 0x202) s)

/-- An interrupt may be taken, with IE as this boundary sees it. -/
def Thr.intNow (t : Thr) (cx : Cx) : Bool := t.openLvl && bit (ctlGet cx.ctl 0) 1 && t.irqNow.isSome

/-- A debug halt request may be taken. -/
def Thr.haltNow (t : Thr) : Bool := t.haltReq.isSome && !t.held && t.lvl != 3

/-- Take a pending machine check; `pair` is where a failed load is named, else the boundary's. -/
def Dev.takeMc (d : Dev) (cx : Cx) (own : Option (Nat × Nat)) : Dev :=
  let t := d.th cx.k
  match t.mc, t.mcLevel with
  | some (reason, sev, addr), some b =>
    let (d, p) := match own with
      | some p => (d, p)
      | none => d.boundary cx
    (d.updThr cx.k (fun t => { t with mc := none })).enterLvl cx b 0x1C addr (reason + sev * 65536) false p
  | _, _ => d

/-- Take a pending FP trap (R268). -/
def Dev.takeFpt (d : Dev) (cx : Cx) : Dev :=
  let t := d.th cx.k
  match t.fpt with
  | some (pc, u, _) =>
    if t.openLvl then
      let (d, p) := d.boundary cx
      (d.updThr cx.k (fun t => { t with fpt := none })).enterLvl cx 1 0x10 pc u false p
    else d
  | none => d

/-- Take an interrupt (R262). -/
def Dev.takeInt (d : Dev) (cx : Cx) : Dev :=
  let t := d.th cx.k
  match t.irqNow with
  | some s =>
    if t.intNow cx then
      let (d, p) := d.boundary cx
      d.enterLvl cx 1 0x18 0 s false p
    else d
  | none => d

/-- Take a debug halt request (R365). -/
def Dev.takeHalt (d : Dev) (cx : Cx) : Dev :=
  let t := d.th cx.k
  match t.haltReq with
  | some (cause, unit) =>
    if t.haltNow then
      let (d, p) := d.boundary cx
      d.haltWith cx.t cause unit (ctlGet cx.ctl 0) p
    else d
  | none => d

/-- A stake core executes: running, no reset in progress. -/
def Dev.coreUp (d : Dev) (c : Nat) : Bool := d.get (STK_CORE_CTL_STATE c) == 1 && !d.on (STK_CORE_CTL_BUSY c)

/-- A stake core at a boundary where an asynchronous request may be taken: what `f` does there. -/
def Dev.atBoundary (d : Dev) (io : Io) (c : Core) (f : Dev → Cx → Dev) : Dev :=
  if d.coreUp c.val then
    let (d, cx) := d.ctxFor io (.stake c) false {}
    f d cx
  else d

/-- INTERRUPT_TAKE: an enabled pending interrupt is taken, unless a request that goes first is takeable (R261). -/
def Dev.interruptTake (d : Dev) (io : Io) (c : Core) : Dev :=
  d.atBoundary io c (fun d cx =>
    let t := d.th cx.k
    if t.mcLevel.isSome || t.fptNow || t.haltNow then d else d.takeInt cx)

/-- FP_TRAP_TAKE: a pending FP trap is taken, after a machine check. -/
def Dev.fpTrapTake (d : Dev) (io : Io) (c : Core) : Dev :=
  d.atBoundary io c (fun d cx => if (d.th cx.k).mcLevel.isSome then d else d.takeFpt cx)

/-- MACHINE_CHECK_TAKE. -/
def Dev.machineCheckTake (d : Dev) (io : Io) (c : Core) : Dev := d.atBoundary io c (fun d cx => d.takeMc cx none)

/-- DEBUG_HALT_TAKE: a halt request is taken, after a machine check and an FP trap (R261). -/
def Dev.debugHaltTake (d : Dev) (io : Io) (t : ThreadId) : Dev :=
  match t with
  | .stake c =>
    d.atBoundary io c (fun d cx =>
      let t := d.th cx.k
      if t.mcLevel.isSome || t.fptNow then d else d.takeHalt cx)
  | .handle =>
    if d.on (DBG_CORE_STAT_HALTED 48) then d
    else
      let (d, cx) := d.ctxFor io .handle false {}
      d.takeHalt cx
  | .engine _ _ => d

/-- HOLD_WINDOW_EXPIRE: HOLDREM reaches 0 (R267). -/
def Dev.holdExpire (d : Dev) (c : Core) : Dev :=
  if d.coreUp c.val && (d.th (4096 + c.val)).held then
    (d.updThr (4096 + c.val) Thr.unhold).inc (STK_CNT_COUNT c.val 2)
  else d

/-- RETE from level 1 or 2, or none where it is illegal (R263). -/
def Thr.rete (t : Thr) : Option Thr :=
  let b := t.lvl
  let o := 0x210 + 8 * (b - 1)
  let es := t.cr (o + 2)
  if b = 0 || b = 3 || b < bits es 3 2 || bits es 3 2 = 3 then none
  else
    let pc := t.cr o
    let npc := t.cr (o + 1)
    let t := { t.leave with pend := t.pend.filter (fun w => w.1 != 0) }
    some { t.toStatus (es - (if bit es 5 then 32 else 0)) with pc := pc, npc := some npc }

end Sys2Proof.Machine
end

