-- ==== Sys2Proof/Machine/BasketCmd.lean ====
section
/-!
DEFINITION. The Basket's commands (chapter 4): entries by command, cell errors, spill and refill, queue commands, queue access from
stake cores, scrubbing, timeouts of the weave, the credit view, and the Basket's management tick.
-/
namespace Sys2Proof.Machine

/-! ### Errors in cells and structures (R106, R107) -/

/-- A quad of queue qn's cells, or of its structure, was corrected (R106). -/
def Dev.cellCorrected (d : Dev) (qn structure_ : Nat) : Dev := (d.inc (BSK_CNT_COUNT 4)).raiseErr 5 0 0x0020 2 qn structure_

/-- An uncorrectable quad lost the structure of queue qn: it is disabled, and its entries go, counted in the queue's drop count and by no
reason (R100, R107). A FLUSH that waited for the queue's blocks has nothing left to discard. -/
def Dev.structLost (d : Dev) (qn : Nat) : Dev :=
  let q := d.queue qn
  let n := (q.es.filter Entry.live).length
  let q := { q with enable := false, es := [], spilled := false, head := 0, low := 0, tail := 0, spillFly := 0, refillFly := 0 }
  let d := d.setQueue qn { q with cells := [], flush := none, dropped := satw 48 (q.dropped + n) }
  let d := (d.inc (BSK_CNT_COUNT 5)).raiseErr 5 0 0x0022 2 qn n
  d.pfEvent 0x0406 [(2, qn), (4, n)]

/-- Poison the i-th entry of queue qn that somebody can receive; nothing if there is none. -/
def poisonNth : List Entry → Nat → List Entry
  | [], _ => []
  | e :: r, i => if e.live then (if i = 0 then { e with poison := true } :: r else e :: poisonNth r (i - 1)) else e :: poisonNth r i

/-- Count and report an uncorrectable quad of an entry in queue qn. -/
def Dev.cellBad (d : Dev) (qn : Nat) : Dev := (d.inc (BSK_CNT_COUNT 5)).raiseErr 5 0 0x0021 2 qn 0

/-- What reading the i-th entry of queue qn shows. -/
def Dev.cellRead (d : Dev) (qn i : Nat) : CellEnv → Dev
  | .good => d
  | .corrected => d.cellCorrected qn 0
  | .structCorrected => d.cellCorrected qn 1
  | .bad =>
    let q := d.queue qn
    if i < (q.es.filter Entry.live).length then (d.setQueue qn { q with es := poisonNth q.es i }).cellBad qn else d.inc (BSK_CNT_COUNT 5)
  | .structBad => d.structLost qn

/-! ### Commit and dequeue by command -/

/-- An entry as the producers of queue qn tag it: hand-off queues hold hand-offs, command and bulk-out entries carry the GEN of their
function (R196). -/
def Dev.tagged (d : Dev) (qn : Nat) (ws : List Word) : Entry :=
  if 0x15A0 ≤ qn && qn < 0x15C0 then { words := ws, hand := true }
  else if 0x1400 ≤ qn && qn < 0x1580 && ((qn - 0x1400) % 6 = 0 || (qn - 0x1400) % 6 = 4) then
    { words := ws, gen := d.get (HIF_FN_STATUS_GEN ((qn - 0x1400) / 6)) }
  else { words := ws }

/-- Give the number of word pair `at2` (words at2, at2 + 1) of an entry. -/
def Entry.numbered (e : Entry) (at2 n : Nat) : Entry :=
  { e with words := (e.words.set at2 (BitVec.ofNat 16 n)).set (at2 + 1) (BitVec.ofNat 16 (n / 65536)) }

/-- Offer an entry to queue qn. An entry of an event, record or bulk-in queue gets its function's next number, which advances as it
commits (R215, R216, R218). -/
def Dev.commitNumbered (d : Dev) (qn : Nat) (e : Entry) : Dev × Verdict :=
  let f := (qn - 0x1400) / 6
  if qn < 0x1400 || 0x1580 ≤ qn then d.enqueue qn e
  else match (qn - 0x1400) % 6 with
    | 2 =>
      let n := Tab.get 0 d.bsk.eseq f
      match d.enqueue qn (e.numbered 2 n) with
      | (d, .placed) => ({ d with bsk := { d.bsk with eseq := Tab.set 0 d.bsk.eseq f ((n + 1) % 2 ^ 32) } }, .placed)
      | r => r
    | 3 =>
      let n := Tab.get 0 d.bsk.rseq f
      match d.enqueue qn (e.numbered 2 n) with
      | (d, .placed) => ({ d with bsk := { d.bsk with rseq := Tab.set 0 d.bsk.rseq f ((n + 1) % 2 ^ 32) } }, .placed)
      | r => r
    | 5 =>
      let n := Tab.get 0 d.bsk.bseq f
      match d.enqueue qn (e.numbered 4 n) with
      | (d, .placed) => ({ d with bsk := { d.bsk with bseq := Tab.set 0 d.bsk.bseq f ((n + 1) % 2 ^ 32) } }, .placed)
      | r => r
    | _ => d.enqueue qn e

/-- BSK_ENQUEUE: an entry of the given words commits at queue qn's ingress (R94). A DETECT is read by the reflex unit as its lantern queue
commits or refuses it (R17). -/
def Dev.enqueueCmd (d : Dev) (qn : Nat) (ws : List Word) : Dev :=
  let e := d.tagged qn ws
  let b := msgBytes e
  let d := (d.commitNumbered qn e).1
  if qn < 0x1400 && byteAt b 1 == 1 then d.reflexRead (msgLix e) (b.drop 16) else d

/-- Bulk-out entries of an older GEN at the head of queue qn go, undelivered and counted in HIF_CNT[8] (R196). -/
def Dev.dropStale : Nat → Dev → Nat → Dev
  | 0, d, _ => d
  | k + 1, d, qn =>
    if 0x1400 ≤ qn && qn < 0x1580 && (qn - 0x1400) % 6 = 4 then
      match d.peek qn with
      | some e =>
        if e.gen ≠ d.get (HIF_FN_STATUS_GEN ((qn - 0x1400) / 6)) && d.canTake qn then
          Dev.dropStale k ((d.take qn).1.inc (HIF_CNT_COUNT 8)) qn
        else d
      | none => d
    else d

/-- The queue's head with stale entries gone. -/
def Dev.fresh (d : Dev) (qn : Nat) : Dev := Dev.dropStale ((d.queue qn).es.length + (d.taken qn).length) d qn

/-- BSK_DEQUEUE: the consumer of queue qn takes its oldest whole entry (R98); the entry waits for the consumer's own command. -/
def Dev.dequeueCmd (d : Dev) (qn : Nat) (env : CellEnv) : Dev :=
  let d := (d.cellRead qn 0 env).fresh qn
  match d.deq qn with
  | (d, .entry e) => { d with bsk := { d.bsk with taken := Tab.set [] d.bsk.taken qn (d.taken qn ++ [e]) } }
  | (d, _) => d

/-! ### Spill, refill, join (R95) -/

/-- SPILL. -/
def Dev.spillCmd (d : Dev) (qn : Nat) : Dev :=
  Dev.flushNotes 64 (if d.spillOk (d.queue qn) then d.spillBlock qn else d.tierFull qn)

/-- SPILL_WRITE_COMPLETE: the oldest block whose write is in progress is in the lower tier, and its cells are free (R94). -/
def Dev.spillDone (d : Dev) (qn : Nat) : Dev :=
  let q := d.queue qn
  if q.spillFly = 0 then d
  else (d.setQueue qn { q with spillFly := q.spillFly - 1, cells := dropSpan q.cells q.head 16 }).addCnt (BSK_CNT_COUNT 2) 16

/-- REFILL: LOW's oldest block, once written, is requested into HEAD, where its cells are taken at the request (R94); without 16 free cells
the request waits (DEDUCED, log entry 83). -/
def Dev.refillCmd (d : Dev) (qn : Nat) : Dev :=
  let q := d.queue qn
  if q.spilled && decide (q.spillFly < q.low) && decide (q.head + 16 ≤ q.odq) && decide (16 ≤ d.freeCells) then
    let (d, cs) := d.allocate 16
    d.setQueue qn { q with
      head := q.head + 16, low := q.low - 1, refillFly := q.refillFly + 1, cells := q.cells.take q.head ++ cs ++ q.cells.drop q.head }
  else d

/-- Drop the fillers below position `lim`, and their cells; the last result is the number of cells freed. -/
def trimFill : List Entry → List Nat → Nat → Nat → List Entry × List Nat × Nat
  | [], cs, _, _ => ([], cs, 0)
  | e :: r, cs, p, lim =>
    let n := e.cells
    if lim ≤ p then (e :: r, cs, 0)
    else
      let (r', cs', k) := trimFill r (cs.drop n) (p + n) lim
      if e.live then (e :: r', cs.take n ++ cs', k)
      else
        let gone := min n (lim - p)
        (filler (n - gone) ++ r', (cs.take n).drop gone ++ cs', k + gone)

/-- Change the entries that have a cell in [lo, hi), the first at position p. -/
def mapSpan (f : Entry → Entry) : List Entry → Nat → Nat → Nat → List Entry
  | [], _, _, _ => []
  | e :: r, p, lo, hi => (if 0 < overlap p (p + e.cells) lo hi then f e else e) :: mapSpan f r (p + e.cells) lo hi

/-- Discard the live entries with a cell in [lo, hi), the list's first at position p: their cells that have arrived and those in TAIL are free
at once, the others stay as fillers. The results are the entries, the queue without what is free, and how many entries went. -/
def loseSpan : List Entry → Queue → Nat → Nat → Nat → List Entry × Queue × Nat
  | [], q, _, _, _ => ([], q, 0)
  | e :: r, q, p, lo, hi =>
    if e.live && decide (0 < overlap p (p + e.cells) lo hi) then
      let (f, q', a) := q.cutEntry e p
      let (r', q', k) := loseSpan r q' (p + e.cells - a) (lo - a) (hi - a)
      (f ++ r', q', k + 1)
    else
      let (r', q', k) := loseSpan r q (p + e.cells) lo hi
      (e :: r', q', k)

/-- The entries of a refilled block, whose first cell lies at position lo, are lost with its boundaries (R107), counted under 0x08. -/
def Dev.blockLost (d : Dev) (qn lo : Nat) : Dev :=
  let q := d.queue qn
  let (es, q', n) := loseSpan q.es q 0 lo (lo + 16)
  (d.setQueue qn { q' with es := es, flush := q.flush.map (· - n) }).countDrop qn 8 n

/-- Some line of the lower tier, where a spill block may lie. -/
def Dev.lowerLine (d : Dev) : Nat := (d.get BSK_LT_BASE_ADDR + d.freeVal.toNat % max 1 (d.ltSize * 2 ^ 29)) / 32

/-- REFILL_ARRIVE: the oldest block in flight reaches HEAD (R97). `bounds` says that its entry boundaries are uncorrectable. -/
def Dev.refillDone (d : Dev) (qn : Nat) (env : DramEnv) (bounds : Bool) : Dev :=
  let q := d.queue qn
  if q.refillFly = 0 then d
  else
    let lo := q.head - 16 * q.refillFly
    let (d, bad) := if env.isEmpty then (d, false) else d.drawn.dramBurst d.lowerLine env 0x5C
    let d := if bounds then d.blockLost qn lo
      else if bad then
        let q := d.queue qn
        (d.setQueue qn { q with es := mapSpan (fun e => if e.live then { e with poison := true } else e) q.es 0 lo (lo + 16) }).cellBad qn
      else d
    let q := d.queue qn
    let (es, cs, gone) := trimFill q.es q.cells 0 (q.head - 16 * q.refillFly + 16)
    (d.setQueue qn { q with es := es, cells := cs, head := q.head - gone, refillFly := q.refillFly - 1 }).addCnt (BSK_CNT_COUNT 3) 16

/-! ### BSK_Q_CMD (R96, R105, R110) -/

/-- Run a queue command on the selected queue: ignored while BUSY (Table 17-4), RESULT 4 for a reserved number. -/
def Dev.qCommand (d : Dev) (run : Dev → Nat → Dev) : Dev :=
  if d.on BSK_Q_CMD_BUSY then d.errBusy 5 0 0x2C01C
  else
    let qn := d.get BSK_Q_SEL_QUEUE
    if queueReserved qn then d.put BSK_Q_CMD_RESULT 4 else run (d.put BSK_Q_CMD_RESULT 0) qn

/-- READ. -/
def Dev.qRead (d : Dev) : Dev :=
  d.qCommand fun d qn =>
    let q := d.queue qn
    let d := ((d.putB BSK_Q_CFG_ENABLE q.enable).put BSK_Q_CFG_CLASS q.cls).put BSK_Q_CFG_OWNER q.owner
    let d := ((d.put BSK_Q_CFG_POLICY q.policy).put BSK_Q_CFG_ODQ q.odq).put BSK_Q_CFG_LTQ q.ltq
    let d := ((d.put BSK_Q_STAT_HEAD q.head).put BSK_Q_STAT_TAIL q.tail).putB BSK_Q_STAT_SPILLED q.spilled
    d.put BSK_Q_STAT_LOW q.low

/-- The RESULT of WRITE for queue qn (Table 4-8). -/
def Dev.qWriteResult (d : Dev) (qn : Nat) : Nat :=
  if d.get BSK_Q_CFG_POLICY = 2 && !queueHoldOk qn then 1
  else if 0 < d.get BSK_Q_CFG_LTQ && d.get BSK_Q_CFG_ODQ < 64 then 2
  else if queueSoftware qn && d.get BSK_Q_CFG_OWNER != (d.queue qn).owner && !(d.queue qn).noEntry then 3
  else 0

/-- WRITE: OWNER counts for software queues only. -/
def Dev.qWrite (d : Dev) : Dev :=
  d.qCommand fun d qn =>
    let r := d.qWriteResult qn
    let q := d.queue qn
    let q := { q with enable := d.on BSK_Q_CFG_ENABLE, cls := d.get BSK_Q_CFG_CLASS, policy := d.get BSK_Q_CFG_POLICY }
    let q := { q with odq := d.get BSK_Q_CFG_ODQ, ltq := d.get BSK_Q_CFG_LTQ }
    let q := if queueSoftware qn then { q with owner := d.get BSK_Q_CFG_OWNER } else q
    let d := d.put BSK_Q_CMD_RESULT r
    if r = 0 then d.setQueue qn q else d

/-- Entries and cells of the first n live entries at the front of a list: what follows them, and the cells passed. -/
def passLive : Nat → List Entry → List Entry × Nat
  | _, [] => ([], 0)
  | n, e :: r =>
    if e.live then (match n with
      | 0 => (e :: r, 0)
      | m + 1 => let (r', k) := passLive m r; (r', k + e.cells))
    else let (r', k) := passLive n r; (r', k + e.cells)

/-- The oldest n entries of queue qn go under 0x06 (R105); no block is in flight. -/
def Dev.flushNow (d : Dev) (qn n : Nat) : Dev :=
  let q := d.queue qn
  let lowEnd := q.head + 16 * q.low
  let (rest, p) := passLive n q.es
  let inLow := overlap 0 p q.head lowEnd
  let keep := inLow % 16
  let t := p - min p lowEnd
  let cs := (dropSpan q.cells q.tailAt t).drop (min p q.head)
  let q := { q with es := filler keep ++ rest, head := q.head - min p q.head, low := q.low - inLow / 16, cells := cs }
  let q := { q with tail := q.tail - t, flush := none }
  ((d.setQueue qn q).countDrop qn 6 n).put BSK_Q_CMD_BUSY 0

/-- FLUSH: at once, or when the blocks in flight complete (R105). -/
def Dev.qFlush (d : Dev) : Dev :=
  d.qCommand fun d qn =>
    let q := d.queue qn
    let n := (q.es.filter Entry.live).length
    if q.spillFly = 0 && q.refillFly = 0 then d.flushNow qn n
    else (d.setQueue qn { q with flush := some n }).put BSK_Q_CMD_BUSY 1

/-- FLUSH_COMPLETE: the waiting FLUSH, once no block of its queue is in flight. -/
def Dev.flushDone (d : Dev) : Dev :=
  match d.bsk.q.find? (fun e => e.2.flush.isSome) with
  | some (qn, q) => if q.spillFly = 0 && q.refillFly = 0 then d.flushNow qn (q.flush.getD 0) else d
  | none => d.put BSK_Q_CMD_BUSY 0

/-- BSK_Q_CNT takes queue qn's three counts (R110). -/
def Dev.queueCounts (d : Dev) (qn : Nat) : Dev :=
  let q := d.queue qn
  ((d.put (BSK_Q_CNT_COUNT 0) q.committed).put (BSK_Q_CNT_COUNT 1) q.dequeued).put (BSK_Q_CNT_COUNT 2) q.dropped

/-- COUNTS. -/
def Dev.qCounts (d : Dev) : Dev := d.qCommand fun d qn => d.queueCounts qn

/-- COUNTS and clear. -/
def Dev.qCountsClear (d : Dev) : Dev :=
  d.qCommand fun d qn => (d.queueCounts qn).setQueue qn { d.queue qn with committed := 0, dequeued := 0, dropped := 0 }

/-! ### BSK_SHARDQ (R90) -/

/-- BSK_SHARDQ READ. -/
def Dev.shardqRead (d : Dev) (s : Nat) : Dev :=
  let (q, v) := Tab.get (s / 2, true) d.bsk.shard s
  ((d.put BSK_SHARDQ_SHARD s).put BSK_SHARDQ_QUEUE q).putB BSK_SHARDQ_VALID v

/-- BSK_SHARDQ WRITE: refused while a migration moves the shard (R135); a queue above 0x13FF is a reserved encoding. -/
def Dev.shardqWrite (d : Dev) (r : Requester) (s q : Nat) (v : Bool) : Dev :=
  if 0x13FF < q then d.errReserved 5 0 0x2C030
  else if d.shardMoving s then d.errState 5 0 0x2C030 (srcOf r)
  else
    let d := ((d.put BSK_SHARDQ_SHARD s).put BSK_SHARDQ_QUEUE q).putB BSK_SHARDQ_VALID v
    { d with bsk := { d.bsk with shard := Tab.set (s / 2, true) d.bsk.shard s (q, v) } }

/-! ### Queue access from stake cores (R109) -/

/-- ENQ (op 1) and DEQ (op 2) of core c. -/
def Dev.qaCommand (d : Dev) (c op q len : Nat) : Dev :=
  if d.on (BSK_QA_STATUS_BUSY c) then d.errBusy 5 0 (0x2C400 + 0x10 * c)
  else if len = 0 || 2048 < len then d.errReserved 5 0 (0x2C400 + 0x10 * c)
  else
    let d := d.put (BSK_QA_STATUS_BUSY c) 1
    { d with bsk := { d.bsk with qa := d.bsk.qa ++ [(⟨c, op, q, len, d.get (BSK_QA_ADDR_ADDR c)⟩ : QaCmd)] } }

/-- The result of core c's queue access is final: BUSY clears and interrupt source 56 is raised (R109, R269). -/
def Dev.qaResult (d : Dev) (c result reason elen : Nat) : Dev :=
  let d := { d with bsk := { d.bsk with qa := d.bsk.qa.filter (fun x => x.core != c) } }
  let d := (((d.put (BSK_QA_STATUS_BUSY c) 0).put (BSK_QA_STATUS_RESULT c) result).put (BSK_QA_STATUS_REASON c) reason).put
    (BSK_QA_STATUS_ELEN c) elen
  d.irq c 56

/-- The Basket reads the entry of an ENQ from memory and offers it; a poisoned line poisons the entry. -/
def Dev.qaEnq (d : Dev) (c : QaCmd) (env : DramEnvs) : Dev :=
  if !queueCoreEnq c.q then d.qaResult c.core 3 0 0
  else if !d.memOk .qa c.addr c.len false then (d.memRefuse .qa c.addr c.len false).qaResult c.core 6 0 0
  else
    let (d, bad) := d.readSpan env 0x5C c.addr c.len
    let e := { d.tagged c.q (leWords c.len (d.wordsAt c.addr c.len)) with poison := bad }
    match d.commitNumbered c.q e with
    | (d, .placed) => d.qaResult c.core 0 0 c.len
    | (d, .held) => d.qaResult c.core 7 0 0
    | (d, .refused r) => d.qaResult c.core 4 r 0

/-- A DEQ: nothing moves when the queue has no whole entry, or its entry is longer than LEN. -/
def Dev.qaDeq (d : Dev) (c : QaCmd) (env : CellEnv) : Dev :=
  if !queueCoreDeq c.q then d.qaResult c.core 3 0 0
  else
    let d := d.fresh c.q
    if !d.canTake c.q then d.qaResult c.core 1 0 0
    else match d.peek c.q with
      | none => d.qaResult c.core 1 0 0
      | some e =>
        let n := e.words.length
        if c.len < n then d.qaResult c.core 2 0 n
        else if !d.memOk .qa c.addr n true then (d.memRefuse .qa c.addr n true).qaResult c.core 6 0 0
        else match (d.cellRead c.q 0 env).take c.q with
          | (d, .entry e) => (d.writeWords c.addr n (wordsNat e.words) 9999).qaResult c.core (if e.poison then 5 else 0) 0 n
          | (d, _) => d.qaResult c.core 1 0 0

/-- QUEUE_ACCESS_COMPLETE: core c's command in progress. -/
def Dev.qaDone (d : Dev) (c : Nat) (cell : CellEnv) (env : DramEnvs) : Dev :=
  match d.bsk.qa.find? (fun x => x.core == c) with
  | some x => if x.op = 1 then d.qaEnq x env else d.qaDeq x cell
  | none => d

/-! ### Scrubbing (R108) -/

/-- How many live entries lie before the entry that holds position p, the list's first cell at position 0; a filler's cell has no entry. -/
def entryAt : List Entry → Nat → Option Nat
  | [], _ => none
  | e :: r, p =>
    if p < e.cells then (if e.live then some 0 else none)
    else (entryAt r (p - e.cells)).map (· + b2n e.live)

/-- The position in the queue of its i-th cell on die: LOW's blocks that are written lie between HEAD and the blocks being written. -/
def Queue.posOf (q : Queue) (i : Nat) : Nat := if i < q.head then i else q.head + 16 * q.low + i - q.tailAt

/-- The queue that holds cell c, and the place among its live entries of the one that owns it: a place beyond them for a cell whose entry is
discarded (R88, R107). -/
def Dev.cellOwner (d : Dev) (c : Nat) : Option (Nat × Nat) :=
  match d.bsk.q.find? (fun e => e.2.cells.contains c) with
  | none => none
  | some (qn, q) => some (qn, (entryAt q.es (q.posOf (q.cells.idxOf c))).getD q.es.length)

/-- BSK_SCRUB_READ: the scrubber reads the next cell in cell order and finds it as `env` says; the cell's queue and entry are as the queues hold
them. An error of a cell that no queue holds has no queue to name and no entry to poison: a corrected quad is recorded with any queue number
`q`, and an uncorrectable one, cleared when the cell is next written, is counted and not recorded (DESIGN CHOICE, log entry 24). -/
def Dev.bskScrub (d : Dev) (q : Nat) (env : CellEnv) : Dev :=
  if !d.on BSK_SCRUB_EN then d
  else
    let c := d.bsk.scrub
    let next := (c + 1) % 393216
    let d := { d with bsk := { d.bsk with scrub := next } }
    let d := if next = 0 then d.inc (BSK_CNT_COUNT 6) else d
    match d.cellOwner c with
    | some (qn, i) => d.cellRead qn i env
    | none => match env with
      | .good => d
      | .corrected => d.cellCorrected q 0
      | .structCorrected => d.cellCorrected q 0
      | .bad => d.inc (BSK_CNT_COUNT 5)
      | .structBad => d.inc (BSK_CNT_COUNT 5)

/-! ### The weave (R102–R104) -/

/-- Whether weave port p produces for queue group g (Tables 4-1, 4-5, 16-3). -/
def producesFor (p g : Nat) : Bool :=
  let stake := decide (p < 0x30)
  let hoop := decide (0x30 ≤ p) && decide (p < 0x50)
  let rim := p == 0x52 || p == 0x53
  if g < 32 then p == 0x50 || rim || hoop
  else if g = 32 then p == 0x50 || p == 0x51 || rim
  else if g = 33 || g = 39 then p == 0x50
  else if g = 34 then p == 0x54 || stake
  else if g = 35 then p == 0x51 || hoop || p == 0x54
  else if g = 36 then stake || (decide (0x57 ≤ p) && decide (p < 0x5B))
  else if g = 37 then p == 0x56
  else if g = 38 then decide (p ≤ 0x66)
  else g == 40 && stake

/-- Reserved credits (R103). -/
def reservedFor (p g : Nat) : Bool := g == 32 && decide (0x51 ≤ p) && decide (p ≤ 0x53)

/-- WV_CRED_VIEW for the selection: every credit is back between two commands. -/
def Dev.credView (d : Dev) : Nat :=
  let p := d.get WV_CRED_SEL_PRODUCER
  let g := d.get WV_CRED_SEL_GROUP
  let n := if reservedFor p g then (if p = 0x51 then 64 else 16) else if producesFor p g then 64 else 0
  n + n * 256 + b2n (reservedFor p g) * 65536

/-! ### The Basket's management tick (R111) -/

/-- The tick's 0x0402 events for the first 64 queues that dropped entries. -/
def Dev.dropEvents (d : Dev) (l : List (Nat × Queue)) : Dev :=
  (l.take 64).foldl (fun d e => d.bothEvent e.2.owner 0x0402 ((2, e.1) :: (List.range 9).map (fun r => (4, e.2.tickDrops.getD r 0)))) d

/-- Drops of the tick are reported, and its once-per-tick marks cleared. What is dropped while they are reported counts to the next
tick. -/
def Dev.basketTick (d : Dev) : Dev :=
  let l := d.bsk.q.filter (fun e => !e.2.tickDrops.isEmpty)
  let d := d.bsk.q.foldl (fun d e =>
    if e.2.tickDrops.isEmpty && !e.2.spillEvent && !e.2.fullEvent then d
    else d.setQueue e.1 { e.2 with tickDrops := [], spillEvent := false, fullEvent := false }) d
  let d := { d with bsk := { d.bsk with lowEvent := false } }
  let d := d.dropEvents l
  let more := l.drop 64
  if more.isEmpty then d else d.pfEvent 0x0403 [(4, more.length), (4, sumN (more.map (fun e => sumN e.2.tickDrops)))]

/-- The Basket's side of BSK_FN_USE (Table 4-8). -/
def Dev.fnUseOd (d : Dev) (f : Nat) : Nat := d.cellsOf (fun q => q.owner == f)
def Dev.fnUseLt (d : Dev) (f : Nat) : Nat := d.blocksOf (fun q => q.owner == f)

end Sys2Proof.Machine
end

