-- ==== Sys2Proof/Machine/Counter.lean ====
section
/-!
DEFINITION. The counter reader's latch (R381): the counters in their order, which of them a latch takes, and the latch at a tick.
-/
namespace Sys2Proof.Machine

/-- In Hush, or while entering or leaving it, domains but the always-on one are off (R350). -/
def Dev.asleep (d : Dev) : Bool := d.get PWR_STATUS_STATE != 0 && !d.pwr.emul

/-- Some stake core, strand engine or the handle core is halted by debug (R374). -/
def Dev.anyHalted (d : Dev) : Bool :=
  (List.range 49).any (fun c => d.on (DBG_CORE_STAT_HALTED c)) || (List.range 512).any (fun e => d.on (DBG_ENG_STAT_HALTED e))

/-- The block a counter lies in. -/
inductive CntBlk where
  | core | mem | host | aon
  | port (p : Nat) | hoop (h : Nat) | link (i : Nat) | clu (k : Nat) | thread (c : Nat)
  deriving DecidableEq, Repr

/-- A counter: a register, or a PMC of a stake core. -/
inductive CntSrc where
  | reg (f : Fld)
  | pmc (c j : Nat)
  deriving DecidableEq, Repr

/-- Registers of one block. -/
def cntRegs (b : CntBlk) (l : List Fld) : List (CntSrc × CntBlk) := l.map (fun f => (.reg f, b))

/-- f a, f (a + 1), … of n elements. -/
def run (a n : Nat) (f : Nat → Fld) : List Fld := (List.range n).map (fun i => f (a + i))

/-- The counters in the order of Table 16-5. -/
def cntOrder : List (CntSrc × CntBlk) :=
  cntRegs .core (run 1 15 MLE_DROP_CNT_COUNT ++ [MLE_RX_CNT_COUNT, MLE_TX_CNT_COUNT, MLE_UNREG_OVF_COUNT] ++ run 1 4 MLE_TXDROP_CNT_COUNT) ++
  (List.range 4).flatMap (fun p => cntRegs (.port p)
    (run 0 6 (FP_CNT_COUNT p) ++ run 1 15 (FP_RXDROP_COUNT p) ++ run 1 3 (FP_TXDROP_COUNT p) ++ run 0 32 (FP_LCNT_COUNT p))) ++
  cntRegs .core (run 1 9 BSK_DROP_CNT_COUNT ++ run 0 8 BSK_CNT_COUNT ++ run 0 4 WV_STALL_COUNT) ++
  (List.range 32).flatMap (fun h => cntRegs (.hoop h) (run 0 10 (HOOP_CNT_COUNT h))) ++
  (List.range 32).flatMap (fun h => cntRegs (.hoop h) (run 0 4 (PAIR_CNT_COUNT h))) ++
  cntRegs .core (run 0 9 RFX_CNT_COUNT ++ run 0 11 ORD_CNT_COUNT ++ run 0 8 LDG_CNT_COUNT ++ run 0 4 RIM_GCNT_COUNT) ++
  (List.range 2).flatMap (fun i => cntRegs (.link i) (run 0 12 (RIM_CNT_COUNT i))) ++
  cntRegs .host (run 0 10 HIF_CNT_COUNT) ++
  (List.range 48).flatMap (fun c => cntRegs (.clu (c / 4)) (run 0 4 (STK_CNT_COUNT c))) ++
  (List.range 48).flatMap (fun c => (List.range 6).map (fun j => (.pmc c j, .thread c))) ++
  cntRegs .mem (run 0 5 MEM_CNT_COUNT ++ (List.range 16).flatMap (fun i => run 0 10 (MEM_SYM_CNT_COUNT i))) ++
  cntRegs .aon (run 0 5 TB_CNT_COUNT ++ run 0 7 PWR_CNT_COUNT) ++
  cntRegs .core (run 0 4 TRC_CNT_COUNT)

/-- Whether a block is neither parked, in reset nor powered off. -/
def Dev.blkUp (d : Dev) : CntBlk → Bool
  | .port p => d.get (FP_SVC_STATE p) != 3
  | .hoop h => d.get (HOOP_SVC_STATE h) != 3
  | .link i => d.get (RIM_SVC_STATE i) != 3
  | .clu k => d.get (STK_CLU_SVC_STATE k) != 3
  | .thread c => d.get (STK_CLU_SVC_STATE (c / 4)) != 3 &&
      (d.get (STK_CORE_CTL_STATE c) == 1 || d.get (STK_CORE_CTL_STATE c) == 2) && !d.on (STK_CORE_CTL_BUSY c)
  | _ => true

/-- The value of a counter. -/
def Dev.cntVal (d : Dev) : CntSrc → Nat
  | .reg f => d.get f
  | .pmc c j => Tab.get 0 (d.th (4096 + c)).ctl (0x330 + j)

/-- A counter restarts from 0. -/
def Dev.cntClear (d : Dev) : CntSrc → Dev
  | .reg f => d.put f 0
  | .pmc c j => d.updThr (4096 + c) (fun t => { t with ctl := Tab.set 0 t.ctl (0x330 + j) 0 })

/-- Every counter with VALID; an invalid one counts as 0. -/
def Dev.latched (d : Dev) : List (Nat × Bool) :=
  cntOrder.map (fun e => if d.blkUp e.2 then (d.cntVal e.1, true) else (0, false))

/-- A latch waits: an earlier one's dump is in progress, DBG_FRZ.CNT holds it (R374), or the core domain is off. -/
def Dev.latchHeld (d : Dev) : Bool := d.cnt.dump.isSome || (d.on DBG_FRZ_CNT && d.anyHalted) || d.asleep || d.pwr.tripped

/-- Every counter that a latch takes restarts from 0. -/
def Dev.cntClears (d : Dev) : Dev := cntOrder.foldl (fun d e => if d.blkUp e.2 then d.cntClear e.1 else d) d

/-- At a tick: a latch that is due, periodic or a SNAP's, takes every counter at once, with that tick's time (R381); what the tick itself counts
comes after it. -/
def Dev.latchTake (d : Dev) : Dev :=
  if !(d.cnt.due || d.cnt.snap) || d.latchHeld then d
  else
    let x : Dump := ⟨d.cnt.n, d.cnt.n % max 1 (d.get CNT_DUMP_CFG_SLOTS), d.now, d.cnt.snap, d.on CNT_CTL_CLR, d.get CNT_CTL_PERIOD, d.latched, false⟩
    { (if x.clr then d.cntClears else d) with cnt := { due := false, snap := false, n := d.cnt.n + 1, dump := some x } }

end Sys2Proof.Machine
end

