-- ==== Sys2Proof/Machine/Plait.lean ====
section
/-!
DEFINITION. Plait's operations (chapter 10): memory of the three configurations, the classes INT to SYS, MFC and MTC, and one
instruction of a thread from its boundary to its retirement.
-/
namespace Sys2Proof.Machine

/-! ### Memory of the handle core and the strand engines (Table 10-1, R112, R126) -/

/-- Some word of [va, va + n) lies in control space. -/
def inControl (va n : Nat) : Bool := isControl va || isControl (va + n - 1)

/-- The handle core's own storage at a word address, as `Config.handleMap` numbers it. -/
def Dev.ownPlace (d : Dev) (va : Nat) : Nat := if d.dramTop ≤ va && !isControl va then (Config.handleMap va).val else 0

/-- The handle core's protection unit, set and locked at the end of stage 0, stops an access to [va, va + n) (Table 14-6): firmware code is read and
executed, firmware data read and written, the ROM and the fuse array are not accessed. `kind` is 0 for a fetch, 1 for a load, 2 for a store. -/
def Dev.hpuStops (d : Dev) (kind va n : Nat) : Bool :=
  d.boot.hpu && (List.range n).any (fun i => let p := d.ownPlace (va + i)
    p == 3 || p == 4 || (p == 1 && kind == 2) || (p == 2 && kind == 0))

/-- All of [va, va + n) is storage of the handle core's own. -/
def Dev.ownAll (d : Dev) (va n : Nat) : Bool := (List.range n).all (fun i => d.ownPlace (va + i) != 0)

/-- A load of the handle core from its own storage: what it wrote there; the spec states no word of the images' layout, a free value elsewhere. -/
def Dev.ownLoad (d : Dev) (va n : Nat) : Dev × Nat :=
  let ws := (List.range n).map (fun i => Tab.find d.boot.hsram (va + i))
  if ws.all Option.isSome then (d, sumN ((List.range n).map (fun i => (ws.getD i none).getD 0 * 65536 ^ i)))
  else (d.drawn, d.freeVal.toNat % 65536 ^ n)

/-- A store of the handle core to its own storage. -/
def Dev.ownStore (d : Dev) (va n v : Nat) : Dev :=
  { d with boot := { d.boot with hsram := (List.range n).foldl (fun t i => Tab.ins t (va + i) (v / 65536 ^ i % 65536)) d.boot.hsram } }

/-- A load of the handle core: direct and coherent; control space at exactly its size, and not by an unaligned access (R226). Where the access gets
no data the spec states no value: a free value. -/
def Dev.hload (d : Dev) (cx : Cx) (info va n : Nat) : Res Nat :=
  if 2 ^ 44 ≤ va then .bad d (.exc 0x05 va info false)
  else if inControl va n then
    if va % n ≠ 0 then .bad d (.exc 0x06 va info false)
    else match cx.io.read d .handle (va - 0x0F0000000000) n with
      | (d, some v) => .ok d v
      | (d, none) => .ok d.drawn (d.freeVal.toNat % 65536 ^ n)
  else if d.hpuStops 1 va n then .bad d (.exc 0x0B va info false)
  else if decide (d.dramTop < va + n) && d.ownAll va n then
    let (d, v) := d.ownLoad va n
    .ok d v
  else if !d.memOk .handle va n false || cx.env.absent then
    let d := d.memRefuse .handle va n false
    .ok d.drawn (d.freeVal.toNat % 65536 ^ n)
  else
    let (d, bad) := d.readSpan cx.env.dram 0x5B va n
    if bad then .ok d.drawn (d.freeVal.toNat % 65536 ^ n) else .ok d (d.wordsAt va n)

/-- A store of the handle core. -/
def Dev.hstore (d : Dev) (cx : Cx) (info va n v : Nat) : Res Unit :=
  if 2 ^ 44 ≤ va then .bad d (.exc 0x05 va info false)
  else if inControl va n then
    if va % n ≠ 0 then .bad d (.exc 0x06 va info false) else .ok (cx.io.write d .handle (va - 0x0F0000000000) n v).1 ()
  else if d.hpuStops 2 va n then .bad d (.exc 0x0B va info false)
  else if decide (d.dramTop < va + n) && d.ownAll va n then .ok (d.ownStore va n v) ()
  else if d.memOk .handle va n true then .ok (d.writeWords va n v 2048) ()
  else .ok (d.memRefuse .handle va n true) ()

/-- The engine number of a thread. -/
def engNo (t : ThreadId) : Nat :=
  match t with
  | .engine e _ => e.val
  | _ => 0

/-- One word of an engine's address space outside an invocation: the word store, else the hoop's lantern-cache space. -/
def Dev.engWord (d : Dev) (e a : Nat) : Nat :=
  if a < 32768 then Tab.get 0 d.thr.wstore (e * 32768 + a) else Tab.get 0 d.thr.lcache (e / 16 * 2 ^ 24 + a)

/-- Store a word of an engine's address space. -/
def Dev.setEngWord (d : Dev) (e a v : Nat) : Dev :=
  if a < 32768 then { d with thr := { d.thr with wstore := Tab.set 0 d.thr.wstore (e * 32768 + a) (v % 65536) } }
  else { d with thr := { d.thr with lcache := Tab.set 0 d.thr.lcache (e / 16 * 2 ^ 24 + a) (v % 65536) } }

/-- Where an engine's word lies for reservations, apart from every physical address. -/
def engPlace (e a : Nat) : Nat := if a < 32768 then 2 ^ 60 + e * 2 ^ 24 + a else 2 ^ 61 + e / 16 * 2 ^ 24 + a

/-- Where a word of an invocation lies for reservations (Table 5-4): its lantern's customer area, or the engine's own. -/
def invPlace (e : Nat) (r : Running) (a : Nat) : Nat :=
  if 0x20000 ≤ a ∧ a < 0x20020 then 2 ^ 63 + r.inv.lix * 32 + (a - 0x20000) else 2 ^ 62 + e * 2 ^ 24 + a

/-- The invocation that a thread runs. -/
def Dev.invOf (d : Dev) (t : ThreadId) : Option Running :=
  match t with
  | .engine e c => if c.val = 3 then d.runningOn e.val else none
  | _ => none

/-- One word an invocation reads (Table 5-4); none outside its addresses. -/
def Dev.invWord (d : Dev) (e : Nat) (r : Running) (a : Nat) : Option Nat :=
  if a < 0x2000 then some (Tab.get 0 d.thr.scratch (e * 8192 + a))
  else if 0x10000 ≤ a ∧ a < 0x10800 then some (r.inv.entry.words.getD (a - 0x10000) 0).toNat
  else if 0x20000 ≤ a ∧ a < 0x20020 then some ((d.lrec r.inv.lix).cust.getD (a - 0x20000) 0).toNat
  else if 0x30000 ≤ a ∧ a < 0x30800 then some (Tab.get 0 d.thr.obuf (e * 2048 + (a - 0x30000)))
  else none

/-- The customer area with a word replaced. -/
def putCust (l : List Word) (i v : Nat) : List Word := (l ++ List.replicate (32 - l.length) 0).set i (BitVec.ofNat 16 v)

/-- One word an invocation writes; none outside the addresses it may write. -/
def Dev.setInvWord (d : Dev) (e : Nat) (r : Running) (a v : Nat) : Option Dev :=
  if a < 0x2000 then some { d with thr := { d.thr with scratch := Tab.set 0 d.thr.scratch (e * 8192 + a) (v % 65536) } }
  else if 0x20000 ≤ a ∧ a < 0x20020 then
    some ((d.touchRec r.inv.lix).setLrec r.inv.lix { d.lrec r.inv.lix with cust := putCust (d.lrec r.inv.lix).cust (a - 0x20000) v })
  else if 0x30000 ≤ a ∧ a < 0x30800 then
    some { d with thr := { d.thr with obuf := Tab.set 0 d.thr.obuf (e * 2048 + (a - 0x30000)) (v % 65536) } }
  else none

/-- The output buffer's words. -/
def Dev.obufWords (d : Dev) (e : Nat) : List Word := (List.range 2048).map (fun i => BitVec.ofNat 16 (Tab.get 0 d.thr.obuf (e * 2048 + i)))

/-- An invocation's words, lowest first; none where one lies outside its addresses. -/
def Dev.invWords (d : Dev) (e : Nat) (r : Running) : Nat → Nat → Option Nat
  | 0, _ => some 0
  | n + 1, a => (d.invWord e r a).bind fun w => (Dev.invWords d e r n (a + 1)).map fun v => w + 65536 * v

/-- Write an invocation's words. -/
def Dev.setInvWords (d : Dev) (e : Nat) (r : Running) : Nat → Nat → Nat → Option Dev
  | 0, _, _ => some d
  | n + 1, a, v => (d.setInvWord e r a v).bind fun d => Dev.setInvWords d e r n (a + 1) (v / 65536)

/-- A load of a strand engine. -/
def Dev.eload (d : Dev) (cx : Cx) (info va n : Nat) : Res Nat :=
  let e := engNo cx.t
  if 2 ^ 24 < va + n then .bad d (.exc 0x05 va info false)
  else match d.invOf cx.t with
    | some r =>
      if va = 0x30802 ∧ n = 2 then .ok d (r.outResult + r.outReason * 16)
      else (match d.invWords e r n va with
        | some v => .ok d v
        | none => .bad d (.exc 0x05 va info false))
    | none => .ok d ((List.range n).foldl (fun v i => v + d.engWord e (va + i) * 65536 ^ i) 0)

/-- A store of a strand engine. -/
def Dev.estore (d : Dev) (cx : Cx) (info va n v : Nat) : Res Unit :=
  let e := engNo cx.t
  if 2 ^ 24 < va + n then .bad d (.exc 0x05 va info false)
  else match d.invOf cx.t with
    | some r =>
      if va = 0x30800 ∧ n = 2 then .ok (d.outCmd e v (d.obufWords e)) ()
      else (match d.setInvWords e r n va v with
        | some d => .ok ((d.clearResv (invPlace e r va / 32) cx.k).clearResv (invPlace e r (va + n - 1) / 32) cx.k) ()
        | none => .bad d (.exc 0x05 va info false))
    | none =>
      let d := (d.clearResv (engPlace e va / 32) cx.k).clearResv (engPlace e (va + n - 1) / 32) cx.k
      .ok ((List.range n).foldl (fun d i => d.setEngWord e (va + i) (v / 65536 ^ i)) d) ()

/-- A load of any thread; `info` is the access code of Table 11-5. -/
def Dev.mload (d : Dev) (cx : Cx) (info va n : Nat) : Res Nat :=
  match kindOf cx.t with
  | .stake => d.sload cx info va n
  | .handle => d.hload cx info va n
  | .engine => d.eload cx info va n

/-- A store of any thread. -/
def Dev.mstore (d : Dev) (cx : Cx) (info va n v : Nat) : Res Unit :=
  match kindOf cx.t with
  | .stake => d.sstore cx info va n (v % 65536 ^ n)
  | .handle => d.hstore cx info va n (v % 65536 ^ n)
  | .engine => d.estore cx info va n (v % 65536 ^ n)

/-- Where a reservation of a thread lies. -/
def Dev.resvPlace (d : Dev) (t : ThreadId) (va : Nat) : Nat :=
  if kindOf t = .engine then
    (match d.invOf t with
    | some r => invPlace (engNo t) r va
    | none => engPlace (engNo t) va)
  else va

/-- An aligned access of the handle core or an engine, for ATOM (R242). -/
def Dev.alignedAtom (d : Dev) (va n : Nat) : Res Unit := if va % n ≠ 0 then .bad d (.exc 0x06 va 4 false) else .ok d ()

/-- A read-modify-write of any thread (R242). -/
def Dev.matom (d : Dev) (cx : Cx) (va n : Nat) (f : Nat → Option Nat) : Res Nat :=
  if kindOf cx.t = .stake then d.satom cx va n f
  else (d.alignedAtom va n).bind fun d _ => (d.mload cx 4 va n).bind fun d old =>
    match f old with
    | some v => (d.mstore cx 4 va n v).bind fun d _ => .ok d old
    | none => .ok d old

/-- LDRES of any thread. -/
def Dev.mldres (d : Dev) (cx : Cx) (va n : Nat) : Res Nat :=
  if kindOf cx.t = .stake then d.sldres cx va n
  else (d.alignedAtom va n).bind fun d _ => (d.mload cx 4 va n).bind fun d v =>
    .ok (d.updThr cx.k (fun h => { h with resv := some (d.resvPlace cx.t va, n) })) v

/-- STCOM of any thread. -/
def Dev.mstcom (d : Dev) (cx : Cx) (va n v : Nat) : Res Bool :=
  if kindOf cx.t = .stake then d.sstcom cx va n v
  else (d.alignedAtom va n).bind fun d _ =>
    let ok := (d.th cx.k).resv == some (d.resvPlace cx.t va, n)
    let d := d.updThr cx.k (fun h => { h with resv := none })
    if ok then (d.mstore cx 4 va n v).bind fun d _ => .ok d true else .ok d false

/-- A bit access of any thread (R240): an engine's private bit space, of which an invocation sees the upper quarter (R126). -/
def Dev.mbit (d : Dev) (cx : Cx) (n : Nat) (acc : Acc) (f : Bool → Option Bool) : Res Bool :=
  if kindOf cx.t = .stake then d.sbit cx n acc f
  else
    let e := engNo cx.t
    if 65535 < n ∨ ((d.invOf cx.t).isSome ∧ n < 0xC000) then .bad d (.exc 0x05 n (if acc = .load then 1 else 3) false)
    else
      let old := Tab.get false d.thr.bstore (e * 65536 + n)
      match f old with
      | some b => .ok { d with thr := { d.thr with bstore := Tab.set false d.thr.bstore (e * 65536 + n) b } } old
      | none => .ok d old

/-- A CACHE operation; each has an effective address (R225). The handle core, coherent with the L2s, acts on their lines; an engine's storage is not
cacheable (R291). -/
def Dev.mcache (d : Dev) (cx : Cx) (op va : Nat) : Res Unit :=
  if 2 ^ (kindOf cx.t).eaw ≤ va then .bad d (.exc 0x05 va (if op = 2 ∨ op = 4 then 2 else 1) false)
  else match kindOf cx.t with
  | .stake => d.scache cx op va
  | .handle =>
    if 8 ≤ op then .ok (d.cacheAll cx op va) ()
    else if isControl va then (if op = 4 then .bad d (.exc 0x0B va (2 + 2 * 1024) false) else .ok d ())
    else if op = 4 then d.hstore cx 2 (va / 32 * 32) 32 0
    else .ok (d.lineOp op (va / 32) 0) ()
  | .engine =>
    if 8 ≤ op then .ok (d.cacheAll cx op va) ()
    else if op = 4 then .bad d (.exc 0x0B va (2 + 2 * 1024) false)
    else .ok d ()

/-! ### Control registers by MFC and MTC (R228, R255, R259, R303, R369) -/

/-- What Table 10-3 and its chapters say of a control register: user may read, user may write, MTC allowed, SYNC-marked. -/
structure CtlReg where
  ur : Bool
  uw : Bool
  wr : Bool
  sync : Bool
  deriving DecidableEq, Repr

/-- The registers assigned in a configuration; `lvl` is the level and `pmur` PMCTL.UR. -/
def ctlReg (k : Kind) (lvl : Nat) (pmur : Bool) (n : Nat) : Option CtlReg :=
  let sys : Option CtlReg := some ⟨false, false, true, false⟩
  let sysSync : Option CtlReg := some ⟨false, false, true, true⟩
  let ro : Option CtlReg := some ⟨false, false, false, false⟩
  let user : Option CtlReg := some ⟨true, true, true, false⟩
  let userRo : Option CtlReg := some ⟨true, false, false, false⟩
  if n = 0x000 then some ⟨true, false, true, true⟩
  else if n = 0x010 ∨ n = 0x011 then (if k = .handle then none else user)
  else if n = 0x012 then some ⟨true, true, true, true⟩
  else if 0x020 ≤ n ∧ n ≤ 0x027 then user
  else if n = 0x030 ∨ n = 0x038 then userRo
  else if n = 0x031 then (if k = .handle then none else userRo)
  else if k = .stake then
    if n = 0x028 ∨ n = 0x102 then some ⟨true, false, true, true⟩
    else if n = 0x100 ∨ n = 0x101 ∨ (0x140 ≤ n ∧ n < 0x180) ∨ n = 0x200 ∨ n = 0x201 then sysSync
    else if n = 0x110 ∨ (0x1C0 ≤ n ∧ n < 0x1C4) ∨ n = 0x203 ∨ n = 0x205 ∨ n = 0x311 then ro
    else if n = 0x1C4 ∨ n = 0x202 ∨ n = 0x204 ∨ (0x210 ≤ n ∧ n < 0x216) ∨ (0x218 ≤ n ∧ n < 0x21E) ∨ (0x220 ≤ n ∧ n < 0x22C) then sys
    else if 0x300 ≤ n ∧ n ≤ 0x302 then (if lvl = 3 then sys else none)
    else if n = 0x303 then (if lvl = 3 then ro else none)
    else if n = 0x310 ∨ n = 0x312 ∨ n = 0x320 ∨ (0x328 ≤ n ∧ n < 0x32E) then sys
    else if 0x330 ≤ n ∧ n < 0x336 then some ⟨pmur, false, true, false⟩
    else none
  else if k = .handle then
    if n = 0x200 then sysSync
    else if n = 0x203 then ro
    else if n = 0x202 ∨ n = 0x204 ∨ (0x210 ≤ n ∧ n < 0x216) ∨ (0x220 ≤ n ∧ n < 0x228) then sys
    else none
  else none

/-- The bits of a control register that a write can set. -/
def ctlMask (k : Kind) (n v : Nat) : Nat :=
  if n = 0x000 then (if k = .stake then v % 4 else v / 2 % 2 * 2)
  else if n = 0x010 then v % 8 + (if k = .stake then bits v 12 8 * 256 else 0)
  else if n = 0x011 then v % 32
  else if n = 0x012 then v % 2
  else if n = 0x028 ∨ n = 0x201 then v % 2 ^ 42
  else if n = 0x100 then v % 8
  else if n = 0x101 then bits v 43 12 * 4096
  else if n = 0x102 then v % 65536
  else if 0x140 ≤ n ∧ n < 0x180 then bits v 43 12 * 4096 + (if n % 2 = 0 then v % 32 else 0)
  else if n = 0x200 then bits v 41 10 * 1024
  else if n = 0x202 then v % 2 ^ 58
  else if n = 0x212 ∨ n = 0x21A ∨ n = 0x302 then (if k = .stake then v % 64 else v % 64 / 2 * 2)
  else if n = 0x213 ∨ n = 0x21B then v % 512
  else if n = 0x320 then v % 4
  else if 0x328 ≤ n ∧ n < 0x32E then v % 256
  else if 0x330 ≤ n ∧ n < 0x336 then v % 2 ^ 48
  else v % 2 ^ 64

/-- CONFIG (Table 10-4). -/
def configOf (t : ThreadId) : Nat :=
  match t with
  | .handle => 0
  | .engine e c => 1 + e.val % 16 * 4 + e.val / 16 * 256 + c.val * 8192
  | .stake c => 2 + c.val * 4

/-- CSTAT: the enabled ways (Table 12-14). -/
def Dev.cstat (d : Dev) (c : Nat) : Nat :=
  let off := fun key n => 2 ^ n - 1 - Tab.get 0 d.mem.wayOff key % 2 ^ n
  off (cL1d c) 8 + off (cL1i c) 4 * 256 + off (cL2 (c / 4)) 16 * 65536

/-- The value an MFC reads, with what reading changes: VTRX gives up its word (R373); CYCLE is free (R228), and so is HOLDREM within what it read
before, since it counts down (R267). -/
def Dev.mfcVal (d : Dev) (cx : Cx) (n : Nat) : Dev × Nat :=
  let t := d.th cx.k
  let c := cx.core
  if n = 0 then (d, ctlGet cx.ctl 0 / 2 * 2 + b2n (d.userMode cx.t cx.ctl))
  else if 0x020 ≤ n ∧ n ≤ 0x027 then (d, t.br (n - 0x020))
  else if n = 0x030 then (d.drawn, d.freeVal.toNat)
  else if n = 0x031 then (d, d.now)
  else if n = 0x038 then (d, configOf cx.t)
  else if n = 0x110 then (d, d.cstat c)
  else if n = 0x204 ∨ n = 0x310 then (d, 0)
  else if n = 0x205 then
    (if t.hold = 0 then (d, 0)
     else (d.drawn.updThr cx.k (fun t => { t with hold := d.freeVal.toNat % t.hold + 1 }), d.freeVal.toNat % t.hold + 1))
  else if 0x220 ≤ n ∧ n < 0x22C then (d, t.bankG ((n - 0x220) / 4) (n % 4))
  else if n = 0x311 then (d.putB (DBG_CORE_STAT_RXFULL c) false, d.get (DBG_VT_RX_DATA c))
  else if n = 0x312 then (d, d.get (DBG_CORE_STAT_TXFULL c) + 2 * d.get (DBG_CORE_STAT_RXFULL c) + bits (t.cr 0x312) 4 2 * 4)
  else (d, ctlGet cx.ctl n)

/-- An MTC's effect: SYNC-marked writes wait (R228), the others apply at once. -/
def Dev.mtcDo (d : Dev) (cx : Cx) (n v : Nat) (sync : Bool) : Dev :=
  let c := cx.core
  let k := kindOf cx.t
  let w := ctlMask k n v
  if sync then d.updThr cx.k (fun t => { t with pend := t.pend ++ [(n, w)] })
  else if 0x020 ≤ n ∧ n ≤ 0x027 then d.updThr cx.k (fun t => t.setB (n - 0x020) v)
  else if n = 0x204 then d.updThr cx.k (fun t => t.setCr 0x203 (t.cr 0x203 - (t.cr 0x203 &&& v)))
  else if 0x220 ≤ n ∧ n < 0x22C then d.updThr cx.k (fun t => t.setBankG ((n - 0x220) / 4) (n % 4) v)
  else if n = 0x1C4 then d.updThr cx.k (fun t => t.setCr 0x1C4 0)
  else if n = 0x310 then
    if d.on (DBG_CORE_STAT_TXFULL c) then d.updThr cx.k (fun t => t.setCr 0x312 (t.cr 0x312 ||| 4))
    else (d.put (DBG_VT_TX_DATA c) v).putB (DBG_CORE_STAT_TXFULL c) true
  else if n = 0x312 then
    d.updThr cx.k (fun t => t.setCr 0x312 ((if bit v 2 then 0 else bits (t.cr 0x312) 2 2 * 4) + bits v 4 3 * 8))
  else d.updThr cx.k (fun t => t.setCr n w)

/-! ### One instruction -/

/-- Where an instruction leaves its thread: at the next one, at the same long instruction, after a branch, or elsewhere already. -/
inductive Flow where
  | next
  | stay
  | branch (taken : Bool) (target : Nat) (annul : Bool) (link : Nat)
  | gone
  deriving DecidableEq, Repr

/-- Registers change, nothing else. -/
def Dev.regs1 (d : Dev) (cx : Cx) (f : Thr → Thr) : Res Flow := .ok (d.updThr cx.k f) .next

/-- A writer of mh:ml: at once on a stake core, after its shadow elsewhere (R239). -/
def Thr.mulTo (t : Thr) (k : Kind) (m : Nat × Nat) : Thr :=
  if k = .stake then { t with mh := m.1, ml := m.2 } else { t with mulq := t.mulq ++ [(4, m.1, m.2)] }

/-- INT (R236). -/
def Dev.opInt (d : Dev) (cx : Cx) (i : PIns) : Res Flow :=
  d.regs1 cx (fun t =>
    if i.fn = 22 then t.setG i.rd t.preds
    else if i.fn = 23 then { t with p := t.gr i.ra / 2 % 128 * 2 }
    else t.setG i.rd (alu i.x i.fn (t.gr i.ra) (i.opB t)))

/-- IMM (Table 10-7). -/
def Dev.opImm (d : Dev) (cx : Cx) (i : PIns) : Res Flow :=
  d.regs1 cx (fun t => t.setG i.rd (if i.x then (i.arg + 65536 * i.imm) * 2 ^ 32 + t.gr i.rd % 2 ^ 32 else i.disp))

/-- MUL (R238, R239). -/
def Dev.opMul (d : Dev) (cx : Cx) (i : PIns) : Res Flow :=
  d.regs1 cx (fun t =>
    match i.fn with
    | 6 => t.setG i.rd t.mh
    | 7 => t.setG i.rd t.ml
    | 8 => { t with mh := t.gr i.ra }
    | 9 => { t with ml := t.gr i.ra }
    | fn => t.mulTo (kindOf cx.t) (mulDiv fn (t.gr i.ra) (t.gr i.rb) (t.mh * 2 ^ 64 + t.ml)))

/-- CMP and predicate logic (R236). -/
def Dev.opCmp (d : Dev) (cx : Cx) (i : PIns) : Res Flow :=
  d.regs1 cx (fun t =>
    t.cmpTo i.pt i.mode (if i.fn ≤ 7 then cmpOp i.x i.fn (t.gr i.ra) (i.opB t) else predOp i.fn (t.pr i.ra) (t.pr i.rb)))

/-- Extend a loaded value. -/
def extend (signed : Bool) (n v : Nat) : Nat := if signed then sext (16 * n) v else v

/-- A PMC event of a stake core's thread. -/
def Dev.ev (d : Dev) (cx : Cx) (e : Nat) : Dev :=
  match cx.t with
  | .stake c => d.pmc c.val e
  | _ => d

/-- A load into g or f. -/
def Dev.loadTo (d : Dev) (cx : Cx) (rd va n : Nat) (signed f : Bool) : Res Flow :=
  (d.mload cx 1 va n).bind fun d v =>
  (d.ev cx 5).regs1 cx (fun t => if f then t.setF rd v else t.setG rd (extend signed n v))

/-- A store. -/
def Dev.storeFrom (d : Dev) (cx : Cx) (va n v : Nat) : Res Flow := (d.mstore cx 2 va n v).bind fun d _ => .ok (d.ev cx 6) .next

/-- What a MEM load runs under: where it takes a value given ahead, the loads whose address came from its own base registers (R292). -/
def Dev.loadCx (d : Dev) (cx : Cx) (i : PIns) : Cx :=
  if i.env.early then { cx with ahead := (d.th cx.k).ahead.filter (fun a => a.ra == i.ra && a.rb == i.rb) } else cx

/-- MEM (Table 10-7, R291). -/
def Dev.opMem (d : Dev) (cx : Cx) (i : PIns) : Res Flow :=
  let t := d.th cx.k
  let n := szWords (i.fn % 4)
  let va := i.ea t n
  match i.fn / 4 with
  | 0 => d.loadTo (d.loadCx cx i) i.rd va n true false
  | 1 => d.loadTo (d.loadCx cx i) i.rd va n false false
  | 2 => d.storeFrom cx va n (t.gr i.rd)
  | 3 => d.loadTo (d.loadCx cx i) i.rd va n false true
  | 4 => d.storeFrom cx va n (t.fr i.rd)
  | 5 => .ok (if kindOf cx.t = .stake then d.spref cx va else d) .next
  | _ =>
    if cx.user && (i.rd == 2 || decide (8 ≤ i.rd)) then .bad d (.exc 0x02 0 0 false)
    else (d.mcache cx i.rd va).bind fun d _ => .ok d .next

/-- SHW, SHP, SHQ (R237). -/
def Dev.opShort (d : Dev) (cx : Cx) (i : PIns) : Res Flow :=
  let t := d.th cx.k
  let n := szWords (i.cls - 5)
  if i.x then d.storeFrom cx (i.sha t) n (t.gr i.rd) else d.loadTo cx i.rd (i.sha t) n true false

/-- BIT (R240). -/
def Dev.opBit (d : Dev) (cx : Cx) (i : PIns) : Res Flow :=
  let t := d.th cx.k
  let n := i.ea t 1
  match i.fn with
  | 0 => (d.mbit cx n .load (fun _ => none)).bind fun d b => (d.ev cx 5).regs1 cx (fun t => t.cmpTo i.pt i.mode b)
  | 4 => (d.mbit cx n .load (fun _ => none)).bind fun d b => (d.ev cx 5).regs1 cx (fun t => t.setG i.rd (b2n b))
  | 5 => (d.mbit cx n .store (fun _ => some (bit (t.gr i.rd) 0))).bind fun d _ => .ok (d.ev cx 6) .next
  | fn =>
    (d.mbit cx n .rmw (fun b => some (if fn = 1 then true else if fn = 2 then false else !b))).bind fun d b =>
    (d.ev cx 6).regs1 cx (fun t => t.setP i.pt b)

/-- BR and JR (R233). -/
def Dev.opBranch (d : Dev) (cx : Cx) (i : PIns) : Res Flow :=
  let t := d.th cx.k
  .ok (d.ev cx 3) (.branch true (if i.cls = 9 then wadd 64 cx.pc i.disp else t.gr i.ra) i.x i.rd)

/-- RB after an element of a long instruction, with its bit 63 given. -/
def afterElem (rb : Nat) (top : Bool) : Nat := b2n top * 2 ^ 63 + rb / 2 ^ 32 % 2 ^ 31 * 2 ^ 32 + (rb % 2 ^ 32 - 1)

/-- The operand registers after an element: RD and RA moved by steps, RB counted down. -/
def Thr.elemDone (t : Thr) (i : PIns) (sd sa : Nat) (top : Bool) : Thr :=
  ((t.setG i.rd (wadd 64 (t.gr i.rd) sd)).setG i.ra (wadd 64 (t.gr i.ra) sa)).setG i.rb (afterElem (t.gr i.rb) top)

/-- The sum of products of the signed bytes of two words (Table 10-10). -/
def dotWord (a b : Nat) : Int := sgn 8 a * sgn 8 b + sgn 8 (a / 256) * sgn 8 (b / 256)

/-- After an element: the long instruction goes on, or ends where no element is left; what a SIGD has accumulated off a stake core then
enters its shadow (R239, R241). -/
def Dev.elemNext (d : Dev) (cx : Cx) (i : PIns) : Res Flow :=
  let t := d.th cx.k
  if t.gr i.rb % 2 ^ 32 = 0 then
    .ok (d.updThr cx.k (fun t =>
      let t := match t.acc with
        | some m => { t with mulq := t.mulq ++ [(4, m)], acc := none }
        | none => t
      { (if i.fn % 8 = 3 then t.setP (i.fn / 8) true else t) with inLong := false })) .next
  else .ok (d.updThr cx.k (fun t => { t with inLong := true })) .stay

/-- A signature element adds x to ml (modulo 2^64); what mh holds then the spec does not state: a free value. -/
def Dev.accum (d : Dev) (cx : Cx) (i : PIns) (x : Int) : Res Flow :=
  let fv := d.freeVal.toNat
  (d.drawn.updThr cx.k (fun t =>
    let t' := t.elemDone i 1 1 (bit (t.gr i.rb) 63)
    if kindOf cx.t = .stake then { t' with mh := fv, ml := wrapI 64 (t.ml + x) }
    else { t' with acc := some (fv, wrapI 64 ((t.acc.getD (0, t.ml)).2 + x)) })).elemNext cx i

/-- One element of a LONG instruction (R241, Table 10-10). -/
def Dev.opLong (d : Dev) (cx : Cx) (i : PIns) : Res Flow :=
  let t := d.th cx.k
  let a := t.gr i.rd
  let b := t.gr i.ra
  let n := t.gr i.rb
  let op := i.fn % 8
  let top := bit n 63
  let upd := fun (d : Dev) sd sa => (d.updThr cx.k (fun t => t.elemDone i sd sa top)).elemNext cx i
  if n % 2 ^ 32 = 0 then d.elemNext cx i
  else match op with
    | 0 => (d.mload cx 5 b 1).bind fun d v => (d.mstore cx 5 a 1 v).bind fun d _ => upd d 1 1
    | 1 => (d.mload cx 5 b 1).bind fun d v => (d.mstore cx 5 a 1 v).bind fun d _ => upd d (2 ^ 64 - 1) (2 ^ 64 - 1)
    | 2 => (d.mstore cx 5 a 1 (b % 65536)).bind fun d _ => upd d 1 0
    | 3 =>
      (d.mload cx 5 a 1).bind fun d v => (d.mload cx 5 b 1).bind fun d w =>
      if v = w then upd d 1 1 else .ok (d.updThr cx.k (fun t => { t.setP (i.fn / 8) false with inLong := false })) .next
    | 4 => (d.mload cx 5 a 1).bind fun d v => (d.mload cx 5 b 1).bind fun d w => d.accum cx i (dotWord v w)
    | 5 => (d.mload cx 5 a 1).bind fun d v => (d.mload cx 5 b 1).bind fun d w => d.accum cx i (popc 16 (v ^^^ w) : Nat)
    | _ =>
      (d.mload cx 5 a 1).bind fun d v => (d.mload cx 5 b 1).bind fun d w =>
      if badDigits 4 v || badDigits 4 w then .bad d (.exc 0x08 a 0 false)
      else
        let r := if op = 6 then digAdd 4 v w (b2n top) else digSub 4 v w (b2n top)
        (d.mstore cx 5 a 1 r.1).bind fun d _ => (d.updThr cx.k (fun t => t.elemDone i 1 1 r.2)).elemNext cx i

/-- DEC (R244). -/
def Dev.opDec (d : Dev) (cx : Cx) (i : PIns) : Res Flow :=
  let t := d.th cx.k
  let a := t.gr i.ra
  let b := t.gr i.rb
  let pt := i.fn / 8
  let cin := b2n (i.x && t.pr pt)
  match i.fn % 8 with
  | 2 => d.regs1 cx (fun t => t.setP pt (allDigits 16 a))
  | 3 => if badDigits 16 a then .bad d (.exc 0x08 0 0 false) else d.regs1 cx (fun t => t.setG i.rd (bcdVal 16 a))
  | 4 => d.regs1 cx (fun t => (t.setG i.rd (toBcd 16 (a % 10 ^ 16))).setP pt (decide (10 ^ 16 ≤ a)))
  | op =>
    if badDigits 16 a || badDigits 16 b then .bad d (.exc 0x08 0 0 false)
    else
      let r := if op = 0 then digAdd 16 a b cin else digSub 16 a b cin
      d.regs1 cx (fun t => (t.setG i.rd r.1).setP pt r.2)

/-- Arithmetic of the FP class on unpacked operands: result bits and flags (R245–R247). -/
def fpArith (fn : Nat) (x : Bool) (rm : Nat) (ftz : Bool) (a b c : Nat) : Nat × Nat :=
  let f := fmtOf x
  let u := f.unpack ftz
  match fn with
  | 0 => f.add rm ftz (u a) (u b)
  | 1 => f.add rm ftz (u a) (u b).neg
  | 2 => f.mul rm ftz (u a) (u b)
  | 3 => f.div rm ftz (u a) (u b)
  | 4 => f.sqrt rm ftz (u a)
  | 5 => f.fma rm ftz (u a) (u b) (u c)
  | 6 => f.fma rm ftz (u a) (u b) (u c).neg
  | 7 => f.fma rm ftz (u a).neg (u b) (u c)
  | 8 => f.minmax false (u a) (u b)
  | 9 => f.minmax true (u a) (u b)
  | _ => f.convert (fmtOf !x) rm ftz ((fmtOf !x).unpack ftz a)

/-- FEQ, FLT, FLE, FUN: the result and flags (R245). -/
def fpCompare (fn : Nat) (x : Bool) (ftz : Bool) (a b : Nat) : Bool × Nat :=
  let f := fmtOf x
  let va := f.unpack ftz a
  let vb := f.unpack ftz b
  let nans := [va, vb].filterMap (fun v => match v with
    | .nan n => some n
    | _ => none)
  let sig := nans.any (fun n => f.signals n)
  if nans.isEmpty then
    let (lt, eq) := va.cmp vb
    (if fn = 24 then eq else if fn = 25 then lt else if fn = 26 then lt || eq else false, 0)
  else (fn == 27, if fn = 25 ∨ fn = 26 then 1 else b2n sig)

/-- FP (R245). A binary32 result writes bits [63:32] as 0 (Table 10-2). -/
def Dev.opFp (d : Dev) (cx : Cx) (i : PIns) : Res Flow :=
  let t := d.th cx.k
  let cut := fun v => if i.x then v else v % 2 ^ 32
  let rm := bits (t.cr 0x010) 1 0
  let ftz := bit (t.cr 0x010) 2
  let a := t.fr i.ra
  let b := t.fr i.rb
  let k := kindOf cx.t
  let sgnBit := if i.x then 2 ^ 63 else 2 ^ 31
  let f := fmtOf i.x
  match i.fn with
  | 10 => d.regs1 cx (fun t => t.setF i.rd (cut a % sgnBit))
  | 11 => d.regs1 cx (fun t => t.setF i.rd (cut a ^^^ sgnBit))
  | 12 => d.regs1 cx (fun t => t.setF i.rd (cut a))
  | 17 => (fun r => d.regs1 cx (fun t => (t.setG i.rd r.1).fpRaise k cx.pc r.2)) ((f.unpack ftz (cut a)).toInt rm true)
  | 18 => (fun r => d.regs1 cx (fun t => (t.setG i.rd r.1).fpRaise k cx.pc r.2)) ((f.unpack ftz (cut a)).toInt rm false)
  | 19 => (fun r => d.regs1 cx (fun t => (t.setG i.rd r.1).fpRaise k cx.pc r.2)) ((f.unpack ftz (cut a)).toInt 1 true)
  | 20 => (fun r => d.regs1 cx (fun t => (t.setF i.rd r.1).fpRaise k cx.pc r.2)) (f.ofInt rm ftz (sgn 64 (t.gr i.ra)))
  | 21 => (fun r => d.regs1 cx (fun t => (t.setF i.rd r.1).fpRaise k cx.pc r.2)) (f.ofInt rm ftz (t.gr i.ra : Nat))
  | 22 => d.regs1 cx (fun t => t.setG i.rd (cut a))
  | 23 => d.regs1 cx (fun t => t.setF i.rd (cut (t.gr i.ra)))
  | 24 | 25 | 26 | 27 =>
    (fun r => d.regs1 cx (fun t => (t.cmpTo i.pt i.mode r.1).fpRaise k cx.pc r.2)) (fpCompare i.fn i.x ftz (cut a) (cut b))
  | fn =>
    (fun r => d.regs1 cx (fun t => (t.setF i.rd r.1).fpRaise k cx.pc r.2))
      (fpArith fn i.x rm ftz (if fn = 16 then (if i.x then a % 2 ^ 32 else a) else cut a) (cut b) (cut (t.fr i.rd)))

/-- ATOM (R242, R243). -/
def Dev.opAtom (d : Dev) (cx : Cx) (i : PIns) : Res Flow :=
  let t := d.th cx.k
  let n := szWords (i.fn % 4)
  let w := 16 * n
  let va := t.gr i.ra
  let b := t.gr i.rb % 2 ^ w
  let old := t.gr i.rd % 2 ^ w
  match i.fn / 4 with
  | 0 => (d.mldres cx va n).bind fun d v => (d.ev cx 5).regs1 cx (fun t => t.setG i.rd (sext w v))
  | 1 => (d.mstcom cx va n b).bind fun d ok => (d.ev cx 6).regs1 cx (fun t => t.setP i.pt ok)
  | op =>
    (d.matom cx va n (fun v =>
      if op = 2 then some b
      else if op = 3 then some (wadd w v b)
      else if op = 4 then (if v = old then some b else none)
      else if op = 5 then some (v ||| b)
      else some (v &&& b))).bind fun d v => ((d.ev cx 5).ev cx 6).regs1 cx (fun t => t.setG i.rd (sext w v))

/-- MFC (R228). -/
def Dev.opMfc (d : Dev) (cx : Cx) (i : PIns) : Res Flow :=
  let n := i.arg % 1024
  match ctlReg (kindOf cx.t) (d.th cx.k).lvl (bit ((d.th cx.k).cr 0x320) 1) n with
  | none => .bad d (.exc 0x01 0 0 false)
  | some r =>
    if cx.user && !r.ur then .bad d (.exc 0x02 0 0 false)
    else
      let (d, v) := d.mfcVal cx n
      d.regs1 cx (fun t => t.setG (i.arg / 1024) v)

/-- MTC (R228). -/
def Dev.opMtc (d : Dev) (cx : Cx) (i : PIns) : Res Flow :=
  let n := i.arg % 1024
  match ctlReg (kindOf cx.t) (d.th cx.k).lvl (bit ((d.th cx.k).cr 0x320) 1) n with
  | none => .bad d (.exc 0x01 0 0 false)
  | some r =>
    if !r.wr then .bad d (.exc 0x01 0 0 false)
    else if cx.user && !r.uw then .bad d (.exc 0x02 0 0 false)
    else .ok (d.mtcDo cx n ((d.th cx.k).gr (i.arg / 1024)) r.sync) .next

/-- Strand engine e halts with a cause (R372): its contexts' reservations are lost (R243). -/
def Dev.engStopped (d : Dev) (e cause : Nat) : Dev :=
  forN 4 (fun c d => d.updThr (4 * e + c) (fun t => { t with resv := none }))
    ((d.putB (DBG_ENG_STAT_HALTED e) true).put (DBG_ENG_STAT_CAUSE e) cause)

/-- BRK: a halt under BRKHALT, else the breakpoint exception (Table 11-5, R365, R372). -/
def Dev.opBrk (d : Dev) (cx : Cx) (i : PIns) : Res Flow :=
  match cx.t with
  | .engine e _ =>
    if d.on (DBG_ENG_CTL_BRKHALT e.val) then .ok (d.engStopped e.val 3) .next
    else .bad d (.exc 0x04 0 (i.arg % 4096) false)
  | t =>
    if d.on (DBG_CORE_CTL_BRKHALT (dbgCore t)) && !cx.exec then
      .ok (d.updThr cx.k (fun h => { h with haltReq := some (h.haltReq.getD (3, 0)) })) .next
    else .bad d (.exc 0x04 0 (i.arg % 4096) false)

/-- SYS sub-operations that EXEC refuses (R367). -/
def execRefuses (i : PIns) : Bool := i.cls == 9 || i.cls == 10 || (i.cls == 15 && [1, 8, 9, 10, 11, 12].contains i.rd)

/-- SYS (Table 10-8). -/
def Dev.opSys (d : Dev) (cx : Cx) (i : PIns) : Res Flow :=
  let t := d.th cx.k
  if cx.user && [6, 8, 9, 10, 11].contains i.rd then .bad d (.exc 0x02 0 0 false)
  else match i.rd with
    | 1 =>
      if cx.exec then .bad d (.exc 0x01 0 0 false) else .bad d (.exc 0x03 0 i.arg false)
    | 2 => .ok (d.updThr cx.k Thr.sync) .next
    | 3 => .ok (if kindOf cx.t = .stake && i.arg != 0 then d.drainAll cx.core cx.env else d) .next
    | 4 => d.opMfc cx i
    | 5 => d.opMtc cx i
    | 8 =>
      d.regs1 cx (fun t => { t.setCr 0 (t.cr 0 ||| 32) with hold := if t.held then min t.hold i.arg else i.arg })
    | 9 => d.regs1 cx (fun t => if t.lvl = 1 then t.setCr 0 (t.cr 0 ||| 16) else t)
    | 10 =>
      (match t.rete with
      | some t' => .ok (d.updThr cx.k (fun _ => t')) .gone
      | none => .bad d (.exc 0x01 0 0 false))
    | 11 =>
      d.regs1 cx (fun t => { t.unhold with waiting := true })
    | 12 => d.opBrk cx i
    | _ => .ok d .next

/-- The operation of an instruction, by class (Table 10-6). -/
def Dev.operate (d : Dev) (cx : Cx) (i : PIns) : Res Flow :=
  match i.cls with
  | 0 => d.opInt cx i
  | 1 => d.opImm cx i
  | 2 => d.opMul cx i
  | 3 => d.opCmp cx i
  | 4 => d.opMem cx i
  | 5 | 6 | 7 => d.opShort cx i
  | 8 => d.opBit cx i
  | 9 | 10 => d.opBranch cx i
  | 11 => d.opLong cx i
  | 12 => d.opDec cx i
  | 13 => d.opFp cx i
  | 14 => d.opAtom cx i
  | _ => d.opSys cx i

/-- A thread's instruction up to its retirement: break units, fetch, R231, R234, guard, operation. -/
def Dev.attempt (d : Dev) (cx : Cx) (i : PIns) : Res Flow :=
  let t := d.th cx.k
  let stake := kindOf cx.t == .stake && !cx.exec
  (if stake && !t.inLong && !t.annul then d.units cx [1] cx.pc 1 false else .ok d ()).bind fun d _ =>
  (if stake then d.fetchIns cx i.len
   else if !cx.exec && decide (2 ^ (kindOf cx.t).eaw ≤ cx.pc) then .bad d (.exc 0x05 cx.pc 0 false)
   else if kindOf cx.t == .handle && !cx.exec && d.hpuStops 0 cx.pc i.len then .bad d (.exc 0x0B cx.pc 0 false)
   else .ok d ()).bind fun d _ =>
  let slot := t.slot || (match t.npc with | some n => n != wadd 64 cx.pc i.len | none => false)
  if !i.legal (kindOf cx.t) || (slot && !cx.exec && i.noSlot) || (cx.exec && execRefuses i) then .bad d (.exc 0x01 0 0 false)
  else if t.annul then .ok d .next
  else if !i.guard t then
    .ok (d.updThr cx.k (fun t => { t with inLong := false })) (if i.cls = 9 ∨ i.cls = 10 then .branch false 0 i.x i.rd else .next)
  else d.operate cx i

/-- Multiplier results one instruction nearer (R239). -/
def Thr.shadow (t : Thr) : Thr :=
  let q := t.mulq.map (fun m => (m.1 - 1, m.2))
  (q.filter (fun m => m.1 == 0)).foldl (fun t m => { t with mh := m.2.1, ml := m.2.2 }) { t with mulq := q.filter (fun m => m.1 != 0) }

/-- The place of the thread after an instruction of a given length. -/
def Thr.advance (t : Thr) (pc len : Nat) (f : Flow) : Thr :=
  let nx := t.npc.getD (wadd 64 pc len)
  match f with
  | .next => { t.shadow with pc := nx, npc := none, slot := false, annul := false }
  | .branch taken target an link =>
    { t.shadow with pc := nx, npc := if taken then some target else none, slot := true, annul := an && !taken,
                    link := if taken && link != 0 then some link else none }
  | .stay => t
  | .gone => t

/-- Events an instruction's retirement counts: itself, and a free number of the cycle and speculative ones (R383). -/
def Dev.retired (d : Dev) (cx : Cx) (f : Flow) : Dev :=
  match cx.t with
  | .stake c =>
    let d := if f = .stay then d else d.pmc c.val 2
    (d.pmcAdd c.val [1, 4, 7, 8, 9, 10, 12, 15] (d.freeVal.toNat % 65536)).drawn
  | _ => d

/-- An instruction is a barrier for FP traps (R268). -/
def PIns.fpBarrier (i : PIns) : Bool :=
  i.cls == 15 && ([1, 2, 8, 10].contains i.rd || ((i.rd == 4 || i.rd == 5) && (i.arg % 1024 == 0x010 || i.arg % 1024 == 0x011)))

/-- After an instruction has retired: the FP trap's count, a trap that 256 instructions end, the end of a step. -/
def Dev.afterRetire (d : Dev) (cx : Cx) (f : Flow) : Dev :=
  let d := d.retired cx f
  if kindOf cx.t = .engine then d
  else
    let stepped := (d.th cx.k).stepping
    let d := d.updThr cx.k (fun t => { t with
      fpt := if f = .stay then t.fpt else t.fpt.map (fun x => (x.1, x.2.1, x.2.2 + 1)),
      stepping := 0,
      haltReq := if t.stepping ≠ 0 then some (2, 0) else t.haltReq })
    let t := d.th cx.k
    if t.fptDue then d.takeFpt cx
    else if stepped ≠ 0 && t.lvl != 3 then d.takeHalt cx
    else d

/-- What becomes of an attempt (R261): a fault is entered; else a halt request or an interrupt of this boundary is taken and the
instruction has had no effect; else it retires. A pending FP trap goes before each of these. `d0` is the state at the boundary. -/
def Dev.settleIns (d0 : Dev) (cx : Cx) (i : PIns) (r : Res Flow) : Dev :=
  let t := d0.th cx.k
  let fp := kindOf cx.t == .stake && t.fptNow
  match r with
  | .bad d (.exc code addr info half2) => if fp then d0.takeFpt cx else d.syncFault cx code addr info half2 (d.faultPair cx code i.len)
  | .bad d (.halt u) =>
    if fp then d0.takeFpt cx
    else
      let (d, p) := d.boundary cx
      d.haltWith cx.t 4 u (ctlGet cx.ctl 0) p
  | .bad d .err => if (d.th cx.k).mcLevel.isSome then d.takeMc cx (some (d.ownPair cx i.len)) else d
  | .ok d f =>
    if kindOf cx.t != .engine && t.haltNow && t.stepping == 0 then (if fp then d0.takeFpt cx else d0.takeHalt cx)
    else if kindOf cx.t != .engine && t.intNow cx then (if fp then d0.takeFpt cx else d0.takeInt cx)
    else if f = .gone then d.afterRetire cx f
    else (d.updThr cx.k (fun t => (t.advance cx.pc i.len f).keepAhead i)).afterRetire cx f

/-- A context of an engine is ready (R113): not stopped, idle or waiting for a pairing result, and not of an engine that is halted. -/
def Dev.ctxReady (d : Dev) (e c : Nat) : Bool :=
  let h := d.th (4 * e + c)
  !h.stopped && !h.waiting && (!d.on (DBG_ENG_STAT_HALTED e) || h.stepping != 0) &&
  (d.ctxOf (e / 16) (e % 16) c).all (fun x => x.phase != .pairing) && (if c = 3 && d.custLoaded then (d.runningOn e).isSome else true)

/-- The context of engine e that issues in the next hoop cycle: of the ready ones round-robin, from the one after the context that issued last (R113). -/
def Dev.nextCtx (d : Dev) (e : Nat) : Option Nat :=
  let last := (Tab.get (3, 2) d.thr.issued e).1
  ((List.range 4).map (fun i => (last + 1 + i) % 4)).find? (d.ctxReady e)

/-- Context c of engine e may issue now: it is its turn, or it issues the second instruction of its cycle. -/
def Dev.ctxTurn (d : Dev) (e c : Nat) : Bool := d.nextCtx e == some c || (Tab.get (3, 2) d.thr.issued e == (c, 1) && d.ctxReady e c)

/-- Context c of engine e issues. -/
def Dev.issuedBy (d : Dev) (e c : Nat) : Dev :=
  let n := if Tab.get (3, 2) d.thr.issued e == (c, 1) then 2 else 1
  { d with thr := { d.thr with issued := Tab.set (3, 2) d.thr.issued e (c, n) } }

/-- A thread that may execute: a running core that does not wait (an interrupt that pends ends WAIT), the handle core unless halted, a
context of a hoop in service whose turn it is. -/
def Dev.runnable (d : Dev) (t : ThreadId) : Bool :=
  match t with
  | .stake c => d.coreUp c.val && (!(d.th (4096 + c.val)).waiting || (d.th (4096 + c.val)).cr 0x203 != 0)
  | .handle => !d.on (DBG_CORE_STAT_HALTED 48) && (!(d.th 2048).waiting || (d.th 2048).cr 0x203 != 0)
  | .engine e c => d.hoopUp (e.val / 16) && d.ctxTurn e.val c.val

/-- An address comparator of an engine that halts it before this instruction (R372). -/
def Dev.engineBreak (d : Dev) (e c pc : Nat) : Bool :=
  (List.range 2).any (fun k => d.on (DBG_ENG_BP_EN e k) && d.get (DBG_ENG_BP_ADDR e k) == pc && bit (d.get (DBG_ENG_BP_CTXMASK e k)) c)

/-- One instruction of a thread at its PC, or the asynchronous request that goes before it (R261). -/
def Dev.issue (d : Dev) (io : Io) (t : ThreadId) (i : PIns) : Dev :=
  if !d.runnable t then d
  else
    let d := d.updThr (tid t) (fun h => { h with waiting := false })
    let (d, cx) := d.ctxFor io t false i.env
    let h := d.th cx.k
    let d := match h.link with
      | some rd => d.updThr cx.k (fun h => { h.setG rd (wadd 64 h.pc i.len) with link := none })
      | none => d
    match t with
    | .engine e c =>
      let d := d.issuedBy e.val c.val
      if i.env.hoopStore then d.hoopStoreBad (e.val / 16)
      else if h.stepping = 0 && d.engineBreak e.val c.val h.pc then d.engStopped e.val 4
      else
        let r := d.settleIns cx i (d.attempt cx i)
        if h.stepping = 0 then r
        else (r.updThr cx.k (fun h => { h with stepping := 0 })).engStopped e.val 2
    | .handle => d.settleIns cx i (d.attempt cx i)
    | .stake _ =>
      if h.mcLevel.isSome then d.takeMc cx none
      else if h.fptDue || (h.fptNow && (i.fpBarrier && i.guard h)) then d.takeFpt cx
      else d.settleIns cx i (d.attempt cx i)

end Sys2Proof.Machine
end

