-- ==== Sys2Proof/Machine/Stake.lean ====
section
/-!
DEFINITION. Stake cores and clusters from outside (R265, R266, R269, R271, R295), and the memory controllers' commands: training, zero
fill and the scrubber (R297–R302).
-/
namespace Sys2Proof.Machine

/-! ### Cores -/

/-- Control-space offset of STK_CORE_CTL[c]. -/
def coreCtlOff (c : Nat) : Nat := 0x2A100 + 0x20 * c

/-- Control-space offset of STK_CLU_SVC[k]. -/
def cluSvcOff (k : Nat) : Nat := 0x2A040 + 2 * k

/-- A core that is in reset begins at STK_RVEC; a pending HALT halts it before its first instruction (R266, R368). -/
def Dev.coreBegin (d : Dev) (io : Io) (c : Core) : Dev :=
  let d := d.updThr (4096 + c.val) (fun t => { t with pc := d.get (STK_RVEC_ADDR c.val), npc := none, autoDue := false })
  let d := d.put (STK_CORE_CTL_STATE c.val) 1
  if d.on (DBG_CORE_STAT_HALTPEND c.val) then
    let (d, cx) := d.ctxFor io (.stake c) false {}
    let (d, p) := d.boundary cx
    d.haltWith (.stake c) 6 0 0 p
  else d

/-- The control register at a word offset belongs to a core whose cluster is not in service: a store to it gets no answer (R271). -/
def Dev.regDead (d : Dev) (off : Nat) : Bool := decide (0x2A100 ≤ off) && decide (off < 0x2A700) && d.coreDead ((off - 0x2A100) / 0x20)

/-- STK_CORE_CTL.OP := RESET (R265); a core whose cluster is not in service does not answer. -/
def Dev.coreReset (d : Dev) (c : Core) : Dev :=
  if d.coreDead c.val then d
  else if d.on (STK_CORE_CTL_BUSY c.val) then d.errBusy 0xD c.val (coreCtlOff c.val)
  else d.resetBegin c.val 3 0

/-- STK_CORE_CTL.OP := START (R266, Table 11-8: refused with a record in every STATE but 0). -/
def Dev.coreStart (d : Dev) (io : Io) (r : Requester) (c : Core) : Dev :=
  if d.coreDead c.val then d.errState 0xD c.val (coreCtlOff c.val) (srcOf r)
  else if d.on (STK_CORE_CTL_BUSY c.val) then d.errBusy 0xD c.val (coreCtlOff c.val)
  else if d.get (STK_CORE_CTL_STATE c.val) ≠ 0 then d.errState 0xD c.val (coreCtlOff c.val) (srcOf r)
  else d.coreBegin io c

/-- With AUTO a core starts itself 10 µs after its reset (R265). -/
def Dev.coreAuto (d : Dev) (io : Io) (c : Core) : Dev :=
  if !d.coreDead c.val && !d.on (STK_CORE_CTL_BUSY c.val) && d.get (STK_CORE_CTL_STATE c.val) == 0 && d.on (STK_CORE_CFG_AUTO c.val) &&
     (d.th (4096 + c.val)).autoDue then d.coreBegin io c
  else d

/-- STK_SWI: each 1 is a source event of interrupt source 48 to 55 (R269). -/
def Dev.swiWrite (d : Dev) (c : Core) (v : Nat) : Dev :=
  forN 8 (fun i d => if bit v i then d.irq c.val (48 + i) else d) d

/-- A buffered store of core c gets an absent response: it is dropped, recorded, and a machine check is pending (R295). Buffer 0 merges,
1 combines; the entry is counted from the oldest. -/
def Dev.lostStore (d : Dev) (c : Core) (k : Bool) (i : Nat) : Dev :=
  let b := d.bufOf c.val (b2n k)
  match b[i]? with
  | some e => (d.setBuf c.val (b2n k) (b.eraseIdx i)).lostAccess c.val (32 * e.line + (e.words.getD 0 (0, 0, 0)).1) true
  | none => d

/-! ### Clusters (R271) -/

/-- A cluster enters a service state, with event 0x1102. -/
def Dev.cluState (d : Dev) (k st : Nat) : Dev := (d.put (STK_CLU_SVC_STATE k) st).pfEvent 0x1102 [(1, k), (1, st)]

/-- OUT resets every core of the cluster with REASON 4, a reset in progress included; the cores are then of a cluster not in service. -/
def Dev.cluDown (d : Dev) (k : Nat) : Dev :=
  forN 4 (fun j d =>
    let c := 4 * k + j
    (((d.resetBegin c 4 0).put (STK_RST_INFO_REASON c) 4).resetEnd c).put (STK_CORE_CTL_STATE c) 3) (d.putB (STK_CLU_SVC_BUSY k) true)

/-- The cluster's dirty lines are written back, it leaves coherence, and is out of service. -/
def Dev.cluOutDone (d : Dev) (k : Nat) : Dev :=
  if d.get (STK_CLU_SVC_STATE k) = 2 && d.on (STK_CLU_SVC_BUSY k) then
    let ls := d.mem.l2.filter (fun e => e.2.holders.any (fun h => h.1 == k))
    let d := ls.foldl (fun d e => (d.cleanLine e.1).dropL2 k e.1) d
    (d.putB (STK_CLU_SVC_BUSY k) false).cluState k 0
  else d

/-- STK_CLU_SVC.OP := OUT. -/
def Dev.cluOut (d : Dev) (k : Nat) : Dev :=
  if d.on (STK_CLU_SVC_BUSY k) then d.errBusy 0xD k (cluSvcOff k)
  else if d.get (STK_CLU_SVC_STATE k) = 2 then d.cluDown k
  else d

/-- A block reset of the cluster acts as OUT without waiting for BUSY (R396). -/
def Dev.cluReset (d : Dev) (k : Nat) : Dev :=
  if d.get (STK_CLU_SVC_STATE k) = 0 || d.get (STK_CLU_SVC_STATE k) = 3 then d
  else (d.put (STK_CLU_SVC_STATE k) 2).cluDown k

/-- STK_CLU_SVC.OP := IN. -/
def Dev.cluIn (d : Dev) (k : Nat) : Dev :=
  if d.on (STK_CLU_SVC_BUSY k) then d.errBusy 0xD k (cluSvcOff k)
  else if d.get (STK_CLU_SVC_STATE k) = 1 || d.get (STK_CLU_SVC_STATE k) = 2 then d
  else (d.putB (STK_CLU_SVC_BUSY k) true).cluState k 1

/-- A returning cluster enters service: its ways return, its cores are in reset and start under their own AUTO setting. -/
def Dev.cluInDone (d : Dev) (k : Nat) : Dev :=
  if d.get (STK_CLU_SVC_STATE k) = 1 then
    let mine := fun key => key == cL2 k || (decide (key < 128) && key % 64 / 4 == k)
    let d := { d with mem := { d.mem with
      wayOff := d.mem.wayOff.filter (fun e => !mine e.1), wayErr := d.mem.wayErr.filter (fun e => !mine (e.1 / 16)) } }
    let d := forN 4 (fun j d =>
      (d.put (STK_CORE_CTL_STATE (4 * k + j)) 0).updThr (4096 + 4 * k + j) (fun t => { t with autoDue := true })) d
    (d.putB (STK_CLU_SVC_BUSY k) false).cluState k 2
  else d

/-- STK_CLU_SVC.OP := PARK, accepted only out of service. -/
def Dev.cluPark (d : Dev) (r : Requester) (k : Nat) : Dev :=
  if d.on (STK_CLU_SVC_BUSY k) then d.errBusy 0xD k (cluSvcOff k)
  else if d.get (STK_CLU_SVC_STATE k) = 0 then d.cluState k 3
  else d.errState 0xD k (cluSvcOff k) (srcOf r)

/-! ### Training and zero fill (R297) -/

/-- Control-space offsets of MEM_INIT and SCR_CMD. -/
def memInitOff : Nat := 0x2B004
def scrCmdOff : Nat := 0x3070E

/-- MEM_INIT.OP := TRAIN: DRAM is not available until training and zero fill have ended. -/
def Dev.train (d : Dev) : Dev :=
  if d.on MEM_INIT_BUSY then d.errBusy 0xE 0 memInitOff
  else
    let d := { d with mem := { d.mem with initOp := 1 } }
    ((d.putB MEM_INIT_BUSY true).putB MEM_STATUS_READY false).putB MEM_STATUS_TRAINED false

/-- Training ends: TRAINED, or the failing channels and step with event 0x1205. -/
def Dev.trainDone (d : Dev) (failch step : Nat) : Dev :=
  if d.on MEM_INIT_BUSY && d.mem.initOp == 1 then
    let d := { d with mem := { d.mem with initOp := 0 } }
    let d := ((d.putB MEM_INIT_BUSY false).put MEM_INIT_FAILCH failch).put MEM_INIT_STEP (if failch = 0 then 0 else step)
    if failch = 0 then ((d.put MEM_INIT_RESULT 0).putB MEM_STATUS_TRAINED true).put MEM_STATUS_SIZE (d.get MEM_CFG_DPC)
    else ((d.put MEM_INIT_RESULT 1).put MEM_STATUS_SIZE 0).pfEvent 0x1205 [(1, failch), (1, step)]
  else d

/-- MEM_INIT.OP := ECC_INIT (R302). -/
def Dev.eccInit (d : Dev) : Dev :=
  if d.on MEM_INIT_BUSY then d.errBusy 0xE 0 memInitOff
  else if !d.on MEM_STATUS_TRAINED then d.put MEM_INIT_RESULT 2
  else { d.putB MEM_INIT_BUSY true with mem := { d.mem with initOp := 2 } }

/-- The zero fill ends: every codeword holds zero data, READY is set. -/
def Dev.eccInitDone (d : Dev) : Dev :=
  if d.on MEM_INIT_BUSY && d.mem.initOp == 2 then
    let d := { d with mem := { d.mem with initOp := 0, dram := [], poison := [] } }
    ((d.putB MEM_INIT_BUSY false).put MEM_INIT_RESULT 0).putB MEM_STATUS_READY true
  else d

/-! ### The scrubber (R301) -/

/-- A range that lies in no active protected region. -/
def Dev.outsideProt (d : Dev) (base n : Nat) : Bool := d.mem.prot.all (fun e => decide (base + n ≤ e.2.1) || decide (e.2.2 ≤ base))

/-- SCR_CMD.OP := START. -/
def Dev.scrubStart (d : Dev) : Dev :=
  let a := d.get SCR_START_ADDR
  let b := d.get SCR_END_ADDR
  let t := d.get SCR_DEST_ADDR
  if d.on SCR_CMD_BUSY then d.errBusy 0xF 0 scrCmdOff
  else if !d.on MEM_STATUS_READY then d.put SCR_CMD_RESULT 1
  else if a % 32 ≠ 0 || b % 32 ≠ 0 || b ≤ a || d.dramTop < b then d.put SCR_CMD_RESULT 2
  else if t % 4 ≠ 0 || d.dramTop < t + 128 || !d.outsideProt t 128 then d.put SCR_CMD_RESULT 3
  else
    let d := { d with mem := { d.mem with scrub := some { start := a, stop := b, dest := t, tstart := d.now, next := a, last := d.now } } }
    (d.putB SCR_CMD_BUSY true).put SCR_PROG_NEXT a

/-- The scrubber checks the next line (R298, R299), its DRAM contents and not the caches'. -/
def Dev.scrubLine (d : Dev) (e : DramEnv) : Dev :=
  match d.mem.scrub with
  | none => d
  | some s =>
    if s.stop ≤ s.next || s.abort then d
    else
      let ln := s.next / 32
      let sh := d.burstShows ln e
      let ch := chanOf s.next
      let sub := subOf s.next
      let s' := { s with
        next := s.next + 32, last := d.now, cwcorr := s.cwcorr + sh.1.length, lines := s.lines + b2n (!sh.1.isEmpty && sh.2.isEmpty),
        unc := s.unc + sh.2.length, uncAddr := (s.uncAddr ++ sh.2.map (fun c => s.next + 4 * c)).take 16,
        corr := sh.1.foldl (fun t c => Tab.set 0 t (32 * ch + 16 * sub + c.2) (Tab.get 0 t (32 * ch + 16 * sub + c.2) + 1)) s.corr }
      let d := (d.dramBurst ln e 0xFF).1
      { d.put SCR_PROG_NEXT s'.next with mem := { d.mem with scrub := some s' } }

/-- SCR_CMD.OP := ABORT: the pass stops after the current line. -/
def Dev.scrubAbort (d : Dev) : Dev :=
  match d.mem.scrub with
  | some s => { d with mem := { d.mem with scrub := some { s with abort := true } } }
  | none => d

/-- The location with the most corrections, the lowest on a tie. -/
def topLoc (t : Tab Nat) : Nat :=
  (t.foldl (fun (b : Nat × Nat) e => if b.2 < e.2 then e else b) (0, 0)).1

/-- The 32 quads of a pass's summary (Table 12-11). -/
def Scrub.quads (s : Scrub) : List Nat :=
  let k := topLoc s.corr
  let loc := k / 32 + k / 16 % 2 * 8 + k % 16 * 16
  let pos := fun j => satw 32 (sumN ((s.corr.filter (fun e => e.1 % 16 == j)).map (·.2)))
  [s.start, s.next, s.next - s.start, s.last - s.tstart, s.tstart,
   b2n (decide (s.next < s.stop)) + s.uncAddr.length * 2 ^ 8 + loc * 2 ^ 16 + satw 32 s.unc * 2 ^ 32, s.cwcorr, s.lines] ++
  (List.range 5).map (fun j => pos (2 * j) + pos (2 * j + 1) * 2 ^ 32) ++
  (List.range 19).map (fun i => s.uncAddr.getD i 0)

/-- A pass ends: the summary is written coherently, BUSY clears, event 0x1201 (R301). -/
def Dev.scrubDone (d : Dev) : Dev :=
  match d.mem.scrub with
  | none => d
  | some s =>
    if s.next < s.stop && !s.abort then d
    else
      let d := { d with mem := { d.mem with scrub := none } }
      let d := Dev.writeBytes 8 d (2 * s.dest) (s.quads.flatMap (leBytes 8)) 9999
      let st := b2n (decide (s.next < s.stop))
      let d := (d.putB SCR_CMD_BUSY false).put SCR_CMD_RESULT (if st = 1 then 4 else 0)
      d.pfEvent 0x1201 [(1, st), (8, s.cwcorr), (4, satw 32 s.unc), (8, s.dest)]

/-- The memory system's part of a management tick: the counts of R290 and R299 start again. -/
def Dev.memTick (d : Dev) : Dev := { d with mem := { d.mem with wayErr := [], symTick := [] } }

end Sys2Proof.Machine
end

