-- ==== Sys2Proof/Machine/Time.lean ====
section
/-!
DEFINITION. The time base, its boundaries, compare channels, targets, interval timers and watchdogs (chapter 13).
-/
namespace Sys2Proof.Machine

/-! ### Targets (R313, Table 13-2) -/

/-- An interrupt of the handle core: 0 its timer interrupt, 1 the trial watchdog's. -/
def Dev.handleInt (d : Dev) (kind : Nat) : Dev :=
  d.updThr 2048 (fun t => t.setCr 0x203 (t.cr 0x203 ||| 2 ^ ((Config.handleIrq kind).toNat % 58)))

/-- A target is discarded, counted, and summed for event 0x1304; n is its channel, or 32 + its timer. -/
def Dev.tgtDiscard (d : Dev) (n : Nat) : Dev :=
  let first := if d.tb.disc = 0 then n else d.tb.discFirst
  { d.inc (TB_CNT_COUNT 0) with tb := { d.tb with disc := d.tb.disc + 1, discFirst := first } }

/-- Whether core c can receive an interrupt target: its cluster is in service and it is not in reset. -/
def Dev.coreHears (d : Dev) (c : Nat) : Bool :=
  decide (c < 48) && !d.coreDead c && d.get (STK_CORE_CTL_STATE c) != 0 && !d.on (STK_CORE_CTL_BUSY c)

/-- A converter trigger: one may run and one wait, a further one is dropped (Table 13-2). -/
def Dev.monTrigger (d : Dev) (m : Nat) : Dev :=
  match d.pwr.mon, d.pwr.monWait with
  | none, _ => { d with pwr := { d.pwr with mon := some m } }
  | some _, none => { d with pwr := { d.pwr with monWait := some m } }
  | some _, some _ => d.inc (TB_CNT_COUNT 1)

/-- Issue target `tgt` with ARG `arg` for channel n, or timer n − 32 (Table 13-2). -/
def Dev.issueTgt (d : Dev) (n tgt arg : Nat) (late : Bool) : Dev :=
  match tgt with
  | 1 => if d.coreHears (arg % 64) && !d.asleep then d.irq (arg % 64) n else d.tgtDiscard n
  | 2 => if d.asleep then d.tgtDiscard n else d.monTrigger (arg % 2 ^ 20)
  | 3 => if d.asleep then d.tgtDiscard n else d.ringRequest (arg % 64) (arg / 64 % 4) n d.now (b2n late)
  | 4 => { d with tb := { d.tb with acts := d.tb.acts ++ [(arg % 16, arg / 16 % 4)] } }
  | 5 => if d.boot.held || d.asleep then d.tgtDiscard n else d.handleInt 0
  | _ => d

/-! ### Compare channels (R311) -/

/-- compare(n, t_old, t_new) with t_new the time base; `told` is TB_NS before the tick, `stepped` says that the tick applied a step. -/
def Dev.compareChan (d : Dev) (n told : Nat) (stepped : Bool) : Dev :=
  let v := d.get (TB_CMP_VAL_VALUE n)
  if !d.on (TB_CMP_CFG_ARM n) || d.now < v then d
  else
    let late := decide (v ≤ told)
    let d := if d.on (TB_CMP_STAT_FIRED n) then d.put (TB_CMP_STAT_MISS n) 1 else d
    let d := ((d.put (TB_CMP_STAT_FIRED n) 1).putB (TB_CMP_STAT_LATE n) late).putB (TB_CMP_STAT_STEP n) stepped
    let d := d.issueTgt n (d.get (TB_CMP_CFG_TGT n)) (d.get (TB_CMP_CFG_ARG n)) late
    let r := d.get (TB_CMP_RLD_RELOAD n)
    if r = 0 then d.put (TB_CMP_CFG_ARM n) 0 else d.put (TB_CMP_VAL_VALUE n) (v + r)

/-! ### Interval timers (R314, R315) -/

/-- An action of TB_TMR_CTL or of a target on timer k: 1 START, 2 STOP, 3 RESTART. -/
def Dev.timerAct (d : Dev) (k op : Nat) : Dev :=
  match op with
  | 1 => d.put (TB_TMR_CTL_RUN k) 1
  | 2 => d.put (TB_TMR_CTL_RUN k) 0
  | 3 => (d.put (TB_TMR_COUNT_COUNT k) 0).put (TB_TMR_CTL_RUN k) 1
  | _ => d

/-- A period event of timer k. -/
def Dev.periodEvent (d : Dev) (k : Nat) : Dev :=
  let d := (d.put (TB_TMR_COUNT_COUNT k) 0).put (TB_TMR_CTL_PEV k) 1
  let d := d.issueTgt (32 + k) (d.get (TB_TMR_TGT_TGT k)) (d.get (TB_TMR_TGT_ARG k)) false
  if d.on (TB_TMR_CFG_ONESHOT k) then d.put (TB_TMR_CTL_RUN k) 0 else d

/-- A PERIOD below the present COUNT (R315). -/
def Dev.timerShort (d : Dev) (k : Nat) : Bool := decide (d.get (TB_TMR_PERIOD_PERIOD k) < d.get (TB_TMR_COUNT_COUNT k))

/-- The counted event of timer k ends its period. -/
def Dev.timerEnds (d : Dev) (k : Nat) : Bool := decide (d.get (TB_TMR_PERIOD_PERIOD k) ≤ d.get (TB_TMR_COUNT_COUNT k) + 1)

/-- Timer k holds because its target names a halted core (R374). -/
def Dev.timerFrozen (d : Dev) (k : Nat) : Bool :=
  d.on DBG_FRZ_TMR && d.get (TB_TMR_TGT_TGT k) == 1 && d.on (DBG_CORE_STAT_HALTED (d.get (TB_TMR_TGT_ARG k) % 64))

/-- What a tick holds for the timers: slot and management boundaries, RUN of each timer at its start. -/
structure TickIn where
  slot : Bool
  mgmt : Bool
  run : List Bool
  deriving DecidableEq, Repr

/-- Evaluate timer k at a tick; `pev` holds the period events of the timers below it. -/
def timerEval (x : TickIn) (a : Dev × List Bool) (k : Nat) : Dev × List Bool :=
  let (d, pev) := a
  let m := d.get (TB_TMR_CFG_MASTER k)
  if d.timerFrozen k then (d, pev ++ [false])
  else if d.timerShort k then ((d.put (TB_TMR_CTL_SHORT k) 1).periodEvent k, pev ++ [true])
  else if d.on (TB_TMR_CFG_RSTM k) && pev.getD m false then (d.put (TB_TMR_COUNT_COUNT k) 0, pev ++ [false])
  else
    let ev := match d.get (TB_TMR_CFG_CLK k) with
      | 0 => true
      | 1 => x.slot
      | 2 => x.mgmt
      | _ => pev.getD m false
    let gate := !d.on (TB_TMR_CFG_GATEM k) || x.run.getD m false
    if d.on (TB_TMR_CTL_RUN k) && ev && gate then
      if d.timerEnds k then (d.periodEvent k, pev ++ [true])
      else (d.put (TB_TMR_COUNT_COUNT k) (d.get (TB_TMR_COUNT_COUNT k) + 1), pev ++ [false])
    else (d, pev ++ [false])

/-- Every timer, in rising k, with the period events of the tick. -/
def Dev.timers (d : Dev) (x : TickIn) : Dev × List Bool := (List.range 16).foldl (timerEval x) (d, [])

/-! ### Watchdogs (R316–R318) -/

/-- Units of a watchdog class (Table 13-3). -/
def wdUnits (cls : Nat) : Nat := match cls with | 0 => 48 | 1 => 32 | _ => 1

/-- Reference ticks a watchdog has still to run. -/
def Dev.wdLeft (d : Dev) (cls u : Nat) : Nat := (Tab.find d.tb.wd (64 * cls + u)).getD (d.get (wdTmo cls u) * 100000)

/-- The condition under "Counts while" of Table 13-3, beside EN. -/
def Dev.wdRuns (d : Dev) (cls u : Nat) : Bool :=
  d.on (wdEn cls u) && (match cls with
    | 0 => (d.get (STK_CORE_CTL_STATE u) == 1 || (d.get (STK_CORE_CTL_STATE u) == 2)) && !d.on (STK_CORE_CTL_BUSY u) && !d.coreDead u
    | 1 => d.get (HOOP_SVC_STATE u) == 2 && !(Tab.get false d.hoop.doze u && (d.hoopQueues u).isEmpty)
    | 2 => d.tb.trial10 == 0
    | _ => !d.boot.held)

/-- A watchdog is frozen under debug halt (R318). -/
def Dev.wdFrozen (d : Dev) (cls u : Nat) : Bool :=
  d.on (wdFrz cls u) && (match cls with
    | 0 => d.on (DBG_CORE_STAT_HALTED u)
    | 1 => (List.range 16).any (fun e => d.on (DBG_ENG_STAT_HALTED (16 * u + e)))
    | 2 => d.fullHeld && (List.range 49).any (fun c => d.on (DBG_CORE_STAT_HALTED c))
    | _ => d.on (DBG_CORE_STAT_HALTED 48))

/-- A watchdog expires: EXPIRED, the action of Table 13-3, event 0x1302, and a reload. -/
def Dev.wdFire (d : Dev) (cls u : Nat) : Dev :=
  let d := (((d.wdKick cls u).put (wdExp cls u) 1).inc (TB_CNT_COUNT 4))
  let d := match cls with
    | 0 => d.resetBegin u 2 0
    | 1 => d.hoopReset u 2
    | 2 => { d.handleInt 1 with tb := { (d.handleInt 1).tb with trial10 := 1, trialDue := true } }
    | _ => d.raiseErr 0x10 0 0x0030 0 0 0
  d.pfEvent 0x1302 [(1, cls), (1, u), (8, d.now)]

/-- One tick of one watchdog (R316): it holds its count while its condition does not hold. -/
def Dev.wdTick1 (cls : Nat) (d : Dev) (u : Nat) : Dev :=
  if !d.on (wdEn cls u) then d.wdKick cls u
  else if d.wdFrozen cls u then d
  else if !d.wdRuns cls u then d
  else
    let n := d.wdLeft cls u
    if n ≤ 1 then d.wdFire cls u else { d with tb := { d.tb with wd := Tab.ins d.tb.wd (64 * cls + u) (n - 1) } }

/-- The 10 ms after the trial watchdog's expiry, while EN stays 1 and it is not frozen (R316, R318). -/
def Dev.trialTick (d : Dev) : Dev :=
  if d.tb.trial10 = 0 then d
  else if !d.on TB_WD_TRIAL_EN then { d with tb := { d.tb with trial10 := 0 } }
  else if d.wdFrozen 2 0 then d
  else if d.tb.trial10 < 1000000 then { d with tb := { d.tb with trial10 := d.tb.trial10 + 1 } }
  else { d with tb := { d.tb with warmDue := true } }

/-- The classes and units that a tick evaluates, in order. -/
def wdAll : List (Nat × Nat) :=
  [0, 1, 2, 3].flatMap (fun c => (List.range (wdUnits c)).map (fun u => (c, u)))

/-- Every watchdog at a tick. -/
def Dev.watchdogs (d : Dev) : Dev := wdAll.foldl (fun d w => Dev.wdTick1 w.1 d w.2) d.dozeWake.trialTick

/-- WATCHDOG_EXPIRE: a watchdog whose count is at its last tick reaches zero. The command stands for this watchdog's part of that tick (log
entry 90). -/
def Dev.wdExpire (d : Dev) (cls u : Nat) : Dev :=
  if d.wdRuns cls u && !d.wdFrozen cls u && decide (d.wdLeft cls u ≤ 1) then d.wdFire cls u else d

/-- A TB_WD_KICK write (R317). -/
def Dev.kickWrite (d : Dev) (r : Requester) (cls u key : Nat) : Dev :=
  if key = 0xA55A && ((cls = 0 && u < 48) || (cls = 3 && r = .handle)) then d.wdKick cls (if cls = 0 then u else 0)
  else d.raiseErr 0x10 0 0x0007 3 0x2E824 (srcOf r)

/-! ### The tick (R306–R308) -/

/-- What the time base becomes at a tick: TB_NS and TB_FRAC (R306). -/
def Dev.tbNext (d : Dev) : Nat × Nat :=
  let s : Int := d.get TB_FRAC_FRAC + sgn 32 (d.get TB_RATE_RATE)
  let c := s / 2 ^ 32
  let step : Int := if d.on TB_STATUS_STEPPEND then sgn 64 (d.get TB_STEP_STEP) else 0
  (wrapI 64 (d.now + 10 + c + step), (s - c * 2 ^ 32).toNat)

/-- The multiples of n in (a, b]. -/
def multiplesIn (n a b : Nat) : Nat := b / n - a / n

/-- Boundaries at a tick, given TB_HWM before it (R308): slot and management boundaries become due, with the energy period's and the counter latch's. -/
def Dev.boundaries (d : Dev) (hwm : Nat) : Dev :=
  let s := multiplesIn 1000000 hwm d.now
  let m := multiplesIn 40000000 hwm d.now
  let d := { d with tb := { d.tb with
    slotDue := d.tb.slotDue + min 1 s, slotPassed := d.tb.slotPassed + (s - 1), mgmtDue := d.tb.mgmtDue + min 1 m } }
  let d := d.energyDue hwm
  let d := if d.on CNT_CTL_EN && !d.asleep && decide (0 < multiplesIn (d.get CNT_CTL_PERIOD * 1000000) hwm d.now) then
      { d with cnt := { d.cnt with due := true } } else d
  (d.put TB_HWM_HWM (max hwm d.now)).putB TB_STATUS_SUPPRESS (decide (d.now < hwm))

/-- A tick as far as the compare channels, with what it holds for the timers. -/
def Dev.tickTo (d : Dev) : Dev × TickIn :=
  let told := d.now
  let hwm := d.get TB_HWM_HWM
  let stepped := d.on TB_STATUS_STEPPEND
  let step := d.get TB_STEP_STEP
  let (ns, fr) := d.tbNext
  let d := ((d.put TB_NS_NS ns).put TB_FRAC_FRAC fr).put TB_STATUS_STEPPEND 0
  let d := [ORD_TBL_CMD_BUSY, LDG_TBL_CMD_BUSY, RFX_TBL_STATUS_BUSY, RFX_CRV_STATUS_BUSY].foldl (fun d f => d.put f 0) d
  let d := (d.slowDrains.slowRefill.boundaries hwm).latchTake
  let d := if stepped then
      (d.inc (TB_CNT_COUNT 2)).ordSkip.pfEvent 0x1301 [(8, step), (8, d.get TB_HWM_HWM), (8, ns)]
    else d
  let d := if d.asleep || d.boot.held || d.pwr.tripped then d else d.ordSkip.ordCut
  let acts := d.tb.acts
  let d := { d with tb := { d.tb with acts := [] } }
  let d := acts.foldl (fun d a => d.timerAct a.1 a.2) d
  let x : TickIn := ⟨decide (0 < multiplesIn 1000000 hwm ns), decide (0 < multiplesIn 40000000 hwm ns),
    (List.range 16).map (fun k => d.on (TB_TMR_CTL_RUN k))⟩
  ((List.range 32).foldl (fun d n => d.compareChan n told stepped) d, x)

/-- TICK: one tick of the 100 MHz reference (R306): boundaries, compare channels, interval timers, watchdogs, in that order. -/
def Dev.tick (d : Dev) : Dev := (d.tickTo.1.timers d.tickTo.2).1.watchdogs

/-- TB_STEP write (R307): it replaces a step that is still pending. -/
def Dev.stepWrite (d : Dev) (v : Nat) : Dev := (d.put TB_STEP_STEP v).put TB_STATUS_STEPPEND 1

/-- SLOT_BOUNDARY: a slot boundary that is due is acted on: the slots it passed over are counted (R308). -/
def Dev.slotBoundary (d : Dev) : Dev :=
  if d.tb.slotDue = 0 then d
  else { d.addCnt (TB_CNT_COUNT 3) d.tb.slotPassed with tb := { d.tb with slotDue := d.tb.slotDue - 1, slotPassed := 0 } }

/-- The coming tick fires channel n: it is armed, and that tick takes the time base to its VALUE or past it (R311). -/
def Dev.chanDue (d : Dev) (n : Nat) : Bool := d.on (TB_CMP_CFG_ARM n) && decide (d.get (TB_CMP_VAL_VALUE n) ≤ d.tbNext.1)

/-- COMPARE_CHANNEL_FIRE: channels are evaluated at ticks alone (R311), so the command is the tick at which channel n reaches its VALUE (log
entry 90): that tick where it is the coming one, and nothing where it is not. -/
def Dev.chanFire (d : Dev) (n : Nat) : Dev := if d.chanDue n then d.tick else d

/-- The coming tick ends a period of timer k (R314, R315). -/
def Dev.timerDue (d : Dev) (k : Nat) : Bool := (d.tickTo.1.timers d.tickTo.2).2.getD k false

/-- TIMER_PERIOD_EVENT: timers are evaluated at ticks alone (R314), so the command is the tick at which timer k has its period event (log entry
90): that tick where it is the coming one, and nothing where it is not. -/
def Dev.timerFire (d : Dev) (k : Nat) : Dev := if d.timerDue k then d.tick else d

/-- TIMER_PERIOD_WRITE: 0 is a reserved encoding (R315, Table 13-7). -/
def Dev.periodWrite (d : Dev) (k v : Nat) : Dev :=
  if v = 0 then d.errReserved 0x10 0 (0x2EB04 + 8 * k) else d.put (TB_TMR_PERIOD_PERIOD k) v

/-- The time block's part of a management tick: event 0x1304 (R313). -/
def Dev.timeTick (d : Dev) : Dev :=
  let n := d.tb.disc
  let f := d.tb.discFirst
  let d := { d with tb := { d.tb with disc := 0, discFirst := 0 } }
  if n = 0 then d else d.pfEvent 0x1304 [(4, n), (1, f)]

end Sys2Proof.Machine
end

