-- ==== Sys2Proof/Machine/Boot.lean ====
section
/-!
DEFINITION. Boot and secure start (chapter 14): images and their checks, the boot record, the stages, trials, updates, recovery,
measurements.
-/
namespace Sys2Proof.Machine

/-! ### Images (R322–R325) -/

/-- The trusted key of a kind (Table 14-1). -/
def Dev.keyOf (d : Dev) (kind : Nat) : Nat :=
  if (kind = 3 || kind = 5) && d.fuse.kh1 ≠ 0 then d.fuse.kh1 else d.fuse.kh0

/-- The body limit of a kind in bytes (Table 14-1). -/
def imgLimit (kind : Nat) : Nat :=
  match kind with
  | 1 => 393216
  | 2 => 261632
  | 3 => 8388096
  | 4 => 196608
  | _ => 40960

/-- The fuse counter of a kind. -/
def FuseS.svn (f : FuseS) (kind : Nat) : Nat :=
  match kind with
  | 1 => f.svn0
  | 2 => f.svn1
  | 3 => f.svn2
  | _ => f.svn3

/-- Fields of an image header (Table 14-3). -/
def hdrBodyLen (h : List Byte) : Nat := leAt h 16 4
def hdrVersion (h : List Byte) : Nat := leAt h 8 4
def hdrUseq (h : List Byte) : Nat := leAt h 12 4
def hdrTrialMs (h : List Byte) : Nat := if leAt h 28 4 = 0 then 60000 else leAt h 28 4

/-- A reserved field of a header of this kind is not 0. -/
def hdrReserved (h : List Byte) (kind : Nat) : Bool :=
  byteAt h 7 / 2 != 0 || leAt h 176 240 != 0 || ((kind == 2 || kind == 4) && leAt h 20 4 != 0) ||
  (kind != 5 && (byteAt h 24 != 0 || byteAt h 25 != 0 || leAt h 26 2 != 0)) || (kind == 5 && 31 < leAt h 26 2)

/-- Checks 1 to 6 of R325 on a header: 0, or the code of the first that fails. -/
def Dev.checkHdr (d : Dev) (kind : Nat) (h : List Byte) : Nat :=
  let len := hdrBodyLen h
  if leAt h 0 4 ≠ 0x4D495A56 || byteAt h 4 ≠ 1 then 1
  else if byteAt h 5 ≠ kind || hdrReserved h kind then 2
  else if len = 0 || len % 2 = 1 || imgLimit kind < len then 3
  else if beNat (sha384 (slice h 80 96)) ≠ d.keyOf kind then 4
  else if !ecdsaVerify (slice h 80 96) (sha384 (slice h 0 416)) (slice h 416 96) then 5
  else if kind ≤ 4 && byteAt h 6 < d.fuse.svn kind then 6
  else 0

/-- Check 7 on a body. -/
def bodyOk (h body : List Byte) : Bool := sha384 body == slice h 32 48

/-- The image that a header and body make. -/
def mkImg (h body : List Byte) : Img := { func := byteAt h 24, entry := leAt h 20 4, mask := leAt h 26 2, hdr := h, code := body }

/-- The full check of an image given as one byte string: a reason, or the image. -/
def Dev.checkImg (d : Dev) (kind : Nat) (b : List Byte) : Except Nat Img :=
  let h := slice b 0 512
  match d.checkHdr kind h with
  | 0 => let body := slice b 512 (hdrBodyLen h)
    if bodyOk h body then .ok (mkImg h body) else .error 7
  | r => .error r

/-- The flash offset of a slot (Table 14-2). -/
def slotOff (kind slot : Nat) : Nat :=
  match kind with
  | 1 => 0x20000 + slot * 0x80000
  | 2 => 0x120000 + slot * 0x40000
  | 4 => 0x1A0000 + slot * 0x80000
  | _ => 0x400000 + slot * 0x800000

/-- Bytes of the flash. -/
def Dev.flashAt (d : Dev) (off n : Nat) : List Byte := (List.range n).map (fun i => Tab.get 0xFF d.boot.flash (off + i))

/-- The size of a slot (Table 14-2). -/
def slotSize (kind : Nat) : Nat :=
  match kind with
  | 2 => 0x40000
  | 3 => 0x800000
  | _ => 0x80000

/-- Erase bytes of the flash. -/
def Dev.flashErase (d : Dev) (off n : Nat) : Dev := { d with boot := { d.boot with flash := Tab.delRange d.boot.flash off (off + n) } }

/-- Program bytes of the flash. -/
def Dev.flashPut (d : Dev) (off : Nat) (b : List Byte) : Dev :=
  { d with boot := { d.boot with
    flash := ((List.range b.length).zip b).foldl (fun t x => Tab.set 0xFF t (off + x.1) x.2) (Tab.delRange d.boot.flash off (off + b.length)) } }

/-- Checks 1 to 6 of a flash slot; a flash that does not respond is reason 8 (Table 14-4). -/
def Dev.checkSlotHdr (d : Dev) (kind slot : Nat) (flashOk : Bool) : Except Nat Img :=
  if !flashOk then .error 8
  else
    let h := d.flashAt (slotOff kind slot) 512
    match d.checkHdr kind h with
    | 0 => .ok (mkImg h (d.flashAt (slotOff kind slot + 512) (hdrBodyLen h)))
    | r => .error r

/-- Check a flash slot in full. -/
def Dev.checkSlot (d : Dev) (kind slot : Nat) (flashOk : Bool) : Except Nat Img :=
  match d.checkSlotHdr kind slot flashOk with
  | .ok m => if bodyOk m.hdr m.code then .ok m else .error 7
  | .error r => .error r

/-- A slot or staged image fails its check: REASON and event 0x1402. -/
def Dev.checkFailed (d : Dev) (kind slot reason : Nat) : Dev :=
  (d.put BOOT_STATUS_REASON reason).pfEvent 0x1402 [(1, kind), (1, slot), (1, reason)]

/-! ### Measurements (R335) -/

/-- Extend measurement register i with a 48-byte value. -/
def Dev.extend (d : Dev) (i : Nat) (v : List Byte) : Dev :=
  { d with boot := { d.boot with mr := Tab.set 0 d.boot.mr i (beNat (sha384 (beBytes 48 (Tab.get 0 d.boot.mr i) ++ v))) } }

/-- Extend with the digest of an image's header. -/
def Dev.extendImg (d : Dev) (i : Nat) (m : Img) : Dev := d.extend i (sha384 m.hdr)

/-- Extend with an item whose layout the spec does not give. -/
def Dev.extendItem (d : Dev) (i item content : Nat) : Dev := d.extend i (beBytes 48 (Config.measured item content).toNat)

/-- Quad i of the selected measurement register (R337). -/
def Dev.measQuad (d : Dev) (i : Nat) : Nat := leAt (beBytes 48 (Tab.get 0 d.boot.mr (d.get BOOT_MEAS_CMD_INDEX))) (8 * i) 8

/-- EXTEND (R337). -/
def Dev.extendCmd (d : Dev) (r : Requester) (i : Nat) : Dev :=
  if i < 8 then d.errState 0x11 0 0x3051C (srcOf r)
  else (d.put BOOT_MEAS_CMD_INDEX i).extend i ((List.range 6).flatMap (fun k => leBytes 8 (d.get (BOOT_MEAS_DATA_VALUE k))))

/-! ### The boot record (R326, Table 14-5) -/

/-- A quad of the record as its code corrects it: the quad whose check byte matches within one bit, if there is one. -/
def secdedFix (q c : Nat) : Option Nat :=
  let ok := fun (v k : Nat) => (Config.secded (BitVec.ofNat 64 v)).toNat == k
  if ok q c || (List.range 8).any (fun i => ok q (c ^^^ 2 ^ i)) then some q
  else ((List.range 64).map (fun i => q ^^^ 2 ^ i)).find? (fun v => ok v c)

/-- A copy of the boot record: BSEQ and quad 1, when it is valid. -/
def Dev.readCopy (d : Dev) (k : Nat) : Option (Nat × Nat) :=
  let b := d.flashAt (0x10000 * k) 72
  let qs := (List.range 8).map (fun i => secdedFix (leAt b (8 * i) 8) (byteAt b (64 + i)))
  if qs.all Option.isSome then
    let q0 := (qs.getD 0 none).getD 0
    if q0 % 2 ^ 32 = 0x52425A56 then some (q0 / 2 ^ 32, (qs.getD 1 none).getD 0) else none
  else none

/-- The 72 bytes of a boot record. -/
def recordBytes (bseq q1 : Nat) : List Byte :=
  let qs := [0x52425A56 + bseq % 2 ^ 32 * 2 ^ 32, q1] ++ List.replicate 6 0
  qs.flatMap (leBytes 8) ++ qs.map (fun q => BitVec.ofNat 8 (Config.secded (BitVec.ofNat 64 q)).toNat)

/-- Write quad 1 to the older copy with BSEQ + 1. -/
def Dev.putRecord (d : Dev) (q1 : Nat) : Dev :=
  let k := 1 - d.boot.brCopy
  let n := (d.boot.bseq + 1) % 2 ^ 32
  { d.flashPut (0x10000 * k) (recordBytes n q1) with boot := { (d.flashPut (0x10000 * k) (recordBytes n q1)).boot with
    brCopy := k, bseq := n, brec := q1 } }

/-- Bit i of quad 1. -/
def Dev.recBit (d : Dev) (i : Nat) : Bool := bit d.boot.brec i

/-- Quad 1 with bit i as given. -/
def setBit (q i : Nat) (b : Bool) : Nat := q - (if bit q i then 2 ^ i else 0) + (if b then 2 ^ i else 0)

/-- The bits CONF and TRIED of a slot of kind 3 or 4. -/
def confBit (kind slot : Nat) : Nat := 8 + 4 * (kind - 3) + 2 * slot
def triedBit (kind slot : Nat) : Nat := confBit kind slot + 1

/-- Read the record at boot: the valid copy with the later BSEQ, or a fresh one (R326). -/
def Dev.readRecord (d : Dev) : Dev :=
  let use := fun (k : Nat) (r : Nat × Nat) => { d with boot := { d.boot with brCopy := k, bseq := r.1, brec := r.2 } }
  match d.readCopy 0, d.readCopy 1 with
  | some a, some b => if later b.1 a.1 then use 1 b else use 0 a
  | some a, none => use 0 a
  | none, some b => use 1 b
  | none, none =>
    let d := { (d.put BOOT_STATUS_BRLOST 1).drawn with boot := { d.boot with brCopy := 1, bseq := d.freeVal.toNat % 2 ^ 32, brec := 0 } }
    d.putRecord 0

/-! ### Running images -/

/-- Record the image of a kind as running from a slot. -/
def Dev.runImg (d : Dev) (kind slot : Nat) (m : Img) : Dev :=
  let d := { d with boot := { d.boot with run := Tab.ins d.boot.run kind m } }
  let d := d.put BOOT_STATUS_SLOT (setBit (d.get BOOT_STATUS_SLOT) (kind - 1) (slot == 1))
  d.put (BOOT_VER_VERSION (kind - 1)) (hdrVersion m.hdr)

/-- Enter recovery from a stage: ROM recovery for kind 1, recovery for the others (R333). -/
def Dev.recover (d : Dev) (kind stage : Nat) : Dev :=
  let lvl := if kind = 1 then 0 else 1
  { d.put BOOT_STATUS_STAGE (if kind = 1 then 14 else 15) with boot := { d.boot with
    left := stage, mbox := { st := 1, level := lvl, need := 2 ^ (kind - 1) } } }

/-- Select a privileged image (R328): the slot that ACT names, then the other. -/
def Dev.selectPriv (d : Dev) (kind : Nat) (flashOk : Bool) : Dev × Option (Nat × Img) :=
  let act := b2n (d.recBit (kind - 1))
  match d.checkSlot kind act flashOk with
  | .ok m => (d, some (act, m))
  | .error r =>
    let d := d.checkFailed kind act r
    match d.checkSlot kind (1 - act) flashOk with
    | .ok m => ((if kind = 1 then d.put BOOT_STATUS_FALLBACK_H 1 else d.put BOOT_STATUS_FALLBACK_S 1), some (1 - act, m))
    | .error r => (d.checkFailed kind (1 - act) r, none)

/-! ### Security versions and trials (R330–R332) -/

/-- Burn the fuse counter of a committed image when it asks for it (R332). -/
def Dev.commitImg (d : Dev) (kind : Nat) (m : Img) : Dev :=
  let v := byteAt m.hdr 6
  if kind ≤ 4 && bit (byteAt m.hdr 7) 0 && d.fuse.svn kind < v then
    let v := min 64 v
    let f := d.fuse
    let d := match kind with
      | 1 => ({ d with fuse := { f with svn0 := v } } : Dev).put BOOT_SVN_SVN0 v
      | 2 => ({ d with fuse := { f with svn1 := v } } : Dev).put BOOT_SVN_SVN1 v
      | 3 => ({ d with fuse := { f with svn2 := v } } : Dev).put BOOT_SVN_SVN2 v
      | _ => ({ d with fuse := { f with svn3 := v } } : Dev).put BOOT_SVN_SVN3 v
    d.pfEvent 0x1406 [(1, kind - 1), (1, v)]
  else d

/-- Arm the trial watchdog for a window in ms. -/
def Dev.armTrial (d : Dev) (ms : Nat) : Dev := ((d.put TB_WD_TRIAL_TIMEOUT (satw 24 ms)).put TB_WD_TRIAL_EN 1).wdKick 2 0

/-- Bit of BOOT_STATUS.TRIAL: 0 loader, 1 stock program, 2 tenant. -/
def trialBit (kind : Nat) : Nat := kind - 3

/-- A trial of this kind is open. -/
def Dev.onTrial (d : Dev) (kind : Nat) : Bool := bit (d.get BOOT_STATUS_TRIAL) (trialBit kind)

/-- Open or close a trial; with none left the watchdog's EN clears (R330). -/
def Dev.setTrial (d : Dev) (kind : Nat) (b : Bool) : Dev :=
  let d := d.put BOOT_STATUS_TRIAL (setBit (d.get BOOT_STATUS_TRIAL) (trialBit kind) b)
  if d.get BOOT_STATUS_TRIAL = 0 then d.put TB_WD_TRIAL_EN 0 else d

/-- The slot of the running image of a kind. -/
def Dev.runSlot (d : Dev) (kind : Nat) : Nat := b2n (bit (d.get BOOT_STATUS_SLOT) (kind - 1))

/-- BOOT_CONFIRM (R330, Table 14-9): once the watchdog has expired it is refused. -/
def Dev.bootConfirm (d : Dev) (r : Requester) (kind key : Nat) : Dev :=
  if kind ≠ 3 && kind ≠ 4 then d.errReserved 0x11 0 0x30502
  else if key ≠ 0xC0F1 || !d.onTrial kind || d.tb.trialDue then d.errState 0x11 0 0x30502 (srcOf r)
  else
    let s := d.runSlot kind
    let d := (d.setTrial kind false).putRecord (setBit d.boot.brec (confBit kind s) true)
    let m := Tab.get {} d.boot.run kind
    (d.commitImg kind m).pfEvent 0x1404 [(1, kind), (1, s), (4, hdrVersion m.hdr)]

/-! ### Selecting an ordinary image (R329) -/

/-- What a slot of kind 3 or 4 shows to the choice between the two (R329): excluded as tried and not confirmed, or its checks 1 to 6. Both slots of
kind 4 are copied into region 4 and hashed, so that one whose hash fails is no fallback (log entry 92). -/
def Dev.slotShows (d : Dev) (kind slot : Nat) (flashOk : Bool) : Except Nat Img :=
  if d.recBit (triedBit kind slot) && !d.recBit (confBit kind slot) then .error 9
  else if kind = 4 then d.checkSlot kind slot flashOk
  else d.checkSlotHdr kind slot flashOk

/-- Slot A's image goes before slot B's: the higher VERSION, then the higher USEQ, then A. -/
def preferA (a b : Img) : Bool :=
  decide (hdrVersion b.hdr < hdrVersion a.hdr) ||
  (hdrVersion b.hdr == hdrVersion a.hdr && decide (hdrUseq b.hdr ≤ hdrUseq a.hdr))

/-- Report a slot that failed. -/
def Dev.reportSlot (d : Dev) (kind slot : Nat) (e : Except Nat Img) : Dev :=
  match e with
  | .error r => d.checkFailed kind slot r
  | .ok _ => d

/-- Run slot c of a kind, with the other slot's image when that is good: confirmed, without fallback, or on trial. -/
def Dev.runOrdinary (d : Dev) (kind c : Nat) (m : Img) (other : Option Img) : Dev :=
  let d := d.runImg kind c m
  if d.recBit (confBit kind c) then d
  else if other.isNone then
    (d.putRecord (setBit d.boot.brec (confBit kind c) true)).put BOOT_STATUS_NOFALL (setBit (d.get BOOT_STATUS_NOFALL) (kind - 3) true)
  else
    let d := d.putRecord (setBit d.boot.brec (triedBit kind c) true)
    { d with boot := { d.boot with trials := setBit d.boot.trials (trialBit kind) true } }

/-- Check 7 on the slot that is left to run. -/
def Dev.selectLast (d : Dev) (kind c : Nat) (m : Img) : Dev × Option (Nat × Img × Option Img) :=
  if bodyOk m.hdr m.code then (d, some (c, m, none)) else (d.checkFailed kind c 7, none)

/-- Check 7 on the slot that goes first, with the other slot's image behind it (R329). -/
def Dev.selectFirst (d : Dev) (kind c : Nat) (m o : Img) : Dev × Option (Nat × Img × Option Img) :=
  if bodyOk m.hdr m.code then (d, some (c, m, some o)) else (d.checkFailed kind c 7).selectLast kind (1 - c) o

/-- select(kind) of R329: none when no slot is good. -/
def Dev.selectOrd (d : Dev) (kind : Nat) (flashOk : Bool) : Dev × Option (Nat × Img × Option Img) :=
  let a := d.slotShows kind 0 flashOk
  let b := d.slotShows kind 1 flashOk
  let d := (d.reportSlot kind 0 a).reportSlot kind 1 b
  match a, b with
  | .ok x, .ok y => if preferA x y then d.selectFirst kind 0 x y else d.selectFirst kind 1 y x
  | .ok x, .error _ => d.selectLast kind 0 x
  | .error _, .ok y => d.selectLast kind 1 y
  | .error _, .error _ => (d, none)

/-! ### Boot regions (Table 14-8) -/

/-- Base and limit of boot region i = 3…7, word addresses. -/
def Dev.bootRegion (d : Dev) (i : Nat) : Nat × Nat :=
  let t := d.dramTop
  let sz := fun (k : Nat) => match k with | 3 => 2 ^ 22 | 4 => 2 ^ 18 | 5 => 2 ^ 19 | 6 => 2 ^ 21 | _ => 2 ^ 26
  let hi := t - sumN ((List.range (i - 3)).map (fun j => sz (3 + j)))
  (hi - sz i, hi)

/-- Regions 3 to 7 become active. -/
def Dev.bootRegions (d : Dev) : Dev :=
  [3, 4, 5, 6, 7].foldl (fun d i => d.protect i (d.bootRegion i).1 (d.bootRegion i).2) d

/-- Copy bytes into boot region i, `off` bytes into it, when it is active (Table 14-8). -/
def Dev.toRegion (d : Dev) (i off : Nat) (b : List Byte) : Dev :=
  match Tab.find d.mem.prot i with
  | some (lo, _) => Dev.writeBytes (b.length / 64 + 2) d (2 * lo + off) b 9999
  | none => d

/-- Copy an image, header and body, into a boot region. -/
def Dev.imgToRegion (d : Dev) (i off : Nat) (m : Img) : Dev := d.toRegion i off (m.hdr ++ m.code)

/-! ### The stages (R327, Table 14-6) -/

/-- The rest of stage 0 with the handle firmware found; the handle core's protection unit is set and locked before the hand-over. -/
def Dev.stage0 (d : Dev) (slot : Nat) (m : Img) : Dev :=
  let d := ((d.runImg 1 slot m).extendImg 1 m).put BOOT_STATUS_STAGE 1
  { d with boot := { d.boot with hpu := true } }

/-- What stage 0 does first, and once: the fuses, MR0 and the boot record. -/
def Dev.sense (d : Dev) : Dev :=
  if d.boot.sensed then d
  else
    let f := d.fuse
    let d := (((d.put BOOT_SVN_SVN0 f.svn0).put BOOT_SVN_SVN1 f.svn1).put BOOT_SVN_SVN2 f.svn2).put BOOT_SVN_SVN3 f.svn3
    let d := (d.put DBG_STATUS_CAP f.dbgcap).put DBG_STATUS_TOKEN (if f.kd ≠ 0 then 0 else if f.kh1 ≠ 0 then 1 else 2)
    let d := ((d.extendItem 0 0 0).extend 0 (beBytes 48 f.kh0)).extend 0 (beBytes 48 f.kh1)
    let d := (d.extendItem 0 1 (f.svn0 + f.svn1 * 2 ^ 8 + f.svn2 * 2 ^ 16 + f.svn3 * 2 ^ 24)).readRecord
    { d with boot := { d.boot with sensed := true } }

/-- Stage 0, ROM: fuses, MR0, boot record, handle firmware. -/
def Dev.bootRom (d : Dev) (flashOk : Bool) : Dev :=
  if d.boot.held || d.get BOOT_STATUS_STAGE ≠ 0 then d
  else
    match d.sense.selectPriv 1 flashOk with
    | (d, some (s, m)) => d.stage0 s m
    | (d, none) => d.recover 1 0

/-- The rest of stage 1 with the SerDes calibration found. -/
def Dev.stage1 (d : Dev) (slot : Nat) (m : Img) : Dev := ((d.runImg 2 slot m).extendImg 2 m).put BOOT_STATUS_STAGE 2

/-- Stage 1, HANDLE. -/
def Dev.bootHandle (d : Dev) (flashOk : Bool) : Dev :=
  if d.get BOOT_STATUS_STAGE ≠ 1 then d
  else match d.selectPriv 2 flashOk with
    | (d, some (s, m)) => d.stage1 s m
    | (d, none) => d.recover 2 1

/-- Stage 2, HOST: MEM_CFG as the firmware's parameters give it, training and zero fill, MEM_LOCK. A training that fails leaves boot in
this stage (R297). -/
def Dev.bootHost (d : Dev) (dpc rate failch step : Nat) : Dev :=
  if d.get BOOT_STATUS_STAGE ≠ 2 then d
  else
    let d := (((d.put MEM_CFG_DPC dpc).put MEM_CFG_RATE rate).train).trainDone failch step
    if !d.on MEM_STATUS_TRAINED then d
    else
      let d := (d.eccInit.eccInitDone).put MEM_LOCK_LOCK 1
      (d.extendItem 3 2 (d.boot.brec + (dpc + rate * 4) * 2 ^ 64)).put BOOT_STATUS_STAGE 3

/-- The stock program and its fallback copy: in region 4, each slot's copy in its half (log entry 92), and what the instruction stores load. -/
def Dev.setStock (d : Dev) (slot : Nat) (m : Img) (other : Option Img) : Dev :=
  let d := d.imgToRegion 4 (slot * 0x40000) m
  let d := match other with
    | some o => d.imgToRegion 4 ((1 - slot) * 0x40000) o
    | none => d
  { d with boot := { d.boot with stock := m.code, alt := other.map (fun o => (1 - slot, o)) } }

/-- The rest of stage 3 with the stock program chosen: its copies, the instruction stores, the hoops. -/
def Dev.stage3 (d : Dev) (slot : Nat) (m : Img) (other : Option Img) : Dev :=
  let d := (d.setStock slot m other).extendImg 4 m
  let d := forN 32 (fun h d => if d.get (HOOP_SVC_STATE h) = 0 then (d.hoopIn h).hoopInComplete h else d) d
  d.put BOOT_STATUS_STAGE 4

/-- Stage 3, DRAM: boot regions, stock program, hoops in service. -/
def Dev.bootDram (d : Dev) (flashOk : Bool) : Dev :=
  if d.get BOOT_STATUS_STAGE ≠ 3 then d
  else match d.bootRegions.selectOrd 4 flashOk with
    | (d, some (s, m, o)) => (d.runOrdinary 4 s m o).stage3 s m o
    | (d, none) => d.recover 4 3

/-- The rest of stage 4 with the stake loader chosen: its body in region 3, STK_RVEC[0], TB_LOCK. -/
def Dev.stage4 (d : Dev) (m : Img) : Dev :=
  let d := d.extendImg 5 m
  let base := (d.bootRegion 3).1
  let d := Dev.writeBytes (m.code.length / 64 + 2) d (2 * base) m.code 9999
  ((d.put (STK_RVEC_ADDR 0) (base + leAt m.hdr 20 4)).put TB_LOCK_LOCK 1).put BOOT_STATUS_STAGE 5

/-- Stage 4, HOOPS. -/
def Dev.bootHoops (d : Dev) (flashOk : Bool) : Dev :=
  if d.get BOOT_STATUS_STAGE ≠ 4 then d
  else match d.selectOrd 3 flashOk with
    | (d, some (s, m, o)) => (d.runOrdinary 3 s m o).stage4 m
    | (d, none) => d.recover 3 4

/-- The smallest trial window of the images of kinds 3 and 4 on trial. -/
def Dev.bootWindow (d : Dev) : Nat :=
  let w := fun k => hdrTrialMs (Tab.get {} d.boot.run k).hdr
  if d.onTrial 3 && d.onTrial 4 then min (w 3) (w 4) else if d.onTrial 3 then w 3 else w 4

/-- BOOT_STATUS as a register value. -/
def Dev.bootStatus (d : Dev) : Nat :=
  d.get BOOT_STATUS_STAGE + d.get BOOT_STATUS_SLOT * 2 ^ 4 + d.get BOOT_STATUS_FALLBACK_H * 2 ^ 8 + d.get BOOT_STATUS_FALLBACK_S * 2 ^ 9 +
  d.get BOOT_STATUS_BRLOST * 2 ^ 10 + d.get BOOT_STATUS_TRIAL * 2 ^ 11 + d.get BOOT_STATUS_NOFALL * 2 ^ 14 + d.get BOOT_STATUS_REASON * 2 ^ 16

/-- Stage 5, RUN: START on stake core 0, the boot trials open (R330), commits without fallback, event 0x1401. -/
def Dev.bootRun (d : Dev) (io : Io) : Dev :=
  if d.get BOOT_STATUS_STAGE ≠ 5 || d.boot.ran then d
  else
    let d := { d with boot := { d.boot with ran := true } }
    let d := (d.coreStart io .handle 0).put BOOT_STATUS_TRIAL d.boot.trials
    let d := if d.get BOOT_STATUS_TRIAL = 0 then d else d.armTrial d.bootWindow
    let d := if d.on BOOT_STATUS_FALLBACK_H then d else d.commitImg 1 (Tab.get {} d.boot.run 1)
    let d := if d.on BOOT_STATUS_FALLBACK_S then d else d.commitImg 2 (Tab.get {} d.boot.run 2)
    let d := d.put BOOT_TIME_US (d.now / 1000)
    d.pfEvent 0x1401 [(4, d.bootStatus), (4, d.get BOOT_TIME_US)]

/-! ### Recovery (R333) -/

/-- Where the staging area of a recovery lies in DRAM: region 7 once it is active; before, and in ROM recovery, it is storage of its own. -/
def Dev.stagBase (d : Dev) : Option Nat := if d.get BOOT_STATUS_STAGE = 14 then none else (Tab.find d.mem.prot 7).map (fun r => 2 * r.1)

/-- Bytes of the staging area. -/
def Dev.stagAt (d : Dev) (n : Nat) : List Byte :=
  match d.stagBase with
  | some b => d.bytesAt b n
  | none => (List.range n).map (fun i => Tab.get 0 d.boot.stag i)

/-- Change the mailbox. -/
def Dev.setMbox (d : Dev) (m : Mbox) : Dev := { d with boot := { d.boot with mbox := m } }

/-- CONF and TRIED of a slot of kind 3 or 4 clear. -/
def Dev.clearTrial (d : Dev) (kind slot : Nat) : Dev :=
  if 3 ≤ kind then d.putRecord (setBit (setBit d.boot.brec (confBit kind slot) false) (triedBit kind slot) false) else d

/-- Write an image to a slot: CONF and TRIED clear first, then the slot is erased and programmed (R334). -/
def Dev.writeSlot (d : Dev) (kind slot : Nat) (b : List Byte) : Dev :=
  ((d.clearTrial kind slot).flashErase (slotOff kind slot) (slotSize kind)).flashPut (slotOff kind slot) b

/-- A write that ends in a flash error: CONF and TRIED are clear; which bytes the slot then holds the spec does not state, a free value: those before,
erased ones, or the image's. -/
def Dev.writeSlotBad (d : Dev) (kind slot : Nat) (b : List Byte) : Dev :=
  let x := d.clearTrial kind slot
  (match d.freeVal.toNat % 3 with
    | 0 => x
    | 1 => x.flashErase (slotOff kind slot) (slotSize kind)
    | _ => d.writeSlot kind slot b).drawn

/-- Continue boot after recovery: the stage that was left, ended with the image of the mailbox. An image that a slot now holds is chosen from it as
R329 chooses; one run from staging leaves the boot record as it is. -/
def Dev.resume (d : Dev) (kind slot : Nat) (m : Img) (written : Bool) : Dev :=
  let run := fun (k : Nat) =>
    if written then d.runOrdinary k slot m none
    else (d.runImg k slot m).put BOOT_STATUS_NOFALL (setBit (d.get BOOT_STATUS_NOFALL) (k - 3) true)
  match kind with
  | 1 => d.stage0 slot m
  | 2 => d.stage1 slot m
  | 4 => (run 4).stage3 slot m none
  | _ => (run 3).stage4 m

/-- RECOVERY_GO: the command in the mailbox. An image that is accepted extends MR3 with the recovery level (Table 14-8, log entry 92). -/
def Dev.recoveryGo (d : Dev) : Dev :=
  let m := d.boot.mbox
  let st := d.get BOOT_STATUS_STAGE
  if (st ≠ 14 && st ≠ 15) || m.go ≠ 1 || (m.st ≠ 1 && m.st ≠ 3) then d
  else
    let d := d.setMbox { m with go := 0, st := 2 }
    let refuse := fun (r : Nat) => (d.put BOOT_STATUS_REASON r).setMbox { m with go := 0, st := 3, reason := r }
    if !bit m.need (m.kind - 1) || m.kind = 0 || 4 < m.kind || m.op = 0 || 3 < m.op || 1 < m.slot then refuse 2
    else
      let b := d.stagAt (min m.len (512 + imgLimit m.kind))
      match d.checkImg m.kind b with
      | .error r => (refuse r).checkFailed m.kind m.slot r
      | .ok img =>
        let d := d.setMbox { m with go := 0, st := 4, reason := 0 }
        let d := if m.op = 1 then d else
          let d := d.writeSlot m.kind m.slot b
          if m.kind ≤ 2 && m.op = 2 then d.putRecord (setBit d.boot.brec (m.kind - 1) (m.slot == 1)) else d
        let d := d.extendItem 3 5 m.level
        if m.op = 3 then d.put BOOT_STATUS_STAGE d.boot.left else d.resume m.kind m.slot img (m.op == 2)

/-! ### Image commands (R334) -/

/-- End a BOOT_IMG_CMD operation with event 0x1407. -/
def Dev.imgEnd (d : Dev) (op result reason : Nat) : Dev :=
  let d := { d with boot := { d.boot with cmd := none } }
  let d := ((d.put BOOT_IMG_CMD_BUSY 0).put BOOT_IMG_CMD_RESULT result).put BOOT_IMG_CMD_REASON reason
  d.pfEvent 0x1407 [(1, op), (1, result), (1, reason)]

/-- The staged bytes that an operation reads: the whole image, or 16 bytes for CONFIRM_TENANT. -/
def imgLen (op len : Nat) : Nat := if op = 1 || op = 3 then len else if op = 4 then 16 else 0

/-- An operand that the operation cannot take (RESULT 1). -/
def Dev.imgBad (d : Dev) (op addr len kind func : Nat) : Bool :=
  let n := imgLen op len
  addr % 4 != 0 || (n != 0 && (d.dramTop < addr + (n + 1) / 2 || !d.outsideProt addr ((n + 1) / 2))) ||
  (op == 1 && (kind == 0 || 4 < kind || len < 514 || 512 + imgLimit kind < len)) || (op == 2 && (kind == 0 || 2 < kind)) ||
  (op == 3 && (kind != 5 || func == 0 || len < 514 || 512 + imgLimit 5 < len)) || ((op == 4 || op == 5) && func == 0)

/-- BOOT_IMG_CMD: the operands are taken and the image is copied to staging (R334). -/
def Dev.imgCommand (d : Dev) (op : Nat) : Dev :=
  if d.on BOOT_IMG_CMD_BUSY then d.errBusy 0x11 0 0x30504
  else
    let addr := d.get BOOT_IMG_ADDR_ADDR
    let len := d.get BOOT_IMG_ARG_LEN
    let kind := d.get BOOT_IMG_ARG_KIND
    let func := d.get BOOT_IMG_ARG_FUNC
    if 14 ≤ d.get BOOT_STATUS_STAGE then d.imgEnd op 8 0
    else if d.imgBad op addr len kind func then d.imgEnd op 1 0
    else
      let b := d.bytesAt (2 * addr) (imgLen op len)
      let d := (d.toRegion 7 0 b).put BOOT_IMG_CMD_BUSY 1
      { d with boot := { d.boot with cmd := some ⟨op, addr, kind, d.get BOOT_IMG_ARG_SLOT, func, d.get BOOT_IMG_ARG_PART, b⟩ } }

/-- FLASH_WRITE. -/
def Dev.flashWrite (d : Dev) (c : ImgCmd) (flashOk : Bool) : Dev :=
  if c.kind ≤ 2 && c.slot = b2n (d.recBit (c.kind - 1)) then d.imgEnd 1 3 0
  else match d.checkImg c.kind c.bytes with
    | .error r => (d.checkFailed c.kind c.slot r).imgEnd 1 2 r
    | .ok _ => if flashOk then (d.writeSlot c.kind c.slot c.bytes).imgEnd 1 0 0
      else (d.writeSlotBad c.kind c.slot c.bytes).imgEnd 1 6 0

/-- ACTIVATE. -/
def Dev.activate (d : Dev) (c : ImgCmd) (flashOk : Bool) : Dev :=
  let s := 1 - b2n (d.recBit (c.kind - 1))
  if !flashOk then d.imgEnd 2 6 0
  else match d.checkSlot c.kind s true with
    | .error r => (d.checkFailed c.kind s r).imgEnd 2 2 r
    | .ok _ => (d.putRecord (setBit d.boot.brec (c.kind - 1) (s == 1))).imgEnd 2 0 0

/-- Partition p. -/
def Dev.part (d : Dev) (p : Nat) : Part := Tab.get {} d.boot.parts p

/-- Store partition p. -/
def Dev.setPart (d : Dev) (p : Nat) (x : Part) : Dev := { d with boot := { d.boot with parts := Tab.set {} d.boot.parts p x } }

/-- The partition's previous image is kept in region 5, behind the place of its present one (log entry 92). -/
def Dev.tenantPrev (d : Dev) (p : Nat) (m : Option Img) : Dev :=
  match m with
  | some m => d.imgToRegion 5 (p * 0x20000 + 0x10000) m
  | none => d

/-- STAGE_TENANT. -/
def Dev.stageTenant (d : Dev) (c : ImgCmd) : Dev :=
  let p := d.part c.part
  if d.get BOOT_STATUS_TRIAL ≠ 0 then d.imgEnd 3 4 0
  else if p.owner ≠ 0 && p.owner ≠ c.func then d.imgEnd 3 7 0
  else match d.checkImg 5 c.bytes with
    | .error r => (d.checkFailed 5 c.part r).imgEnd 3 2 r
    | .ok m =>
      if m.func ≠ c.func || byteAt m.hdr 25 ≠ c.part then (d.checkFailed 5 c.part 10).imgEnd 3 2 10
      else
        let d := (d.setPart c.part { cur := some m, prev := p.cur, disabled := false, owner := c.func }).extendImg 6 m
        let d := (d.tenantPrev c.part p.cur).imgToRegion 5 (c.part * 0x20000) m
        let d := { d with boot := { d.boot with trialPart := c.part } }
        ((d.setTrial 5 true).armTrial (hdrTrialMs m.hdr)).imgEnd 3 0 0

/-- CONFIRM_TENANT. -/
def Dev.confirmTenant (d : Dev) (c : ImgCmd) : Dev :=
  let p := d.part d.boot.trialPart
  match p.cur with
  | some m =>
    if !d.onTrial 5 || d.tb.trialDue || c.bytes ≠ slice m.hdr 32 16 || c.func ≠ m.func || c.part ≠ d.boot.trialPart then d.imgEnd 4 5 0
    else
      let d := (d.setTrial 5 false).setPart d.boot.trialPart { p with prev := none }
      (d.bothEvent m.func 0x1404 [(1, 5), (1, c.part), (4, hdrVersion m.hdr)]).imgEnd 4 0 0
  | none => d.imgEnd 4 5 0

/-- REMOVE_TENANT: a trial of the image ends with it. -/
def Dev.removeTenant (d : Dev) (c : ImgCmd) : Dev :=
  let p := d.part c.part
  if p.owner ≠ c.func then d.imgEnd 5 7 0
  else
    let d := if d.onTrial 5 && d.boot.trialPart = c.part then d.setTrial 5 false else d
    (d.setPart c.part { owner := p.owner }).imgEnd 5 0 0

/-- BOOT_IMG_COMPLETE: the operation in progress. -/
def Dev.imgComplete (d : Dev) (flashOk : Bool) : Dev :=
  match d.boot.cmd with
  | none => d
  | some c =>
    match c.op with
    | 1 => d.flashWrite c flashOk
    | 2 => d.activate c flashOk
    | 3 => d.stageTenant c
    | 4 => d.confirmTenant c
    | _ => d.removeTenant c

/-! ### Expiry of a trial (R331), but for the loader's device reset -/

/-- A tenant image on trial goes: the partition returns to what it held before. -/
def Dev.revertTenant (d : Dev) : Dev :=
  let i := d.boot.trialPart
  let p := d.part i
  let d := (d.setTrial 5 false).setPart i { p with cur := p.prev, prev := none }
  let d := match p.prev with
    | some m => (d.imgToRegion 5 (i * 0x20000) m).extendImg 6 m
    | none => d.extendItem 6 3 i
  d.bothEvent p.owner 0x1405 [(1, 5), (1, i)]

/-- The stock program on trial goes: each hoop in turn is reset and returns from the fallback copy. -/
def Dev.revertStock (d : Dev) : Dev :=
  let s := d.runSlot 4
  match d.boot.alt with
  | none => d.setTrial 4 false
  | some (t, m) =>
    let d := ((d.setTrial 4 false).runImg 4 t m).extendImg 4 m
    let d := { d with boot := { d.boot with stock := m.code, alt := none } }
    let d := forN 32 (fun h d => if d.get (HOOP_SVC_STATE h) = 2 then ((d.hoopReset h 1).hoopIn h).hoopInComplete h else d) d
    d.pfEvent 0x1405 [(1, 4), (1, s)]

/-- The trials that the handle core reverts itself. -/
def Dev.revertTrials (d : Dev) : Dev :=
  let d := if d.onTrial 5 then d.revertTenant else d
  if d.onTrial 4 then d.revertStock else d

end Sys2Proof.Machine
end

