-- ==== Sys2Proof/Machine/Debug.lean ====
section
/-!
DEFINITION. Debug (chapter 16): grants, permission, run control of cores and engines, register access, virtual terminal.
-/
namespace Sys2Proof.Machine

/-! ### Grants (R358–R362) -/

/-- A DBG_AUTH field in the bank of transport t (R385). -/
def bank (f : Fld) (t : Nat) : Fld := { f with key := f.key + 67108864 * t }

/-- The level transport t holds. -/
def Dev.level (d : Dev) (t : Nat) : Nat := d.get (bank DBG_AUTH_STATUS_LEVEL t)

/-- Strand engine e resumes, a STEP of one of its contexts not yet made with it (R372). -/
def Dev.engGo (d : Dev) (e : Nat) : Dev :=
  forN 4 (fun x d => if (d.th (4 * e + x)).stepping = 0 then d else d.updThr (4 * e + x) (fun t => { t with stepping := 0 }))
    (d.put (DBG_ENG_STAT_HALTED e) 0)

/-- When the last full grant goes (R361): everything halted resumes, break and watch units of ACTION 0 or 1 are disarmed, BRKHALT and
TB_WD_TRIAL.FRZ clear. -/
def Dev.fullLost (d : Dev) : Dev :=
  let d := forN 48 (fun c d => if h : c < 48 then (if d.on (DBG_CORE_STAT_HALTED c) then d.resumeThr (.stake ⟨c, h⟩) else d) else d) d
  let d := if d.on (DBG_CORE_STAT_HALTED 48) then d.resumeThr .handle else d
  let d := forN 512 (fun e d => (d.engGo e).put (DBG_ENG_CTL_BRKHALT e) 0) d
  let d := forN 49 (fun c d => d.put (DBG_CORE_CTL_BRKHALT c) 0) d
  let d := forN 48 (fun c d => forN 8 (fun u d => if d.get (DBG_BW_CTL_ACTION c u) < 2 then d.put (DBG_BW_CTL_TYPE c u) 0 else d) d) d
  d.put TB_WD_TRIAL_FRZ 0

/-- ATTACHED (R362). -/
def Dev.fixAttached (d : Dev) : Dev :=
  d.putB DBG_STATUS_ATTACHED ([0, 1].any (fun t => d.level t != 0 && d.on (bank DBG_AUTH_STATUS_EMU t)))

/-- Transport t comes to hold a level, with event 0x1601. -/
def Dev.setLevel (d : Dev) (t l : Nat) : Dev :=
  let o := d.level t
  let full := d.fullHeld
  let d := (d.put (bank DBG_AUTH_STATUS_LEVEL t) l).put (if t = 0 then DBG_STATUS_LVL0 else DBG_STATUS_LVL1) l
  let d := if o = l then d else d.pfEvent 0x1601 [(1, t), (1, o), (1, l), (1, d.get DBG_STATUS_TOKEN)]
  (if full && !d.fullHeld then d.fullLost else d).fixAttached

/-- The offset of DBG_AUTH_CMD. -/
def authOff : Nat := 0x20002

/-- DBG_AUTH_CMD REQUEST (R360): at or below the level held at once, else a challenge. -/
def Dev.authRequest (d : Dev) (t level : Nat) (emu : Bool) : Dev :=
  let res := fun (d : Dev) (r : Nat) => d.put (bank DBG_AUTH_STATUS_RESULT t) r
  if level = 3 then d.errReserved 0x13 0 authOff
  else if d.now < Tab.get 0 d.dbg.lock t then res d 5
  else if d.get DBG_STATUS_CAP < level then res d 1
  else
    let d := (res d 0).putB (bank DBG_AUTH_STATUS_EMU t) emu
    if level ≤ d.level t then d.setLevel t level
    else
      let d := forN 4 (fun i d => (d.drawn).put (bank (DBG_AUTH_CHAL_BYTES i) t) d.freeVal.toNat) d
      { (d.put (bank DBG_AUTH_STATUS_CHALV t) 1).fixAttached with dbg := { d.dbg with req := Tab.set 0 d.dbg.req t level } }

/-- The bytes of a DBG_AUTH blob of n quads. -/
def Dev.authBytes (d : Dev) (f : Nat → Fld) (t n : Nat) : List Byte :=
  (List.range n).flatMap (fun i => leBytes 8 (d.get (bank (f i) t)))

/-- The owner token (R360). -/
def Dev.token (d : Dev) : Nat := if d.fuse.kd ≠ 0 then d.fuse.kd else if d.fuse.kh1 ≠ 0 then d.fuse.kh1 else d.fuse.kh0

/-- RESULT of a RESPOND of transport t. -/
def Dev.respondResult (d : Dev) (t : Nat) : Nat :=
  let r := d.authBytes DBG_AUTH_RESP_BYTES t 24
  let l := Tab.get 0 d.dbg.req t
  let msg := d.authBytes DBG_AUTH_CHAL_BYTES t 4 ++ leBytes 8 d.fuse.serial ++ leBytes 1 l ++ leBytes 1 t
  if !d.on (bank DBG_AUTH_STATUS_CHALV t) then 2
  else if beNat (sha384 (slice r 0 96)) ≠ d.token then 3
  else if !ecdsaVerify (slice r 0 96) (sha384 msg) (slice r 96 96) then 4
  else 0

/-- DBG_AUTH_CMD RESPOND (R360): one answer to a challenge; a failed one locks REQUEST out for 1 s. -/
def Dev.authRespond (d : Dev) (t : Nat) : Dev :=
  let r := d.respondResult t
  let l := Tab.get 0 d.dbg.req t
  let key := beNat (sha384 (slice (d.authBytes DBG_AUTH_RESP_BYTES t 24) 0 96))
  let d := (d.put (bank DBG_AUTH_STATUS_RESULT t) r).put (bank DBG_AUTH_STATUS_CHALV t) 0
  if r = 0 then (if l = 2 then d.extendItem 7 4 (l + t * 4 + key * 16) else d).setLevel t l
  else { d with dbg := { d.dbg with lock := Tab.set 0 d.dbg.lock t (d.now + 1000000000) } }.pfEvent 0x1602 [(1, t), (1, r)]

/-- DBG_AUTH_CMD DROP, and the other ends of a grant (R361). -/
def Dev.dropGrant (d : Dev) (t : Nat) : Dev := d.setLevel t 0

/-- CHALLENGE_EXPIRE: the challenge of transport t is no longer valid (R360). -/
def Dev.challengeExpire (d : Dev) (t : Nat) : Dev := d.put (bank DBG_AUTH_STATUS_CHALV t) 0

/-! ### Permission (R359, Table 16-1) -/

/-- The transport a requester belongs to; a stake core and the handle core are none. -/
def transportOf : Requester → Option Nat
  | .dbg0 => some 0
  | .pf => some 1
  | .accEngine t => some t.val
  | _ => none

/-- A requester may use what needs level n. -/
def Dev.mayDebug (d : Dev) (r : Requester) (n : Nat) : Bool :=
  match transportOf r with
  | some t => decide (n ≤ d.level t)
  | none => true

/-- Run control of the handle core: from transport 0 with full only (R372). -/
def Dev.mayHandle (d : Dev) (r : Requester) : Bool := transportOf r == some 0 && d.level 0 == 2

/-- An access that Table 16-1 does not permit: ERR on transport 0, a record on transport 1. -/
def Dev.notAuth (d : Dev) (r : Requester) (off : Nat) : Dev :=
  match transportOf r with
  | some 0 => { d with dbg := { d.dbg with derr := true } }
  | some t => d.raiseErr 0x13 0 0x0008 3 off t
  | none => d

/-- Run control of core c (48: the handle core) by a requester is permitted. -/
def Dev.mayRun (d : Dev) (r : Requester) (c : Nat) : Bool := if c = 48 then d.mayHandle r else d.mayDebug r 2

/-- Word offsets of DBG_CORE_CTL[c], DBG_REGSEL[c], DBG_ENG_CTL and DBG_ENG_REGSEL. -/
def coreDbgOff (c : Nat) : Nat := 0x20200 + 0x40 * c
def engDbgOff (e : Nat) : Nat := 0x21000 + 0x20 * e

/-! ### Run control (R365–R368, R372) -/

/-- The thread that DBG core number c controls. -/
def dbgThread (c : Fin 49) : ThreadId := if h : c.val < 48 then .stake ⟨c.val, h⟩ else .handle

/-- Core c is in reset, where a HALT waits for its start (R368). -/
def Dev.coreInReset (d : Dev) (c : Nat) : Bool :=
  if c = 48 then d.boot.held else d.get (STK_CORE_CTL_STATE c) == 0 || d.get (STK_CORE_CTL_STATE c) == 3 || d.on (STK_CORE_CTL_BUSY c)

/-- HALT (R365, R368). -/
def Dev.haltCmd (d : Dev) (r : Requester) (c : Fin 49) : Dev :=
  if !d.mayRun r c.val then d.notAuth r (coreDbgOff c.val)
  else if d.on (DBG_CORE_STAT_HALTED c.val) then d.errState 0x13 c.val (coreDbgOff c.val) (srcOf r)
  else if d.coreInReset c.val then d.put (DBG_CORE_STAT_HALTPEND c.val) 1
  else d.updThr (tid (dbgThread c)) (fun t => { t with haltReq := some (1, 0) })

/-- RESUME (R366). -/
def Dev.resumeCmd (d : Dev) (r : Requester) (c : Fin 49) : Dev :=
  if !d.mayRun r c.val then d.notAuth r (coreDbgOff c.val)
  else if !d.on (DBG_CORE_STAT_HALTED c.val) then d.errState 0x13 c.val (coreDbgOff c.val) (srcOf r)
  else d.resumeThr (dbgThread c)

/-- STEP (R366): the thread resumes, and its next instruction or element halts it again. -/
def Dev.stepCmd (d : Dev) (r : Requester) (c : Fin 49) : Dev :=
  if !d.mayRun r c.val then d.notAuth r (coreDbgOff c.val)
  else if !d.on (DBG_CORE_STAT_HALTED c.val) then d.errState 0x13 c.val (coreDbgOff c.val) (srcOf r)
  else (d.resumeThr (dbgThread c)).updThr (tid (dbgThread c)) (fun t =>
    { t with stepping := if d.on (DBG_CORE_CTL_STEPINT c.val) then 1 else 2 })

/-- Run the instruction of EXEC, a long instruction element by element (R367). -/
def Dev.execLoop : Nat → Dev → Cx → PIns → Dev
  | 0, d, _, _ => d
  | k + 1, d, cx, i =>
    let c := dbgCore cx.t
    match d.attempt cx i with
    | .bad d (.exc code _ _ _) => (d.put (DBG_CORE_STAT_EXCFAULT c) 1).put (DBG_CORE_STAT_ECODE c) code
    | .bad d _ => d
    | .ok d .stay => Dev.execLoop k d cx i
    | .ok d _ => d

/-- EXEC: the instruction in DBG_INSN on a halted core, at level 3 (R367). -/
def Dev.execCmd (d : Dev) (io : Io) (r : Requester) (c : Fin 49) (env : MemEnv) : Dev :=
  if !d.mayRun r c.val then d.notAuth r (coreDbgOff c.val)
  else if !d.on (DBG_CORE_STAT_HALTED c.val) then d.errState 0x13 c.val (coreDbgOff c.val) (srcOf r)
  else
    let i := { rawIns (d.get (DBG_INSN_INSN c.val)) with env := env }
    let t := dbgThread c
    let (d, cx) := d.ctxFor io t true env
    let d := Dev.execLoop (2 ^ 31) d cx i
    d.updThr (tid t) (fun h => { h.drainMul with inLong := false, link := none })

/-- HALT of strand engine e: all four contexts stop (R372). -/
def Dev.engHalt (d : Dev) (r : Requester) (e : Nat) : Dev :=
  if !d.mayDebug r 2 then d.notAuth r (engDbgOff e)
  else if d.on (DBG_ENG_STAT_HALTED e) then d.errState 0x13 e (engDbgOff e) (srcOf r)
  else d.engStopped e 1

/-- RESUME of strand engine e. -/
def Dev.engResume (d : Dev) (r : Requester) (e : Nat) : Dev :=
  if !d.mayDebug r 2 then d.notAuth r (engDbgOff e)
  else if !d.on (DBG_ENG_STAT_HALTED e) then d.errState 0x13 e (engDbgOff e) (srcOf r)
  else d.engGo e

/-- STEP of strand engine e: the next instruction of context CTX runs while the engine stays halted. -/
def Dev.engStep (d : Dev) (r : Requester) (e ctx : Nat) : Dev :=
  if !d.mayDebug r 2 then d.notAuth r (engDbgOff e)
  else if !d.on (DBG_ENG_STAT_HALTED e) then d.errState 0x13 e (engDbgOff e) (srcOf r)
  else (d.put (DBG_ENG_CTL_CTX e) ctx).updThr (4 * e + ctx) (fun t => { t with stepping := 1 })

/-! ### Registers of a halted thread (R370) -/

/-- A numbered register's value: none where the number is unassigned. -/
def Dev.dbgReg (d : Dev) (cx : Cx) (n : Nat) : Option (Dev × Nat) :=
  let t := d.th cx.k
  let stake := kindOf cx.t == .stake
  let own := bits (t.cr 0x302) 3 2
  if n < 0x1C then some (d, t.gr n)
  else if n < 0x20 then some (d, if stake then t.bankG own (n - 0x1C) else t.gr n)
  else if n < 0x40 then some (d, t.fr (n - 0x20))
  else if n = 0x40 then some (d, t.preds)
  else if n = 0x41 then some (d, t.mh)
  else if n = 0x42 then some (d, t.ml)
  else if 0x48 ≤ n && n < 0x50 then some (d, t.br (n - 0x48))
  else if n = 0x50 then some (d, if stake then t.cr 0x300 else t.pc)
  else if n = 0x51 then
    (if stake then some (d, t.cr 0x301) else let (d, p) := d.boundary cx; some (d, p.2))
  else if 0x60 ≤ n && n < 0x64 && stake then some (d, t.bankG 3 (n - 0x60))
  else if 0x400 ≤ n then
    (match ctlReg (kindOf cx.t) 3 false (n - 0x400) with
    | some _ => some (d.mfcVal cx (n - 0x400))
    | none => none)
  else none

/-- Write a numbered register: 0 done, 1 unassigned, 3 read-only. -/
def Dev.setDbgReg (d : Dev) (cx : Cx) (n v : Nat) : Dev × Nat :=
  let stake := kindOf cx.t == .stake
  let own := bits ((d.th cx.k).cr 0x302) 3 2
  let upd := fun (f : Thr → Thr) => (d.updThr cx.k f, 0)
  if n < 0x1C then upd (fun t => t.setG n v)
  else if n < 0x20 then upd (fun t => if stake then t.setBankG own (n - 0x1C) v else t.setG n v)
  else if n < 0x40 then upd (fun t => t.setF (n - 0x20) v)
  else if n = 0x40 then upd (fun t => { t with p := v % 256 / 2 * 2 })
  else if n = 0x41 then upd (fun t => { t with mh := v % 2 ^ 64 })
  else if n = 0x42 then upd (fun t => { t with ml := v % 2 ^ 64 })
  else if 0x48 ≤ n && n < 0x50 then upd (fun t => t.setB (n - 0x48) v)
  else if n = 0x50 then upd (fun t => { t.setCr 0x300 v with pc := if stake then t.pc else v })
  else if n = 0x51 then upd (fun t => { t.setCr 0x301 v with npc := if stake then t.npc else some v })
  else if 0x60 ≤ n && n < 0x64 && stake then upd (fun t => t.setBankG 3 (n - 0x60) v)
  else if 0x400 ≤ n then
    (match ctlReg (kindOf cx.t) 3 false (n - 0x400) with
    | some c => if c.wr then (d.mtcDo cx (n - 0x400) v c.sync, 0) else (d, 3)
    | none => (d, 1))
  else (d, 1)

/-- What a register access of the debug block needs of its target: the thread, whether it is halted, and the fields it uses. -/
structure RegSel where
  t : ThreadId
  halted : Bool
  num : Fld
  result : Fld
  data : Fld

/-- The target of DBG_REGSEL[c]. -/
def Dev.coreSel (d : Dev) (c : Fin 49) : RegSel :=
  ⟨dbgThread c, d.on (DBG_CORE_STAT_HALTED c.val), DBG_REGSEL_NUM c.val, DBG_REGSEL_RESULT c.val, DBG_REGDATA_DATA c.val⟩

/-- The target of DBG_ENG_REGSEL of engine e, context ctx. -/
def Dev.engSel (d : Dev) (e : Fin 512) (ctx : Fin 4) : RegSel :=
  ⟨.engine e ctx, d.on (DBG_ENG_STAT_HALTED e.val), DBG_ENG_REGSEL_NUM e.val, DBG_ENG_REGSEL_RESULT e.val, DBG_ENG_REGDATA_DATA e.val⟩

/-- READ of a register selection. -/
def Dev.selRead (d : Dev) (io : Io) (s : RegSel) (n : Nat) : Dev :=
  let d := d.put s.num n
  if !s.halted then d.put s.result 2
  else
    let (d, cx) := d.ctxFor io s.t true {}
    match d.dbgReg { cx with ctl := (d.th (tid s.t)).ctl, user := false } n with
    | some (d, v) => (d.put s.data v).put s.result 0
    | none => d.put s.result 1

/-- WRITE of a register selection. -/
def Dev.selWrite (d : Dev) (io : Io) (s : RegSel) (n : Nat) : Dev :=
  let d := d.put s.num n
  if !s.halted then d.put s.result 2
  else
    let (d, cx) := d.ctxFor io s.t true {}
    let (d, r) := d.setDbgReg { cx with user := false } n (d.get s.data)
    d.put s.result r

/-- DBG_REGSEL or DBG_ENG_REGSEL READ or WRITE by a requester. -/
def Dev.regsel (d : Dev) (io : Io) (r : Requester) (tg : DbgTarget) (n : Nat) (write : Bool) : Dev :=
  match tg with
  | .core c =>
    if !d.mayRun r c.val then d.notAuth r (coreDbgOff c.val + 4)
    else if write then d.selWrite io (d.coreSel c) n else d.selRead io (d.coreSel c) n
  | .engine e x =>
    if !d.mayDebug r 2 then d.notAuth r (engDbgOff e.val + 4)
    else
      let d := d.put (DBG_ENG_REGSEL_CTX e.val) x.val
      if write then d.selWrite io (d.engSel e x) n else d.selRead io (d.engSel e x) n

/-! ### Virtual terminal (R373) -/

/-- A read of DBG_VT_TX[c]: without PEEK it clears TXFULL, and interrupt source 57 is raised when TXIE is set. -/
def Dev.vtTxRead (d : Dev) (r : Requester) (c : Nat) (peek : Bool) : Dev × Nat :=
  if !d.mayDebug r 2 then (d.notAuth r (0x20F00 + 4 * c), 0)
  else
    let v := d.get (DBG_VT_TX_DATA c)
    if peek || !d.on (DBG_CORE_STAT_TXFULL c) then (d, v)
    else
      let d := d.put (DBG_CORE_STAT_TXFULL c) 0
      (if bit ((d.th (4096 + c)).cr 0x312) 3 then d.irq c 57 else d, v)

/-- A write of DBG_VT_RX[c]. -/
def Dev.vtRxWrite (d : Dev) (r : Requester) (c v : Nat) : Dev :=
  if !d.mayDebug r 2 then d.notAuth r (0x20F02 + 4 * c)
  else if d.on (DBG_CORE_STAT_RXFULL c) then d.errState 0x13 c (0x20F02 + 4 * c) (srcOf r)
  else
    let d := (d.put (DBG_VT_RX_DATA c) v).put (DBG_CORE_STAT_RXFULL c) 1
    if bit ((d.th (4096 + c)).cr 0x312) 4 then d.irq c 57 else d

end Sys2Proof.Machine
end

