-- ==== Sys2Proof/Machine/Trace.lean ====
section
/-!
DEFINITION. Bus trace: sources, funnel and sink (R376–R380), and the counter reader's dumps (R382).
-/
namespace Sys2Proof.Machine

/-! ### The funnel (R378) -/

/-- Bytes in the FIFO. -/
def TrcS.fill (t : TrcS) : Nat := sumN (t.fifo.map List.length)

/-- DROPp in sixteenths; 0 encodes 16. -/
def Dev.dropAt (d : Dev) (p : Nat) : Nat :=
  let v := match p with
    | 0 => d.get TRC_FUN_DROP0
    | 1 => d.get TRC_FUN_DROP1
    | 2 => d.get TRC_FUN_DROP2
    | _ => d.get TRC_FUN_DROP3
  if v = 0 then 16 else v

/-- Refusal of the packets of PRIO p at a fill of `n` sixteenths: begun at DROPp, ended 2 sixteenths below it. -/
def refusal (was : Bool) (n drop : Nat) : Bool := if drop ≤ n && drop != 16 then true else was && decide (drop < n + 2 ∧ drop ≠ 16)

/-- REFUSING after the fill changed. -/
def Dev.refresh (d : Dev) : Dev :=
  let n := d.trc.fill / 4096
  forN 4 (fun p d =>
    let was := bit (d.get TRC_STATUS_REFUSING) p
    d.putBit TRC_STATUS_REFUSING p (refusal was n (d.dropAt p))) d

/-- A packet enters the FIFO. -/
def Dev.funnelPut (d : Dev) (b : List Byte) : Dev :=
  ({ d with trc := { d.trc with fifo := d.trc.fifo ++ [b] } }.inc (TRC_CNT_COUNT 0)).refresh

/-- Trace is frozen under debug halt: the funnel discards what reaches it (R374). -/
def Dev.trcFrozen (d : Dev) : Bool := d.on DBG_FRZ_TRC && d.anyHalted

/-- An OVERFLOW packet with the counts since the previous one (Table 16-4). -/
def Dev.overflowPkt (d : Dev) : List Byte :=
  let l := (List.range 4).map (fun p => d.trc.lost.getD p 0)
  let m := sumN ((List.range 4).map (fun p => if l.getD p 0 = 0 then 0 else 2 ^ p))
  leBytes 4 (0x7F04 + m * 65536) ++ l.flatMap (fun n => leBytes 2 (satw 16 n)) ++ leBytes 8 d.now

/-- The OVERFLOW that precedes the first packet accepted after a refusal. -/
def Dev.putOverflow (d : Dev) : Dev :=
  if d.trc.lost.all (· == 0) then d
  else
    let d' := (d.funnelPut d.overflowPkt).inc (TRC_CNT_COUNT 3)
    { d' with trc := { d'.trc with lost := [] } }

/-! ### Sources (R376, R377) -/

/-- A source's own state. -/
def Dev.tsrc (d : Dev) (s : Nat) : TrcSrc := Tab.get {} d.trc.src s

def Dev.setTsrc (d : Dev) (s : Nat) (x : TrcSrc) : Dev := { d with trc := { d.trc with src := Tab.set {} d.trc.src s x } }

/-- The next packet of source s is a SYNC. -/
def Dev.resync (d : Dev) (s : Nat) : Dev := d.setTsrc s { d.tsrc s with fresh := true }

/-- The next packet of every source is a SYNC. -/
def Dev.resyncAll (d : Dev) : Dev := forN 0x67 (fun s d => d.resync s) d

/-- Source s is enabled and trace is on; 0x67–0x7E are reserved. -/
def Dev.srcOn (d : Dev) (s : Nat) : Bool := d.on TRC_CTL_EN && decide (s < 0x67) && d.on (TRC_SRC_EN s)

/-- Whether source s records a transaction (R376). -/
def Dev.records (d : Dev) (s vc kind addr : Nat) : Bool :=
  let r := d.get (TRC_SRC_RANGE s)
  d.srcOn s && bit (d.get (TRC_SRC_VCMASK s)) vc && bit (d.get (TRC_SRC_KINDMASK s)) kind &&
    (r == 0 || 4 < r || (decide (d.get (TRC_ADDR_LO_ADDR (r - 1)) ≤ addr) && decide (addr ≤ d.get (TRC_ADDR_HI_ADDR (r - 1)))))

/-- Bytes 0 to 3 of a packet but the DELTA's DT. -/
def pktHead (ty kind s vc size dt : Nat) : List Byte := leBytes 4 (ty + kind * 16 + s * 256 + (vc + size * 4) * 65536 + dt * 2 ^ 24)

/-- The packet of a recorded transaction, whether it is a SYNC (R377). -/
def Dev.encodePkt (d : Dev) (s vc kind size addr : Nat) : List Byte × Bool :=
  let x := d.tsrc s
  let dt := wsub 64 d.now x.time
  let da : Int := (addr : Int) - (x.addr : Int)
  if x.fresh || decide (2 ^ d.get TRC_CTL_SYNCPER ≤ x.since) || decide (65535 < dt) then
    (pktHead 1 kind s vc size 0 ++ leBytes 6 addr ++ leBytes 2 x.sseq ++ leBytes 8 d.now, true)
  else if d.get TRC_FUN_PRESS ≤ d.trc.fill / 4096 && decide (dt ≤ 255) && decide (-(2 ^ 31) ≤ da ∧ da < 2 ^ 31) then
    (pktHead 3 kind s vc size dt ++ leBytes 4 (wrapI 32 da), false)
  else (pktHead 2 kind s vc size 0 ++ leBytes 6 addr ++ leBytes 2 dt, false)

/-- The source after a packet of its was accepted. -/
def TrcSrc.sent (x : TrcSrc) (sync : Bool) (now addr : Nat) : TrcSrc :=
  { fresh := false, sseq := if sync then (x.sseq + 1) % 65536 else x.sseq, since := if sync then 0 else x.since + 1, time := now, addr := addr }

/-- A recorded transaction's packet reaches the funnel, which takes or refuses it. -/
def Dev.tracePkt (d : Dev) (s vc kind size addr : Nat) : Dev :=
  let (b, sync) := d.encodePkt s vc kind size addr
  let p := d.get (TRC_SRC_PRIO s)
  if bit (d.get TRC_STATUS_REFUSING) p || decide (65536 - 256 < d.trc.fill + b.length) then
    let d := (d.resync s).inc (TRC_CNT_COUNT 2)
    { d with trc := { d.trc with lost := bump d.trc.lost p 1 } }
  else ((d.putOverflow).funnelPut b).setTsrc s ((d.tsrc s).sent sync d.now addr)

/-- TRACE_PACKET_ACCEPT: source s issues a transaction, or receives a response, on its weave port. -/
def Dev.traceAccept (d : Dev) (s vc kind size addr : Nat) : Dev :=
  if d.records s vc kind addr && !d.trcFrozen && !d.asleep then d.tracePkt s vc kind size addr else d

/-- A PDOWN of source s, which is never refused (R379). -/
def Dev.pdown (d : Dev) (s : Nat) : Dev :=
  if d.srcOn s && !d.trcFrozen then (d.funnelPut (leBytes 4 (5 + s * 256) ++ leBytes 8 d.now)).resync s else d.resync s

/-! ### The sink (R380) -/

/-- Bytes of the region the sink writes to. -/
def Dev.sinkSize (d : Dev) : Nat :=
  match d.get TRC_SINK_CFG_MODE with
  | 1 => 2 ^ 20
  | 2 => d.get TRC_SINK_CFG_SIZE * 2 ^ 20
  | _ => 0

/-- The first n bytes of a packet list, and what remains. -/
def takeBytes : List (List Byte) → Nat → List Byte × List (List Byte)
  | [], _ => ([], [])
  | p :: r, n =>
    if n = 0 then ([], p :: r)
    else if p.length ≤ n then
      let (b, q) := takeBytes r (n - p.length)
      (p ++ b, q)
    else (p.take n, p.drop n :: r)

/-- The packets that lie wholly in the first n bytes, and what remains. -/
def takeWhole : List (List Byte) → Nat → List Byte × List (List Byte)
  | [], _ => ([], [])
  | p :: r, n =>
    if p.length ≤ n then
      let (b, q) := takeWhole r (n - p.length)
      (p ++ b, q)
    else ([], p :: r)

/-- A unit filled with PAD. -/
def padUnit (b : List Byte) : List Byte := b ++ List.replicate (64 - b.length) 0

/-- Put bytes in the on-die buffer. -/
def putBuf : Tab Byte → Nat → List Byte → Tab Byte
  | t, _, [] => t
  | t, a, b :: r => putBuf (Tab.set 0 t a b) (a + 1) r

/-- The sink stops: STOPPED, TRC_CTL.EN cleared, event 0x1603 with its cause. -/
def Dev.sinkStop (d : Dev) (cause : Nat) : Dev := ((d.put TRC_STATUS_STOPPED 1).put TRC_CTL_EN 0).pfEvent 0x1603 [(1, cause)]

/-- Whether the DRAM sink may write a unit: its line lies in installed DRAM outside protected regions. -/
def Dev.sinkOk (d : Dev) : Bool := d.memOk .trace (d.get TRC_SINK_BASE_ADDR + d.get TRC_SINK_WPTR_OFFSET / 2) 32 true

/-- Write one unit where TRC_SINK_WPTR shows and advance it, wrapping or stopping at the end of the region. -/
def Dev.sinkUnit (d : Dev) (b : List Byte) : Dev :=
  let w := d.get TRC_SINK_WPTR_OFFSET
  let d := if d.get TRC_SINK_CFG_MODE = 1 then { d with trc := { d.trc with buf := putBuf d.trc.buf w b } }
    else d.dramWrite ((2 * d.get TRC_SINK_BASE_ADDR + w) / 64) b false
  let d := d.addCnt (TRC_CNT_COUNT 1) 64
  if w + 64 < d.sinkSize then d.put TRC_SINK_WPTR_OFFSET (w + 64)
  else if d.on TRC_SINK_CFG_WRAP then (d.put TRC_SINK_WPTR_OFFSET 0).put TRC_STATUS_WRAPPED 1
  else (d.put TRC_SINK_WPTR_OFFSET (w + 64)).sinkStop 1

/-- The unit the sink would write next and what it leaves in the FIFO. Where the sink stops with it, or trace is off and drains, the
unit ends with a whole packet and PAD. -/
def Dev.nextUnit (d : Dev) (drain : Bool) : Option (List Byte × List (List Byte)) :=
  let last := !d.on TRC_SINK_CFG_WRAP && decide (d.sinkSize ≤ d.get TRC_SINK_WPTR_OFFSET + 64)
  if d.trc.fill = 0 then none
  else if 64 ≤ d.trc.fill then
    if last then let (b, r) := takeWhole d.trc.fifo 64; some (padUnit b, r) else some (takeBytes d.trc.fifo 64)
  else if drain then let (b, r) := takeBytes d.trc.fifo 64; some (padUnit b, r)
  else none

/-- One unit goes to the sink, if a whole one waits, or a last one while it drains. -/
def Dev.sinkStep (d : Dev) (drain fail : Bool) : Dev :=
  if d.sinkSize = 0 || d.on TRC_STATUS_STOPPED || d.trcFrozen then d
  else match d.nextUnit drain with
    | none => d
    | some (b, rest) =>
      let d := ({ d with trc := { d.trc with fifo := rest } }).refresh
      if fail || (d.get TRC_SINK_CFG_MODE == 2 && !d.sinkOk) then d.sinkStop 2 else d.sinkUnit b

/-- TRACE_SINK_WRITE. -/
def Dev.sinkWrite (d : Dev) (fail : Bool) : Dev := if d.asleep then d else d.sinkStep (!d.on TRC_CTL_EN) fail

/-- The funnel drains its FIFO to the sink (R379). -/
def Dev.drainTrace : Nat → Dev → Dev
  | 0, d => d
  | n + 1, d => if d.trc.fill = 0 then d else Dev.drainTrace n (d.sinkStep true false)

/-- The sink starts: from the beginning of its region, each source's next packet a SYNC. -/
def Dev.sinkStart (d : Dev) : Dev :=
  (((d.put TRC_SINK_WPTR_OFFSET 0).put TRC_STATUS_WRAPPED 0).put TRC_STATUS_STOPPED 0).resyncAll

/-- Whether a DRAM sink's region lies in installed DRAM outside every protected region. -/
def Dev.sinkRegionOk (d : Dev) (size : Nat) : Bool :=
  let b := d.get TRC_SINK_BASE_ADDR
  decide (b + size * 2 ^ 19 ≤ d.dramTop) && d.outsideProt b (size * 2 ^ 19)

/-- A TRC_SINK_CFG write (R380). -/
def Dev.sinkCfg (d : Dev) (r : Requester) (mode size : Nat) (wrap : Bool) : Dev :=
  if mode = 2 && !d.sinkRegionOk size then d.errState 0x14 0 0x2F00C (srcOf r)
  else
    let d := ((d.put TRC_SINK_CFG_MODE mode).put TRC_SINK_CFG_SIZE size).putB TRC_SINK_CFG_WRAP wrap
    if mode = 0 then d else d.sinkStart

/-- A TRC_CTL write: trace turned on starts every source with a SYNC. -/
def Dev.trcCtl (d : Dev) (en : Bool) (per : Nat) : Dev :=
  let d := if en && !d.on TRC_CTL_EN then d.resyncAll else d
  (d.putB TRC_CTL_EN en).put TRC_CTL_SYNCPER per

/-- The value TRC_BUFDATA reads. -/
def Dev.bufData (d : Dev) : Nat :=
  let a := 8 * d.get TRC_BUFADDR_ADDR
  leNat ((List.range 8).map (fun i => Tab.get 0 d.trc.buf (a + i)))

/-- A read of TRC_BUFDATA; without PEEK it advances TRC_BUFADDR. -/
def Dev.bufDataRead (d : Dev) (peek : Bool) : Dev × Nat :=
  (if peek then d else d.put TRC_BUFADDR_ADDR (d.get TRC_BUFADDR_ADDR + 1), d.bufData)

/-! ### Domains that park or are reset (R379) -/

/-- The trace sources of a domain that entered Park emit PDOWN. -/
def Dev.parked (d old : Dev) (f : Fld) (ids : List Nat) : Dev :=
  if d.get f = 3 && old.get f ≠ 3 then ids.foldl (fun d s => d.pdown s) d else d

/-- Park of a field port, rim link, hoop and cluster with its trace packets. -/
def Dev.fpParkT (d : Dev) (r : Requester) (p : Nat) : Dev := (d.fpPark r p).parked d (FP_SVC_STATE p) [0x57 + p]
def Dev.rimParkT (d : Dev) (r : Requester) (i : Nat) : Dev := (d.rimPark r i).parked d (RIM_SVC_STATE i) [0x52 + i]
def Dev.cluParkT (d : Dev) (r : Requester) (k : Nat) : Dev :=
  (d.cluPark r k).parked d (STK_CLU_SVC_STATE k) ((List.range 4).map (4 * k + ·))
def Dev.hoopParkT (d : Dev) (r : Requester) (h : Nat) : Dev := (d.hoopPark r h).parked d (HOOP_SVC_STATE h) [0x30 + h]

/-! ### The counter reader's dumps (R382) -/

/-- The word address of a dump's slot. -/
def Dev.dumpAddr (d : Dev) (slot : Nat) : Nat := d.get CNT_DUMP_BASE_ADDR + 6144 * slot

/-- A dump's write into DRAM, where a memory controller serves it; coherent with the L2s. -/
def Dev.dumpPut (d : Dev) (slot off : Nat) (b : List Byte) : Option Dev :=
  let a := d.dumpAddr slot
  if d.memOk .counter (a + off / 2) (cdiv b.length 2) true then some (Dev.writeBytes (b.length / 64 + 2) d (2 * a + off) b 0xFFFF) else none

/-- The dump of a latch begins: it writes SEQ as 0xFFFFFFFF first (R382). -/
def Dev.dumpOpen (d : Dev) : Dev :=
  match d.cnt.dump with
  | some x =>
    if x.opened then d
    else { (d.dumpPut x.slot 4 (leBytes 4 0xFFFFFFFF)).getD d with cnt := { d.cnt with dump := some { x with opened := true } } }
  | none => d

/-- COUNTER_LATCH: counters are latched at ticks alone (R381), so the command is the tick at which a latch takes place (log entry 90): the coming
one where that tick takes one, else the tick before, which took it. The latch's dump then begins. -/
def Dev.counterLatch (d : Dev) : Dev := (if d.tick.cnt.n = d.cnt.n then d else d.tick).dumpOpen

/-- The header and quads of a dump (R382). -/
def Dump.bytes (x : Dump) : List Byte :=
  leBytes 4 0x544E4356 ++ leBytes 4 x.n ++ leBytes 8 x.time ++ leBytes 2 1442 ++ leBytes 2 (b2n x.clr + 2 * b2n x.snap) ++ leBytes 4 x.period ++
    List.replicate 40 0 ++ x.vals.flatMap (fun v => leBytes 8 (v.1 % 2 ^ 48 + b2n v.2 * 2 ^ 63))

/-- COUNTER_DUMP_COMPLETE: the dump is written, or a write of it failed. -/
def Dev.dumpDone (d : Dev) (fail : Bool) : Dev :=
  match d.cnt.dump with
  | none => d
  | some x =>
    if d.on DBG_FRZ_CNT && d.anyHalted then d else
    let d := ({ d with cnt := { d.cnt with dump := none } }).putB CNT_CMD_BUSY d.cnt.snap
    match (if fail then none else d.dumpPut x.slot 0 x.bytes) with
    | some d => (d.put CNT_STATUS_SEQ x.n).put CNT_STATUS_SLOT x.slot
    | none => (d.put CNT_STATUS_FAIL 1).pfEvent 0x1604 [(1, x.slot), (8, d.dumpAddr x.slot)]

/-- CNT_CMD.SNAP: a latch at the next tick. -/
def Dev.snap (d : Dev) (r : Requester) : Dev :=
  if d.on CNT_CMD_BUSY then d.errState 0x15 0 0x30802 (srcOf r)
  else { d.put CNT_CMD_BUSY 1 with cnt := { (d.put CNT_CMD_BUSY 1).cnt with snap := true } }

/-- A CNT_DUMP_BASE write (R382): a multiple of 4 in installed DRAM outside protected regions. -/
def Dev.dumpBase (d : Dev) (r : Requester) (a : Nat) : Dev :=
  if a % 4 = 0 && decide (a < d.dramTop) && d.outsideProt a 1 then
    d.put CNT_DUMP_BASE_ADDR a
  else d.errState 0x15 0 0x30804 (srcOf r)

end Sys2Proof.Machine
end

