-- ==== Sys2Proof/Machine/Power.lean ====
section
/-!
DEFINITION. Power: DVFS and the PMBus master (R342–R344), supply comparators and droop (R345), the monitor converter and temperatures
(R346, R347), Hush and wake (R350–R352), the SMBus target (R353).
-/
namespace Sys2Proof.Machine

/-! ### DVFS and PMBus (R342–R344) -/

/-- VDD_STK of a step in mV. -/
def Dev.vstep (d : Dev) (s : Nat) : Nat :=
  match s with
  | 0 => d.get PWR_VSTEP_V0
  | 1 => d.get PWR_VSTEP_V1
  | 2 => d.get PWR_VSTEP_V2
  | _ => d.get PWR_VSTEP_V3

/-- The request in progress on cluster k. -/
def Dev.dvfs (d : Dev) (k : Nat) : Option Dvfs := Tab.find d.pwr.dvfs k

/-- Cluster k is in service or returning. -/
def Dev.cluActive (d : Dev) (k : Nat) : Bool := d.get (STK_CLU_SVC_STATE k) == 1 || d.get (STK_CLU_SVC_STATE k) == 2

/-- The fastest step cluster k needs a voltage for: its present one or a requested one. -/
def Dev.needStep (d : Dev) (k : Nat) : Nat :=
  match d.dvfs k with
  | some r => min (d.get (PWR_DVFS_CUR k)) r.new
  | none => d.get (PWR_DVFS_CUR k)

/-- The voltage VDD_STK must satisfy. -/
def Dev.needV (d : Dev) : Nat :=
  match ((List.range 12).filter d.cluActive).map d.needStep with
  | [] => d.vstep 3
  | s :: r => d.vstep (r.foldl min s)

/-- The regulator of VDD_STK: the first valid entry for rail 0. -/
def Dev.stkReg (d : Dev) : Option Nat := (List.range 8).find? (fun r => d.on (PWR_REG_VALID r) && d.get (PWR_REG_RAIL r) == 0)

/-- A request on cluster k ends with a RESULT; event 0x1501 unless it is 0. -/
def Dev.dvfsEnd (d : Dev) (k result : Nat) : Dev :=
  let d := ({ d with pwr := { d.pwr with dvfs := Tab.del d.pwr.dvfs k, sw := d.pwr.sw.filter (· != k) } }.put (PWR_DVFS_BUSY k) 0).put
    (PWR_DVFS_RESULT k) result
  if result = 0 then d.inc (PWR_CNT_COUNT 3) else d.pfEvent 0x1501 [(1, k), (1, d.get (PWR_DVFS_STEP k)), (1, result)]

/-- The VOUT_MODE exponent of regulator r. -/
def Dev.vexp (d : Dev) (r : Nat) : Int := sgn 5 (Tab.get 0 d.pwr.vexp r)

/-- A voltage in mV as ULINEAR16 with exponent n, to the nearest unit (R342; log entry 94). -/
def ulinear (n : Int) (mv : Nat) : Nat :=
  if n < 0 then (mv * 2 ^ (-n).toNat + 500) / 1000 % 65536 else (mv + 500 * 2 ^ n.toNat) / (1000 * 2 ^ n.toNat) % 65536

/-- Whether a voltage read as ULINEAR16 with exponent n lies within `tol` mV of mv. -/
def ulinearNear (n : Int) (word mv tol : Nat) : Bool :=
  if n < 0 then decide (absDiff (word * 1000) (mv * 2 ^ (-n).toNat) ≤ tol * 2 ^ (-n).toNat)
  else decide (absDiff (word * 2 ^ n.toNat * 1000) mv ≤ tol)

/-- A command to regulator r, with PAGE before it unless PWR_REG.PAGE is 0xFF (R342, Table 15-15). -/
def Dev.pmbSend (d : Dev) (r cmd data : Nat) : Dev :=
  let a := d.get (PWR_REG_ADDR r)
  let p := d.get (PWR_REG_PAGE r)
  (if p = 255 then d else d.emit (.pmbus a 0x00 p)).emit (.pmbus a cmd data)

/-- VOUT_COMMAND to the regulator of VDD_STK for cluster k; without a valid regulator the request fails. -/
def Dev.command (d : Dev) (k mv : Nat) : Dev :=
  match d.stkReg with
  | none => d.dvfsEnd k 3
  | some r => { d.pmbSend r 0x21 (ulinear (d.vexp r) mv) with pwr := { d.pwr with pmb := some ⟨r, d.pwr.vdd, mv, k⟩ } }

/-- The divider of cluster k switches. -/
def Dev.switchTo (d : Dev) (k : Nat) (r : Dvfs) : Dev :=
  { d.put (PWR_DVFS_CUR k) r.new with pwr := { d.pwr with dvfs := Tab.ins d.pwr.dvfs k { r with switched := true } } }

/-- The next thing the handle core does for cluster k: a slower step switches first; a voltage that must rise, or may fall after the switch,
is commanded. -/
def Dev.dvfsServe1 (d : Dev) (k : Nat) : Dev :=
  match d.dvfs k with
  | none => d
  | some r =>
    if d.pwr.pmb.isSome then d
    else
      let d := if r.old < r.new && !r.switched && !d.pwr.sw.contains k then d.switchTo k r else d
      let sw := ((d.dvfs k).getD r).switched
      if !sw && r.new ≤ r.old && d.pwr.vdd < d.needV then d.command k d.needV
      else if sw && r.old < r.new && d.needV < d.pwr.vdd then d.command k d.needV
      else d

/-- Requests of several clusters are served in rising k. -/
def Dev.dvfsServe (d : Dev) : Dev := forN 12 (fun k d => d.dvfsServe1 k) d

/-- A request of cluster k for a step begins. -/
def Dev.dvfsBegin (d : Dev) (k step : Nat) : Dev :=
  ({ d.put (PWR_DVFS_BUSY k) 1 with pwr := { d.pwr with dvfs := Tab.ins d.pwr.dvfs k ⟨d.get (PWR_DVFS_CUR k), step, false⟩ } }).dvfsServe

/-- A write of PWR_DVFS[k].STEP (R344). -/
def Dev.dvfsRequest (d : Dev) (k step : Nat) : Dev :=
  if d.on (PWR_DVFS_BUSY k) then d.errBusy 0x12 k (0x30320 + 2 * k)
  else
    let d := d.put (PWR_DVFS_STEP k) step
    if d.cluActive k then d.dvfsBegin k step else d

/-- STK_CLU_SVC.OP := IN: the returning cluster takes its step, with the voltage it needs (R344). -/
def Dev.cluInV (d : Dev) (k : Nat) : Dev :=
  let old := d.cluActive k
  let d := d.cluIn k
  if !old && d.cluActive k && !d.on (PWR_DVFS_BUSY k) && (d.get (PWR_DVFS_STEP k) != d.get (PWR_DVFS_CUR k) || decide (d.pwr.vdd < d.needV)) then
    d.dvfsBegin k (d.get (PWR_DVFS_STEP k))
  else d

/-- DVFS_COMPLETE: the change on cluster k ends, once its voltage is there and its divider has switched or may switch (R344, R355). -/
def Dev.dvfsComplete (d : Dev) (k : Nat) : Dev :=
  match d.dvfs k with
  | none => d
  | some r =>
    if d.pwr.sw.contains k || (d.pwr.pmb.any (fun q => q.cluster == k)) then d
    else if r.switched then d.dvfsEnd k 0
    else if d.pwr.vdd < d.vstep r.new then d
    else ((d.switchTo k r).dvfsEnd k 0).dvfsServe

/-- The voltage command in progress fails with a RESULT: VDD_STK counts as the lower of the old and the new command, and the request it
served ends (R343, R344). STATUS_WORD where it was not read, and the event's cause, are free. -/
def Dev.pmbFail (d : Dev) (q : PmbReq) (result : Nat) (status : Option Nat) : Dev :=
  let (st, d) := match status with
    | some v => (v, d)
    | none => (d.freeVal.toNat % 65536, d.drawn)
  let cause := d.freeVal.toNat % 256
  let d := { d.drawn with pwr := { d.pwr with pmb := none, vdd := min q.old q.cmd } }
  let d := (d.pmbSend q.reg 0x03 0).inc (PWR_CNT_COUNT 4)
  ((d.pfEvent 0x1505 [(1, q.reg), (2, st), (1, cause)]).dvfsEnd q.cluster result).dvfsServe

/-- The bits VOUT, IOUT/POUT, INPUT, OFF, TEMPERATURE and CML of STATUS_WORD. -/
def statusFault (w : Nat) : Bool := [15, 14, 13, 6, 2, 1].any (fun b => bit w b)

/-- PMBUS_ACKNOWLEDGE: what the regulator answered: STATUS_WORD, READ_VOUT as ULINEAR16, or a NACK or PEC error. A READ_VOUT outside TOL is no
acknowledgement. -/
def Dev.pmbAck (d : Dev) (status vout : Nat) (nack : Bool) : Dev :=
  match d.pwr.pmb with
  | none => d
  | some q =>
    let near := ulinearNear (d.vexp q.reg) vout q.cmd (d.get (PWR_REG_TOL q.reg))
    if nack then d.pmbFail q 2 none
    else if !d.on (PWR_REG_MODE q.reg) && !near then d
    else if statusFault status then d.pmbFail q 2 (some status)
    else if !near then d
    else ({ d.put (PWR_REG_VOUT q.reg) q.cmd with pwr := { d.pwr with pmb := none, vdd := q.cmd } }).dvfsServe

/-- PMBUS_TIMEOUT: TMO ms without acknowledgement. -/
def Dev.pmbTimeout (d : Dev) : Dev :=
  match d.pwr.pmb with
  | none => d
  | some q => d.pmbFail q 1 none

/-- An entry of PWR_REG is written whole. VALID first marked: VOUT_MODE is read, and a regulator that is not in linear mode is refused (R342). -/
def Dev.regWrite64 (d : Dev) (r v voutMode : Nat) : Dev :=
  let was := d.on (PWR_REG_VALID r)
  let d := ((((d.put (PWR_REG_ADDR r) (bits v 6 0)).put (PWR_REG_VALID r) (bits v 7 7)).put (PWR_REG_PAGE r) (bits v 15 8)).put
    (PWR_REG_RAIL r) (bits v 18 16)).put (PWR_REG_MODE r) (bits v 19 19)
  let d := (d.put (PWR_REG_TOL r) (bits v 31 24)).put (PWR_REG_POLL r) (bits v 39 32)
  let d := if !was && bit v 7 then { d with pwr := { d.pwr with vexp := Tab.set 0 d.pwr.vexp r (voutMode % 32) } } else d
  if !was && bit v 7 && voutMode / 32 != 0 then
    let st := d.freeVal.toNat % 65536
    let cause := d.drawn.freeVal.toNat % 256
    (d.drawn.drawn.put (PWR_REG_VALID r) 0).pfEvent 0x1505 [(1, r), (2, st), (1, cause)]
  else d

/-! ### Supplies (R345) -/

/-- The halving a set of rails asks for. -/
def Dev.halving (d : Dev) (m : Nat) : Dev :=
  (d.putB PWR_STATUS_HALVED_STK (bit m 0 || bit m 2)).putB PWR_STATUS_HALVED_HOOP (bit m 1 || bit m 2)

/-- SUPPLY_WARNING: rail s falls below warning. -/
def Dev.supplyWarning (d : Dev) (s : Nat) : Dev :=
  if bit (d.get PWR_STATUS_BELOW) s then d
  else
    let d := (d.putBit PWR_STATUS_BELOW s true).handleInt 2
    if s < 3 then
      let first := decide (d.pwr.halve = 0)
      let m := d.pwr.halve ||| 2 ^ s
      let d := (if first then d.inc (PWR_CNT_COUNT 1) else d).halving m
      { d with pwr := { d.pwr with
        halve := m
        halvedAt := if first then d.now else d.pwr.halvedAt
        sw := if first then (d.pwr.dvfs.filter (fun e => !e.2.switched)).map (·.1) else d.pwr.sw } }
    else (d.inc (PWR_CNT_COUNT 2)).pfEvent 0x1506 [(1, s), (2, d.get (PWR_VOLT_MV s))]

/-- SUPPLY_RECOVERY: the rails of mask m have stayed above recovery for 50 µs. The halving ends when every rail that asked for it is
among them. -/
def Dev.supplyRecovery (d : Dev) (m : Nat) : Dev :=
  let h := d.pwr.halve
  let d := forN 8 (fun s d => if bit m s then d.putBit PWR_STATUS_BELOW s false else d) d
  if h != 0 && h &&& m == h then
    let t := wsub 64 d.now d.pwr.halvedAt
    let d := { d.halving 0 with pwr := { d.pwr with halve := 0, sw := [] } }
    (((d.inc (PWR_CNT_COUNT 0)).pfEvent 0x1504 [(1, h), (8, t)])).dvfsServe
  else d

/-! ### The converter (R346, R347) -/

/-- A temperature is measured; ALARM by TWARN. -/
def Dev.measureTemp (d : Dev) (i t : Nat) : Dev :=
  let d := (d.put (PWR_TEMP_T i) t).put (PWR_TEMP_VALID i) 1
  let w : Int := d.get PWR_THERM_TWARN
  if 4 * w ≤ sgn 12 t then
    if d.on (PWR_TEMP_ALARM i) then d
    else ((d.put (PWR_TEMP_ALARM i) 1).inc (PWR_CNT_COUNT 6)).pfEvent 0x1502 [(1, i), (2, wrapI 16 (sgn 12 t))]
  else if sgn 12 t ≤ 4 * (w - 5) then d.put (PWR_TEMP_ALARM i) 0
  else d

/-- A voltage is measured. -/
def Dev.measureVolt (d : Dev) (s mv : Nat) : Dev := (d.put (PWR_VOLT_MV s) mv).put (PWR_VOLT_VALID s) 1

/-- A sweep of the sensors of mask m: temperatures at bits [11:0], voltages at [19:12]; `vals` are the 20 results. -/
def Dev.sweep (d : Dev) (m : Nat) (vals : List (BitVec 12)) : Dev :=
  forN 20 (fun i d =>
    if !bit m i then d
    else if i < 12 then d.measureTemp i (vals.getD i 0).toNat
    else d.measureVolt (i - 12) (vals.getD i 0).toNat) d

/-- A FLASH_WRITE in progress when power is lost or the device resets: its slot fails its check, CONF and TRIED cleared (Table 14-9). -/
def Dev.flashLost (d : Dev) : Dev :=
  match d.boot.cmd with
  | some c =>
    if c.op = 1 && !(c.kind ≤ 2 && c.slot == b2n (d.recBit (c.kind - 1))) && (d.checkImg c.kind c.bytes).isOk then
      (d.clearTrial c.kind c.slot).flashErase (slotOff c.kind c.slot) (slotSize c.kind)
    else d
  | none => d

/-- THERMAL_TRIP: the record, THERMTRIP_N, and every domain but the always-on one off until a power-on reset (R347). The flash and the
fuses keep their contents, but for a write in progress. -/
def Dev.thermalTrip (d : Dev) (sensor : Nat) : Dev :=
  if d.pwr.tripped then d
  else
    let d := (d.flashLost.raiseErr 0x12 0 0x0032 0 0 sensor).emit .thermtrip
    let aon := fun (k : Nat) => (decide (64 * 0x2E800 ≤ k) && decide (k < 64 * 0x2F000)) || (decide (64 * 0x30300 ≤ k) && decide (k < 64 * 0x30500)) ||
      (decide (64 * 0x2FC00 ≤ k) && decide (k < 64 * 0x30000))
    { regs := d.regs.filter (fun e => aon e.1), out := d.out, freeCtr := d.freeCtr, tb := d.tb, fuse := d.fuse
      boot := { flash := d.boot.flash, held := d.boot.held }
      dbg := { ir := d.dbg.ir, done := d.dbg.done, derr := d.dbg.derr, ddata := d.dbg.ddata }
      err := { d.err with fatal := false, coal := [] }
      pwr := { d.pwr with tripped := true, dvfs := [], pmb := none, sw := [] } }

/-- REFERENCE_LOSS: the record enters the log; the reset waits for the lock to return (R340, R395). -/
def Dev.referenceLoss (d : Dev) : Dev :=
  let f := d.err.fatal
  let d := d.raiseErr 0x12 0 0x0031 0 0 0
  { d with err := { d.err with fatal := f }, pwr := { d.pwr with pllLost := true } }

/-! ### Hush (R350–R352) -/

/-- The RESULT with which a HUSH is refused, 0 if it is accepted. -/
def Dev.hushResult (d : Dev) : Nat :=
  let out := fun (f : Fld) => d.get f == 0 || d.get f == 3
  if !((List.range 32).all (fun h => out (HOOP_SVC_STATE h)) && (List.range 12).all (fun k => out (STK_CLU_SVC_STATE k)) &&
      (List.range 2).all (fun i => out (RIM_SVC_STATE i))) then 1
  else if !(List.range 4).all (fun p => d.get (FP_SVC_STATE p) == 3) then 2
  else if (List.range 4).all (fun p => d.get (FP_WAKE_MODE p) == 0) && !d.on PWR_CTL_SMBWAKE then 3
  else if d.get BOOT_STATUS_TRIAL != 0 || d.mem.scrub.isSome || (List.range 12).any (fun k => d.on (PWR_DVFS_BUSY k)) then 4
  else 0

/-- A request for Hush with the requester's trace source (the SMBus target has none: 0). -/
def Dev.hushReq (d : Dev) (src : Nat) : Dev :=
  if d.get PWR_STATUS_STATE ≠ 0 then d
  else
    let r := d.hushResult
    let d := d.put PWR_STATUS_RESULT r
    if r ≠ 0 then d.errState 0x12 0 0x30302 src
    else
      let d := { d.put PWR_STATUS_STATE 1 with pwr := { d.pwr with emul := d.on DBG_STATUS_ATTACHED } }
      (d.pfEvent 0x1503 [(1, 0), (1, d.get PWR_STATUS_WCAUSE)]).inc (PWR_CNT_COUNT 5)

/-- HUSH: PWR_CTL.OP := HUSH, of the PF or the handle core. -/
def Dev.hush (d : Dev) (r : Requester) : Dev :=
  if r = .pf || r = .handle then d.hushReq (srcOf r) else d.errState 0x12 0 0x30302 (srcOf r)

/-- The host interface is turned off, which is a host-interface reset and drops transport 1's grant (R361); emulation keeps the PCIe link (R375). -/
def Dev.hushHost (d : Dev) : Dev :=
  let up := d.on HIF_STATUS_LINK_UP
  let sp := d.get HIF_STATUS_SPEED
  let wd := d.get HIF_STATUS_WIDTH
  let e := (d.hostReset 0).dropGrant 1
  if d.pwr.emul && up then ((e.put HIF_STATUS_LINK_UP 1).put HIF_STATUS_SPEED sp).put HIF_STATUS_WIDTH wd else e

/-- The trace sources of the domains that Hush parks. -/
def hushSources : List Nat := [0x50, 0x51, 0x54, 0x55, 0x56] ++ (List.range 12).map (0x5B + ·)

/-- The memory domain parked: DRAM in self-refresh; emulation leaves it running. -/
def Dev.hushMem (d : Dev) : Dev := if d.pwr.emul then d else d.put MEM_STATUS_READY 0

/-- The core domain parks, its trace drained first (R379). -/
def Dev.hushCore (d : Dev) : Dev :=
  let d := hushSources.foldl (fun d s => d.pdown s) d
  let d := Dev.drainTrace 2048 d
  { d with trc := { d.trc with tpark := d.now } }

/-- HUSH_ENTERED: Table 15-8 has run. -/
def Dev.hushEntered (d : Dev) : Dev :=
  if d.get PWR_STATUS_STATE = 1 && !d.pwr.tripped then (d.hushHost.hushMem.hushCore).put PWR_STATUS_STATE 2 else d

/-- Ports whose wake detector answers a signal: parked, with their MODE armed for it. -/
def Dev.wakePorts (d : Dev) (sig pat : Nat) : Nat :=
  sumN ((List.range 4).map (fun p =>
    let m := d.get (FP_WAKE_MODE p)
    if d.get (FP_SVC_STATE p) = 3 && ((m == 1 && bit sig p) || (m == 2 && bit pat p)) then 2 ^ p else 0))

/-- HUSH_WAKE: wake sources in Hush or during the entry, of which `stage` rows of Table 15-8 have been done: 1 the host interface off,
2 the memory domain, 3 the core domain parked. -/
def Dev.hushWake (d : Dev) (sig pat : Nat) (smb : Bool) (stage : Nat) : Dev :=
  let ports := d.wakePorts sig pat
  let st := d.get PWR_STATUS_STATE
  if (st ≠ 1 && st ≠ 2) || (ports = 0 && !(smb && d.on PWR_CTL_SMBWAKE)) || d.pwr.tripped then d
  else
    let d := if st = 1 then
        let d := if 1 ≤ stage then d.hushHost else d
        let d := if 2 ≤ stage then d.hushMem else d
        if 3 ≤ stage then d.hushCore else d
      else d
    let cause := match (List.range 4).find? (fun p => bit ports p) with
      | some p => 4 + p
      | none => 1
    { (d.put PWR_STATUS_STATE 3).put PWR_STATUS_WCAUSE cause with pwr := { d.pwr with wakeFp := ports } }

/-- The value of PWR_STATUS [1:0] and [6:4] as SMBus command 0x00 returns it. -/
def Dev.smbState (d : Dev) : List Byte := leBytes 1 (d.get PWR_STATUS_STATE + d.get PWR_STATUS_WCAUSE * 16)

/-- The highest valid temperature; with none valid the spec gives no value. -/
def Dev.smbHighest (d : Dev) : Dev :=
  match (List.range 12).filter (fun i => d.on (PWR_TEMP_VALID i)) with
  | [] => d.drawn.emit (.smb (leBytes 2 (d.freeVal.toNat % 65536)))
  | i :: r =>
    let v := fun j => sgn 12 (d.get (PWR_TEMP_T j))
    d.emit (.smb (leBytes 2 (wrapI 16 (r.foldl (fun a j => max a (v j)) (v i)))))

/-- The answer to an SMBus read by command code. -/
def Dev.smbAnswer (d : Dev) (code : Nat) : Dev :=
  if code = 0 then d.emit (.smb d.smbState)
  else if code = 1 then d.smbHighest
  else if code < 0x20 then
    let i := code - 0x10
    d.emit (.smb (leBytes 2 (d.get (PWR_TEMP_T i) + d.get (PWR_TEMP_VALID i) * 2 ^ 12 + d.get (PWR_TEMP_ALARM i) * 2 ^ 13)))
  else if code < 0x30 then
    d.emit (.smb (leBytes 2 (d.get (PWR_VOLT_MV (code - 0x20)) + d.get (PWR_VOLT_VALID (code - 0x20)) * 2 ^ 12)))
  else if code = 0x30 then d.emit (.smb (leBytes 1 (d.get PWR_STATUS_BELOW)))
  else if code = 0x41 then d.hushReq 0
  else d

/-- Whether a command's data come from the converter. -/
def smbSensor (code : Nat) : Bool := decide (1 ≤ code) && decide (code < 0x30)

/-- A transaction on the SMBus target: answered in Run; in Hush an address match wakes the device, and the transaction ends after it; a
NACK does nothing. A thermal trip leaves the always-on domain, and the target with it, running; it starts no Hush and no wake then. -/
def Dev.smbus (d : Dev) (code : Nat) : Dev :=
  if !d.on PWR_SMB_EN || (d.pwr.tripped && (d.get PWR_STATUS_STATE != 0 || code == 0x41)) then d
  else if d.get PWR_STATUS_STATE = 0 then d.smbAnswer code
  else if !d.on PWR_CTL_SMBWAKE then d
  else
    let d := d.hushWake 0 0 true 0
    { d with pwr := { d.pwr with smbWait := some code } }

/-- SMBus command 0x41: 0x48 requests Hush, other values do nothing. -/
def Dev.smbHush (d : Dev) (v : Nat) : Dev := d.smbus (if v = 0x48 then 0x41 else 0x40)

/-- A GAP packet, the sink's first after a wake (R379). -/
def Dev.gapPkt (d : Dev) : Dev :=
  if d.on TRC_CTL_EN && !d.trcFrozen then d.funnelPut (leBytes 4 0x7F06 ++ leBytes 8 d.trc.tpark ++ leBytes 8 d.now) else d

/-- WAKE_COMPLETE: Table 15-9 has run. -/
def Dev.wakeComplete (d : Dev) : Dev :=
  if d.get PWR_STATUS_STATE ≠ 3 || d.pwr.tripped then d
  else
    let emul := d.pwr.emul
    let d := d.put MEM_STATUS_READY 1
    let d := forN 12 (fun i d => d.put (PWR_TEMP_VALID i) 0) d
    let d := forN 8 (fun s d => d.put (PWR_VOLT_VALID s) 0) d
    let ports := d.pwr.wakeFp
    let d := { d.put PWR_STATUS_STATE 0 with pwr := { d.pwr with emul := false, wakeFp := 0 } }
    let d := forN 4 (fun p d => if bit ports p then d.fpWake p (d.get (FP_WAKE_MODE p)) else d) d
    let d := if emul then d.linkEvent else d
    let d := d.gapPkt.pfEvent 0x1503 [(1, 1), (1, d.get PWR_STATUS_WCAUSE)]
    match d.pwr.smbWait with
    | some c => if smbSensor c then d else { d with pwr := { d.pwr with smbWait := none } }.smbAnswer c
    | none => d

/-- MONITOR_SWEEP: the periodic sweep of all 20 sensors while PWR_MON.AUTO = 1, or the sweep a timer target asked for. The converter is
stopped in Hush. -/
def Dev.monitorSweep (d : Dev) (auto : Bool) (vals : List (BitVec 12)) : Dev :=
  if d.asleep || d.pwr.tripped then d
  else
    let d := if auto then (if d.on PWR_MON_AUTO then d.sweep (2 ^ 20 - 1) vals else d)
      else match d.pwr.mon with
        | none => d
        | some m => ({ d with pwr := { d.pwr with mon := d.pwr.monWait, monWait := none } }).sweep m vals
    match d.pwr.smbWait with
    | some c => if d.get PWR_STATUS_STATE = 0 && smbSensor c then { d with pwr := { d.pwr with smbWait := none } }.smbAnswer c else d
    | none => d

/-- FP_WAKE_DETECT: the wake detector of a parked port fires; in Hush it wakes the device (R83, R351). -/
def Dev.wakeDetect (d : Dev) (p : Nat) (pattern : Bool) : Dev :=
  if d.get PWR_STATUS_STATE = 0 then d.fpWakeDetect p pattern
  else d.hushWake (2 ^ p) (if pattern then 2 ^ p else 0) false 0

end Sys2Proof.Machine
end

