-- ==== Sys2Proof/Machine/Reset.lean ====
section
/-!
DEFINITION. Resets of the device (R23, R394–R396, R402), the IEEE 1149.1 port (R361, R403), the trial watchdog's consequences (R316, R331),
the management tick (R308) and a weave request that nothing answers (R104).
-/
namespace Sys2Proof.Machine

/-! ### Device resets (R23, R402) -/

/-- What every device reset keeps: the flash, the fuses, and the model's own fields. -/
def Dev.base (d : Dev) (held : Bool) : Dev :=
  { out := d.out, freeCtr := d.freeCtr, fuse := d.fuse, boot := { flash := d.boot.flash, held := held } }

/-- POWER_ON_RESET: RESET_N low, or power applied: everything is reset and the device waits for the release of RESET_N. -/
def Dev.powerOn (d : Dev) : Dev := d.flashLost.base true

/-- RESET_RELEASE: RESET_N goes high, and the boot ROM starts. -/
def Dev.resetRelease (d : Dev) : Dev := { d with boot := { d.boot with held := false } }

/-- A device warm reset: the sticky log, USED and LOST stay; LASTRST tells the cause (R394, R397); domains that a thermal
trip turned off stay off (R347). The 1149.1 port is not part of it. -/
def Dev.warmReset (d : Dev) (cause : Nat) : Dev :=
  let d := d.flashLost
  let e := { d.base d.boot.held with
    err := { log := d.err.log }
    pwr := { tripped := d.pwr.tripped }
    dbg := { ir := d.dbg.ir, done := d.dbg.done, derr := d.dbg.derr, ddata := d.dbg.ddata } }
  ((e.put ERR_STATUS_USED (d.get ERR_STATUS_USED)).put ERR_STATUS_LOST (d.get ERR_STATUS_LOST)).put ERR_STATUS_LASTRST cause

/-- SUPPLY_RESET_LEVEL: a rail below its reset level (R345). -/
def Dev.supplyReset (d : Dev) : Dev := d.powerOn

/-- PLL_LOCK_RETURN (R340). -/
def Dev.lockReturn (d : Dev) : Dev := if d.pwr.pllLost then d.warmReset 6 else d

/-- FATAL_RESET: 10 µs after a fatal record (R395). A loss of lock waits for PLL_LOCK_RETURN. -/
def Dev.fatalReset (d : Dev) : Dev := if d.err.fatal && !d.pwr.pllLost then d.warmReset 3 else d

/-- TRIAL_WATCHDOG_EXPIRE: the handle core acts on every image still on trial (R331). -/
def Dev.trialExpire (d : Dev) : Dev :=
  if !d.tb.trialDue then d
  else
    let d := { d with tb := { d.tb with trialDue := false } }
    let loader := d.onTrial 3
    let d := d.revertTrials
    if loader then d.warmReset 7 else d

/-- TRIAL_WATCHDOG_RESET: EN still 1 10 ms after the expiry (R316). -/
def Dev.trialReset (d : Dev) : Dev := if d.tb.warmDue then d.warmReset 4 else d

/-! ### ERR_RST and ERR_LOG_CMD (R394, R396) -/

/-- ERR_RST accepts the PF and the handle core only, and KEY 0x7A3C only. -/
def rstAllowed (r : Requester) (key : Nat) : Bool := (r == .pf || r == .handle) && key == 0x7A3C

def errRstOff : Nat := 0x2FC08

/-- ERR_RST OP 1. -/
def Dev.rstDevice (d : Dev) (r : Requester) (key : Nat) : Dev :=
  if rstAllowed r key then d.warmReset 1 else d.errState 0x16 0 errRstOff (srcOf r)

/-- A block that ERR_RST may name, with its trace sources. -/
def rstBlock (blk inst : Nat) : Option (List Nat) :=
  if blk = 3 && inst < 4 then some [0x57 + inst]
  else if blk = 7 && inst < 32 then some [0x30 + inst]
  else if blk = 0xC && inst < 2 then some [0x52 + inst]
  else if blk = 0xD && inst < 12 then some ((List.range 4).map (4 * inst + ·))
  else none

/-- ERR_RST OP 2: a port, hoop, rim link or cluster. -/
def Dev.rstBlk (d : Dev) (r : Requester) (blk inst key : Nat) : Dev :=
  if !rstAllowed r key then d.errState 0x16 0 errRstOff (srcOf r)
  else match rstBlock blk inst with
    | none => d.errReserved 0x16 0 errRstOff
    | some ids =>
      let d := ids.foldl (fun d s => d.resync s) d
      match blk with
      | 3 => d.fpBlockReset inst
      | 7 => d.hoopReset inst 1
      | 0xC => d.rimBlockReset inst
      | _ => d.cluReset inst

/-- ERR_LOG_CMD CLEAR, by the PF and the handle core only. -/
def Dev.logClear (d : Dev) (r : Requester) : Dev :=
  if r = .pf || r = .handle then
    { d.put ERR_STATUS_LOST 0 with err := { (d.put ERR_STATUS_LOST 0).err with log := [] } }.put ERR_STATUS_USED 0
  else d.errState 0x16 0 0x2FC06 (srcOf r)

/-! ### The 1149.1 port (R361, R403) -/

/-- EXTEST, CLAMP, HIGHZ and INTEST. -/
def boardTest (code : Nat) : Bool := code == 0 || code == 3 || code == 4 || code == 5

/-- The instruction that a code selects: unassigned codes act as BYPASS, and so does one without its authorisation (Table 17-9). -/
def Dev.tapCode (d : Dev) (code : Nat) : Nat :=
  if boardTest code then (if d.level 0 = 2 then code else 0xFF)
  else if code = 1 || code = 2 || code = 0x10 then code
  else 0xFF

/-- The instruction register takes an instruction; leaving a board-test instruction resets the device. -/
def Dev.setIr (d : Dev) (c : Nat) : Dev :=
  let old := d.dbg.ir
  let d := { d with dbg := { d.dbg with ir := c } }
  if boardTest old && old != c then d.warmReset 5 else d

/-- TAP_INSTRUCTION_LOAD. -/
def Dev.tapLoad (d : Dev) (code : Nat) : Dev := d.setIr (d.tapCode code)

/-- What Capture-DR gives with the instruction selected: the IDCODE; DONE, ERR and the data of DBGDR's last access; the bypass bit. The boundary
scan register captures pins (R358, R403; log entry 73). -/
def Dev.captureDr (d : Dev) : Option Nat :=
  match d.dbg.ir with
  | 2 => some 0x16400B87
  | 0x10 => some (b2n d.dbg.done + 2 * b2n d.dbg.derr + d.dbg.ddata * 2 ^ 26)
  | 3 => some 0
  | 4 => some 0
  | 0xFF => some 0
  | _ => none

/-- TEST_LOGIC_RESET: IDCODE selected, transport 0's grant dropped. -/
def Dev.testLogicReset (d : Dev) : Dev := (d.dropGrant 0).setIr 2

/-! ### Function and host resets as they touch debug (R361) -/

/-- INITIATE_FLR: an FLR of the PF also drops transport 1's grant. -/
def Dev.flrD (d : Dev) (f : Nat) : Dev := if f = 0 then (d.flr 0).dropGrant 1 else d.flr f

/-- HOST_INTERFACE_RESET also drops transport 1's grant. -/
def Dev.hostResetD (d : Dev) (cause : Nat) : Dev := (d.hostReset cause).dropGrant 1

/-! ### The management tick (R308) -/

/-- MANAGEMENT_TICK: the periodic work of every block at a boundary that is due. -/
def Dev.managementTick (d : Dev) : Dev :=
  if d.tb.mgmtDue = 0 then d
  else
    let d := { d with tb := { d.tb with mgmtDue := d.tb.mgmtDue - 1 } }
    if d.asleep then d
    else
      let d := d.energyBoundary.mleTick.fpTick.basketTick.hoopTick
      let d := d.ordTick.ldgTick.rimTick.memTick
      d.timeTick.errTick

/-! ### A request that no target answers (R104) -/

/-- WEAVE_REQUEST_TIMEOUT: the waiter receives "absent". -/
def Dev.weaveTimeout (d : Dev) : WeaveWaiter → Dev
  | .qaPort c => if d.bsk.qa.any (fun q => q.core == c.val) then d.qaResult c.val 6 0 0 else d
  | .access => if d.on DBG_ACC_CMD_BUSY then (d.put DBG_ACC_CMD_BUSY 0).put DBG_ACC_CMD_RESULT 2 else d
  | .store c k i => d.lostStore c k i

end Sys2Proof.Machine
end

