-- ==== Sys2Proof/Machine/Control.lean ====
section
/-!
DEFINITION. Control space (chapter 17): finding a register, reads and writes under its fields' types, the writes and reads that act, split
accesses of the 32-bit paths, misaccesses, the host's windows, and the accesses that the debug transports make.
-/
namespace Sys2Proof.Machine

/-! ### Finding a register (R5, R387, R390) -/

/-- An element of a register array: its row, its indices as the spec numbers them, the word offset it begins at, and the word of it that an
offset names. -/
structure Loc where
  reg : RegDesc
  i : Nat
  j : Nat
  base : Nat
  part : Nat
  deriving DecidableEq, Repr

/-- The words of a register. -/
def RegDesc.words (x : RegDesc) : Nat := if x.quad then 4 else 2

/-- The element of a row that a word offset falls in. -/
def RegDesc.locate (x : RegDesc) (off : Nat) : Option Loc :=
  let r := off - x.off
  let a := if x.s1 = 0 then 0 else r / x.s1
  let ra := r - a * x.s1
  let b := if x.s2 = 0 then 0 else ra / x.s2
  let p := ra - b * x.s2
  if off < x.off || x.n1 ≤ a || x.n2 ≤ b || x.words ≤ p then none
  else some ⟨x, a + x.f1, b + x.f2, off - p, p⟩

/-- The register that a control-space word offset falls in. -/
def locate (off : Nat) : Option Loc := regMap.findSome? (fun x => x.locate off)

/-- The block a word offset lies in (Table 17-1); 0x16 for the words that no block holds. -/
def blockAt (off : Nat) : Nat :=
  if off < 0x20000 then (if 0x10000 ≤ off && off < 0x12000 && 0x40 ≤ off % 0x80 then 2 else 1)
  else if off < 0x28000 then 0x13
  else if off < 0x2A000 then 3
  else if off < 0x2B000 then 0xD
  else if off < 0x2C000 then 0xE
  else if off < 0x2D000 then 5
  else if off < 0x2E000 then 7
  else if off < 0x2E800 then 8
  else if off < 0x2F000 then 0x10
  else if off < 0x2F400 then 0x14
  else if off < 0x2F800 then 0xC
  else if off < 0x2FC00 then 0xB
  else if off < 0x30000 then 0x16
  else if off < 0x30100 then 4
  else if off < 0x30200 then 0xA
  else if off < 0x30300 then 9
  else if off < 0x30500 then 0x12
  else if off < 0x30600 then 0x11
  else if off < 0x30700 then 6
  else if off < 0x30800 then 0xF
  else if off < 0x30900 then 0x15
  else 0x16

/-- The block in an error record for an unmapped offset: function pages count under HIF. -/
def blockOfUnmapped (off : Nat) : Nat := if off < 0x20000 then 1 else blockAt off

/-- INSTANCE of a record about a register (Table 17-3). -/
def Loc.inst (l : Loc) : Nat :=
  let n := l.reg.n1
  match blockAt l.base with
  | 3 => if n = 4 then l.i else 0
  | 7 => if n = 32 then l.i else 0
  | 8 => l.i
  | 0xC => if n = 2 then l.i else 0
  | 0xD => l.i
  | 0xE => if n = 16 then l.i else 0
  | 0x13 => if n = 48 || n = 49 || n = 512 then l.i else 0
  | 1 => if n = 64 then l.i else 0
  | 2 => l.i
  | _ => 0

/-- The lock over a word offset's RWL fields (R7). -/
def lockAt (off : Nat) : Option Fld :=
  match blockAt off with
  | 5 => some BSK_LOCK_LOCK
  | 7 => some HOOP_LOCK_LOCK
  | 0xB => some LDG_LOCK_LOCK
  | 0xC => some RIM_LOCK_LOCK
  | 1 => some HIF_LOCK_LOCK
  | 0xE => some MEM_LOCK_LOCK
  | 0x10 => some TB_LOCK_LOCK
  | 0x12 => some PWR_LOCK_LOCK
  | _ => none

/-- Whether RWL fields at an offset are locked. -/
def Dev.locked (d : Dev) (off : Nat) : Bool := (lockAt off).any (fun f => d.on f)

/-- The DBG_AUTH registers, banked by transport (R385). -/
def RegName.banked (n : RegName) : Bool :=
  n == .DBG_AUTH_CMD || n == .DBG_AUTH_STATUS || n == .DBG_AUTH_CHAL || n == .DBG_AUTH_RESP

/-- The bank that a requester reaches. -/
def bankOf (r : Requester) : Nat := (transportOf r).getD 1

/-- A field of a register as a requester reaches it. -/
def Loc.fld (l : Loc) (r : Requester) (x : FieldDesc) : Fld :=
  let f : Fld := ⟨64 * l.base + x.lo, x.w, x.rst⟩
  if l.reg.name.banked then bank f (bankOf r) else f

/-! ### Reads -/

/-- The value of a register from its fields; WO fields and unnamed bits read 0 (R6). -/
def Dev.fieldsVal (d : Dev) (r : Requester) (l : Loc) : Nat :=
  sumN (l.reg.fields.map (fun x => if x.ty = .wo then 0 else d.get (l.fld r x) * 2 ^ x.lo))

/-- Units of Table 13-3 as TB_WD_SEL names them. -/
def Dev.wdView (d : Dev) : Nat :=
  let c := d.get TB_WD_SEL_CLASS
  let u := d.get TB_WD_SEL_UNIT
  if u < wdUnits c then d.wdLeft c u / 100 else 0

/-- A watchdog register with FROZEN as it is now. -/
def Dev.wdVal (d : Dev) (r : Requester) (l : Loc) (c u : Nat) : Nat :=
  d.fieldsVal r l + 4 * b2n (d.on (wdEn c u) && d.wdFrozen c u)

/-- What a register reads, without any effect of the read. -/
def Dev.regVal (d : Dev) (r : Requester) (l : Loc) : Nat :=
  match l.reg.name with
  | .HIF_FN_ID => l.i + (if l.i = 0 then 64 else 0) + d.get RIM_CFG_DEVNO * 2 ^ 8 + d.get RIM_CFG_DVALID * 2 ^ 14
  | .HIF_FN_USE => d.fnUseOd l.i % 2 ^ 19 + d.fnUseLt l.i % 2 ^ 25 * 2 ^ 32
  | .BSK_FN_USE => d.fnUseOd l.i % 2 ^ 19 + d.fnUseLt l.i % 2 ^ 25 * 2 ^ 32
  | .HIF_FN_QUOTA => d.get (HIF_QOS_CELLS_CELLS l.i) + d.get (HIF_QOS_LT_MIB l.i) * 2 ^ 32
  | .HIF_FN_WEIGHT =>
    d.get (HIF_QOS_SHARE_DMAW l.i) + d.get (HIF_QOS_SHARE_STRW l.i) * 2 ^ 8 + d.get (HIF_QOS_SHARE_MODMIN l.i) * 2 ^ 16
  | .HOOP_SVC => d.fieldsVal r l + d.nshard l.i % 2 ^ 14 * 2 ^ 8
  | .BSK_LT_FREE => d.ltFree
  | .STK_SWI => bits ((d.th (4096 + l.i)).cr 0x203) 55 48
  | .MEM_PROT_VIEW0 =>
    (match Tab.find d.mem.prot (d.get MEM_PROT_SEL_INDEX) with
      | some e => e.1 + 2 ^ 63
      | none => 0)
  | .MEM_PROT_VIEW1 => ((Tab.find d.mem.prot (d.get MEM_PROT_SEL_INDEX)).map (·.2)).getD 0
  | .TB_WD_VIEW => d.wdView
  | .TB_WD_CORE => d.wdVal r l 0 l.i
  | .TB_WD_HOOP => d.wdVal r l 1 l.i
  | .TB_WD_TRIAL => d.wdVal r l 2 0
  | .TB_WD_HANDLE => d.wdVal r l 3 0
  | .WV_CRED_VIEW => d.credView
  | .BOOT_MEAS => d.measQuad l.i
  | .ERR_LOG => ((d.err.log[d.get ERR_LOG_SEL_INDEX]?).map (fun e => quadAt e.quads l.i)).getD 0
  | .TRC_BUFDATA => d.bufData
  | .FP_TXTS_INFO => d.txtsInfo l.i
  | _ => d.fieldsVal r l

/-- Clear the RC fields of a register (R6). -/
def Dev.clearRc (d : Dev) (r : Requester) (l : Loc) : Dev :=
  l.reg.fields.foldl (fun d x => if x.ty = .rc then d.put (l.fld r x) 0 else d) d

/-- Rows of Table 16-1 that govern the PF: run control, break and watch units, virtual terminal, DBG_FRZ. -/
def debugOnly (off : Nat) : Bool := 0x20080 ≤ off && off < 0x28000 && !(0x20084 ≤ off && off < 0x20090)

/-- Read a register that the requester may access, with the effects of the read unless it carries PEEK (R6, R8, R363). -/
def Dev.regRead (d : Dev) (r : Requester) (l : Loc) (peek : Bool) : Dev × Nat :=
  if r = .pf && debugOnly l.base && !d.mayDebug r 2 then (d.notAuth r l.base, 0)
  else match l.reg.name with
    | .FP_TXTS_INFO => let d := if peek then d else d.txtsMove l.i; (d, d.txtsInfo l.i)
    | .TRC_BUFDATA => d.bufDataRead peek
    | .DBG_VT_TX => d.vtTxRead r l.i peek
    | _ => (if peek then d else d.clearRc r l, d.regVal r l)

/-! ### Writes -/

/-- A value lies in one of the ranges that the spec allows. -/
def inRanges (v : Nat) : List (Nat × Nat) → Bool
  | [] => false
  | (a, b) :: t => (decide (a ≤ v) && decide (v ≤ b)) || inRanges v t

/-- A field takes the bits a write places in it. DESIGN CHOICE (log entry 82): a reserved encoding that a write places in an RWL field while
the block's lock is set is ignored with the rest of that field's write (R6) and raises no record under R9. -/
def Dev.takes (d : Dev) (l : Loc) (x : FieldDesc) : Bool :=
  match x.ty with
  | .ro => false
  | .rc => false
  | .rwl => !d.locked l.base
  | _ => true

/-- A target and ARG that Table 13-2 calls reserved. -/
def tgtReserved (tgt arg : Nat) : Bool :=
  match tgt with
  | 1 => decide (64 ≤ arg)
  | 2 => decide (2 ^ 20 ≤ arg)
  | 3 => decide (2 ^ 8 ≤ arg) || arg / 64 == 3
  | 4 => decide (2 ^ 6 ≤ arg) || arg / 16 == 0
  | 0 => arg != 0
  | 5 => arg != 0
  | _ => true

/-- Encodings that span fields and that their descriptions call reserved (R9, R406). -/
def Dev.regReserved (d : Dev) (l : Loc) (v : Nat) : Bool :=
  match l.reg.name with
  | .MLE_GW_CMD => bit v 30 && bit v 31
  | .FP_NH_CMD => bit v 30 && bit v 31
  | .BSK_SHARDQ => bit v 30 && bit v 31
  | .HOOP_SHARD => bit v 30 && bit v 31
  | .RIM_BSET => bit v 30 && bit v 31
  | .FP_CFG => bit v 1 && (bits v 15 4 == 0 || bits v 15 4 == 4095)
  | .RING_POLL => decide (bits v 23 12 < bits v 11 0)
  | .RING_BASE => (decide (1 ≤ bits v 4 0) && decide (bits v 4 0 ≤ 5)) || decide (17 ≤ bits v 4 0)
  | .PWR_SUP => !d.locked l.base && decide (bits v 15 8 ≤ bits v 7 0 + 10)
  | .DBG_BW_CTL => bits v 5 4 == 0 && bits v 2 0 != 0
  | .TB_CMP_CFG => tgtReserved (bits v 3 1) (bits v 31 8)
  | .TB_TMR_TGT => tgtReserved (bits v 2 0) (bits v 31 8)
  | .TB_TMR_CFG => (bits v 1 0 == 3 || bit v 2 || bit v 3) && decide (l.i ≤ bits v 7 4)
  | .TB_WD_CORE => bits v 31 8 == 0
  | .TB_WD_HOOP => bits v 31 8 == 0
  | _ => false

/-- A write that R9 refuses: some field would take an encoding its description calls reserved. -/
def Dev.reserved (d : Dev) (l : Loc) (v : Nat) : Bool :=
  l.reg.fields.any (fun x => d.takes l x && !x.ok.isEmpty && !inRanges (bits v (x.lo + x.w - 1) x.lo) x.ok) || d.regReserved l v

/-- Low bits that a field's description fixes at 0. -/
def alignOf : RegName → Nat
  | .BSK_LT_BASE => 29
  | .HOOP_LS_BASE => 28
  | .LDG_BASE => 24
  | .HIF_BAR2_BASE => 27
  | .TRC_SINK_BASE => 11
  | _ => 0

/-- One field of a write (R6). -/
def Dev.putField (d : Dev) (r : Requester) (l : Loc) (v : Nat) (x : FieldDesc) : Dev :=
  let f := l.fld r x
  let w := bits v (x.lo + x.w - 1) x.lo
  match x.ty with
  | .rw => d.put f w
  | .rwl => if d.locked l.base then d else d.put f w
  | .w1c => d.put f (d.get f - (d.get f &&& w))
  | .w1s => d.put f (d.get f ||| w)
  | _ => d

/-- Set a register's fields as their types state. -/
def Dev.putFields (d : Dev) (r : Requester) (l : Loc) (v : Nat) : Dev :=
  let a := 2 ^ alignOf l.reg.name
  l.reg.fields.foldl (fun d x => d.putField r l (v / a * a) x) d

/-- The lock of a block goes from 0 to 1: the protected region it defines becomes active (R7, R96, Table 12-5). -/
def Dev.lockSet (d : Dev) (f : Fld) : Dev :=
  if d.on f then d
  else
    let d := d.put f 1
    if f = BSK_LOCK_LOCK then
      let base := d.get BSK_LT_BASE_ADDR
      let n := d.get BSK_LT_CFG_SIZE * 2 ^ 29
      if n = 0 then d
      else if d.dramTop < base + n then
        ({ d with bsk := { d.bsk with ltOff := true } }).raiseErr 5 0 0x000A 1 base 0
      else d.protect 0 base (base + n)
    else if f = HOOP_LOCK_LOCK then d.protect 1 (d.get HOOP_LS_BASE_ADDR) (d.get HOOP_LS_BASE_ADDR + 160 * 2 ^ 20)
    else if f = LDG_LOCK_LOCK then d.protect 2 (d.get LDG_BASE_ADDR) (d.get LDG_BASE_ADDR + 16 * 2 ^ 20)
    else d

/-- FP_CFG: a write that would change MODE while the port is not out of service is ignored whole (Table 3-8). -/
def Dev.fpCfgWrite (d : Dev) (r : Requester) (p v : Nat) : Dev :=
  if bit v 1 && (bits v 15 4 == 0 || bits v 15 4 == 4095) then d.errReserved 3 p (fpOff p 0)
  else if bits v 0 0 ≠ d.get (FP_CFG_MODE p) && d.get (FP_SVC_STATE p) ≠ 0 then d.errState 3 p (fpOff p 0) (srcOf r)
  else ((d.put (FP_CFG_MODE p) (bits v 0 0)).put (FP_CFG_VLAN_EN p) (bits v 1 1)).put (FP_CFG_VID p) (bits v 15 4)

/-- RIM_CFG: a write that would change DEVNO or DVALID while a link is not out of service is ignored with a record (Table 7-5); under RIM_LOCK
the two fields take nothing in any case. -/
def Dev.rimCfgWrite (d : Dev) (r : Requester) (l : Loc) (v : Nat) : Dev :=
  if !d.locked l.base && (bits v 5 0 ≠ d.get RIM_CFG_DEVNO || bits v 6 6 ≠ d.get RIM_CFG_DVALID) &&
      !(List.range 2).all (fun i => d.get (RIM_SVC_STATE i) == 0) then d.errState 0xC 0 l.base (srcOf r)
  else d.putFields r l v

/-- FP_SVC.OP. -/
def Dev.fpSvc (d : Dev) (r : Requester) (p op : Nat) : Dev :=
  match op with
  | 1 => d.fpOut r p
  | 2 => d.fpIn p
  | 3 => d.fpParkT r p
  | _ => d.noOp (FP_SVC_BUSY p) 3 p (fpOff p 2)

/-- HOOP_SVC.OP. -/
def Dev.hoopSvc (d : Dev) (r : Requester) (h op : Nat) : Dev :=
  match op with
  | 1 => d.hoopOut r h
  | 2 => d.hoopIn h
  | 3 => d.hoopParkT r h
  | _ => d.noOp (HOOP_SVC_BUSY h) 7 h (hoopSvcOff h)

/-- RIM_SVC.OP. -/
def Dev.rimSvc (d : Dev) (r : Requester) (i op : Nat) : Dev :=
  match op with
  | 1 => d.rimOut r i
  | 2 => d.rimIn r i
  | 3 => d.rimParkT r i
  | _ => d.noOp (RIM_SVC_BUSY i) 0xC i (rimOff i 2)

/-- STK_CLU_SVC.OP. -/
def Dev.cluSvc (d : Dev) (r : Requester) (k op : Nat) : Dev :=
  match op with
  | 1 => d.cluOut k
  | 2 => d.cluInV k
  | 3 => d.cluParkT r k
  | _ => d.noOp (STK_CLU_SVC_BUSY k) 0xD k (cluSvcOff k)

/-- BSK_Q_CMD.OP. -/
def Dev.qCmd (d : Dev) (op : Nat) : Dev :=
  match op with
  | 1 => d.qRead
  | 2 => d.qWrite
  | 3 => d.qFlush
  | 4 => d.qCounts
  | 5 => d.qCountsClear
  | _ => d.noOp BSK_Q_CMD_BUSY 5 0 0x2C01C

/-- HOOP_MIG_CMD.OP. -/
def Dev.migCmd (d : Dev) (op : Nat) : Dev :=
  match op with
  | 1 => d.migQmove
  | 2 => d.migSmove
  | 3 => d.migQforced
  | 4 => d.migSforced
  | _ => d.noOp HOOP_MIG_STATUS_BUSY 7 0 0x2D018

/-- Whether the PF BAR2 window at `base` misses every active protected region. -/
def Dev.bar2Free (d : Dev) (base : Nat) : Bool := d.outsideProt base (2 ^ 27)

/-- HIF_CFG and HIF_BAR2_BASE: a window over a protected region is refused and B2EN stays 0 (Table 8-15). -/
def Dev.bar2Write (d : Dev) (r : Requester) (l : Loc) (v : Nat) : Dev :=
  let x := d.putFields r l v
  if x.on HIF_CFG_B2EN && !x.bar2Free (x.get HIF_BAR2_BASE_ADDR) && (!d.on HIF_CFG_B2EN || l.reg.name == .HIF_BAR2_BASE) then
    (if l.reg.name == .HIF_CFG then x.put HIF_CFG_B2EN 0 else d).errState 1 0 l.base (srcOf r)
  else if l.reg.name == .HIF_BAR2_BASE && !d.locked l.base && !d.bar2Free (v / 2 ^ 27 * 2 ^ 27 % 2 ^ 44) then d.errState 1 0 l.base (srcOf r)
  else x

/-- TB_WD_TRIAL (R317, R318): EN, TIMEOUT and EXPIRED by the handle core, FRZ by transport 0 with full. -/
def Dev.trialWrite (d : Dev) (r : Requester) (v : Nat) : Dev :=
  if r = .handle then
    let ran := d.on TB_WD_TRIAL_EN
    let d := (d.put TB_WD_TRIAL_EN (bits v 0 0)).put TB_WD_TRIAL_TIMEOUT (bits v 31 8)
    let d := if bit v 3 then d.put TB_WD_TRIAL_EXPIRED 0 else d
    if ran && bit v 0 then d else d.wdKick 2 0
  else if (r = .dbg0 || r = .accEngine 0) && d.level 0 == 2 then d.put TB_WD_TRIAL_FRZ (bits v 1 1)
  else d.errState 0x10 0 0x2E826 (srcOf r)

/-- A watchdog register: the fields. EN = 0 reloads, and a watchdog that is enabled starts from TIMEOUT (R316). A write of the handle watchdog that
would change EN or TIMEOUT under TB_LOCK leaves the two and raises "write refused in state" (R317). -/
def Dev.wdWrite (d : Dev) (r : Requester) (l : Loc) (v c u : Nat) : Dev :=
  let refused := c == 3 && d.locked l.base &&
    (bits v 0 0 != d.get TB_WD_HANDLE_EN || bits v 31 8 != d.get TB_WD_HANDLE_TIMEOUT)
  let ran := d.on (wdEn c u)
  let d := d.putFields r l v
  let d := if ran && d.on (wdEn c u) then d else d.wdKick c u
  if refused then d.errState 0x10 0 l.base (srcOf r) else d

/-- DBG_AUTH_CMD; a requester that is no transport is refused. -/
def Dev.authCmd (d : Dev) (r : Requester) (v : Nat) : Dev :=
  match transportOf r with
  | none => if bits v 1 0 = 0 then d else d.errState 0x13 0 authOff (srcOf r)
  | some t =>
    match bits v 1 0 with
    | 1 => d.authRequest t (bits v 3 2) (bit v 4)
    | 2 => d.authRespond t
    | 3 => d.dropGrant t
    | _ => d

/-! ### The debug access engine (R364) -/

/-- The words of an access of SIZE 0 word, 1 pair, 2 quad. -/
def accWords (size : Nat) : Nat := if size = 0 then 1 else if size = 1 then 2 else 4

/-- End an access. -/
def Dev.accEnd (d : Dev) (result : Nat) : Dev := (d.put DBG_ACC_CMD_BUSY 0).put DBG_ACC_CMD_RESULT result

/-- An access to DRAM, coherent with the L2s and subject to protection: a result, and the data of a read. -/
def Dev.accDram (d : Dev) (pa n : Nat) (write : Option Nat) (env : DramEnv) : Dev × Nat × Nat :=
  if !d.memOk .dbg pa n write.isSome then
    (d.memRefuse .dbg pa n write.isSome, if (d.refusing .dbg pa n write.isSome).isSome && decide (pa + n ≤ d.dramTop) then 3 else 2, 0)
  else match write with
    | some v => (d.writeWords pa n v 0, 0, 0)
    | none =>
      let (d, bad) := d.readCoherent (pa / 32) env 0x66
      if bad then (d, 2, 0) else (d, 0, d.wordsAt pa n)

/-- DBG_ACC_CMD by transport t. -/
def Dev.accRun (d : Dev) (io : Io) (r : Requester) (t : Fin 2) (op size : Nat) (peek : Bool) (env : DramEnv) : Dev :=
  let pa := d.get DBG_ACC_ADDR_ADDR
  let n := accWords size
  if d.on DBG_ACC_CMD_BUSY then d.errBusy 0x13 0 0x2008C
  else if op = 0 || op = 3 || size = 3 then d
  else if d.level t.val < (if op = 1 then 1 else 2) then (d.accEnd 1).notAuth r 0x2008C
  else if op = 2 && peek then d.accEnd 5
  else if pa % n ≠ 0 then d.accEnd 4
  else
    let peek := peek || d.level t.val == 1
    if isControl pa then
      if op = 1 then
        let (d, v) := if peek then
            (match locate (pa - 0x0F0000000000) with
              | some l => if l.part = 0 && n = l.reg.words then (d, d.regVal (.accEngine t) l) else (d, 0)
              | none => (d, 0))
          else (fun x : Dev × Option Nat => (x.1, x.2.getD 0)) (io.read d (.accEngine t) (pa - 0x0F0000000000) n)
        (d.put DBG_ACC_DATA_DATA v).accEnd 0
      else (fun x : Dev × Bool => x.1.accEnd (if x.2 then 0 else 2))
        (io.write d (.accEngine t) (pa - 0x0F0000000000) n (d.get DBG_ACC_DATA_DATA % 65536 ^ n))
    else if op = 1 then
      let (d, res, v) := d.accDram pa n none env
      (if res = 0 then d.put DBG_ACC_DATA_DATA v else d).accEnd res
    else
      let (d, res, _) := d.accDram pa n (some (d.get DBG_ACC_DATA_DATA % 65536 ^ n)) env
      d.accEnd res

/-- A DBG_ACC_CMD write; a requester that is no transport holds no level (R359). -/
def Dev.accCmd (d : Dev) (io : Io) (r : Requester) (op size : Nat) (peek : Bool) : Dev :=
  match transportOf r with
  | some t => if h : t < 2 then d.accRun io r ⟨t, h⟩ op size peek [] else d
  | none => if op = 0 then d else d.accEnd 1

/-! ### The debug registers that act -/

/-- DBG_CORE_CTL[c]. -/
def Dev.coreCtl (d : Dev) (io : Io) (r : Requester) (c : Fin 49) (v : Nat) : Dev :=
  if !d.mayRun r c.val then d.notAuth r (coreDbgOff c.val)
  else
    let d := (d.put (DBG_CORE_CTL_BRKHALT c.val) (bits v 4 4)).put (DBG_CORE_CTL_STEPINT c.val) (bits v 5 5)
    match bits v 2 0 with
    | 1 => d.haltCmd r c
    | 2 => d.resumeCmd r c
    | 3 => d.stepCmd r c
    | 4 => d.execCmd io r c {}
    | _ => d

/-- DBG_REGSEL[c]. -/
def Dev.coreRegsel (d : Dev) (io : Io) (r : Requester) (c : Fin 49) (v : Nat) : Dev :=
  if !d.mayRun r c.val then d.notAuth r (coreDbgOff c.val + 4)
  else
    let d := (d.put (DBG_REGSEL_NUM c.val) (bits v 10 0)).put (DBG_REGSEL_CTX c.val) (bits v 12 11)
    let d := if bit v 16 then d.regsel io r (.core c) (bits v 10 0) false else d
    if bit v 17 then d.regsel io r (.core c) (bits v 10 0) true else d

/-- DBG_ENG_CTL. -/
def Dev.engCtl (d : Dev) (r : Requester) (e v : Nat) : Dev :=
  if !d.mayDebug r 2 then d.notAuth r (engDbgOff e)
  else
    let d := (d.put (DBG_ENG_CTL_BRKHALT e) (bits v 4 4)).put (DBG_ENG_CTL_CTX e) (bits v 13 12)
    match bits v 2 0 with
    | 1 => d.engHalt r e
    | 2 => d.engResume r e
    | 3 => d.engStep r e (bits v 13 12)
    | _ => d

/-- DBG_ENG_REGSEL. -/
def Dev.engRegsel (d : Dev) (io : Io) (r : Requester) (e : Fin 512) (v : Nat) : Dev :=
  if !d.mayDebug r 2 then d.notAuth r (engDbgOff e.val + 4)
  else
    let x : Fin 4 := ⟨bits v 12 11 % 4, Nat.mod_lt _ (by decide)⟩
    let d := (d.put (DBG_ENG_REGSEL_NUM e.val) (bits v 10 0)).put (DBG_ENG_REGSEL_CTX e.val) x.val
    let d := if bit v 16 then d.regsel io r (.engine e x) (bits v 10 0) false else d
    if bit v 17 then d.regsel io r (.engine e x) (bits v 10 0) true else d

/-! ### The write of a register -/

/-- Run f with a core's index. -/
def withCore (c : Nat) (d : Dev) (f : Core → Dev) : Dev := if h : c < 48 then f ⟨c, h⟩ else d

/-- Writes of the debug, trace and counter blocks that act, once authorised. -/
def Dev.writeDbg (d : Dev) (io : Io) (r : Requester) (l : Loc) (v : Nat) : Dev :=
  match l.reg.name with
  | .DBG_AUTH_CMD => d.authCmd r v
  | .DBG_ACC_CMD => d.accCmd io r (bits v 1 0) (bits v 3 2) (bit v 4)
  | .DBG_CORE_CTL => if h : l.i < 49 then d.coreCtl io r ⟨l.i, h⟩ v else d
  | .DBG_REGSEL => if h : l.i < 49 then d.coreRegsel io r ⟨l.i, h⟩ v else d
  | .DBG_VT_RX => d.vtRxWrite r l.i (bits v 31 0)
  | .DBG_ENG_CTL => d.engCtl r l.i v
  | .DBG_ENG_REGSEL => if h : l.i < 512 then d.engRegsel io r ⟨l.i, h⟩ v else d
  | .TRC_CTL => d.trcCtl (bit v 0) (bits v 12 8)
  | .TRC_SINK_CFG => d.sinkCfg r (bits v 1 0) (bits v 31 16) (bit v 2)
  | .TRC_SRC => (fun x : Dev => if bit v 0 && !d.on (TRC_SRC_EN l.i) then x.resync l.i else x) (d.putFields r l v)
  | .CNT_CMD => if bit v 0 then d.snap r else d
  | .CNT_DUMP_BASE => d.dumpBase r (bits v 43 0)
  | _ => d.putFields r l v

/-- Writes of the function pages, of a function through its own BAR0 (R209, R222). -/
def Dev.writePage (d : Dev) (r : Requester) (l : Loc) (v : Nat) : Dev :=
  match l.reg.name with
  | .RING_CTRL => d.ringCtrl l.i (bits v 5 0) (srcOf r)
  | .RING_BASE => if bit (d.get (RING_CTRL_EN l.i)) l.j then d.errState 2 l.i l.base (srcOf r) else d.putFields r l v
  | .RING_DB_ADDR => if d.get (RING_CTRL_EN l.i) ≠ 0 then d.errState 2 l.i l.base (srcOf r) else d.putFields r l v
  | .RING_ERR => (fun x : Dev =>
      if x.get (RING_ERR_ERR l.i) = d.get (RING_ERR_ERR l.i) then x else x.setFn l.i { x.fnS l.i with owed := true }) (d.putFields r l v)
  | .RING_ST_ADDR => if d.get (RING_CTRL_EN l.i) ≠ 0 then d.errState 2 l.i l.base (srcOf r) else d.putFields r l v
  | _ => d.putFields r l v

/-- Writes of the blocks of the data plane and the stake that act. -/
def Dev.writeData (d : Dev) (io : Io) (r : Requester) (l : Loc) (v : Nat) : Dev :=
  if d.regDead l.base && l.reg.name != .STK_CORE_CTL then d
  else match l.reg.name with
  | .MLE_INV_CMD => d.invCommand (bits v 2 0)
  | .MLE_KEY_CMD => d.keyCommand (bits v 17 0) (bits v 20 18)
  | .MLE_GW_CMD => if bit v 30 then d.gwRead (bits v 11 0) else if bit v 31 then d.gwWrite (bits v 11 0) else d
  | .FP_CFG => d.fpCfgWrite r l.i v
  | .RIM_CFG => d.rimCfgWrite r l v
  | .FP_SVC => (d.putFields r l v).fpSvc r l.i (bits v 1 0)
  | .FP_NH_CMD => if bit v 30 then d.nhRead (bits v 11 0) else if bit v 31 then d.nhWrite (bits v 11 0) else d
  | .BSK_LOCK => if bit v 0 then d.lockSet BSK_LOCK_LOCK else d
  | .HOOP_LOCK => if bit v 0 then d.lockSet HOOP_LOCK_LOCK else d
  | .LDG_LOCK => if bit v 0 then d.lockSet LDG_LOCK_LOCK else d
  | .BSK_Q_CMD => d.qCmd (bits v 2 0)
  | .BSK_SHARDQ =>
    if bit v 30 then d.shardqRead (bits v 12 0)
    else if bit v 31 then d.shardqWrite r (bits v 12 0) (bits v 28 16) (bit v 29)
    else d.putFields r l v
  | .BSK_QA_CMD => d.qaCommand l.i (bits v 17 16) (bits v 12 0) (bits v 31 20)
  | .HOOP_SHARD =>
    if bit v 30 then d.shardRead (bits v 12 0)
    else if bit v 31 then d.shardWrite r (bits v 12 0) (bits v 20 16)
    else d.putFields r l v
  | .HOOP_MIG_CMD => d.migCmd (bits v 2 0)
  | .HOOP_SVC => d.hoopSvc r l.i (bits v 1 0)
  | .RFX_TBL_CMD =>
    (match bits v 19 18 with
      | 1 => d.rfxRead (bits v 17 0)
      | 2 => d.rfxWrite (bits v 17 0)
      | 3 => d.rfxClear (bits v 17 0)
      | _ => d.noOp RFX_TBL_STATUS_BUSY 9 0 rfxTblCmdOff)
  | .RFX_CRV_CMD => if bits v 9 8 = 1 then d.crvRead (bits v 7 0) else d.crvWrite (bits v 7 0)
  | .ORD_CFG => d.ordCfgWrite (bits v 9 0) (bits v 13 12) (bits v 25 16)
  | .ORD_TBL_CMD =>
    (match bits v 1 0 with
      | 1 => d.ordTblRead
      | 2 => d.ordTblWrite
      | 3 => d.ordTblClear
      | _ => d.noOp ORD_TBL_CMD_BUSY 0xA 0 ordTblCmdOff)
  | .LDG_TBL_CMD =>
    (match bits v 1 0 with
      | 1 => d.ldgTblRead
      | 2 => d.ldgTblWrite
      | 3 => d.ldgTblClear
      | _ => d.noOp LDG_TBL_CMD_BUSY 0xB 0 ldgTblCmdOff)
  | .RIM_BSET =>
    if bit v 30 then d.bsetRead (bits v 17 0)
    else if bit v 31 then d.bsetWrite (bits v 17 0) (bit v 24)
    else d.putFields r l v
  | .RIM_SVC => d.rimSvc r l.i (bits v 1 0)
  | .HIF_CFG => d.bar2Write r l v
  | .HIF_BAR2_BASE => d.bar2Write r l v
  | .STK_CLU_SVC => d.cluSvc r l.i (bits v 1 0)
  | .STK_CORE_CTL => withCore l.i d (fun c => if bits v 1 0 = 1 then d.coreReset c else d.coreStart io r c)
  | .STK_SWI => withCore l.i d (fun c => d.swiWrite c (bits v 7 0))
  | .MEM_INIT => if bits v 1 0 = 1 then d.train else if bits v 1 0 = 2 then d.eccInit else d.noOp MEM_INIT_BUSY 0xE 0 memInitOff
  | .SCR_CMD => if bits v 1 0 = 1 then d.scrubStart else if bits v 1 0 = 2 then d.scrubAbort else d.noOp SCR_CMD_BUSY 0xF 0 scrCmdOff
  | _ => d.putFields r l v

/-- Writes of the time base, boot, power and error blocks that act. -/
def Dev.writeSys (d : Dev) (r : Requester) (l : Loc) (v : Nat) : Dev :=
  match l.reg.name with
  | .TB_STEP => d.stepWrite v
  | .TB_WD_KICK => d.kickWrite r (bits v 1 0) (bits v 7 2) (bits v 31 16)
  | .TB_WD_TRIAL => d.trialWrite r v
  | .TB_WD_HANDLE => d.wdWrite r l v 3 0
  | .TB_WD_CORE => d.wdWrite r l v 0 l.i
  | .TB_WD_HOOP => d.wdWrite r l v 1 l.i
  | .TB_TMR_PERIOD => d.periodWrite l.i v
  | .TB_TMR_CTL => (d.putFields r l v).timerAct l.i (bits v 1 0)
  | .BOOT_CONFIRM => d.bootConfirm r (bits v 2 0) (bits v 31 16)
  | .BOOT_IMG_CMD => if bits v 3 0 = 0 then d.noOp BOOT_IMG_CMD_BUSY 0x11 0 0x30504 else d.imgCommand (bits v 3 0)
  | .BOOT_MEAS_CMD => if bit v 8 then d.extendCmd r (bits v 3 0) else d.putFields r l v
  | .PWR_CTL => (fun x : Dev => if bits v 1 0 = 1 then x.hush r else x) (d.putFields r l v)
  | .PWR_DVFS => d.dvfsRequest l.i (bits v 1 0)
  | .PWR_REG => if d.locked l.base then d else d.drawn.regWrite64 l.i v (d.freeVal.toNat % 256)
  | .ERR_LOG_CMD => if bits v 1 0 = 1 then d.logClear r else d
  | .ERR_RST =>
    (match bits v 1 0 with
      | 1 => d.rstDevice r (bits v 31 16)
      | 2 => d.rstBlk r (bits v 6 2) (bits v 12 8) (bits v 31 16)
      | _ => d)
  | _ => d.putFields r l v

/-- Write a register that the requester may access (R6, R9). -/
def Dev.regWrite (d : Dev) (io : Io) (r : Requester) (l : Loc) (v : Nat) : Dev :=
  let b := blockAt l.base
  if r = .pf && debugOnly l.base && !d.mayDebug r 2 then d.notAuth r l.base
  else if 0x10000 ≤ l.base && l.base < 0x20000 then
    (match r with
      | .fnPage _ => if d.reserved l v then d.errReserved b l.inst l.base else d.writePage r l v
      | _ => d.errState 1 l.i l.base (srcOf r))
  else if d.reserved l v then d.errReserved b l.inst l.base
  else if b = 0x13 || b = 0x14 || b = 0x15 then d.writeDbg io r l v
  else if b = 0x10 || b = 0x11 || b = 0x12 || b = 0x16 then d.writeSys r l v
  else d.writeData io r l v

/-! ### Accesses by size and offset (R5, R309, R310, R389) -/

/-- The 32-bit paths' latches: the handle core's is 0, transport 0's is 1. -/
def pathOf : Requester → Option Nat
  | .handle => some 0
  | .dbg0 => some 1
  | _ => none

/-- A misaccess: discarded, with a record of severity corrected. -/
def Dev.misaccess (d : Dev) (r : Requester) (off bytes : Nat) : Dev :=
  let inst := ((locate off).map Loc.inst).getD 0
  d.raiseErr (blockAt off) inst 0x0005 3 off (srcOf r + bytes % 16 * 256)

/-- An access to an unmapped offset of control space. -/
def Dev.unmapped (d : Dev) (r : Requester) (off : Nat) : Dev := d.raiseErr (blockOfUnmapped off) 0 0x0004 3 off (srcOf r)

/-- Set a read or write latch. -/
def Dev.setRlatch (d : Dev) (k off v : Nat) : Dev := { d with dbg := { d.dbg with rlatch := Tab.ins d.dbg.rlatch k (off, v) } }
def Dev.setWlatch (d : Dev) (k off v : Nat) : Dev := { d with dbg := { d.dbg with wlatch := Tab.ins d.dbg.wlatch k (off, v) } }

/-- The low pair of a 64-bit register is read: the read of the whole register, its high half latched (R389). -/
def Dev.splitLowRead (d : Dev) (r : Requester) (l : Loc) (k : Nat) (peek : Bool) : Dev × Nat :=
  let (d, v) := d.regRead r l peek
  (d.setRlatch k l.base (v / 2 ^ 32), v % 2 ^ 32)

/-- The high pair: the latch, or the live bits of a register that is not latched (R309). -/
def Dev.splitHighRead (d : Dev) (r : Requester) (l : Loc) (k : Nat) : Nat :=
  match Tab.find d.dbg.rlatch k with
  | some (o, v) => if o = l.base then v else d.regVal r l / 2 ^ 32
  | none => d.regVal r l / 2 ^ 32

/-- A high-pair write commits the quad, or is refused when no low pair of the register is held (R310). -/
def Dev.splitHighWrite (d : Dev) (io : Io) (r : Requester) (l : Loc) (k v : Nat) : Dev :=
  match Tab.find d.dbg.wlatch k with
  | some (o, lo) =>
    if o = l.base then
      ({ d with dbg := { d.dbg with wlatch := Tab.del d.dbg.wlatch k } }).regWrite io r l (lo + v % 2 ^ 32 * 2 ^ 32)
    else d.raiseErr (blockAt l.base) l.inst 0x0006 3 l.base (srcOf r)
  | none => d.raiseErr (blockAt l.base) l.inst 0x0006 3 l.base (srcOf r)

/-- Read `bytes` bytes at a control-space word offset. -/
def Dev.ctlRead (d : Dev) (r : Requester) (off bytes : Nat) (peek : Bool) : Dev × Nat :=
  match locate off with
  | none => (d.unmapped r off, 0)
  | some l =>
    match pathOf r with
    | some k =>
      if l.reg.quad && bytes = 4 && l.part = 0 then d.splitLowRead r l k peek
      else if l.reg.quad && bytes = 4 && l.part = 2 then (d, d.splitHighRead r l k)
      else if !l.reg.quad && bytes = 4 && l.part = 0 then d.regRead r l peek
      else (d.misaccess r off bytes, 0)
    | none =>
      if l.part = 0 && bytes = 2 * l.reg.words then d.regRead r l peek else (d.misaccess r off bytes, 0)

/-- Write `bytes` bytes at a control-space word offset. -/
def Dev.ctlWrite (d : Dev) (io : Io) (r : Requester) (off bytes v : Nat) : Dev :=
  match locate off with
  | none => d.unmapped r off
  | some l =>
    match pathOf r with
    | some k =>
      if l.reg.quad && bytes = 4 && l.part = 0 then d.setWlatch k l.base (v % 2 ^ 32)
      else if l.reg.quad && bytes = 4 && l.part = 2 then d.splitHighWrite io r l k v
      else if !l.reg.quad && bytes = 4 && l.part = 0 then d.regWrite io r l (v % 2 ^ 32)
      else d.misaccess r off bytes
    | none =>
      if l.part = 0 && bytes = 2 * l.reg.words then d.regWrite io r l (v % 2 ^ (8 * bytes)) else d.misaccess r off bytes

/-- Control space as the cores and the access engine see it, nested at most n deep. -/
def ioN : Nat → Io
  | 0 => ⟨fun d _ _ _ => (d, some 0), fun d _ _ _ _ => (d, true)⟩
  | n + 1 =>
    ⟨fun d r off w => let x := d.ctlRead r off (2 * w) false; (x.1, some x.2), fun d r off w v => (d.ctlWrite (ioN n) r off (2 * w) v, !d.regDead off)⟩

/-- The access functions that the commands use. -/
def io : Io := ioN 50

/-! ### The host's windows (R186, R187, R391) -/

/-- A read of a MSI-X table entry's words (R190). -/
def MsixEnt.val (e : MsixEnt) : Nat := e.addr + e.data * 2 ^ 64 + e.ctl * 2 ^ 96

/-- Word offset w of function f's page in its MSI-X table, `bytes` 4 or 8 aligned, is read. -/
def Dev.msixRead (d : Dev) (f w bytes : Nat) : Nat :=
  let v := (Tab.get {} (d.fnS f).msix ((w - 0x4000) / 8)).val
  v / 2 ^ (16 * (w % 8)) % 2 ^ (8 * bytes)

/-- The same written: address, data, and of the vector control its mask bit. A pending message whose mask clears is sent. -/
def Dev.msixWrite (d : Dev) (f w bytes v : Nat) : Dev :=
  let s := d.fnS f
  let k := (w - 0x4000) / 8
  let o := (Tab.get {} s.msix k).val
  let lo := 16 * (w % 8)
  let n := o % 2 ^ lo + v % 2 ^ (8 * bytes) * 2 ^ lo + o / 2 ^ (lo + 8 * bytes) * 2 ^ (lo + 8 * bytes)
  let e : MsixEnt := ⟨bits n 63 2 * 4, bits n 95 64, bits n 96 96⟩
  (d.setFn f { s with msix := Tab.set {} s.msix k e }).flushPba f

/-- A 4-byte or 8-byte access aligned to its size within the words [lo, hi) of a page. -/
def inTable (w bytes lo hi : Nat) : Bool := decide (lo ≤ w) && decide (w < hi) && ((bytes == 4 && w % 2 == 0) || (bytes == 8 && w % 4 == 0))

/-- The register at word w of function f's page. -/
def pageLoc (f w : Nat) : Option Loc := if w < 0x80 then locate (pageOff f w) else none

/-- An access of function f to its own page that finds nothing there. -/
def Dev.pageUnmapped (d : Dev) (f : Fn) (w : Nat) : Dev := d.raiseErr 1 0 0x0004 3 w (srcOf (.fnPage f))

/-- Function f reads word w of its own page. -/
def Dev.pageRead (d : Dev) (f : Fn) (w bytes : Nat) : Dev × Nat :=
  if inTable w bytes 0x4000 0x4100 then (d, d.msixRead f.val w bytes)
  else if inTable w bytes 0x6000 0x6004 then (d, (d.fnS f.val).pba / 2 ^ (16 * (w % 4)) % 2 ^ (8 * bytes))
  else match pageLoc f.val w with
    | none => (d.pageUnmapped f w, 0)
    | some l => if l.part = 0 && bytes = 2 * l.reg.words then d.regRead (.fnPage f) l false else (d.misaccess (.fnPage f) (pageOff f.val w) bytes, 0)

/-- Function f writes word w of its own page. -/
def Dev.pageWrite (d : Dev) (f : Fn) (w bytes v : Nat) : Dev :=
  if inTable w bytes 0x4000 0x4100 then d.msixWrite f.val w bytes v
  else if inTable w bytes 0x6000 0x6004 then d
  else match pageLoc f.val w with
    | none => d.pageUnmapped f w
    | some l =>
      if l.part = 0 && bytes = 2 * l.reg.words then d.regWrite io (.fnPage f) l (v % 2 ^ (8 * bytes))
      else d.misaccess (.fnPage f) (pageOff f.val w) bytes

/-- A host access to function f's BAR0 reaches the Vezan: the function exists, the link is up and Memory Space Enable is set. -/
def Dev.barOpen (d : Dev) (f : Nat) : Bool := d.cfgOpen && d.fnOn f && d.mseOn f

/-- During ROM recovery BAR0 maps the BOOT block only (R333), in emulated Hush DBG, TRC and CNT only (R375). -/
def Dev.barMaps (d : Dev) (off : Nat) : Bool :=
  if d.get BOOT_STATUS_STAGE = 14 then decide (0x30500 ≤ off) && decide (off < 0x30600)
  else if d.pwr.emul && d.get PWR_STATUS_STATE != 0 then decide (off < 0x100000) && (blockAt off == 0x13 || blockAt off == 0x14 || blockAt off == 0x15)
  else true

/-- A host read of PF BAR0 at a word offset. -/
def Dev.bar0Read (d : Dev) (off bytes : Nat) : Dev × Nat :=
  if !d.barMaps off then (d, 0)
  else if off < 0x100000 then d.ctlRead .pf off bytes false
  else if 0x780000 ≤ off && off < 0x788000 then d.pageRead 0 (off - 0x780000) bytes
  else (d.raiseErr 1 0 0x0004 3 off (srcOf .pf), 0)

/-- A host write of PF BAR0. -/
def Dev.bar0Write (d : Dev) (off bytes v : Nat) : Dev :=
  if !d.barMaps off then d
  else if off < 0x100000 then d.ctlWrite io .pf off bytes v
  else if 0x780000 ≤ off && off < 0x788000 then d.pageWrite 0 (off - 0x780000) bytes v
  else d.raiseErr 1 0 0x0004 3 off (srcOf .pf)

/-! ### Debug transport 0's path (R358, R359) -/

/-- What Table 16-1 lets transport 0 read, and whether always with PEEK. -/
def Dev.dbg0Reads (d : Dev) (off : Nat) : Bool :=
  decide (1 ≤ d.level 0) || decide (off < 0x20002 ∧ 0x20000 ≤ off) ||
    ((locate off).any (fun l => l.reg.name.banked))

/-- What it lets transport 0 write. -/
def Dev.dbg0Writes (d : Dev) (off : Nat) : Bool :=
  decide (d.level 0 = 2) || (decide (d.level 0 = 1) && (blockAt off == 0x14 || blockAt off == 0x15)) ||
    ((locate off).any (fun l => l.reg.name.banked))

/-- ERR of DBGDR. -/
def Dev.dbgErr (d : Dev) (e : Bool) : Dev := { d with dbg := { d.dbg with derr := e } }

/-- A read by transport 0. -/
def Dev.dbg0Read (d : Dev) (off bytes : Nat) (peek : Bool) : Dev × Nat :=
  if d.asleep || d.pwr.tripped || d.boot.held then (d.dbgErr true, 0)
  else if !d.dbg0Reads off then (d.dbgErr true, 0)
  else d.ctlRead .dbg0 off bytes (peek || d.level 0 == 1)

/-- A write by transport 0; a write never carries PEEK (R363). -/
def Dev.dbg0Write (d : Dev) (off bytes v : Nat) (peek : Bool) : Dev :=
  if d.asleep || d.pwr.tripped || d.boot.held || peek || !d.dbg0Writes off then d.dbgErr true else d.ctlWrite io .dbg0 off bytes v

/-! ### Commands -/

/-- Return a read's data to its requester. -/
def Dev.returned (x : Dev × Nat) (off : Nat) : Dev := x.1.emit (.readData off x.2)

/-- An access through a BAR that is not open completes with Unsupported Request, which AER logs (R192, R194). -/
def Dev.barClosed (d : Dev) (f : Nat) (read : Bool) : Dev :=
  if d.cfgOpen then (d.emit (.hostError f .ur)).aerRefused (if d.fnOn f then f else 0) .unsupported read else d.emit (.hostError f .ur)

/-- The requests of a function in FLR find nothing there (Table 8-10). -/
def Dev.inFlr (d : Dev) (f : Nat) : Bool := d.get (HIF_FN_STATUS_STATE f) == 2

/-- A register read by any requester (R5, R8, R363, R389): the data is returned; only the debug transports carry PEEK. -/
def Dev.accessRead (d : Dev) (r : Requester) (off bytes : Nat) (peek : Bool) : Dev :=
  match r with
  | .pf =>
    if !d.barOpen 0 then d.barClosed 0 true
    else if d.inFlr 0 then Dev.returned (d, 0) off
    else Dev.returned (d.bar0Read off bytes) off
  | .fnPage f =>
    if !d.barOpen f.val then d.barClosed f.val true
    else if d.inFlr f.val then Dev.returned (d, 0) off
    else if f = 0 && !d.barMaps (0x780000 + off) then Dev.returned (d, 0) off
    else Dev.returned (d.pageRead f off bytes) off
  | .dbg0 => Dev.returned (d.dbg0Read off bytes peek) off
  | .accEngine t => Dev.returned (d.ctlRead (.accEngine t) off bytes peek) off
  | _ => Dev.returned (d.ctlRead r off bytes false) off

/-- A register write by any requester. -/
def Dev.accessWrite (d : Dev) (r : Requester) (off bytes v : Nat) : Dev :=
  match r with
  | .pf => if !d.barOpen 0 then d.barClosed 0 false else if d.inFlr 0 then d else d.bar0Write off bytes v
  | .fnPage f =>
    if !d.barOpen f.val then d.barClosed f.val false
    else if d.inFlr f.val || (f = 0 && !d.barMaps (0x780000 + off)) then d
    else d.pageWrite f off bytes v
  | .dbg0 => d.dbg0Write off bytes v false
  | _ => d.ctlWrite io r off bytes v

/-- A block's lock (Table 17-1): 0 BSK, 1 HOOP, 2 LDG, 3 RIM, 4 HIF, 5 MEM, 6 TB, 7 PWR. -/
def lockOff (k : Nat) : Nat := [0x2C000, 0x2D000, 0x2F800, 0x2F400, 0x0, 0x2B000, 0x2E800, 0x30300].getD k 0

/-- BLOCK_LOCK_SET: a requester writes 1 to a block's LOCK. -/
def Dev.blockLock (d : Dev) (r : Requester) (k : Nat) : Dev := d.accessWrite r (lockOff k) 4 1

/-- Update-DR of DBGDR (R358): OFFSET, WRITE, PEEK and DATA of one 32-bit access, discarded with ERR while the one before it is not done. -/
def Dev.dbgdr (d : Dev) (off data : Nat) (write peek : Bool) : Dev :=
  if d.dbg.ir ≠ 0x10 then d
  else if !d.dbg.done then d.dbgErr true
  else
    let d := d.dbgErr false
    if write then d.dbg0Write off 4 data peek
    else
      let (d, v) := d.dbg0Read off 4 peek
      { d with dbg := { d.dbg with ddata := v } }

/-! ### PF BAR2 (R186, R333) -/

/-- The 64 bytes of the recovery mailbox (Table 14-7). -/
def Mbox.bytes (m : Mbox) : List Byte :=
  leBytes 4 0x59564352 ++ leBytes 1 m.st ++ leBytes 1 m.reason ++ leBytes 1 m.level ++ leBytes 1 m.need ++ leBytes 4 m.len ++
    leBytes 1 m.kind ++ leBytes 1 m.op ++ leBytes 1 m.slot ++ leBytes 1 m.go ++ List.replicate 48 0

/-- The host writes byte k of the mailbox: bytes 8 to 15 are its own. -/
def Mbox.put (m : Mbox) (k v : Nat) : Mbox :=
  if 8 ≤ k && k < 12 then
    let s := 8 * (k - 8)
    { m with len := m.len % 2 ^ s + v * 2 ^ s + m.len / 2 ^ (s + 8) * 2 ^ (s + 8) }
  else match k with
    | 12 => { m with kind := v }
    | 13 => { m with op := v }
    | 14 => { m with slot := v }
    | 15 => { m with go := v }
    | _ => m

/-- A byte of BAR2 as recovery maps it: the staging area of the stage's size, and the mailbox. -/
def Dev.stageSize (d : Dev) : Nat := if d.get BOOT_STATUS_STAGE = 14 then 0x60000 else 0x8000000

def Dev.recByte (d : Dev) (a : Nat) : Byte :=
  if a < d.stageSize then
    match d.stagBase with
    | some b => (d.bytesAt (b + a) 1).getD 0 0
    | none => Tab.get 0 d.boot.stag a
  else if 0xFFFF000 ≤ a && a < 0xFFFF040 then d.boot.mbox.bytes.getD (a - 0xFFFF000) 0
  else 0

def Dev.recPut (d : Dev) (a : Nat) (b : Byte) : Dev :=
  if a < d.stageSize then
    match d.stagBase with
    | some x => Dev.writeBytes 1 d (x + a) [b] 0
    | none => { d with boot := { d.boot with stag := Tab.set 0 d.boot.stag a b } }
  else if 0xFFFF000 ≤ a && a < 0xFFFF040 then { d with boot := { d.boot with mbox := d.boot.mbox.put (a - 0xFFFF000) b.toNat } }
  else d

/-- Write bytes from byte a on with a byte write. -/
def putBytes (f : Dev → Nat → Byte → Dev) : List Byte → Dev → Nat → Dev
  | [], d, _ => d
  | b :: bs, d, a => putBytes f bs (f d a b) (a + 1)

/-- A BAR2 access of n bytes at byte a during recovery; a write of GO has the staged image checked (R333). -/
def Dev.recAccess (d : Dev) (a n : Nat) (wr : Option (List Byte)) : Dev :=
  match wr with
  | none => d.emit (.readData a (leNat ((List.range n).map (fun i => d.recByte (a + i)))))
  | some bs =>
    let d := putBytes Dev.recPut bs d a
    if a ≤ 0xFFFF00F && 0xFFFF00F < a + bs.length then d.recoveryGo else d

/-- BAR2_ACCESS: n bytes at byte offset a of PF BAR2, a read or a write of given bytes. -/
def Dev.bar2Access (d : Dev) (a n : Nat) (wr : Option (List Byte)) (env : DramEnvs) : Dev :=
  let st := d.get BOOT_STATUS_STAGE
  let n := (wr.map List.length).getD n
  if !d.barOpen 0 then d.barClosed 0 wr.isNone
  else if d.inFlr 0 then (if wr.isSome then d else d.emit (.readData a 0))
  else if st = 14 || st = 15 then d.recAccess a n wr
  else if d.pwr.emul && d.get PWR_STATUS_STATE ≠ 0 || !d.on HIF_CFG_B2EN then
    (if wr.isSome then d else d.emit (.readData a 0))
  else
    let byte := 2 * d.get HIF_BAR2_BASE_ADDR + a
    let pa := byte / 2
    let words := (byte + n + 1) / 2 - pa
    if !d.memOk .bar2 pa words wr.isSome then
      (fun x : Dev => (if wr.isSome then x else x.emit (.hostError 0 .ca)).aerRefused 0 .compAbort wr.isNone) (d.memRefuse .bar2 pa words wr.isSome)
    else match wr with
      | some bs => Dev.writeBytes (bs.length / 64 + 2) d byte bs 0
      | none =>
        let (d, bad) := Dev.readLines env 0x65 ((byte + n + 63) / 64 - byte / 64) d (byte / 64)
        if bad then d.emit (.hostError 0 .poison) else d.emit (.readData a (leNat (d.bytesAt byte n)))

/-! ### The parts of a core's work that reach control space -/

/-- DBG_ACC_READ and DBG_ACC_WRITE by transport t. -/
def Dev.accCommand (d : Dev) (t : Fin 2) (op size : Nat) (peek : Bool) (env : DramEnv) : Dev :=
  if t = 0 then d.accRun io .dbg0 0 op size peek env else d.accRun io .pf 1 op size peek env

/-- A pair read on a 32-bit path: the handle core's, or transport 0's (R309). -/
def Dev.pairRead (d : Dev) (h : Bool) (off : Nat) (peek : Bool) : Dev :=
  Dev.returned (if h then d.ctlRead .handle off 4 false else d.dbg0Read off 4 peek) off

/-- A pair write on a 32-bit path (R310). -/
def Dev.pairWrite (d : Dev) (h : Bool) (off v : Nat) : Dev := if h then d.ctlWrite io .handle off 4 v else d.dbg0Write off 4 v false

/-- FP_TXTS_INFO_READ: the oldest FIFO entry moves into the latch unless the read carries PEEK, and the latch is returned (R81). -/
def Dev.txtsRead (d : Dev) (p : Nat) (peek : Bool) : Dev :=
  let d := if peek then d else d.txtsMove p
  Dev.returned (d, d.txtsInfo p) (fpOff p 0x20)

/-- UNCORRECTABLE_CODEWORD on a link of the field ports or of the rim. -/
def Dev.codeword (d : Dev) (x : LinkId) (loss : StageO) : Dev :=
  match x with
  | .field p l => d.fpCodeword p.val l.val loss
  | .rim i => d.rimCodeword i.val loss

/-- ORD_CFG_WRITE with the ranges that its fields allow (R9). -/
def Dev.ordCfgCmd (d : Dev) (lead ack refresh : Nat) : Dev :=
  if lead < 100 || 900 < lead || 2 < ack || refresh < 10 || 1000 < refresh then d.errReserved 0xA 0 0x30100
  else d.ordCfgWrite lead ack refresh

/-- RING_ENABLE and RING_DISABLE: function f changes one EN bit of its own page (R209). -/
def Dev.ringSet (d : Dev) (f k : Nat) (b : Bool) : Dev :=
  if !d.barOpen f then d.barClosed f false
  else if d.inFlr f then d
  else if b then d.ringEnable f k 0x65 else d.ringOff f k

/-- REGULATOR_VALID_WRITE: an entry of PWR_REG, with what the regulator's VOUT_MODE reads (R342). -/
def Dev.regulatorWrite (d : Dev) (i v voutMode : Nat) : Dev :=
  if d.on PWR_LOCK_LOCK then d
  else if bits v 31 24 = 0 || bits v 39 32 = 0 then d.errReserved 0x12 0 (0x30340 + 4 * i)
  else d.regWrite64 i v voutMode

end Sys2Proof.Machine
end

