-- ==== Sys2Proof/Machine/Settle.lean ====
section
/-!
DEFINITION. What every command ends with: the status fields that report a queue's, a buffer's or a table's fill are brought up to date,
and memory keeps its canonical form. And when the device acts on a command at all: RESET_N, a thermal trip, Hush.
-/
namespace Sys2Proof.Machine

/-- A port's MLP receive buffer as FP_STATUS reports it (R72): LEVEL in KiB, HIWAT at or above high water. -/
def Dev.fpFill (d : Dev) (p : Nat) : Dev :=
  let n := (d.fport p).occ
  (d.put (FP_STATUS_LEVEL p) (n / 1024)).putB (FP_STATUS_HIWAT p) (decide (d.get (FP_BUF_HIWAT p) * 65536 ≤ n))

/-- A function's outstanding reads and kept entries as HIF_FN_STATUS reports them. -/
def Dev.fnFill (d : Dev) (f : Nat) : Dev :=
  (d.put (HIF_FN_STATUS_READS f) (d.fnS f).reads.length).put (HIF_FN_STATUS_KEPT f) (d.fnS f).kept.length

/-- The status fields that report a fill. -/
def Dev.fills (d : Dev) : Dev :=
  let d := (forN 64 (fun f d => d.fnFill f) (forN 4 (fun p d => d.fpFill p) d)).migPhase
  let d := (d.put BSK_FREE_CELLS d.freeCells).put RIM_CTAB_USED d.ord.remote.length
  (d.put ERR_STATUS_USED d.err.log.length).put TRC_STATUS_FILL (d.trc.fill / 4096)

/-- The register file and the byte memories in canonical form: keys rising, and in DRAM, the flash, the recovery staging area and the
trace buffer no byte listed that reads as an unlisted one. -/
def Dev.tidy (d : Dev) : Dev :=
  { d with
    regs := Tab.tidy d.regs
    mem := { d.mem with dram := Tab.canon 0 d.mem.dram }
    boot := { d.boot with flash := Tab.canon 0xFF d.boot.flash, stag := Tab.canon 0 d.boot.stag }
    trc := { d.trc with buf := Tab.canon 0 d.trc.buf } }

/-- What every command ends with. -/
def Dev.settle (d : Dev) : Dev := d.fills.tidy

/-- The canonical form of DRAM. -/
def Memory.wf (m : List Host.Cell) : Bool := Tab.wf 0 m

/-- The always-on domain runs: RESET_N is high. -/
def Dev.onAir (d : Dev) : Bool := !d.boot.held

/-- The device runs: RESET_N is high, no thermal trip has powered it down (R347), and it does not sleep in Hush (R350). -/
def Dev.awake (d : Dev) : Bool := !d.boot.held && !d.pwr.tripped && !(d.get PWR_STATUS_STATE == 2 && !d.pwr.emul)

/-- The effect of a command on the block. -/
def State.act (s : State) (d : Dev) : Host.Outcome State Fault Refusal := .next { s with dev := d.settle }

/-- A command of the core domain: while the device does not run, it does nothing. -/
def State.run (s : State) (f : Dev → Dev) : Host.Outcome State Fault Refusal := if s.dev.awake then s.act (f s.dev) else .next s

/-- A command of the always-on domain. -/
def State.runAon (s : State) (f : Dev → Dev) : Host.Outcome State Fault Refusal := if s.dev.onAir then s.act (f s.dev) else .next s

/-- A command that acts even while RESET_N is low. -/
def State.runAll (s : State) (f : Dev → Dev) : Host.Outcome State Fault Refusal := s.act (f s.dev)

end Sys2Proof.Machine
end

