-- ==== Sys2Proof/Machine/ExecAccess.lean ====
section
/-!
DEFINITION. The meanings of the commands of chapter 0, 13 and 17: register accesses, locks, resets of the device.
-/
namespace Sys2Proof.Machine

/-- REGISTER_WRITE (R6). A write to a control-space or function-page register that has no row of its own sets its fields as their types state. -/
def execRegisterWrite (r : Requester) (off : BitVec 23) (bytes : Fin 16) (v : BitVec 64) (s : State) : Host.Outcome State Fault Refusal :=
  s.run (fun d => d.accessWrite r off.toNat bytes.val v.toNat)

/-- RC_FIELD_READ (R8). A read without PEEK of a register holding RC fields returns them and clears them to 0. -/
def execRcFieldRead (r : Requester) (off : BitVec 23) (bytes : Fin 16) (peek : Bool) (s : State) : Host.Outcome State Fault Refusal :=
  s.run (fun d => d.accessRead r off.toNat bytes.val peek)

/-- SPLIT_LOW_PAIR_READ (R309). A 32-bit requester reads the low pair of a 64-bit register, which latches the high half of the same instant. -/
def execSplitLowPairRead (h : Bool) (off : BitVec 20) (peek : Bool) (s : State) : Host.Outcome State Fault Refusal :=
  s.run (fun d => d.pairRead h off.toNat peek)

/-- SPLIT_LOW_PAIR_WRITE (R310). A 32-bit requester writes the low pair of a 64-bit register into its write latch. -/
def execSplitLowPairWrite (h : Bool) (off : BitVec 20) (v : BitVec 32) (s : State) : Host.Outcome State Fault Refusal :=
  s.run (fun d => d.pairWrite h off.toNat v.toNat)

/-- SPLIT_HIGH_PAIR_WRITE (R310). A high-pair write commits the latched quad in one control cycle, or is refused when no low pair is held. -/
def execSplitHighPairWrite (h : Bool) (off : BitVec 20) (v : BitVec 32) (s : State) : Host.Outcome State Fault Refusal :=
  s.run (fun d => d.pairWrite h (off.toNat + 2) v.toNat)

/-- BLOCK_LOCK_SET (R7). Writing 1 to a block's LOCK freezes its RWL fields until device reset and activates any protected region the block
defines. -/
def execBlockLockSet (r : Requester) (k : Fin 8) (s : State) : Host.Outcome State Fault Refusal := s.run (fun d => d.blockLock r k.val)

/-- POWER_ON_RESET (R402). Power applied, a rail below its reset level or RESET_N low for 1 µs resets everything, the sticky log included. -/
def execPowerOnReset (s : State) : Host.Outcome State Fault Refusal := s.runAll (fun d => d.powerOn)

/-- RESET_RELEASE (R402). RESET_N is released after the rails and reference are good, starting the boot ROM. -/
def execResetRelease (s : State) : Host.Outcome State Fault Refusal := s.runAll (fun d => d.resetRelease)

/-- DEVICE_WARM_RESET (R23). A device warm reset resets everything except fuses and the sticky log and restarts boot. -/
def execDeviceWarmReset (s : State) : Host.Outcome State Fault Refusal := s.runAon (fun d => d.warmReset 7)

/-- HOST_INTERFACE_RESET (R201). PERST#, a hot reset or DL_Down resets the host interface and every function's rings and begins island
operation. -/
def execHostInterfaceReset (cause : Fin 3) (s : State) : Host.Outcome State Fault Refusal := s.run (fun d => d.hostResetD cause.val)

/-- SLOT_BOUNDARY (R308). A tick that passes a multiple of 1,000,000 above TB_HWM produces one slot boundary for the largest such multiple. -/
def execSlotBoundary (s : State) : Host.Outcome State Fault Refusal := s.runAon (fun d => d.slotBoundary)

/-- MANAGEMENT_TICK (R308). A tick that passes a multiple of 40,000,000 above TB_HWM produces one management-tick boundary and its periodic
work. -/
def execManagementTick (s : State) : Host.Outcome State Fault Refusal := s.runAon (fun d => d.managementTick)

end Sys2Proof.Machine
end

