-- ==== Sys2Proof/Machine/ExecBasket.lean ====
section
/-!
DEFINITION. The meanings of the commands of chapter 4: the Basket and the weave.
-/
namespace Sys2Proof.Machine

/-- BSK_ENQUEUE (R94). An entry commits at a queue's ingress and is placed on die, in TAIL, held, or refused, discarding old entries as policy
allows. -/
def execBskEnqueue (q : QNum) (ws : List Word) (s : State) : Host.Outcome State Fault Refusal := s.run (fun d => d.enqueueCmd q.toNat ws)

/-- HELD_RETRY (R99). A held producer retries the entry no sooner than 64 weave cycles later. -/
def execHeldRetry (q : QNum) (s : State) : Host.Outcome State Fault Refusal := s.run (fun d => d.heldRetry q.toNat)

/-- BSK_DEQUEUE (R98). A consumer dequeues the oldest whole entry of a queue, or receives empty or empty for now. -/
def execBskDequeue (q : QNum) (env : CellEnv) (s : State) : Host.Outcome State Fault Refusal := s.run (fun d => d.dequeueCmd q.toNat env)

/-- SPILL (R95). A full 16-cell block of TAIL is written to LOW in the lower tier. -/
def execSpill (q : QNum) (s : State) : Host.Outcome State Fault Refusal := s.run (fun d => d.spillCmd q.toNat)

/-- SPILL_WRITE_COMPLETE (R94). A spill block's write to the lower tier completes and its cells are freed. -/
def execSpillWriteComplete (q : QNum) (s : State) : Host.Outcome State Fault Refusal := s.run (fun d => d.spillDone q.toNat)

/-- REFILL (R95). LOW's oldest block is requested into HEAD when HEAD has room. -/
def execRefill (q : QNum) (s : State) : Host.Outcome State Fault Refusal := s.run (fun d => d.refillCmd q.toNat)

/-- REFILL_ARRIVE (R97). A refill block arrives in HEAD, or loses entries whose boundaries are uncorrectable. -/
def execRefillArrive (q : QNum) (env : DramEnv) (bounds : Bool) (s : State) : Host.Outcome State Fault Refusal :=
  s.run (fun d => d.refillDone q.toNat env bounds)

/-- JOIN (R95). With LOW empty and nothing in flight, TAIL is relinked to HEAD and the queue returns to on die. -/
def execJoin (q : QNum) (s : State) : Host.Outcome State Fault Refusal := s.run (fun d => d.joinQueue q.toNat)

/-- BSK_SCRUB_READ (R108). The scrubber reads and corrects the next cell in its pass. -/
def execBskScrubRead (q : QNum) (env : CellEnv) (s : State) : Host.Outcome State Fault Refusal := s.run (fun d => d.bskScrub q.toNat env)

/-- BSK_Q_READ (R110). BSK_Q_CMD READ loads the selected queue's configuration and state. -/
def execBskQRead (s : State) : Host.Outcome State Fault Refusal := s.run (fun d => d.qRead)

/-- BSK_Q_WRITE (R96). BSK_Q_CMD WRITE configures the selected queue, refused for HOLD on shared queues, small ODQ with LTQ, or owner changes. -/
def execBskQWrite (s : State) : Host.Outcome State Fault Refusal := s.run (fun d => d.qWrite)

/-- FLUSH (R105). BSK_Q_CMD FLUSH discards every entry of the queue once blocks in flight complete. -/
def execFlush (s : State) : Host.Outcome State Fault Refusal := s.run (fun d => d.qFlush)

/-- FLUSH_COMPLETE (R105). A FLUSH waiting on a spill or refill block discards the entries and clears BUSY. -/
def execFlushComplete (s : State) : Host.Outcome State Fault Refusal := s.run (fun d => d.flushDone)

/-- COUNTS (R110). BSK_Q_CMD COUNTS loads the selected queue's counts into BSK_Q_CNT. -/
def execCounts (s : State) : Host.Outcome State Fault Refusal := s.run (fun d => d.qCounts)

/-- COUNTS_AND_CLEAR (R110). BSK_Q_CMD COUNTS and clear loads the queue's counts and clears them. -/
def execCountsAndClear (s : State) : Host.Outcome State Fault Refusal := s.run (fun d => d.qCountsClear)

/-- BSK_SHARDQ_READ (R90). BSK_SHARDQ READ loads a shard's map entry. -/
def execBskShardqRead (sh : Shard) (s : State) : Host.Outcome State Fault Refusal := s.run (fun d => d.shardqRead sh.toNat)

/-- BSK_SHARDQ_WRITE (R90). BSK_SHARDQ WRITE maps a shard to a lantern queue for every later admission. -/
def execBskShardqWrite (r : Requester) (sh : Shard) (q : QNum) (valid : Bool) (s : State) : Host.Outcome State Fault Refusal :=
  s.run (fun d => d.shardqWrite r sh.toNat q.toNat valid)

/-- ENQ (R109). A stake core's queue-access port enqueues an entry from memory to a queue. -/
def execEnq (c : Core) (q : QNum) (len : BitVec 12) (s : State) : Host.Outcome State Fault Refusal :=
  s.run (fun d => d.qaCommand c.val 1 q.toNat len.toNat)

/-- DEQ (R109). A stake core's queue-access port dequeues an entry into memory, up to LEN words. -/
def execDeq (c : Core) (q : QNum) (len : BitVec 12) (s : State) : Host.Outcome State Fault Refusal :=
  s.run (fun d => d.qaCommand c.val 2 q.toNat len.toNat)

/-- QUEUE_ACCESS_COMPLETE (R109). A queue-access command's result becomes final, BUSY clears and interrupt source 56 is raised. -/
def execQueueAccessComplete (c : Core) (cell : CellEnv) (env : DramEnvs) (s : State) : Host.Outcome State Fault Refusal :=
  s.run (fun d => d.qaDone c.val cell env)

/-- WEAVE_REQUEST_TIMEOUT (R104). A request unanswered for 2^WV_TIMEOUT.EXP weave cycles receives an absent response. -/
def execWeaveRequestTimeout (w : WeaveWaiter) (s : State) : Host.Outcome State Fault Refusal := s.run (fun d => d.weaveTimeout w)

end Sys2Proof.Machine
end

