-- ==== Sys2Proof/Machine/ExecBooting.lean ====
section
/-!
DEFINITION. The meanings of the commands of chapter 14: boot, images, recovery.
-/
namespace Sys2Proof.Machine

/-- BOOT_ROM_STAGE (R327). Boot stage 0 senses fuses, reads the boot record and checks handle firmware. -/
def execBootRomStage (flashOk : Bool) (s : State) : Host.Outcome State Fault Refusal := s.run (fun d => d.bootRom flashOk)

/-- BOOT_HANDLE_STAGE (R327). Boot stage 1 checks and loads the SerDes calibration image. -/
def execBootHandleStage (flashOk : Bool) (s : State) : Host.Outcome State Fault Refusal := s.run (fun d => d.bootHandle flashOk)

/-- BOOT_HOST_STAGE (R327). Boot stage 2 answers configuration and trains and initialises DRAM. -/
def execBootHostStage (dpc : BitVec 2) (rate : BitVec 2) (failch : BitVec 8) (step : BitVec 3) (s : State) : Host.Outcome State Fault Refusal :=
  s.run (fun d => d.bootHost dpc.toNat rate.toNat failch.toNat step.toNat)

/-- BOOT_DRAM_STAGE (R327). Boot stage 3 activates boot regions, selects the stock program and places hoops in service. -/
def execBootDramStage (flashOk : Bool) (s : State) : Host.Outcome State Fault Refusal := s.run (fun d => d.bootDram flashOk)

/-- BOOT_HOOPS_STAGE (R327). Boot stage 4 selects the stake loader and sets STK_RVEC[0]. -/
def execBootHoopsStage (flashOk : Bool) (s : State) : Host.Outcome State Fault Refusal := s.run (fun d => d.bootHoops flashOk)

/-- BOOT_RUN_STAGE (R327). Boot stage 5 starts stake core 0, opens trials and raises event 0x1401. -/
def execBootRunStage (s : State) : Host.Outcome State Fault Refusal := s.run (fun d => d.bootRun io)

/-- RECOVERY_GO (R333). The host sets GO in the recovery mailbox and the staged image is checked and acted on. -/
def execRecoveryGo (s : State) : Host.Outcome State Fault Refusal := s.run (fun d => d.recoveryGo)

/-- BOOT_CONFIRM (R330). A BOOT_CONFIRM write closes the trial of the loader or stock program. -/
def execBootConfirm (r : Requester) (kind : BitVec 3) (key : BitVec 16) (s : State) : Host.Outcome State Fault Refusal :=
  s.run (fun d => d.bootConfirm r kind.toNat key.toNat)

/-- FLASH_WRITE (R334). BOOT_IMG_CMD FLASH_WRITE checks and programs an image slot. -/
def execFlashWrite (s : State) : Host.Outcome State Fault Refusal := s.run (fun d => d.imgCommand 1)

/-- ACTIVATE (R334). BOOT_IMG_CMD ACTIVATE checks the inactive privileged slot and makes it active at next boot. -/
def execActivate (s : State) : Host.Outcome State Fault Refusal := s.run (fun d => d.imgCommand 2)

/-- STAGE_TENANT (R334). BOOT_IMG_CMD STAGE_TENANT checks and installs a tenant image on trial. -/
def execStageTenant (s : State) : Host.Outcome State Fault Refusal := s.run (fun d => d.imgCommand 3)

/-- CONFIRM_TENANT (R334). BOOT_IMG_CMD CONFIRM_TENANT closes a tenant trial on a matching hash prefix. -/
def execConfirmTenant (s : State) : Host.Outcome State Fault Refusal := s.run (fun d => d.imgCommand 4)

/-- REMOVE_TENANT (R334). BOOT_IMG_CMD REMOVE_TENANT empties a function's partition. -/
def execRemoveTenant (s : State) : Host.Outcome State Fault Refusal := s.run (fun d => d.imgCommand 5)

/-- BOOT_IMG_COMPLETE (R337). An image operation ends, BUSY clears and event 0x1407 is raised. -/
def execBootImgComplete (flashOk : Bool) (s : State) : Host.Outcome State Fault Refusal := s.run (fun d => d.imgComplete flashOk)

/-- EXTEND (R337). BOOT_MEAS_CMD EXTEND extends MR8 to MR15 with BOOT_MEAS_DATA. -/
def execMeasExtend (r : Requester) (ix : BitVec 4) (s : State) : Host.Outcome State Fault Refusal := s.run (fun d => d.extendCmd r ix.toNat)

end Sys2Proof.Machine
end

