-- ==== Sys2Proof/Machine/ExecCores.lean ====
section
/-!
DEFINITION. The meanings of the commands of chapters 11 and 12: stake cores, clusters, DRAM.
-/
namespace Sys2Proof.Machine

/-- INTERRUPT_TAKE (R262). A pending enabled interrupt is taken at an instruction boundary into level 1. -/
def execInterruptTake (c : Core) (s : State) : Host.Outcome State Fault Refusal := s.run (fun d => d.interruptTake io c)

/-- FP_TRAP_TAKE (R268). A pending imprecise FP trap is taken at a barrier or within 256 instructions. -/
def execFpTrapTake (c : Core) (s : State) : Host.Outcome State Fault Refusal := s.run (fun d => d.fpTrapTake io c)

/-- MACHINE_CHECK_TAKE (R295). A pending machine check is taken at a boundary. -/
def execMachineCheckTake (c : Core) (s : State) : Host.Outcome State Fault Refusal := s.run (fun d => d.machineCheckTake io c)

/-- LOST_STORE (R295). A store receiving absent or an error response is dropped, recorded and a machine check set pending. -/
def execLostStore (c : Core) (combining : Bool) (ix : BitVec 8) (s : State) : Host.Outcome State Fault Refusal :=
  s.run (fun d => d.lostStore c combining ix.toNat)

/-- HOLD_WINDOW_EXPIRE (R267). HOLDREM reaches 0, the window ends and held requests may be taken. -/
def execHoldWindowExpire (c : Core) (s : State) : Host.Outcome State Fault Refusal := s.run (fun d => d.holdExpire c)

/-- CORE_RESET (R265). A core resets, filling its reset record, raising event 0x1101 and invalidating its caches. -/
def execCoreReset (c : Core) (s : State) : Host.Outcome State Fault Refusal := s.run (fun d => d.resetEnd c.val)

/-- CORE_AUTO_START (R265). With AUTO, a core starts itself 10 µs after its reset completes. -/
def execCoreAutoStart (c : Core) (s : State) : Host.Outcome State Fault Refusal := s.run (fun d => d.coreAuto io c)

/-- RESET (R265). STK_CORE_CTL RESET resets a stake core. -/
def execStakeReset (c : Core) (s : State) : Host.Outcome State Fault Refusal := s.run (fun d => d.coreReset c)

/-- START (R266). STK_CORE_CTL START begins a core in reset at STK_RVEC. -/
def execStakeStart (r : Requester) (c : Core) (s : State) : Host.Outcome State Fault Refusal := s.run (fun d => d.coreStart io r c)

/-- CLUSTER_OUT (R271). STK_CLU_SVC OUT resets every core, writes back the L2 and removes the cluster from coherence. -/
def execClusterOut (k : Cluster) (s : State) : Host.Outcome State Fault Refusal := s.run (fun d => d.cluOut k.val)

/-- CLUSTER_IN (R271). STK_CLU_SVC IN powers the cluster and places it in service. -/
def execClusterIn (k : Cluster) (s : State) : Host.Outcome State Fault Refusal := s.run (fun d => d.cluInV k.val)

/-- CLUSTER_PARK (R271). STK_CLU_SVC PARK parks an out-of-service cluster with retention. -/
def execClusterPark (r : Requester) (k : Cluster) (s : State) : Host.Outcome State Fault Refusal := s.run (fun d => d.cluParkT r k.val)

/-- STK_SWI_WRITE (R269). A write to STK_SWI sets software interrupt IPEND bits of a core. -/
def execStkSwiWrite (c : Core) (v : BitVec 8) (s : State) : Host.Outcome State Fault Refusal := s.run (fun d => d.swiWrite c v.toNat)

/-- TRAIN (R297). MEM_INIT TRAIN trains DRAM on all channels. -/
def execTrain (s : State) : Host.Outcome State Fault Refusal := s.run (fun d => d.train)

/-- TRAIN_COMPLETE (R297). DRAM training ends with TRAINED set or fails with event 0x1205. -/
def execTrainComplete (failch : BitVec 8) (step : BitVec 3) (s : State) : Host.Outcome State Fault Refusal :=
  s.run (fun d => d.trainDone failch.toNat step.toNat)

/-- ECC_INIT (R297). MEM_INIT ECC_INIT zero-fills DRAM. -/
def execEccInit (s : State) : Host.Outcome State Fault Refusal := s.run (fun d => d.eccInit)

/-- ECC_INIT_COMPLETE (R297). The zero fill ends and READY is set. -/
def execEccInitComplete (s : State) : Host.Outcome State Fault Refusal := s.run (fun d => d.eccInitDone)

/-- SCRUB_START (R301). SCR_CMD START begins a scrub pass over a DRAM range after checking operands. -/
def execScrubStart (s : State) : Host.Outcome State Fault Refusal := s.run (fun d => d.scrubStart)

/-- SCRUB_LINE (R301). The scrubber reads, checks and corrects the next line at its rate. -/
def execScrubLine (env : DramEnv) (s : State) : Host.Outcome State Fault Refusal := s.run (fun d => d.scrubLine env)

/-- ABORT (R301). SCR_CMD ABORT stops the pass after the current line. -/
def execAbort (s : State) : Host.Outcome State Fault Refusal := s.run (fun d => d.scrubAbort)

/-- SCRUB_COMPLETE (R301). A scrub pass ends, writes its summary and raises event 0x1201. -/
def execScrubComplete (s : State) : Host.Outcome State Fault Refusal := s.run (fun d => d.scrubDone)

/-- CLUSTER_OUT_COMPLETE (R271). A cluster's L2 write-back ends and it leaves coherence, out of service with BUSY cleared, within 500 µs of
OUT. -/
def execClusterOutComplete (k : Cluster) (s : State) : Host.Outcome State Fault Refusal := s.run (fun d => d.cluOutDone k.val)

/-- CLUSTER_IN_COMPLETE (R271). A returning cluster, its L2 invalidated, enters service within 200 µs of IN and its cores then start under
AUTO. -/
def execClusterInComplete (k : Cluster) (s : State) : Host.Outcome State Fault Refusal := s.run (fun d => d.cluInDone k.val)

end Sys2Proof.Machine
end

