-- ==== Sys2Proof/Machine/ExecDebugs.lean ====
section
/-!
DEFINITION. The meanings of the commands of chapters 16 and 17: debug, trace, counters, the error log, the 1149.1 port.
-/
namespace Sys2Proof.Machine

/-- REQUEST (R360). DBG_AUTH_CMD REQUEST lowers a level at once or issues a challenge for a higher one. -/
def execAuthRequest (t : Fin 2) (level : BitVec 2) (emu : Bool) (s : State) : Host.Outcome State Fault Refusal :=
  s.run (fun d => d.authRequest t.val level.toNat emu)

/-- RESPOND (R360). DBG_AUTH_CMD RESPOND grants the level on a valid key and signature, or locks out. -/
def execAuthRespond (t : Fin 2) (s : State) : Host.Outcome State Fault Refusal := s.run (fun d => d.authRespond t.val)

/-- DROP (R361). DBG_AUTH_CMD DROP drops a transport's grant to none. -/
def execAuthDrop (t : Fin 2) (s : State) : Host.Outcome State Fault Refusal := s.run (fun d => d.dropGrant t.val)

/-- TEST_LOGIC_RESET (R361). Entry to Test-Logic-Reset drops transport 0's grant and ends board-test instructions. -/
def execTestLogicReset (s : State) : Host.Outcome State Fault Refusal := s.runAll (fun d => d.testLogicReset)

/-- DBGDR_UPDATE (R358). Update-DR of DBGDR starts one 32-bit control-space access. -/
def execDbgdrUpdate (off : BitVec 20) (write : Bool) (peek : Bool) (v : BitVec 32) (s : State) : Host.Outcome State Fault Refusal :=
  s.runAll (fun d => d.dbgdr off.toNat v.toNat write peek)

/-- DBG_ACC_READ (R364). DBG_ACC_CMD read performs one physical read into DBG_ACC_DATA. -/
def execDbgAccRead (t : Fin 2) (size : AccSize) (peek : Bool) (s : State) : Host.Outcome State Fault Refusal :=
  s.run (fun d => d.accCommand t 1 size.size.val peek size.env)

/-- DBG_ACC_WRITE (R364). DBG_ACC_CMD write performs one physical write from DBG_ACC_DATA. -/
def execDbgAccWrite (t : Fin 2) (size : Fin 3) (peek : Bool) (s : State) : Host.Outcome State Fault Refusal :=
  s.run (fun d => d.accCommand t 2 size.val peek [])

/-- HALT (R365). DBG_CORE_CTL HALT requests a stake-core halt, or sets HALTPEND on a core in reset. -/
def execHalt (r : Requester) (c : Fin 49) (s : State) : Host.Outcome State Fault Refusal := s.run (fun d => d.haltCmd r c)

/-- DEBUG_HALT_TAKE (R365). A core takes a halt request at a boundary and enters level 3. -/
def execDebugHaltTake (t : ThreadId) (s : State) : Host.Outcome State Fault Refusal := s.run (fun d => d.debugHaltTake io t)

/-- DEBUG_RESUME (R366). DBG_CORE_CTL RESUME restores the halted core's state and runs it. -/
def execDebugResume (r : Requester) (c : Fin 49) (s : State) : Host.Outcome State Fault Refusal := s.run (fun d => d.resumeCmd r c)

/-- STEP (R366). DBG_CORE_CTL STEP runs one instruction or element and halts again. -/
def execDebugStep (r : Requester) (c : Fin 49) (s : State) : Host.Outcome State Fault Refusal := s.run (fun d => d.stepCmd r c)

/-- EXEC (R367). DBG_CORE_CTL EXEC executes DBG_INSN on a halted core at level 3. -/
def execDebugExec (r : Requester) (c : Fin 49) (env : MemEnv) (s : State) : Host.Outcome State Fault Refusal :=
  s.run (fun d => d.execCmd io r c env)

/-- DBG_REGSEL_READ (R370). DBG_REGSEL READ reads a halted thread's register into DBG_REGDATA. -/
def execDbgRegselRead (r : Requester) (t : DbgTarget) (n : BitVec 11) (s : State) : Host.Outcome State Fault Refusal :=
  s.run (fun d => d.regsel io r t n.toNat false)

/-- DBG_REGSEL_WRITE (R370). DBG_REGSEL WRITE writes DBG_REGDATA into a halted thread's register. -/
def execDbgRegselWrite (r : Requester) (t : DbgTarget) (n : BitVec 11) (s : State) : Host.Outcome State Fault Refusal :=
  s.run (fun d => d.regsel io r t n.toNat true)

/-- ENGINE_HALT (R372). DBG_ENG_CTL HALT stops all contexts of a strand engine. -/
def execEngineHalt (r : Requester) (e : Fin 512) (s : State) : Host.Outcome State Fault Refusal := s.run (fun d => d.engHalt r e.val)

/-- ENGINE_RESUME (R372). DBG_ENG_CTL RESUME resumes a halted strand engine. -/
def execEngineResume (r : Requester) (e : Fin 512) (s : State) : Host.Outcome State Fault Refusal := s.run (fun d => d.engResume r e.val)

/-- ENGINE_STEP (R372). DBG_ENG_CTL STEP executes one instruction of a context. -/
def execEngineStep (r : Requester) (e : Fin 512) (ctx : Fin 4) (s : State) : Host.Outcome State Fault Refusal :=
  s.run (fun d => d.engStep r e.val ctx.val)

/-- DBG_VT_TX_READ (R373). A debugger read of DBG_VT_TX without PEEK clears TXFULL. -/
def execDbgVtTxRead (r : Requester) (c : Core) (peek : Bool) (s : State) : Host.Outcome State Fault Refusal :=
  s.run (fun d => Dev.returned (d.vtTxRead r c.val peek) (0x20F00 + 4 * c.val))

/-- DBG_VT_RX_WRITE (R373). A debugger write to DBG_VT_RX sets RXFULL, or is refused while full. -/
def execDbgVtRxWrite (r : Requester) (c : Core) (v : BitVec 32) (s : State) : Host.Outcome State Fault Refusal :=
  s.run (fun d => d.vtRxWrite r c.val v.toNat)

/-- TRACE_PACKET_ACCEPT (R378). The funnel takes one trace packet per weave cycle or refuses it by priority. -/
def execTracePacketAccept (src : BitVec 7) (vc : Fin 3) (kind : Fin 8) (size : Fin 4) (addr : PAddr) (s : State) : Host.Outcome State Fault Refusal :=
  s.run (fun d => d.traceAccept src.toNat vc.val kind.val size.val addr.toNat)

/-- TRACE_SINK_WRITE (R380). The sink writes a 64 B unit to the buffer or DRAM, wrapping or stopping when full. -/
def execTraceSinkWrite (fail : Bool) (s : State) : Host.Outcome State Fault Refusal := s.run (fun d => d.sinkWrite fail)

/-- TRC_BUFDATA_READ (R380). A read of TRC_BUFDATA without PEEK advances TRC_BUFADDR by 8 B. -/
def execTrcBufdataRead (peek : Bool) (s : State) : Host.Outcome State Fault Refusal :=
  s.run (fun d => Dev.returned (d.bufDataRead peek) 0x2F018)

/-- COUNTER_LATCH (R381). At a period multiple or after SNAP, every counter is latched together. -/
def execCounterLatch (s : State) : Host.Outcome State Fault Refusal := s.run (fun d => d.counterLatch)

/-- SNAP (R381). CNT_CMD SNAP requests a latch at the next tick. -/
def execSnap (r : Requester) (s : State) : Host.Outcome State Fault Refusal := s.run (fun d => d.snap r)

/-- COUNTER_DUMP_COMPLETE (R382). A counter dump finishes writing its slot, or fails with event 0x1604. -/
def execCounterDumpComplete (fail : Bool) (s : State) : Host.Outcome State Fault Refusal := s.run (fun d => d.dumpDone fail)

/-- TAP_INSTRUCTION_LOAD (R403). An IEEE 1149.1 instruction is loaded, replaced by BYPASS if unauthorised, and leaving a board-test
instruction warm-resets the device. -/
def execTapInstructionLoad (code : BitVec 8) (s : State) : Host.Outcome State Fault Refusal := s.runAll (fun d => d.tapLoad code.toNat)

/-- FATAL_RESET (R395). 10 µs after a fatal record enters the log, a device warm reset follows. -/
def execFatalReset (s : State) : Host.Outcome State Fault Refusal := s.runAon (fun d => d.fatalReset)

/-- ERR_RST_DEVICE (R396). ERR_RST OP 1 with the key performs a device warm reset. -/
def execErrRstDevice (r : Requester) (key : BitVec 16) (s : State) : Host.Outcome State Fault Refusal :=
  s.run (fun d => d.rstDevice r key.toNat)

/-- ERR_RST_BLOCK (R396). ERR_RST OP 2 with the key resets one port, hoop, rim link or cluster. -/
def execErrRstBlock (r : Requester) (blk : BitVec 5) (inst : BitVec 5) (key : BitVec 16) (s : State) : Host.Outcome State Fault Refusal :=
  s.run (fun d => d.rstBlk r blk.toNat inst.toNat key.toNat)

/-- CLEAR (R394). ERR_LOG_CMD CLEAR empties the sticky log and LOST. -/
def execLogClear (r : Requester) (s : State) : Host.Outcome State Fault Refusal := s.run (fun d => d.logClear r)

/-- CHALLENGE_EXPIRE (R360). A debug authorisation challenge unanswered for 10 s stops being valid and CHALV clears. -/
def execChallengeExpire (t : Fin 2) (s : State) : Host.Outcome State Fault Refusal := s.run (fun d => d.challengeExpire t.val)

end Sys2Proof.Machine
end

