-- ==== Sys2Proof/Machine/ExecHoops.lean ====
section
/-!
DEFINITION. The meanings of the commands of chapter 5: the hoops and the reflex unit.
-/
namespace Sys2Proof.Machine

/-- HOOP_DISPATCH (R116). A hoop's dispatcher takes one entry round-robin and hands it to a free context, discards it, or forwards a hand-off. -/
def execHoopDispatch (h : Hoop) (s : State) : Host.Outcome State Fault Refusal := s.run (fun d => d.hoopDispatch h.val)

/-- STOCK_PROGRAM_MESSAGE (R118). A context runs the stock program on one admitted message or hand-off entry. -/
def execStockProgramMessage (h : Hoop) (e : Fin 16) (c : Fin 4) (s : State) : Host.Outcome State Fault Refusal :=
  s.run (fun d => d.stockStep h.val e.val c.val)

/-- TRACK_END (R120). A track's last expectation passes ETA plus WIN unmatched and an OD record is written. -/
def execTrackEnd (track : BitVec 48) (s : State) : Host.Outcome State Fault Refusal := s.run (fun d => d.trackEnd track.toNat)

/-- WAVE_SNAPSHOT_TIMEOUT (R122). 60 s after a WAVE snapshot's first part, the incomplete snapshot is written with event 0x0509. -/
def execWaveSnapshotTimeout (lix : Lix) (snap : BitVec 16) (s : State) : Host.Outcome State Fault Refusal :=
  s.run (fun d => d.waveTimeout lix.toNat snap.toNat)

/-- PAIRING_JOB (R123). A context submits a pairing job of a query and up to 16 candidates to its hoop's pairing unit. -/
def execPairingJob (h : Hoop) (e : Fin 16) (c : Fin 4) (s : State) : Host.Outcome State Fault Refusal :=
  s.run (fun d => d.pairSubmit h.val e.val c.val)

/-- PAIRING_RESULT (R124). The pairing unit writes the scores of a job to the context's result words and the context resumes. -/
def execPairingResult (h : Hoop) (s : State) : Host.Outcome State Fault Refusal := s.run (fun d => d.pairResult h.val)

/-- CUSTOMER_INVOCATION (R125). Context 3 runs one queued invocation of a customer program after the stock program completes a declared
message. -/
def execCustomerInvocation (h : Hoop) (e : Fin 16) (cycles : BitVec 16) (s : State) : Host.Outcome State Fault Refusal :=
  s.run (fun d => d.custInvoke h.val e.val cycles.toNat)

/-- INVOCATION_BUDGET_EXPIRE (R126). An invocation running beyond HOOP_CUST.BUDGET hoop cycles is abandoned. -/
def execInvocationBudgetExpire (g : Fin 512) (s : State) : Host.Outcome State Fault Refusal := s.run (fun d => d.invAbandon g.val 3)

/-- OUT_CMD (R126). An invocation's OUT_CMD write commits its output buffer to its function's record or bulk-in queue. -/
def execOutCmd (g : Fin 512) (v : BitVec 32) (s : State) : Host.Outcome State Fault Refusal :=
  s.run (fun d => d.outCmd g.val v.toNat (d.obufWords g.val))

/-- REFLEX_RECORD (R129). The reflex unit computes orders for the neighbours of one DETECT record and emits local and remote entries. -/
def execReflexRecord (s : State) : Host.Outcome State Fault Refusal := s.run (fun d => d.rfxStep)

/-- RFX_TBL_READ (R136). RFX_TBL_CMD READ loads a local index's reflex entry into RFX_ENT. -/
def execRfxTblRead (lix : Lix) (s : State) : Host.Outcome State Fault Refusal := s.run (fun d => d.rfxRead lix.toNat)

/-- RFX_TBL_WRITE (R133). RFX_TBL_CMD WRITE stores RFX_ENT as a reflex entry unless its counts are invalid. -/
def execRfxTblWrite (lix : Lix) (s : State) : Host.Outcome State Fault Refusal := s.run (fun d => d.rfxWrite lix.toNat)

/-- RFX_TBL_CLEAR (R136). RFX_TBL_CMD CLEAR sets VALID of a reflex entry to 0. -/
def execRfxTblClear (lix : Lix) (s : State) : Host.Outcome State Fault Refusal := s.run (fun d => d.rfxClear lix.toNat)

/-- RFX_CRV_READ (R128). RFX_CRV_CMD READ loads a response curve into RFX_CRV. -/
def execRfxCrvRead (c : BitVec 8) (s : State) : Host.Outcome State Fault Refusal := s.run (fun d => d.crvRead c.toNat)

/-- RFX_CRV_WRITE (R128). RFX_CRV_CMD WRITE stores a response curve unless NPTS or T is invalid. -/
def execRfxCrvWrite (c : BitVec 8) (s : State) : Host.Outcome State Fault Refusal := s.run (fun d => d.crvWrite c.toNat)

/-- HOOP_OUT (R134). HOOP_SVC OUT takes a hoop with no shards out of service. -/
def execHoopOut (r : Requester) (h : Hoop) (s : State) : Host.Outcome State Fault Refusal := s.run (fun d => d.hoopOut r h.val)

/-- HOOP_IN (R134). HOOP_SVC IN reloads the instruction store, clears state and returns the hoop to service. -/
def execHoopIn (h : Hoop) (s : State) : Host.Outcome State Fault Refusal := s.run (fun d => d.hoopIn h.val)

/-- HOOP_IN_COMPLETE (R134). A returning hoop enters service within 200 µs and forwards its hand-off queue. -/
def execHoopInComplete (h : Hoop) (s : State) : Host.Outcome State Fault Refusal := s.run (fun d => d.hoopInComplete h.val)

/-- HOOP_PARK (R134). HOOP_SVC PARK parks an out-of-service hoop. -/
def execHoopPark (r : Requester) (h : Hoop) (s : State) : Host.Outcome State Fault Refusal := s.run (fun d => d.hoopParkT r h.val)

/-- HOOP_SHARD_READ (R115). HOOP_SHARD READ loads a shard's hoop and state. -/
def execHoopShardRead (sh : Shard) (s : State) : Host.Outcome State Fault Refusal := s.run (fun d => d.shardRead sh.toNat)

/-- HOOP_SHARD_WRITE (R115). HOOP_SHARD WRITE reassigns a shard whose queue is empty and unheld, or sets REFUSED. -/
def execHoopShardWrite (r : Requester) (sh : Shard) (h : Hoop) (s : State) : Host.Outcome State Fault Refusal :=
  s.run (fun d => d.shardWrite r sh.toNat h.val)

/-- QMOVE (R135). Migration QMOVE moves a lantern queue's shards to DHOOP after its source drains and writes back. -/
def execQmove (s : State) : Host.Outcome State Fault Refusal := s.run (fun d => d.migQmove)

/-- SMOVE (R135). Migration SMOVE remaps one shard to DQUEUE, commits drain markers and moves it once the old queue drains. -/
def execSmove (s : State) : Host.Outcome State Fault Refusal := s.run (fun d => d.migSmove)

/-- QMOVE_FORCED (R135). Forced QMOVE reassigns a queue's shards from an out-of-service hoop at once. -/
def execQmoveForced (s : State) : Host.Outcome State Fault Refusal := s.run (fun d => d.migQforced)

/-- SMOVE_FORCED (R135). Forced SMOVE completes a pending SMOVE at once. -/
def execSmoveForced (s : State) : Host.Outcome State Fault Refusal := s.run (fun d => d.migSforced)

/-- MIGRATION_COMPLETE (R135). A migration finishes its write-back, reassigns the shards and raises event 0x0505. -/
def execMigrationComplete (s : State) : Host.Outcome State Fault Refusal := s.run (fun d => d.migComplete)

/-- MIGRATION_TIMEOUT (R135). A migration not complete within MIGTO ms is undone or left pending with event 0x0506. -/
def execMigrationTimeout (s : State) : Host.Outcome State Fault Refusal := s.run (fun d => d.migTimeout)

end Sys2Proof.Machine
end

