-- ==== Sys2Proof/Machine/ExecHostIf.lean ====
section
/-!
DEFINITION. The meanings of the commands of chapters 8 and 9: host functions, rings and host commands.
-/
namespace Sys2Proof.Machine

/-- VF_ENABLE_WRITE (R185). A configuration write of VF Enable enables VFs or acts as FLR on every VF it disables. -/
def execVfEnableWrite (en : Bool) (mse : Bool) (ari : Bool) (s : State) : Host.Outcome State Fault Refusal :=
  s.run (fun d => d.vfEnable en mse ari)

/-- NUMVFS_WRITE (R185). A configuration write of NumVFs while VF Enable is 0 sets the VF count and raises event 0x0805. -/
def execNumvfsWrite (n : BitVec 16) (s : State) : Host.Outcome State Fault Refusal := s.run (fun d => d.numVfs n.toNat)

/-- INITIATE_FLR (R199). A configuration write initiating FLR stops the function, increments GEN and clears its interrupts and ad hoc orders. -/
def execInitiateFlr (f : Fn) (s : State) : Host.Outcome State Fault Refusal := s.run (fun d => d.flrD f.val)

/-- FLR_READS_ABANDON (R199). Reads of an FLR still outstanding 90 ms after it began are abandoned. -/
def execFlrReadsAbandon (f : Fn) (s : State) : Host.Outcome State Fault Refusal := s.run (fun d => d.flrAbandon f.val)

/-- FLR_COMPLETE (R199). With no read outstanding, the function page and configuration reset, STATE becomes idle and event 0x0802 is raised. -/
def execFlrComplete (f : Fn) (s : State) : Host.Outcome State Fault Refusal := s.run (fun d => d.flrDone f.val)

/-- BUS_MASTER_ENABLE_CHANGE (R194). A change of Bus Master Enable stops or resumes a function's DMA and pending interrupts. -/
def execBusMasterEnableChange (f : Fn) (ctl : HostCtl) (s : State) : Host.Outcome State Fault Refusal :=
  s.run (fun d => d.busMaster f.val ctl)

/-- D3HOT_TRANSITION (R195). A power-state write moves the PF between D0 and D3hot, where functions act as if bus mastering were off. -/
def execD3hotTransition (d3 : Bool) (s : State) : Host.Outcome State Fault Refusal := s.run (fun d => d.d3hot d3)

/-- HOST_LINK_UP (R201). The link is up again after a host-interface reset and event 0x0801 is queued. -/
def execHostLinkUp (speed : BitVec 3) (width : BitVec 4) (s : State) : Host.Outcome State Fault Refusal :=
  s.run (fun d => d.linkUp speed.toNat width.toNat)

/-- LINK_SPEED_CHANGE (R182). The link retrains to another speed or width without DL_Down and raises event 0x0803. -/
def execLinkSpeedChange (speed : BitVec 3) (width : BitVec 4) (s : State) : Host.Outcome State Fault Refusal :=
  s.run (fun d => d.linkSpeed speed.toNat width.toNat)

/-- DMA_READ_COMPLETE (R193). A DMA read's completion arrives and its data is used, or on error the function error bit and event 0x0804 are
raised. -/
def execDmaReadComplete (f : Fn) (n : BitVec 7) (bytes : List Byte) (err : DmaErrO) (s : State) : Host.Outcome State Fault Refusal :=
  s.run (fun d => d.readComplete f.val n.toNat bytes err)

/-- DMA_COMPLETION_TIMEOUT (R193). A DMA read reaches its completion timeout and is treated as failed. -/
def execDmaCompletionTimeout (f : Fn) (n : BitVec 7) (s : State) : Host.Outcome State Fault Refusal :=
  s.run (fun d => d.readComplete f.val n.toNat [] (some .timeout))

/-- DMA_ROUND (R189). The ring engine serves functions' DMA work by deficit round-robin on bytes. -/
def execDmaRound (s : State) : Host.Outcome State Fault Refusal := s.run (fun d => d.dmaRound)

/-- DLL_ACK_RECEIVE (R197). A data-link acknowledgement of a status-record write releases the entries it published. -/
def execDllAckReceive (f : Fn) (s : State) : Host.Outcome State Fault Refusal := s.run (fun d => d.dllAck f.val)

/-- MSIX_SEND (R191). A due interrupt cause past its moderation floor sends its vector's MSI-X message or sets its pending bit. -/
def execMsixSend (f : Fn) (s : State) : Host.Outcome State Fault Refusal := s.run (fun d => (d.moderate f.val).flushPba f.val)

/-- DOORBELL_FETCH (R208). The ring engine issues a read of a function's doorbell record at its polling time or on fetch_now. -/
def execDoorbellFetch (f : Fn) (s : State) : Host.Outcome State Fault Refusal := s.run (fun d => d.doorbellFetch f.val)

/-- DOORBELL_RETURN (R210). The doorbell record returns, host indices are checked and new descriptors are scheduled for reading. -/
def execDoorbellReturn (f : Fn) (bytes : List Byte) (s : State) : Host.Outcome State Fault Refusal :=
  s.run (fun d => d.doorbellReturn f.val bytes)

/-- RING_ENABLE (R209). Setting a RING_CTRL.EN bit enables a ring, zeroes its indices, writes status and fetches the doorbell, or is refused. -/
def execRingEnable (f : Fn) (k : Fin 6) (s : State) : Host.Outcome State Fault Refusal := s.run (fun d => d.ringSet f.val k.val true)

/-- RING_DISABLE (R209). Clearing a RING_CTRL.EN bit stops the ring. -/
def execRingDisable (f : Fn) (k : Fin 6) (s : State) : Host.Outcome State Fault Refusal := s.run (fun d => d.ringSet f.val k.val false)

/-- COMMAND_FETCH (R212). A command descriptor read returns, is tagged with GEN and commits to the function's command queue. -/
def execCommandFetch (f : Fn) (bytes : List Byte) (s : State) : Host.Outcome State Fault Refusal :=
  s.run (fun d => d.commandFetch f.val bytes)

/-- CMD_NOP (R212). Command NOP completes with no effect. -/
def execCmdNop (f : Fn) (s : State) : Host.Outcome State Fault Refusal := s.run (fun d => d.cmdNop f.val)

/-- CMD_TIME (R212). Command TIME returns the time base at execution. -/
def execCmdTime (f : Fn) (s : State) : Host.Outcome State Fault Refusal := s.run (fun d => d.cmdTime f.val)

/-- INV (R212). PF command INV runs an inventory operation and returns the UID's entry. -/
def execCmdInv (f : Fn) (s : State) : Host.Outcome State Fault Refusal := s.run (fun d => d.cmdInv f.val)

/-- KEY (R212). PF command KEY runs a key operation with its blobs and epoch. -/
def execCmdKey (f : Fn) (s : State) : Host.Outcome State Fault Refusal := s.run (fun d => d.cmdKey f.val)

/-- GATEWAY (R212). PF command GATEWAY reads or writes a gateway table entry. -/
def execCmdGateway (f : Fn) (s : State) : Host.Outcome State Fault Refusal := s.run (fun d => d.cmdGateway f.val)

/-- TWRITE (R213). Command TWRITE writes consecutive table entries from host memory, stopping at the first refusal. -/
def execCmdTwrite (f : Fn) (buf : List Byte) (fail : FailO) (s : State) : Host.Outcome State Fault Refusal :=
  s.run (fun d => d.cmdTwrite f.val buf (fail.map (fun x => (x.1, x.2.toNat))))

/-- TREAD (R213). Command TREAD writes consecutive table entries to host memory. -/
def execCmdTread (f : Fn) (s : State) : Host.Outcome State Fault Refusal := s.run (fun d => d.cmdTread f.val)

/-- TCLEAR (R213). PF command TCLEAR clears consecutive ORD lantern entries or ledger records. -/
def execCmdTclear (f : Fn) (s : State) : Host.Outcome State Fault Refusal := s.run (fun d => d.cmdTclear f.val)

/-- PLACE (R142). Command PLACE places an ad hoc or lockout order record with the next CSEQ, or refuses it. -/
def execCmdPlace (f : Fn) (s : State) : Host.Outcome State Fault Refusal := s.run (fun d => d.cmdPlace f.val)

/-- CANCEL (R142). Command CANCEL frees one order record of the function or, for the PF, any record. -/
def execCmdCancel (f : Fn) (s : State) : Host.Outcome State Fault Refusal := s.run (fun d => d.cmdCancel f.val)

/-- SCHEDULE (R212). Command SCHEDULE sets SCHCAL on the function's registered lanterns in a range, checked whole. -/
def execCmdSchedule (f : Fn) (s : State) : Host.Outcome State Fault Refusal := s.run (fun d => d.cmdSchedule f.val)

/-- COMPLETION_WRITE (R214). The ring engine writes a completion descriptor from the completion queue into the completion ring. -/
def execCompletionWrite (f : Fn) (s : State) : Host.Outcome State Fault Refusal := s.run (fun d => d.ringWrite f.val 1)

/-- EVENT_WRITE (R215). The ring engine writes an event descriptor from the event queue into the event ring. -/
def execEventWrite (f : Fn) (s : State) : Host.Outcome State Fault Refusal := s.run (fun d => d.ringWrite f.val 2)

/-- RECORD_WRITE (R216). The ring engine writes a record into NSLOT free slots of the record ring. -/
def execRecordWrite (f : Fn) (s : State) : Host.Outcome State Fault Refusal := s.run (fun d => d.ringWrite f.val 3)

/-- BULK_OUT_FETCH (R217). A bulk-out descriptor and its data are read and committed as one entry, or consumed with event 0x0902. -/
def execBulkOutFetch (f : Fn) (desc : List Byte) (bytes : List Byte) (err : DmaErrO) (s : State) : Host.Outcome State Fault Refusal :=
  s.run (fun d => d.bulkOutFetch f.val desc bytes err)

/-- BULK_IN_WRITE (R218). The ring engine writes the oldest bulk-in entry into a posted buffer and rewrites its descriptor. -/
def execBulkInWrite (f : Fn) (s : State) : Host.Outcome State Fault Refusal := s.run (fun d => d.ringWrite f.val 5)

/-- STATUS_RECORD_WRITE (R207). The ring engine writes the function's status record, publishing the entries its indices cover. -/
def execStatusRecordWrite (f : Fn) (s : State) : Host.Outcome State Fault Refusal := s.run (fun d => d.statusWrite f.val)

/-- BAR2_ACCESS (R186). A host memory request to PF BAR2 reads or writes DRAM, or recovery staging, coherently, and is refused with Completer
Abort inside a protected region. -/
def execBar2Access (a : BitVec 28) (n : BitVec 13) (wr : BytesO) (env : DramEnvs) (s : State) : Host.Outcome State Fault Refusal :=
  s.run (fun d => d.bar2Access a.toNat n.toNat wr env)

/-- AER_LINK_ERROR (R192). The PCIe link detects a link error such as Receiver Error, Bad TLP or Malformed TLP and logs it in AER of the PF. -/
def execAerLinkError (e : AerErr) (hdr : HdrO) (s : State) : Host.Outcome State Fault Refusal :=
  s.run (fun d => d.aerLink e (hdr.map BitVec.toNat))

end Sys2Proof.Machine
end

