-- ==== Sys2Proof/Machine/ExecMessage.lean ====
section
/-!
DEFINITION. The meanings of the commands of chapter 2: the message layer.
-/
namespace Sys2Proof.Machine

/-- MLP_DATAGRAM_RECEIVE (R59). The message layer checks a received datagram in order, dropping it at the first failing check or admitting it. -/
def execMlpDatagramReceive (s : State) : Host.Outcome State Fault Refusal := s.run (fun d => d.mleReceive)

/-- MLP_EGRESS_TAKE (R63). The message layer takes the next egress message by priority, resolves its lantern, assigns SEQ and seals it or
withholds it. -/
def execMlpEgressTake (s : State) : Host.Outcome State Fault Refusal := s.run (fun d => d.egressTake)

/-- REKEY_RESEND (R54). MLE_REKEY.INTERVAL after a REKEY send without promotion, another REKEY becomes due while sends remain. -/
def execRekeyResend (lix : Lix) (s : State) : Host.Outcome State Fault Refusal := s.run (fun d => d.rekeyResend lix.toNat)

/-- REKEY_EXHAUSTED (R54). MLE_REKEY.INTERVAL after the last allowed send without promotion, the rekey ends with event 0x0206 and the next key
kept. -/
def execRekeyExhausted (lix : Lix) (s : State) : Host.Outcome State Fault Refusal := s.run (fun d => d.rekeyExhausted lix.toNat)

/-- OLD_SLOT_RETIRE (R54). MLE_GRACE.MS after promotion, the old key slot is retired and accepts nothing. -/
def execOldSlotRetire (lix : Lix) (s : State) : Host.Outcome State Fault Refusal := s.run (fun d => d.retireOld lix.toNat)

/-- REGISTER (R58). Inventory command REGISTER enters a UID at a local index with owner and gateway. -/
def execRegister (s : State) : Host.Outcome State Fault Refusal := s.run (fun d => d.invCommand 1)

/-- UPDATE (R58). Inventory command UPDATE changes OWNER and GW of a registered UID whose LIX matches. -/
def execUpdate (s : State) : Host.Outcome State Fault Refusal := s.run (fun d => d.invCommand 2)

/-- SUSPEND (R58). Inventory command SUSPEND keeps keys and windows but refuses the lantern's messages and withholds its egress. -/
def execSuspend (s : State) : Host.Outcome State Fault Refusal := s.run (fun d => d.invCommand 3)

/-- RESUME (R58). Inventory command RESUME returns a suspended lantern to active. -/
def execResume (s : State) : Host.Outcome State Fault Refusal := s.run (fun d => d.invCommand 4)

/-- REMOVE (R58). Inventory command REMOVE erases the lantern's slots and windows, cancels any rekey and frees UID and index. -/
def execRemove (s : State) : Host.Outcome State Fault Refusal := s.run (fun d => d.invCommand 5)

/-- LOOKUP (R58). Inventory command LOOKUP loads a UID's entry into MLE_INV_ENTRY or reports it not registered. -/
def execLookup (s : State) : Host.Outcome State Fault Refusal := s.run (fun d => d.invCommand 6)

/-- LOAD_CURRENT (R58). Key command LOAD_CURRENT unwraps a key as current under MLE_KEY_EPOCH, erasing the other slot and resetting windows. -/
def execLoadCurrent (lix : Lix) (s : State) : Host.Outcome State Fault Refusal := s.run (fun d => d.keyCommand lix.toNat 1)

/-- LOAD_NEXT (R58). Key command LOAD_NEXT unwraps a next key into the slot that is not current, with epoch current + 1. -/
def execLoadNext (lix : Lix) (s : State) : Host.Outcome State Fault Refusal := s.run (fun d => d.keyCommand lix.toNat 2)

/-- LOAD_NEXT_AND_REKEY (R54). Key command LOAD_NEXT_AND_REKEY loads a next key and starts a rekey that sends REKEY. -/
def execLoadNextAndRekey (lix : Lix) (s : State) : Host.Outcome State Fault Refusal := s.run (fun d => d.keyCommand lix.toNat 3)

/-- START_REKEY (R54). Key command START_REKEY starts a rekey with the loaded next key. -/
def execStartRekey (lix : Lix) (s : State) : Host.Outcome State Fault Refusal := s.run (fun d => d.keyCommand lix.toNat 4)

/-- ERASE_NEXT (R58). Key command ERASE_NEXT empties the next slot and ends resends. -/
def execEraseNext (lix : Lix) (s : State) : Host.Outcome State Fault Refusal := s.run (fun d => d.keyCommand lix.toNat 5)

/-- ERASE_ALL (R58). Key command ERASE_ALL empties both key slots of a lantern. -/
def execEraseAll (lix : Lix) (s : State) : Host.Outcome State Fault Refusal := s.run (fun d => d.keyCommand lix.toNat 6)

/-- KEY_UNWRAP_COMPLETE (R58). The handle core finishes unwrapping a key blob, installs or refuses it and clears MLE_KEY_STATUS.BUSY. -/
def execKeyUnwrapComplete (s : State) : Host.Outcome State Fault Refusal := s.run (fun d => d.keyFinish)

/-- INV_COMMAND_COMPLETE (R56). An inventory command's result becomes final and MLE_INV_STATUS.BUSY clears. -/
def execInvCommandComplete (s : State) : Host.Outcome State Fault Refusal := s.run (fun d => d.invComplete)

/-- MLE_GW_READ (R57). MLE_GW_CMD READ loads gateway entry INDEX into the gateway operand registers. -/
def execMleGwRead (ix : BitVec 12) (s : State) : Host.Outcome State Fault Refusal := s.run (fun d => d.gwRead ix.toNat)

/-- MLE_GW_WRITE (R58). MLE_GW_CMD WRITE stores the gateway operand registers as entry INDEX, applying to the next message sent. -/
def execMleGwWrite (ix : BitVec 12) (s : State) : Host.Outcome State Fault Refusal := s.run (fun d => d.gwWrite ix.toNat)

end Sys2Proof.Machine
end

