-- ==== Sys2Proof/Machine/ExecOrders.lean ====
section
/-!
DEFINITION. The meanings of the commands of chapter 6: the order merge and the life ledger.
-/
namespace Sys2Proof.Machine

/-- ORDER_SWEEP (R140). At the cut-off of a slot the merge computes one level per registered lantern and enqueues due ORDERs. -/
def execOrderSweep (s : State) : Host.Outcome State Fault Refusal := s.run (fun d => d.ordSweep)

/-- ORD_CFG_WRITE (R140). A write to ORD_CFG changes LEAD so that the pending slot is swept once, at the new or old cut-off. -/
def execOrdCfgWrite (lead : BitVec 10) (ack : BitVec 2) (refresh : BitVec 10) (s : State) : Host.Outcome State Fault Refusal :=
  s.run (fun d => d.ordCfgCmd lead.toNat ack.toNat refresh.toNat)

/-- REFLEX_APPLY (R146). The merge takes a reflex entry from queue 0x1588 and updates the reflex registers of its targets. -/
def execReflexApply (s : State) : Host.Outcome State Fault Refusal := s.run (fun d => d.takeReflex)

/-- COMPENSATION_APPLY (R173). The merge applies a compensation entry from queue 0x1588 to the remote compensation table. -/
def execCompensationApply (s : State) : Host.Outcome State Fault Refusal := s.run (fun d => d.takeComp)

/-- COMPENSATION_EXPIRE (R173). A remote compensation entry past its expiry is freed at the management tick and counted. -/
def execCompensationExpire (s : State) : Host.Outcome State Fault Refusal := s.run (fun d => d.compExpire)

/-- FAULT_APPLY (R147). The merge takes a FAULT from queue 0x1589 and updates the lantern's dark set. -/
def execFaultApply (s : State) : Host.Outcome State Fault Refusal := s.run (fun d => d.takeFault)

/-- ORDER_ACK_APPLY (R152). The merge matches an ORDER-ACK from queue 0x158A to the lantern's LSLOT. -/
def execOrderAckApply (s : State) : Host.Outcome State Fault Refusal := s.run (fun d => d.takeAck)

/-- ORD_TBL_READ (R162). ORD_TBL_CMD READ loads an order-merge table entry into ORD_DATA. -/
def execOrdTblRead (s : State) : Host.Outcome State Fault Refusal := s.run (fun d => d.ordTblRead)

/-- ORD_TBL_WRITE (R162). ORD_TBL_CMD WRITE stores the writable fields of a table entry under its checks. -/
def execOrdTblWrite (s : State) : Host.Outcome State Fault Refusal := s.run (fun d => d.ordTblWrite)

/-- ORD_TBL_CLEAR (R162). ORD_TBL_CMD CLEAR empties a lantern entry's dark and reflex state or cancels an order record. -/
def execOrdTblClear (s : State) : Host.Outcome State Fault Refusal := s.run (fun d => d.ordTblClear)

/-- LEDGER_STATUS_APPLY (R156). The ledger applies a STATUS to the lantern's record, detecting swaps and accumulating life. -/
def execLedgerStatusApply (s : State) : Host.Outcome State Fault Refusal := s.run (fun d => d.takeLedger true)

/-- LEDGER_ENERGY_APPLY (R159). The ledger applies an ENERGY reading to the lantern and owner totals in decimal. -/
def execLedgerEnergyApply (s : State) : Host.Outcome State Fault Refusal := s.run (fun d => d.takeLedger false)

/-- ENERGY_PERIOD_BOUNDARY (R160). The time base passes a multiple of EPERIOD minutes, ending an energy period. -/
def execEnergyPeriodBoundary (s : State) : Host.Outcome State Fault Refusal := s.runAon (fun d => d.energyBoundary)

/-- LDG_TBL_READ (R161). LDG_TBL_CMD READ loads a ledger table entry into LDG_DATA. -/
def execLdgTblRead (s : State) : Host.Outcome State Fault Refusal := s.run (fun d => d.ldgTblRead)

/-- LDG_TBL_WRITE (R161). LDG_TBL_CMD WRITE stores a ledger record, type or ageing table, refused for energy totals. -/
def execLdgTblWrite (s : State) : Host.Outcome State Fault Refusal := s.run (fun d => d.ldgTblWrite)

/-- LDG_TBL_CLEAR (R158). LDG_TBL_CMD CLEAR archives both parts with event 0x0616 and zeroes the ledger record. -/
def execLdgTblClear (s : State) : Host.Outcome State Fault Refusal := s.run (fun d => d.ldgTblClear)

end Sys2Proof.Machine
end

