-- ==== Sys2Proof/Machine/ExecPlaits.lean ====
section
/-!
DEFINITION. The meanings of the commands of chapter 10: the instructions of Plait.
-/
namespace Sys2Proof.Machine

/-- ADD (R236). Integer ADD writes RA plus RB or the immediate. -/
def execAdd (t : ThreadId) (a : PReg) (s : State) : Host.Outcome State Fault Refusal := s.run (fun d => d.issue io t (ofReg a 0 0))

/-- SUB (R236). Integer SUB writes RA minus RB. -/
def execSub (t : ThreadId) (a : PReg) (s : State) : Host.Outcome State Fault Refusal := s.run (fun d => d.issue io t (ofReg a 0 1))

/-- AND (R236). Integer AND writes the bitwise and. -/
def execAnd (t : ThreadId) (a : PReg) (s : State) : Host.Outcome State Fault Refusal := s.run (fun d => d.issue io t (ofReg a 0 2))

/-- OR (R236). Integer OR writes the bitwise or. -/
def execOr (t : ThreadId) (a : PReg) (s : State) : Host.Outcome State Fault Refusal := s.run (fun d => d.issue io t (ofReg a 0 3))

/-- XOR (R236). Integer XOR writes the bitwise exclusive or. -/
def execXor (t : ThreadId) (a : PReg) (s : State) : Host.Outcome State Fault Refusal := s.run (fun d => d.issue io t (ofReg a 0 4))

/-- ANDN (R236). Integer ANDN writes RA and not RB. -/
def execAndn (t : ThreadId) (a : PReg) (s : State) : Host.Outcome State Fault Refusal := s.run (fun d => d.issue io t (ofReg a 0 5))

/-- SHL (R236). Integer SHL shifts left. -/
def execShl (t : ThreadId) (a : PReg) (s : State) : Host.Outcome State Fault Refusal := s.run (fun d => d.issue io t (ofReg a 0 6))

/-- SHR (R236). Integer SHR shifts right logically. -/
def execShr (t : ThreadId) (a : PReg) (s : State) : Host.Outcome State Fault Refusal := s.run (fun d => d.issue io t (ofReg a 0 7))

/-- SAR (R236). Integer SAR shifts right arithmetically. -/
def execSar (t : ThreadId) (a : PReg) (s : State) : Host.Outcome State Fault Refusal := s.run (fun d => d.issue io t (ofReg a 0 8))

/-- ROL (R236). Integer ROL rotates left. -/
def execRol (t : ThreadId) (a : PReg) (s : State) : Host.Outcome State Fault Refusal := s.run (fun d => d.issue io t (ofReg a 0 9))

/-- MIN (R236). Integer MIN writes the signed minimum. -/
def execMin (t : ThreadId) (a : PReg) (s : State) : Host.Outcome State Fault Refusal := s.run (fun d => d.issue io t (ofReg a 0 10))

/-- MAX (R236). Integer MAX writes the signed maximum. -/
def execMax (t : ThreadId) (a : PReg) (s : State) : Host.Outcome State Fault Refusal := s.run (fun d => d.issue io t (ofReg a 0 11))

/-- MINU (R236). Integer MINU writes the unsigned minimum. -/
def execMinu (t : ThreadId) (a : PReg) (s : State) : Host.Outcome State Fault Refusal := s.run (fun d => d.issue io t (ofReg a 0 12))

/-- MAXU (R236). Integer MAXU writes the unsigned maximum. -/
def execMaxu (t : ThreadId) (a : PReg) (s : State) : Host.Outcome State Fault Refusal := s.run (fun d => d.issue io t (ofReg a 0 13))

/-- SEXTW (R236). SEXTW sign-extends a word. -/
def execSextw (t : ThreadId) (a : PReg) (s : State) : Host.Outcome State Fault Refusal := s.run (fun d => d.issue io t (ofReg a 0 14))

/-- SEXTP (R236). SEXTP sign-extends a pair. -/
def execSextp (t : ThreadId) (a : PReg) (s : State) : Host.Outcome State Fault Refusal := s.run (fun d => d.issue io t (ofReg a 0 15))

/-- ZEXTW (R236). ZEXTW zero-extends a word. -/
def execZextw (t : ThreadId) (a : PReg) (s : State) : Host.Outcome State Fault Refusal := s.run (fun d => d.issue io t (ofReg a 0 16))

/-- ZEXTP (R236). ZEXTP zero-extends a pair. -/
def execZextp (t : ThreadId) (a : PReg) (s : State) : Host.Outcome State Fault Refusal := s.run (fun d => d.issue io t (ofReg a 0 17))

/-- CLZ (R236). CLZ counts leading zeros. -/
def execClz (t : ThreadId) (a : PReg) (s : State) : Host.Outcome State Fault Refusal := s.run (fun d => d.issue io t (ofReg a 0 18))

/-- POPC (R236). POPC counts set bits. -/
def execPopc (t : ThreadId) (a : PReg) (s : State) : Host.Outcome State Fault Refusal := s.run (fun d => d.issue io t (ofReg a 0 19))

/-- GETP (R236). GETP copies the predicates into RD. -/
def execGetp (t : ThreadId) (a : PReg) (s : State) : Host.Outcome State Fault Refusal := s.run (fun d => d.issue io t (ofReg a 0 22))

/-- SETP (R236). SETP sets p1 to p7 from RA. -/
def execSetp (t : ThreadId) (a : PReg) (s : State) : Host.Outcome State Fault Refusal := s.run (fun d => d.issue io t (ofReg a 0 23))

/-- IMMEDIATE_LOAD (R236). An IMM instruction loads a sign-extended immediate or the upper half of RD. -/
def execImmediateLoad (t : ThreadId) (a : PArg) (s : State) : Host.Outcome State Fault Refusal := s.run (fun d => d.issue io t (ofArg a 1))

/-- EQ (R236). CMP EQ writes equality to a predicate under MODE. -/
def execCmpEq (t : ThreadId) (a : PReg) (s : State) : Host.Outcome State Fault Refusal := s.run (fun d => d.issue io t (ofReg a 3 0))

/-- NE (R236). CMP NE writes inequality to a predicate. -/
def execCmpNe (t : ThreadId) (a : PReg) (s : State) : Host.Outcome State Fault Refusal := s.run (fun d => d.issue io t (ofReg a 3 1))

/-- LT (R236). CMP LT writes signed less-than to a predicate. -/
def execCmpLt (t : ThreadId) (a : PReg) (s : State) : Host.Outcome State Fault Refusal := s.run (fun d => d.issue io t (ofReg a 3 2))

/-- GE (R236). CMP GE writes signed greater-or-equal to a predicate. -/
def execCmpGe (t : ThreadId) (a : PReg) (s : State) : Host.Outcome State Fault Refusal := s.run (fun d => d.issue io t (ofReg a 3 3))

/-- LTU (R236). CMP LTU writes unsigned less-than to a predicate. -/
def execCmpLtu (t : ThreadId) (a : PReg) (s : State) : Host.Outcome State Fault Refusal := s.run (fun d => d.issue io t (ofReg a 3 4))

/-- GEU (R236). CMP GEU writes unsigned greater-or-equal to a predicate. -/
def execCmpGeu (t : ThreadId) (a : PReg) (s : State) : Host.Outcome State Fault Refusal := s.run (fun d => d.issue io t (ofReg a 3 5))

/-- ANY (R236). CMP ANY tests RA and RB for a common set bit. -/
def execCmpAny (t : ThreadId) (a : PReg) (s : State) : Host.Outcome State Fault Refusal := s.run (fun d => d.issue io t (ofReg a 3 6))

/-- NONE (R236). CMP NONE tests RA and RB for no common set bit. -/
def execCmpNone (t : ThreadId) (a : PReg) (s : State) : Host.Outcome State Fault Refusal := s.run (fun d => d.issue io t (ofReg a 3 7))

/-- PAND (R236). PAND combines two predicates by and. -/
def execPand (t : ThreadId) (a : PReg) (s : State) : Host.Outcome State Fault Refusal := s.run (fun d => d.issue io t (ofReg a 3 16))

/-- POR (R236). POR combines two predicates by or. -/
def execPor (t : ThreadId) (a : PReg) (s : State) : Host.Outcome State Fault Refusal := s.run (fun d => d.issue io t (ofReg a 3 17))

/-- PXOR (R236). PXOR combines two predicates by exclusive or. -/
def execPxor (t : ThreadId) (a : PReg) (s : State) : Host.Outcome State Fault Refusal := s.run (fun d => d.issue io t (ofReg a 3 18))

/-- PANDN (R236). PANDN combines two predicates by and-not. -/
def execPandn (t : ThreadId) (a : PReg) (s : State) : Host.Outcome State Fault Refusal := s.run (fun d => d.issue io t (ofReg a 3 19))

/-- MUL (R236). MUL writes the signed 128-bit product to mh:ml. -/
def execMul (t : ThreadId) (a : PReg) (s : State) : Host.Outcome State Fault Refusal := s.run (fun d => d.issue io t (ofReg a 2 0))

/-- MULU (R236). MULU writes the unsigned product to mh:ml. -/
def execMulu (t : ThreadId) (a : PReg) (s : State) : Host.Outcome State Fault Refusal := s.run (fun d => d.issue io t (ofReg a 2 1))

/-- MAC (R236). MAC adds the signed product to mh:ml. -/
def execMac (t : ThreadId) (a : PReg) (s : State) : Host.Outcome State Fault Refusal := s.run (fun d => d.issue io t (ofReg a 2 2))

/-- MACU (R236). MACU adds the unsigned product to mh:ml. -/
def execMacu (t : ThreadId) (a : PReg) (s : State) : Host.Outcome State Fault Refusal := s.run (fun d => d.issue io t (ofReg a 2 3))

/-- DIV (R238). DIV writes signed quotient and remainder to ml and mh, without fault on zero. -/
def execDiv (t : ThreadId) (a : PReg) (s : State) : Host.Outcome State Fault Refusal := s.run (fun d => d.issue io t (ofReg a 2 4))

/-- DIVU (R238). DIVU writes unsigned quotient and remainder. -/
def execDivu (t : ThreadId) (a : PReg) (s : State) : Host.Outcome State Fault Refusal := s.run (fun d => d.issue io t (ofReg a 2 5))

/-- MFMH (R239). MFMH reads mh into RD, subject to the multiplier shadow. -/
def execMfmh (t : ThreadId) (a : PReg) (s : State) : Host.Outcome State Fault Refusal := s.run (fun d => d.issue io t (ofReg a 2 6))

/-- MFML (R239). MFML reads ml into RD. -/
def execMfml (t : ThreadId) (a : PReg) (s : State) : Host.Outcome State Fault Refusal := s.run (fun d => d.issue io t (ofReg a 2 7))

/-- MTMH (R236). MTMH writes RA to mh. -/
def execMtmh (t : ThreadId) (a : PReg) (s : State) : Host.Outcome State Fault Refusal := s.run (fun d => d.issue io t (ofReg a 2 8))

/-- MTML (R236). MTML writes RA to ml. -/
def execMtml (t : ThreadId) (a : PReg) (s : State) : Host.Outcome State Fault Refusal := s.run (fun d => d.issue io t (ofReg a 2 9))

/-- LD (R236). LD loads a sign-extended word, pair or quad after translation and checks. -/
def execLd (t : ThreadId) (a : PReg) (s : State) : Host.Outcome State Fault Refusal :=
  s.run (fun d => d.issue io t (ofReg a 4 (0 + a.sub.toNat % 4)))

/-- LDU (R236). LDU loads a zero-extended word or pair. -/
def execLdu (t : ThreadId) (a : PReg) (s : State) : Host.Outcome State Fault Refusal :=
  s.run (fun d => d.issue io t (ofReg a 4 (4 + a.sub.toNat % 4)))

/-- ST (R236). ST stores a word, pair or quad into the store buffers. -/
def execSt (t : ThreadId) (a : PReg) (s : State) : Host.Outcome State Fault Refusal :=
  s.run (fun d => d.issue io t (ofReg a 4 (8 + a.sub.toNat % 4)))

/-- LDF (R236). LDF loads a binary32 or binary64 into an f register. -/
def execLdf (t : ThreadId) (a : PReg) (s : State) : Host.Outcome State Fault Refusal :=
  s.run (fun d => d.issue io t (ofReg a 4 (12 + a.sub.toNat % 4)))

/-- STF (R236). STF stores an f register. -/
def execStf (t : ThreadId) (a : PReg) (s : State) : Host.Outcome State Fault Refusal :=
  s.run (fun d => d.issue io t (ofReg a 4 (16 + a.sub.toNat % 4)))

/-- PREF (R236). PREF hints a prefetch of a line. -/
def execPref (t : ThreadId) (a : PReg) (s : State) : Host.Outcome State Fault Refusal :=
  s.run (fun d => d.issue io t (ofReg a 4 (20 + a.sub.toNat % 4)))

/-- DCLEAN (R291). DCLEAN writes a dirty line back from any L2. -/
def execDclean (t : ThreadId) (a : PReg) (s : State) : Host.Outcome State Fault Refusal := s.run (fun d => d.issue io t (ofCache a 0))

/-- DFLUSH (R291). DFLUSH writes a line back and invalidates it in every L1D and L2. -/
def execDflush (t : ThreadId) (a : PReg) (s : State) : Host.Outcome State Fault Refusal := s.run (fun d => d.issue io t (ofCache a 1))

/-- DINV (R291). DINV invalidates a line without writing it back. -/
def execDinv (t : ThreadId) (a : PReg) (s : State) : Host.Outcome State Fault Refusal := s.run (fun d => d.issue io t (ofCache a 2))

/-- ICINV (R291). ICINV invalidates a line in every L1I and fetch buffer. -/
def execIcinv (t : ThreadId) (a : PReg) (s : State) : Host.Outcome State Fault Refusal := s.run (fun d => d.issue io t (ofCache a 3))

/-- DZERO (R291). DZERO allocates a zeroed dirty line in the L2. -/
def execDzero (t : ThreadId) (a : PReg) (s : State) : Host.Outcome State Fault Refusal := s.run (fun d => d.issue io t (ofCache a 4))

/-- TLBI_VA (R291). TLBI.VA discards translations of a page on every core. -/
def execTlbiVa (t : ThreadId) (a : PReg) (s : State) : Host.Outcome State Fault Refusal := s.run (fun d => d.issue io t (ofCache a 8))

/-- TLBI_ASID (R291). TLBI.ASID discards non-global translations of an ASID on every core. -/
def execTlbiAsid (t : ThreadId) (a : PReg) (s : State) : Host.Outcome State Fault Refusal := s.run (fun d => d.issue io t (ofCache a 9))

/-- TLBI_ALL (R291). TLBI.ALL discards all translations on every core. -/
def execTlbiAll (t : ThreadId) (a : PReg) (s : State) : Host.Outcome State Fault Refusal := s.run (fun d => d.issue io t (ofCache a 10))

/-- TLBI_LOCAL (R291). TLBI.LOCAL discards all translations of this core. -/
def execTlbiLocal (t : ThreadId) (a : PReg) (s : State) : Host.Outcome State Fault Refusal := s.run (fun d => d.issue io t (ofCache a 11))

/-- L1DINV_ALL (R291). L1DINV.ALL invalidates this core's L1D after its merging buffer drains. -/
def execL1dinvAll (t : ThreadId) (a : PReg) (s : State) : Host.Outcome State Fault Refusal := s.run (fun d => d.issue io t (ofCache a 16))

/-- L2CLEAN_ALL (R291). L2CLEAN.ALL writes back every dirty line of the cluster L2. -/
def execL2cleanAll (t : ThreadId) (a : PReg) (s : State) : Host.Outcome State Fault Refusal := s.run (fun d => d.issue io t (ofCache a 17))

/-- L2FLUSH_ALL (R291). L2FLUSH.ALL writes back and invalidates every line of the cluster L2. -/
def execL2flushAll (t : ThreadId) (a : PReg) (s : State) : Host.Outcome State Fault Refusal := s.run (fun d => d.issue io t (ofCache a 18))

/-- SHORT_ABSOLUTE_LOAD (R237). An SHW, SHP or SHQ load reads through a bank-register window. -/
def execShortAbsoluteLoad (t : ThreadId) (k : Fin 3) (a : PArg) (s : State) : Host.Outcome State Fault Refusal :=
  s.run (fun d => d.issue io t ({ ofArg a (5 + k.val) with x := false }))

/-- SHORT_ABSOLUTE_STORE (R237). An SHW, SHP or SHQ store writes through a bank-register window. -/
def execShortAbsoluteStore (t : ThreadId) (k : Fin 3) (a : PArg) (s : State) : Host.Outcome State Fault Refusal :=
  s.run (fun d => d.issue io t ({ ofArg a (5 + k.val) with x := true }))

/-- BTST (R240). BTST writes a bit of bit space to a predicate. -/
def execBtst (t : ThreadId) (a : PReg) (s : State) : Host.Outcome State Fault Refusal := s.run (fun d => d.issue io t (ofReg a 8 0))

/-- BSET (R240). BSET sets a bit atomically and returns its old value in a predicate. -/
def execBset (t : ThreadId) (a : PReg) (s : State) : Host.Outcome State Fault Refusal := s.run (fun d => d.issue io t (ofReg a 8 1))

/-- BCLR (R240). BCLR clears a bit atomically and returns its old value. -/
def execBclr (t : ThreadId) (a : PReg) (s : State) : Host.Outcome State Fault Refusal := s.run (fun d => d.issue io t (ofReg a 8 2))

/-- BINV (R240). BINV inverts a bit atomically and returns its old value. -/
def execBinv (t : ThreadId) (a : PReg) (s : State) : Host.Outcome State Fault Refusal := s.run (fun d => d.issue io t (ofReg a 8 3))

/-- BLD (R240). BLD loads a bit into RD. -/
def execBld (t : ThreadId) (a : PReg) (s : State) : Host.Outcome State Fault Refusal := s.run (fun d => d.issue io t (ofReg a 8 4))

/-- BST (R240). BST stores RD[0] into a bit. -/
def execBst (t : ThreadId) (a : PReg) (s : State) : Host.Outcome State Fault Refusal := s.run (fun d => d.issue io t (ofReg a 8 5))

/-- BR (R233). BR branches relative with a delay slot, optionally annulled and linked. -/
def execBr (t : ThreadId) (a : PArg) (s : State) : Host.Outcome State Fault Refusal := s.run (fun d => d.issue io t (ofArg a 9))

/-- JR (R233). JR jumps to RA with a delay slot. -/
def execJr (t : ThreadId) (a : PReg) (s : State) : Host.Outcome State Fault Refusal := s.run (fun d => d.issue io t (ofReg a 10 0))

/-- BMOVE (R241). One element of BMOVE copies a word upward and advances its registers. -/
def execBmove (t : ThreadId) (a : PReg) (s : State) : Host.Outcome State Fault Refusal :=
  s.run (fun d => d.issue io t (ofReg a 11 (a.sub.toNat * 8 + 0)))

/-- BMOVED (R241). One element of BMOVED copies a word downward. -/
def execBmoved (t : ThreadId) (a : PReg) (s : State) : Host.Outcome State Fault Refusal :=
  s.run (fun d => d.issue io t (ofReg a 11 (a.sub.toNat * 8 + 1)))

/-- BFILL (R241). One element of BFILL writes a value word. -/
def execBfill (t : ThreadId) (a : PReg) (s : State) : Host.Outcome State Fault Refusal :=
  s.run (fun d => d.issue io t (ofReg a 11 (a.sub.toNat * 8 + 2)))

/-- BCMP (R241). One element of BCMP compares two words and stops on a difference. -/
def execBcmp (t : ThreadId) (a : PReg) (s : State) : Host.Outcome State Fault Refusal :=
  s.run (fun d => d.issue io t (ofReg a 11 (a.sub.toNat * 8 + 3)))

/-- SIGDI (R241). One element of SIGDI accumulates signed byte products into ml. -/
def execSigdi (t : ThreadId) (a : PReg) (s : State) : Host.Outcome State Fault Refusal :=
  s.run (fun d => d.issue io t (ofReg a 11 (a.sub.toNat * 8 + 4)))

/-- SIGDH (R241). One element of SIGDH accumulates a Hamming distance into ml. -/
def execSigdh (t : ThreadId) (a : PReg) (s : State) : Host.Outcome State Fault Refusal :=
  s.run (fun d => d.issue io t (ofReg a 11 (a.sub.toNat * 8 + 5)))

/-- DADDM (R241). One element of DADDM adds four decimal digits with carry. -/
def execDaddm (t : ThreadId) (a : PReg) (s : State) : Host.Outcome State Fault Refusal :=
  s.run (fun d => d.issue io t (ofReg a 11 (a.sub.toNat * 8 + 6)))

/-- DSUBM (R241). One element of DSUBM subtracts four decimal digits with borrow. -/
def execDsubm (t : ThreadId) (a : PReg) (s : State) : Host.Outcome State Fault Refusal :=
  s.run (fun d => d.issue io t (ofReg a 11 (a.sub.toNat * 8 + 7)))

/-- DADD (R244). DADD adds two decimal quads with carry. -/
def execDadd (t : ThreadId) (a : PReg) (s : State) : Host.Outcome State Fault Refusal :=
  s.run (fun d => d.issue io t (ofReg a 12 (a.sub.toNat * 8 + 0)))

/-- DSUB (R244). DSUB subtracts two decimal quads with borrow. -/
def execDsub (t : ThreadId) (a : PReg) (s : State) : Host.Outcome State Fault Refusal :=
  s.run (fun d => d.issue io t (ofReg a 12 (a.sub.toNat * 8 + 1)))

/-- DCHK (R244). DCHK tests that every nibble is a decimal digit. -/
def execDchk (t : ThreadId) (a : PReg) (s : State) : Host.Outcome State Fault Refusal :=
  s.run (fun d => d.issue io t (ofReg a 12 (a.sub.toNat * 8 + 2)))

/-- DTOB (R244). DTOB converts decimal to binary. -/
def execDtob (t : ThreadId) (a : PReg) (s : State) : Host.Outcome State Fault Refusal :=
  s.run (fun d => d.issue io t (ofReg a 12 (a.sub.toNat * 8 + 3)))

/-- BTOD (R244). BTOD converts binary to decimal modulo 10^16. -/
def execBtod (t : ThreadId) (a : PReg) (s : State) : Host.Outcome State Fault Refusal :=
  s.run (fun d => d.issue io t (ofReg a 12 (a.sub.toNat * 8 + 4)))

/-- FADD (R245). FADD adds under IEEE 754. -/
def execFadd (t : ThreadId) (a : PReg) (s : State) : Host.Outcome State Fault Refusal := s.run (fun d => d.issue io t (ofReg a 13 0))

/-- FSUB (R245). FSUB subtracts. -/
def execFsub (t : ThreadId) (a : PReg) (s : State) : Host.Outcome State Fault Refusal := s.run (fun d => d.issue io t (ofReg a 13 1))

/-- FMUL (R245). FMUL multiplies. -/
def execFmul (t : ThreadId) (a : PReg) (s : State) : Host.Outcome State Fault Refusal := s.run (fun d => d.issue io t (ofReg a 13 2))

/-- FDIV (R245). FDIV divides. -/
def execFdiv (t : ThreadId) (a : PReg) (s : State) : Host.Outcome State Fault Refusal := s.run (fun d => d.issue io t (ofReg a 13 3))

/-- FSQRT (R245). FSQRT takes the square root. -/
def execFsqrt (t : ThreadId) (a : PReg) (s : State) : Host.Outcome State Fault Refusal := s.run (fun d => d.issue io t (ofReg a 13 4))

/-- FMA (R245). FMA computes RA times RB plus RD with one rounding. -/
def execFma (t : ThreadId) (a : PReg) (s : State) : Host.Outcome State Fault Refusal := s.run (fun d => d.issue io t (ofReg a 13 5))

/-- FMS (R245). FMS computes RA times RB minus RD. -/
def execFms (t : ThreadId) (a : PReg) (s : State) : Host.Outcome State Fault Refusal := s.run (fun d => d.issue io t (ofReg a 13 6))

/-- FNMA (R245). FNMA computes minus RA times RB plus RD. -/
def execFnma (t : ThreadId) (a : PReg) (s : State) : Host.Outcome State Fault Refusal := s.run (fun d => d.issue io t (ofReg a 13 7))

/-- FMIN (R245). FMIN returns minimumNumber. -/
def execFmin (t : ThreadId) (a : PReg) (s : State) : Host.Outcome State Fault Refusal := s.run (fun d => d.issue io t (ofReg a 13 8))

/-- FMAX (R245). FMAX returns maximumNumber. -/
def execFmax (t : ThreadId) (a : PReg) (s : State) : Host.Outcome State Fault Refusal := s.run (fun d => d.issue io t (ofReg a 13 9))

/-- FABS (R245). FABS clears the sign bit. -/
def execFabs (t : ThreadId) (a : PReg) (s : State) : Host.Outcome State Fault Refusal := s.run (fun d => d.issue io t (ofReg a 13 10))

/-- FNEG (R245). FNEG inverts the sign bit. -/
def execFneg (t : ThreadId) (a : PReg) (s : State) : Host.Outcome State Fault Refusal := s.run (fun d => d.issue io t (ofReg a 13 11))

/-- FMOV (R245). FMOV copies an f register. -/
def execFmov (t : ThreadId) (a : PReg) (s : State) : Host.Outcome State Fault Refusal := s.run (fun d => d.issue io t (ofReg a 13 12))

/-- FCVT (R245). FCVT converts between binary32 and binary64. -/
def execFcvt (t : ThreadId) (a : PReg) (s : State) : Host.Outcome State Fault Refusal := s.run (fun d => d.issue io t (ofReg a 13 16))

/-- FCVTI (R245). FCVTI converts to a signed integer rounded by RM. -/
def execFcvti (t : ThreadId) (a : PReg) (s : State) : Host.Outcome State Fault Refusal := s.run (fun d => d.issue io t (ofReg a 13 17))

/-- FCVTIU (R245). FCVTIU converts to an unsigned integer. -/
def execFcvtiu (t : ThreadId) (a : PReg) (s : State) : Host.Outcome State Fault Refusal := s.run (fun d => d.issue io t (ofReg a 13 18))

/-- FCVTIT (R245). FCVTIT converts to a signed integer toward zero. -/
def execFcvtit (t : ThreadId) (a : PReg) (s : State) : Host.Outcome State Fault Refusal := s.run (fun d => d.issue io t (ofReg a 13 19))

/-- FCVTF (R245). FCVTF converts a signed integer to floating point. -/
def execFcvtf (t : ThreadId) (a : PReg) (s : State) : Host.Outcome State Fault Refusal := s.run (fun d => d.issue io t (ofReg a 13 20))

/-- FCVTFU (R245). FCVTFU converts an unsigned integer to floating point. -/
def execFcvtfu (t : ThreadId) (a : PReg) (s : State) : Host.Outcome State Fault Refusal := s.run (fun d => d.issue io t (ofReg a 13 21))

/-- FMVFG (R245). FMVFG moves f bits to a g register. -/
def execFmvfg (t : ThreadId) (a : PReg) (s : State) : Host.Outcome State Fault Refusal := s.run (fun d => d.issue io t (ofReg a 13 22))

/-- FMVGF (R245). FMVGF moves g bits to an f register. -/
def execFmvgf (t : ThreadId) (a : PReg) (s : State) : Host.Outcome State Fault Refusal := s.run (fun d => d.issue io t (ofReg a 13 23))

/-- FEQ (R245). FEQ compares for equality quietly into a predicate. -/
def execFeq (t : ThreadId) (a : PReg) (s : State) : Host.Outcome State Fault Refusal := s.run (fun d => d.issue io t (ofReg a 13 24))

/-- FLT (R245). FLT compares less-than, signalling on NaN. -/
def execFlt (t : ThreadId) (a : PReg) (s : State) : Host.Outcome State Fault Refusal := s.run (fun d => d.issue io t (ofReg a 13 25))

/-- FLE (R245). FLE compares less-or-equal, signalling on NaN. -/
def execFle (t : ThreadId) (a : PReg) (s : State) : Host.Outcome State Fault Refusal := s.run (fun d => d.issue io t (ofReg a 13 26))

/-- FUN (R245). FUN tests for unordered quietly. -/
def execFunord (t : ThreadId) (a : PReg) (s : State) : Host.Outcome State Fault Refusal := s.run (fun d => d.issue io t (ofReg a 13 27))

/-- LDRES (R243). LDRES loads and reserves a line. -/
def execLdres (t : ThreadId) (a : PReg) (s : State) : Host.Outcome State Fault Refusal :=
  s.run (fun d => d.issue io t (ofReg a 14 (0 + a.sub.toNat % 4)))

/-- STCOM (R243). STCOM stores only under a valid reservation and reports success. -/
def execStcom (t : ThreadId) (a : PReg) (s : State) : Host.Outcome State Fault Refusal :=
  s.run (fun d => d.issue io t (ofReg a 14 (4 + a.sub.toNat % 4)))

/-- ASWP (R242). ASWP swaps atomically. -/
def execAswp (t : ThreadId) (a : PReg) (s : State) : Host.Outcome State Fault Refusal :=
  s.run (fun d => d.issue io t (ofReg a 14 (8 + a.sub.toNat % 4)))

/-- AADD (R242). AADD adds atomically. -/
def execAadd (t : ThreadId) (a : PReg) (s : State) : Host.Outcome State Fault Refusal :=
  s.run (fun d => d.issue io t (ofReg a 14 (12 + a.sub.toNat % 4)))

/-- ACAS (R242). ACAS compares and swaps atomically. -/
def execAcas (t : ThreadId) (a : PReg) (s : State) : Host.Outcome State Fault Refusal :=
  s.run (fun d => d.issue io t (ofReg a 14 (16 + a.sub.toNat % 4)))

/-- AOR (R242). AOR ors atomically. -/
def execAor (t : ThreadId) (a : PReg) (s : State) : Host.Outcome State Fault Refusal :=
  s.run (fun d => d.issue io t (ofReg a 14 (20 + a.sub.toNat % 4)))

/-- AAND (R242). AAND ands atomically. -/
def execAand (t : ThreadId) (a : PReg) (s : State) : Host.Outcome State Fault Refusal :=
  s.run (fun d => d.issue io t (ofReg a 14 (24 + a.sub.toNat % 4)))

/-- NOP (R236). System NOP does nothing. -/
def execNop (t : ThreadId) (a : PArg) (s : State) : Host.Outcome State Fault Refusal := s.run (fun d => d.issue io t (ofSys a 0))

/-- TRAP (R257). TRAP raises a system-call exception with its number. -/
def execTrap (t : ThreadId) (a : PArg) (s : State) : Host.Outcome State Fault Refusal := s.run (fun d => d.issue io t (ofSys a 1))

/-- SYNC (R249). SYNC waits for older instructions, applies SYNC control writes and refetches. -/
def execSync (t : ThreadId) (a : PArg) (s : State) : Host.Outcome State Fault Refusal := s.run (fun d => d.issue io t (ofSys a 2))

/-- FENCE_L (R293). FENCE.L orders older loads before younger loads. -/
def execFenceL (t : ThreadId) (a : PArg) (s : State) : Host.Outcome State Fault Refusal :=
  s.run (fun d => d.issue io t ({ ofSys a 3 with ra := 0, rb := 0, fn := 0 }))

/-- FENCE_S (R293). FENCE.S drains and orders older stores before younger stores. -/
def execFenceS (t : ThreadId) (a : PArg) (s : State) : Host.Outcome State Fault Refusal :=
  s.run (fun d => d.issue io t ({ ofSys a 3 with ra := 1, rb := 0, fn := 0 }))

/-- FENCE (R293). FENCE orders every older access before every younger one. -/
def execFence (t : ThreadId) (a : PArg) (s : State) : Host.Outcome State Fault Refusal :=
  s.run (fun d => d.issue io t ({ ofSys a 3 with ra := 2, rb := 0, fn := 0 }))

/-- FENCE_IO (R293). FENCE.IO also waits for target acknowledgement of older stores. -/
def execFenceIo (t : ThreadId) (a : PArg) (s : State) : Host.Outcome State Fault Refusal :=
  s.run (fun d => d.issue io t ({ ofSys a 3 with ra := 3, rb := 0, fn := 0 }))

/-- MFC (R228). MFC reads a control register into a g register. -/
def execMfc (t : ThreadId) (a : PArg) (s : State) : Host.Outcome State Fault Refusal := s.run (fun d => d.issue io t (ofSys a 4))

/-- MTC (R228). MTC writes a control register, with effects such as ICLR, VTTX and MCINFO clearing. -/
def execMtc (t : ThreadId) (a : PArg) (s : State) : Host.Outcome State Fault Refusal := s.run (fun d => d.issue io t (ofSys a 5))

/-- FLUSHP (R249). FLUSHP discards the core's branch predictions. -/
def execFlushp (t : ThreadId) (a : PArg) (s : State) : Host.Outcome State Fault Refusal := s.run (fun d => d.issue io t (ofSys a 6))

/-- BARP (R249). BARP makes the next branch unpredicted. -/
def execBarp (t : ThreadId) (a : PArg) (s : State) : Host.Outcome State Fault Refusal := s.run (fun d => d.issue io t (ofSys a 7))

/-- HOLD (R267). HOLD opens or shortens a window in which interrupts, FP traps and debug halts wait. -/
def execHold (t : ThreadId) (a : PArg) (s : State) : Host.Outcome State Fault Refusal := s.run (fun d => d.issue io t (ofSys a 8))

/-- RELEASE (R264). RELEASE marks a level-1 handler as released. -/
def execRelease (t : ThreadId) (a : PArg) (s : State) : Host.Outcome State Fault Refusal := s.run (fun d => d.issue io t (ofSys a 9))

/-- RETE (R263). RETE returns from an exception to the saved pair and state. -/
def execRete (t : ThreadId) (a : PArg) (s : State) : Host.Outcome State Fault Refusal := s.run (fun d => d.issue io t (ofSys a 10))

/-- WAIT (R236). WAIT issues nothing until an interrupt is pending or an entry is dispatched. -/
def execWait (t : ThreadId) (a : PArg) (s : State) : Host.Outcome State Fault Refusal := s.run (fun d => d.issue io t (ofSys a 11))

/-- BRK (R236). BRK raises a breakpoint or halts under BRKHALT. -/
def execBrk (t : ThreadId) (a : PArg) (s : State) : Host.Outcome State Fault Refusal := s.run (fun d => d.issue io t (ofSys a 12))

end Sys2Proof.Machine
end

