-- ==== Sys2Proof/Machine/ExecPorts.lean ====
section
/-!
DEFINITION. The meanings of the commands of chapter 3: the field ports.
-/
namespace Sys2Proof.Machine

/-- FP_FRAME_RECEIVE (R69). A received frame is classified and passed to the message layer buffer, to the slow lane, or dropped by reason. -/
def execFpFrameReceive (p : Port) (l : Fin 4) (bytes : List Byte) (cw : BitVec 16) (sym : BitVec 16) (begun : Bool) (s : State) : Host.Outcome State Fault Refusal :=
  s.run (fun d => d.fpReceive p.val l.val bytes cw.toNat sym.toNat begun)

/-- OUT (R82). FP_SVC.OP OUT stops accepting frames, drains the buffers and turns the port's lanes off. -/
def execFpOut (r : Requester) (p : Port) (s : State) : Host.Outcome State Fault Refusal := s.run (fun d => d.fpOut r p.val)

/-- FP_OUT_COMPLETE (R82). The port's drain ends, lanes turn off and FP_SVC goes out of service with BUSY cleared. -/
def execFpOutComplete (p : Port) (s : State) : Host.Outcome State Fault Refusal := s.run (fun d => d.fpOutComplete p.val)

/-- IN (R67). FP_SVC.OP IN on an out-of-service or parked port starts bring-up as returning. -/
def execFpIn (p : Port) (s : State) : Host.Outcome State Fault Refusal := s.run (fun d => d.fpIn p.val)

/-- PARK (R83). FP_SVC.OP PARK on an out-of-service port parks its domain and arms its wake detector. -/
def execFpPark (r : Requester) (p : Port) (s : State) : Host.Outcome State Fault Refusal := s.run (fun d => d.fpParkT r p.val)

/-- FP_FEC_LOCK (R67). A link's RS-FEC acquires lock and its hold-off starts. The same command reports the stages of Table 3-3 before it,
for which the table of commands has no row (log entry 77). -/
def execFpFecLock (p : Port) (l : LinkAt) (s : State) : Host.Outcome State Fault Refusal :=
  s.run (fun d => d.fpFecLock p.val l.link.val l.stage)

/-- FP_HOLDOFF_END (R67). A link's FEC hold-off expires without error, making the link usable and the port in service. -/
def execFpHoldoffEnd (p : Port) (l : Fin 4) (s : State) : Host.Outcome State Fault Refusal := s.run (fun d => d.fpHoldoffEnd p.val l.val)

/-- FP_LOCK_LOSS (R68). A usable link loses lock, drops the frame in reception, counts it and raises event 0x0302. -/
def execFpLockLoss (p : Port) (l : LinkAt) (s : State) : Host.Outcome State Fault Refusal :=
  s.run (fun d => d.fpLockLoss p.val l.link.val l.stage)

/-- FP_RETURN_TIMEOUT (R67). A port still returning 500 ms after IN or wake raises event 0x0307. -/
def execFpReturnTimeout (p : Port) (s : State) : Host.Outcome State Fault Refusal := s.run (fun d => d.fpReturnTimeout p.val)

/-- FP_WAKE_DETECT (R83). A parked port's wake detector recognises link activity or the wake pattern and the port returns. -/
def execFpWakeDetect (p : Port) (pattern : Bool) (s : State) : Host.Outcome State Fault Refusal :=
  s.runAon (fun d => d.wakeDetect p.val pattern)

/-- FP_CFG_WRITE (R84). A write to FP_CFG is ignored when it would change MODE outside out of service, otherwise applies at the next frame
boundary. -/
def execFpCfgWrite (r : Requester) (p : Port) (v : BitVec 32) (s : State) : Host.Outcome State Fault Refusal :=
  s.run (fun d => d.fpCfgWrite r p.val v.toNat)

/-- FP_NH_READ (R74). FP_NH_CMD READ loads next-hop entry INDEX into FP_NH_ENTRY. -/
def execFpNhRead (ix : BitVec 12) (s : State) : Host.Outcome State Fault Refusal := s.run (fun d => d.nhRead ix.toNat)

/-- FP_NH_WRITE (R74). FP_NH_CMD WRITE stores FP_NH_ENTRY as next-hop entry INDEX. -/
def execFpNhWrite (ix : BitVec 12) (s : State) : Host.Outcome State Fault Refusal := s.run (fun d => d.nhWrite ix.toNat)

/-- FP_FRAME_TRANSMIT (R76). The port picks MLP or slow-lane egress by deficit round-robin and sends one frame on a link. -/
def execFpFrameTransmit (p : Port) (s : State) : Host.Outcome State Fault Refusal := s.run (fun d => d.fpTransmit p.val)

/-- SLOW_LANE_SEND (R78). The port takes a slow-lane egress entry and sends the frame with FCS, or discards a malformed one. -/
def execSlowLaneSend (p : Port) (s : State) : Host.Outcome State Fault Refusal := s.run (fun d => d.slowTurn p.val)

/-- FP_TXTS_INFO_READ (R81). A read of FP_TXTS_INFO without PEEK moves the oldest timestamp FIFO entry into the latch. -/
def execFpTxtsInfoRead (p : Port) (peek : Bool) (s : State) : Host.Outcome State Fault Refusal := s.run (fun d => d.txtsRead p.val peek)

/-- UNCORRECTABLE_CODEWORD (R67). An uncorrectable RS-FEC codeword, or a loss of any lock, on a link in its hold-off restarts the hold-off at
the next FEC lock. -/
def execUncorrectableCodeword (x : LinkId) (loss : StageO) (s : State) : Host.Outcome State Fault Refusal :=
  s.run (fun d => d.codeword x loss)

end Sys2Proof.Machine
end

