-- ==== Sys2Proof/Machine/ExecPowers.lean ====
section
/-!
DEFINITION. The meanings of the commands of chapter 15: power, clocks, supplies and wake.
-/
namespace Sys2Proof.Machine

/-- DVFS_REQUEST (R344). A write of PWR_DVFS.STEP changes a cluster's clock, ordering it with VDD_STK changes. -/
def execDvfsRequest (k : Cluster) (step : BitVec 2) (s : State) : Host.Outcome State Fault Refusal :=
  s.run (fun d => d.dvfsRequest k.val step.toNat)

/-- DVFS_COMPLETE (R344). A DVFS change ends with CUR and RESULT set and BUSY cleared. -/
def execDvfsComplete (k : Cluster) (s : State) : Host.Outcome State Fault Refusal := s.run (fun d => d.dvfsComplete k.val)

/-- PMBUS_ACKNOWLEDGE (R343). A regulator's readback or alert confirms or fails a voltage command. -/
def execPmbusAcknowledge (status : BitVec 16) (vout : BitVec 16) (nack : Bool) (s : State) : Host.Outcome State Fault Refusal :=
  s.run (fun d => d.pmbAck status.toNat vout.toNat nack)

/-- PMBUS_TIMEOUT (R343). A voltage command unacknowledged after TMO ms ends as not acknowledged. -/
def execPmbusTimeout (s : State) : Host.Outcome State Fault Refusal := s.run (fun d => d.pmbTimeout)

/-- REGULATOR_VALID_WRITE (R342). Marking a PWR_REG entry VALID reads VOUT_MODE and refuses a non-linear regulator. -/
def execRegulatorValidWrite (ix : Fin 8) (v : BitVec 64) (voutMode : BitVec 8) (s : State) : Host.Outcome State Fault Refusal :=
  s.run (fun d => d.regulatorWrite ix.val v.toNat voutMode.toNat)

/-- SUPPLY_WARNING (R345). A rail falls below warning, halving the clocks it names. -/
def execSupplyWarning (rail : Fin 8) (s : State) : Host.Outcome State Fault Refusal := s.runAon (fun d => d.supplyWarning rail.val)

/-- SUPPLY_RECOVERY (R345). After 50 µs above recovery on every warning rail, clocks are restored with event 0x1504. -/
def execSupplyRecovery (m : BitVec 8) (s : State) : Host.Outcome State Fault Refusal := s.runAon (fun d => d.supplyRecovery m.toNat)

/-- SUPPLY_RESET_LEVEL (R345). A rail falling below its reset level causes a power-on reset. -/
def execSupplyResetLevel (s : State) : Host.Outcome State Fault Refusal := s.runAll (fun d => d.supplyReset)

/-- MONITOR_SWEEP (R346). The converter measures the named sensors, updating results and temperature alarms. -/
def execMonitorSweep (auto : Bool) (vals : Sensors) (s : State) : Host.Outcome State Fault Refusal :=
  s.run (fun d => d.monitorSweep auto vals)

/-- THERMAL_TRIP (R347). A trip comparator logs a fatal record, asserts THERMTRIP_N and powers the domains off. -/
def execThermalTrip (sensor : Fin 12) (s : State) : Host.Outcome State Fault Refusal := s.runAon (fun d => d.thermalTrip sensor.val)

/-- REFERENCE_LOSS (R340). Loss of root PLL lock or the 100 MHz reference records a fatal error. -/
def execReferenceLoss (s : State) : Host.Outcome State Fault Refusal := s.runAon (fun d => d.referenceLoss)

/-- PLL_LOCK_RETURN (R340). Lock returns after a loss and the device performs a device warm reset. -/
def execPllLockReturn (s : State) : Host.Outcome State Fault Refusal := s.runAon (fun d => d.lockReturn)

/-- HUSH (R350). PWR_CTL HUSH puts the device into Hush, or is refused. -/
def execHush (r : Requester) (s : State) : Host.Outcome State Fault Refusal := s.run (fun d => d.hush r)

/-- HUSH_ENTERED (R350). The handle domain parks and the device reaches Hush. -/
def execHushEntered (s : State) : Host.Outcome State Fault Refusal := s.runAon (fun d => d.hushEntered)

/-- HUSH_WAKE (R351). A wake source in Hush or during entry starts wake and records WCAUSE. -/
def execHushWake (sig : BitVec 4) (pat : BitVec 4) (smb : Bool) (stage : Fin 4) (s : State) : Host.Outcome State Fault Refusal :=
  s.runAon (fun d => d.hushWake sig.toNat pat.toNat smb stage.val)

/-- WAKE_COMPLETE (R351). Wake ends with STATE Run and event 0x1503. -/
def execWakeComplete (s : State) : Host.Outcome State Fault Refusal := s.runAon (fun d => d.wakeComplete)

/-- HOOP_DOZE (R349). An idle hoop enters Doze after IDLE µs. -/
def execHoopDoze (h : Hoop) (s : State) : Host.Outcome State Fault Refusal := s.run (fun d => d.hoopDoze h.val)

/-- SMB_READ_STATE (R353). SMBus command 0x00 returns STATE and WCAUSE. -/
def execSmbReadState (s : State) : Host.Outcome State Fault Refusal := s.runAon (fun d => d.smbus 0)

/-- SMB_READ_HIGHEST_TEMP (R353). SMBus command 0x01 returns the highest valid temperature. -/
def execSmbReadHighestTemp (s : State) : Host.Outcome State Fault Refusal := s.runAon (fun d => d.smbus 1)

/-- SMB_READ_TEMP (R353). SMBus command 0x10 + i returns PWR_TEMP[i]. -/
def execSmbReadTemp (ix : Fin 12) (s : State) : Host.Outcome State Fault Refusal := s.runAon (fun d => d.smbus (0x10 + ix.val))

/-- SMB_READ_VOLT (R353). SMBus command 0x20 + s returns PWR_VOLT[s]. -/
def execSmbReadVolt (rail : Fin 8) (s : State) : Host.Outcome State Fault Refusal := s.runAon (fun d => d.smbus (0x20 + rail.val))

/-- SMB_READ_BELOW (R353). SMBus command 0x30 returns PWR_STATUS.BELOW. -/
def execSmbReadBelow (s : State) : Host.Outcome State Fault Refusal := s.runAon (fun d => d.smbus 0x30)

/-- SMB_WAKE (R353). SMBus command 0x40 wakes the device. -/
def execSmbWake (s : State) : Host.Outcome State Fault Refusal := s.runAon (fun d => d.smbus 0x40)

/-- SMB_HUSH (R353). SMBus command 0x41 with 0x48 requests Hush. -/
def execSmbHush (v : BitVec 8) (s : State) : Host.Outcome State Fault Refusal := s.runAon (fun d => d.smbHush v.toNat)

end Sys2Proof.Machine
end

