-- ==== Sys2Proof/Machine/ExecRimLinks.lean ====
section
/-!
DEFINITION. The meanings of the commands of chapter 7: the rim links.
-/
namespace Sys2Proof.Machine

/-- RIM_OUT (R166). RIM_SVC OUT takes a rim link out of service. -/
def execRimOut (r : Requester) (ix : Link) (s : State) : Host.Outcome State Fault Refusal := s.run (fun d => d.rimOut r ix.val)

/-- RIM_IN (R165). RIM_SVC IN brings a rim link up, refused while DVALID or NBRV is 0. -/
def execRimIn (r : Requester) (ix : Link) (s : State) : Host.Outcome State Fault Refusal := s.run (fun d => d.rimIn r ix.val)

/-- RIM_PARK (R166). RIM_SVC PARK parks an out-of-service rim link. -/
def execRimPark (r : Requester) (ix : Link) (s : State) : Host.Outcome State Fault Refusal := s.run (fun d => d.rimParkT r ix.val)

/-- RIM_HOLDOFF_END (R166). A rim link's FEC hold-off ends and it enters the returning state exchanging IDENT. -/
def execRimHoldoffEnd (ix : Link) (s : State) : Host.Outcome State Fault Refusal := s.run (fun d => d.rimHoldoffEnd ix.val)

/-- RIM_LOCK_LOSS (R177). A rim link loses lock and returns to the returning state. -/
def execRimLockLoss (ix : RimAt) (s : State) : Host.Outcome State Fault Refusal := s.run (fun d => d.rimLockLoss ix.link.val ix.stage)

/-- RIM_RETURN_TIMEOUT (R166). A rim link still returning 500 ms after IN raises event 0x0704. -/
def execRimReturnTimeout (ix : Link) (s : State) : Host.Outcome State Fault Refusal := s.run (fun d => d.rimReturnTimeout ix.val)

/-- IDENT_TIMER (R166). Every 10 µs while returning, or 1 ms in service, a link sends an IDENT frame. -/
def execIdentTimer (ix : Link) (s : State) : Host.Outcome State Fault Refusal := s.run (fun d => d.rimIdent ix.val)

/-- SYNC_TIMER (R168). Every 1 µs each side of a link sends a SYNC frame. -/
def execSyncTimer (ix : Link) (s : State) : Host.Outcome State Fault Refusal := s.run (fun d => d.rimSync ix.val)

/-- RIM_FRAME_RECEIVE (R174). A rim frame is checked and its entry filtered by boundary set and delivered, or its IDENT or SYNC acted on. -/
def execRimFrameReceive (ix : Link) (bytes : List Byte) (line : RimRxLine) (s : State) : Host.Outcome State Fault Refusal :=
  s.run (fun d => d.rimReceive ix.val bytes line)

/-- RIM_ENTRY_SEND (R168). A rim link takes an entry from its egress queue and sends it as a frame when its pool has credit, or discards it
when not in service. -/
def execRimEntrySend (ix : Link) (s : State) : Host.Outcome State Fault Refusal := s.run (fun d => d.rimTake ix.val)

/-- RIM_BSET_READ (R174). RIM_BSET READ loads a local index's boundary bit. -/
def execRimBsetRead (lix : Lix) (s : State) : Host.Outcome State Fault Refusal := s.run (fun d => d.bsetRead lix.toNat)

/-- RIM_BSET_WRITE (R174). RIM_BSET WRITE stores a local index's boundary bit. -/
def execRimBsetWrite (lix : Lix) (b : Bool) (s : State) : Host.Outcome State Fault Refusal := s.run (fun d => d.bsetWrite lix.toNat b)

/-- RIM_FEC_LOCK (R166). A rim link's RS-FEC acquires lock during bring-up and its RIM_LCFG hold-off starts. -/
def execRimFecLock (ix : RimAt) (s : State) : Host.Outcome State Fault Refusal := s.run (fun d => d.rimFecLock ix.link.val ix.stage)

/-- RIM_OUT_COMPLETE (R166). A rim link taken OUT finishes its drain, turns its lanes off and goes out of service with BUSY cleared. -/
def execRimOutComplete (ix : Link) (s : State) : Host.Outcome State Fault Refusal := s.run (fun d => d.rimOutComplete ix.val)

end Sys2Proof.Machine
end

