-- ==== Sys2Proof/Machine/ExecTimers.lean ====
section
/-!
DEFINITION. The meanings of the commands of chapter 13: time base, channels, timers, watchdogs.
-/
namespace Sys2Proof.Machine

/-- TICK (R306). Each 100 MHz reference tick advances the time base and evaluates boundaries, channels, timers and watchdogs. -/
def execTick (s : State) : Host.Outcome State Fault Refusal := s.runAon (fun d => d.tick)

/-- TB_STEP_WRITE (R307). A write to TB_STEP sets a step applied at the next tick with event 0x1301. -/
def execTbStepWrite (v : BitVec 64) (s : State) : Host.Outcome State Fault Refusal := s.run (fun d => d.stepWrite v.toNat)

/-- COMPARE_CHANNEL_FIRE (R311). A compare channel reaches its VALUE, sets status, issues its target and disarms or reloads. -/
def execCompareChannelFire (n : Fin 32) (s : State) : Host.Outcome State Fault Refusal := s.runAon (fun d => d.chanFire n.val)

/-- TIMER_PERIOD_EVENT (R315). An interval timer's count reaches PERIOD, raising a period event and its target. -/
def execTimerPeriodEvent (k : Fin 16) (s : State) : Host.Outcome State Fault Refusal := s.runAon (fun d => d.timerFire k.val)

/-- TIMER_START (R315). TB_TMR_CTL START sets RUN keeping COUNT. -/
def execTimerStart (k : Fin 16) (s : State) : Host.Outcome State Fault Refusal := s.run (fun d => d.timerAct k.val 1)

/-- TIMER_STOP (R315). TB_TMR_CTL STOP clears RUN keeping COUNT. -/
def execTimerStop (k : Fin 16) (s : State) : Host.Outcome State Fault Refusal := s.run (fun d => d.timerAct k.val 2)

/-- RESTART (R313). TB_TMR_CTL RESTART sets COUNT to 0 and RUN to 1. -/
def execTimerRestart (k : Fin 16) (s : State) : Host.Outcome State Fault Refusal := s.run (fun d => d.timerAct k.val 3)

/-- TIMER_PERIOD_WRITE (R315). A PERIOD written below COUNT raises the period event at the next tick and sets SHORT. -/
def execTimerPeriodWrite (k : Fin 16) (v : BitVec 32) (s : State) : Host.Outcome State Fault Refusal :=
  s.run (fun d => d.periodWrite k.val v.toNat)

/-- WATCHDOG_KICK (R317). TB_WD_KICK with the right KEY reloads a stake-core or handle watchdog, otherwise is refused. -/
def execWatchdogKick (r : Requester) (cls : BitVec 2) (u : BitVec 6) (key : BitVec 16) (s : State) : Host.Outcome State Fault Refusal :=
  s.run (fun d => d.kickWrite r cls.toNat u.toNat key.toNat)

/-- WATCHDOG_EXPIRE (R316). A stake-core, hoop or handle watchdog reaches zero, takes its reset action and raises event 0x1302. -/
def execWatchdogExpire (w : Watchdog) (s : State) : Host.Outcome State Fault Refusal := s.runAon (fun d => d.wdExpire w.cls w.unit)

/-- TRIAL_WATCHDOG_EXPIRE (R331). The trial-boot watchdog expires and the handle core reverts every image still on trial. -/
def execTrialWatchdogExpire (s : State) : Host.Outcome State Fault Refusal := s.runAon (fun d => d.trialExpire)

/-- TRIAL_WATCHDOG_RESET (R316). The trial-boot watchdog still enabled 10 ms after expiry causes a device warm reset. -/
def execTrialWatchdogReset (s : State) : Host.Outcome State Fault Refusal := s.runAon (fun d => d.trialReset)

end Sys2Proof.Machine
end

