-- ==== Sys2Proof/Machine/Dispatch.lean ====
section
/-!
DEFINITION. One arm for each command: its meaning.
-/
namespace Sys2Proof.Machine

def exec (i : Instr) (s : State) : Host.Outcome State Fault Refusal :=
  match i with
  -- chapter 0, 13 and 17: register accesses, locks, resets of the device
  | .registerWrite r off bytes v => Sys2Proof.Machine.execRegisterWrite r off bytes v s
  | .rcFieldRead r off bytes peek => Sys2Proof.Machine.execRcFieldRead r off bytes peek s
  | .splitLowPairRead h off peek => Sys2Proof.Machine.execSplitLowPairRead h off peek s
  | .splitLowPairWrite h off v => Sys2Proof.Machine.execSplitLowPairWrite h off v s
  | .splitHighPairWrite h off v => Sys2Proof.Machine.execSplitHighPairWrite h off v s
  | .blockLockSet r k => Sys2Proof.Machine.execBlockLockSet r k s
  | .powerOnReset => Sys2Proof.Machine.execPowerOnReset s
  | .resetRelease => Sys2Proof.Machine.execResetRelease s
  | .deviceWarmReset => Sys2Proof.Machine.execDeviceWarmReset s
  | .hostInterfaceReset cause => Sys2Proof.Machine.execHostInterfaceReset cause s
  | .slotBoundary => Sys2Proof.Machine.execSlotBoundary s
  | .managementTick => Sys2Proof.Machine.execManagementTick s
  -- chapter 2: the message layer
  | .mlpDatagramReceive => Sys2Proof.Machine.execMlpDatagramReceive s
  | .mlpEgressTake => Sys2Proof.Machine.execMlpEgressTake s
  | .rekeyResend lix => Sys2Proof.Machine.execRekeyResend lix s
  | .rekeyExhausted lix => Sys2Proof.Machine.execRekeyExhausted lix s
  | .oldSlotRetire lix => Sys2Proof.Machine.execOldSlotRetire lix s
  | .register => Sys2Proof.Machine.execRegister s
  | .update => Sys2Proof.Machine.execUpdate s
  | .suspend => Sys2Proof.Machine.execSuspend s
  | .resume => Sys2Proof.Machine.execResume s
  | .remove => Sys2Proof.Machine.execRemove s
  | .lookup => Sys2Proof.Machine.execLookup s
  | .loadCurrent lix => Sys2Proof.Machine.execLoadCurrent lix s
  | .loadNext lix => Sys2Proof.Machine.execLoadNext lix s
  | .loadNextAndRekey lix => Sys2Proof.Machine.execLoadNextAndRekey lix s
  | .startRekey lix => Sys2Proof.Machine.execStartRekey lix s
  | .eraseNext lix => Sys2Proof.Machine.execEraseNext lix s
  | .eraseAll lix => Sys2Proof.Machine.execEraseAll lix s
  | .keyUnwrapComplete => Sys2Proof.Machine.execKeyUnwrapComplete s
  | .invCommandComplete => Sys2Proof.Machine.execInvCommandComplete s
  | .mleGwRead ix => Sys2Proof.Machine.execMleGwRead ix s
  | .mleGwWrite ix => Sys2Proof.Machine.execMleGwWrite ix s
  -- chapter 3: the field ports
  | .fpFrameReceive p l bytes cw sym begun => Sys2Proof.Machine.execFpFrameReceive p l bytes cw sym begun s
  | .fpOut r p => Sys2Proof.Machine.execFpOut r p s
  | .fpOutComplete p => Sys2Proof.Machine.execFpOutComplete p s
  | .fpIn p => Sys2Proof.Machine.execFpIn p s
  | .fpPark r p => Sys2Proof.Machine.execFpPark r p s
  | .fpFecLock p l => Sys2Proof.Machine.execFpFecLock p l s
  | .fpHoldoffEnd p l => Sys2Proof.Machine.execFpHoldoffEnd p l s
  | .fpLockLoss p l => Sys2Proof.Machine.execFpLockLoss p l s
  | .fpReturnTimeout p => Sys2Proof.Machine.execFpReturnTimeout p s
  | .fpWakeDetect p pattern => Sys2Proof.Machine.execFpWakeDetect p pattern s
  | .fpCfgWrite r p v => Sys2Proof.Machine.execFpCfgWrite r p v s
  | .fpNhRead ix => Sys2Proof.Machine.execFpNhRead ix s
  | .fpNhWrite ix => Sys2Proof.Machine.execFpNhWrite ix s
  | .fpFrameTransmit p => Sys2Proof.Machine.execFpFrameTransmit p s
  | .slowLaneSend p => Sys2Proof.Machine.execSlowLaneSend p s
  | .fpTxtsInfoRead p peek => Sys2Proof.Machine.execFpTxtsInfoRead p peek s
  | .uncorrectableCodeword x loss => Sys2Proof.Machine.execUncorrectableCodeword x loss s
  -- chapter 4: the Basket and the weave
  | .bskEnqueue q ws => Sys2Proof.Machine.execBskEnqueue q ws s
  | .heldRetry q => Sys2Proof.Machine.execHeldRetry q s
  | .bskDequeue q env => Sys2Proof.Machine.execBskDequeue q env s
  | .spill q => Sys2Proof.Machine.execSpill q s
  | .spillWriteComplete q => Sys2Proof.Machine.execSpillWriteComplete q s
  | .refill q => Sys2Proof.Machine.execRefill q s
  | .refillArrive q env bounds => Sys2Proof.Machine.execRefillArrive q env bounds s
  | .join q => Sys2Proof.Machine.execJoin q s
  | .bskScrubRead q env => Sys2Proof.Machine.execBskScrubRead q env s
  | .bskQRead => Sys2Proof.Machine.execBskQRead s
  | .bskQWrite => Sys2Proof.Machine.execBskQWrite s
  | .flush => Sys2Proof.Machine.execFlush s
  | .flushComplete => Sys2Proof.Machine.execFlushComplete s
  | .counts => Sys2Proof.Machine.execCounts s
  | .countsAndClear => Sys2Proof.Machine.execCountsAndClear s
  | .bskShardqRead sh => Sys2Proof.Machine.execBskShardqRead sh s
  | .bskShardqWrite r sh q valid => Sys2Proof.Machine.execBskShardqWrite r sh q valid s
  | .enq c q len => Sys2Proof.Machine.execEnq c q len s
  | .deq c q len => Sys2Proof.Machine.execDeq c q len s
  | .queueAccessComplete c cell env => Sys2Proof.Machine.execQueueAccessComplete c cell env s
  | .weaveRequestTimeout w => Sys2Proof.Machine.execWeaveRequestTimeout w s
  -- chapter 5: the hoops and the reflex unit
  | .hoopDispatch h => Sys2Proof.Machine.execHoopDispatch h s
  | .stockProgramMessage h e c => Sys2Proof.Machine.execStockProgramMessage h e c s
  | .trackEnd track => Sys2Proof.Machine.execTrackEnd track s
  | .waveSnapshotTimeout lix snap => Sys2Proof.Machine.execWaveSnapshotTimeout lix snap s
  | .pairingJob h e c => Sys2Proof.Machine.execPairingJob h e c s
  | .pairingResult h => Sys2Proof.Machine.execPairingResult h s
  | .customerInvocation h e cycles => Sys2Proof.Machine.execCustomerInvocation h e cycles s
  | .invocationBudgetExpire g => Sys2Proof.Machine.execInvocationBudgetExpire g s
  | .outCmd g v => Sys2Proof.Machine.execOutCmd g v s
  | .reflexRecord => Sys2Proof.Machine.execReflexRecord s
  | .rfxTblRead lix => Sys2Proof.Machine.execRfxTblRead lix s
  | .rfxTblWrite lix => Sys2Proof.Machine.execRfxTblWrite lix s
  | .rfxTblClear lix => Sys2Proof.Machine.execRfxTblClear lix s
  | .rfxCrvRead c => Sys2Proof.Machine.execRfxCrvRead c s
  | .rfxCrvWrite c => Sys2Proof.Machine.execRfxCrvWrite c s
  | .hoopOut r h => Sys2Proof.Machine.execHoopOut r h s
  | .hoopIn h => Sys2Proof.Machine.execHoopIn h s
  | .hoopInComplete h => Sys2Proof.Machine.execHoopInComplete h s
  | .hoopPark r h => Sys2Proof.Machine.execHoopPark r h s
  | .hoopShardRead sh => Sys2Proof.Machine.execHoopShardRead sh s
  | .hoopShardWrite r sh h => Sys2Proof.Machine.execHoopShardWrite r sh h s
  | .qmove => Sys2Proof.Machine.execQmove s
  | .smove => Sys2Proof.Machine.execSmove s
  | .qmoveForced => Sys2Proof.Machine.execQmoveForced s
  | .smoveForced => Sys2Proof.Machine.execSmoveForced s
  | .migrationComplete => Sys2Proof.Machine.execMigrationComplete s
  | .migrationTimeout => Sys2Proof.Machine.execMigrationTimeout s
  -- chapter 6: the order merge and the life ledger
  | .orderSweep => Sys2Proof.Machine.execOrderSweep s
  | .ordCfgWrite lead ack refresh => Sys2Proof.Machine.execOrdCfgWrite lead ack refresh s
  | .reflexApply => Sys2Proof.Machine.execReflexApply s
  | .compensationApply => Sys2Proof.Machine.execCompensationApply s
  | .compensationExpire => Sys2Proof.Machine.execCompensationExpire s
  | .faultApply => Sys2Proof.Machine.execFaultApply s
  | .orderAckApply => Sys2Proof.Machine.execOrderAckApply s
  | .ordTblRead => Sys2Proof.Machine.execOrdTblRead s
  | .ordTblWrite => Sys2Proof.Machine.execOrdTblWrite s
  | .ordTblClear => Sys2Proof.Machine.execOrdTblClear s
  | .ledgerStatusApply => Sys2Proof.Machine.execLedgerStatusApply s
  | .ledgerEnergyApply => Sys2Proof.Machine.execLedgerEnergyApply s
  | .energyPeriodBoundary => Sys2Proof.Machine.execEnergyPeriodBoundary s
  | .ldgTblRead => Sys2Proof.Machine.execLdgTblRead s
  | .ldgTblWrite => Sys2Proof.Machine.execLdgTblWrite s
  | .ldgTblClear => Sys2Proof.Machine.execLdgTblClear s
  -- chapter 7: the rim links
  | .rimOut r ix => Sys2Proof.Machine.execRimOut r ix s
  | .rimIn r ix => Sys2Proof.Machine.execRimIn r ix s
  | .rimPark r ix => Sys2Proof.Machine.execRimPark r ix s
  | .rimHoldoffEnd ix => Sys2Proof.Machine.execRimHoldoffEnd ix s
  | .rimLockLoss ix => Sys2Proof.Machine.execRimLockLoss ix s
  | .rimReturnTimeout ix => Sys2Proof.Machine.execRimReturnTimeout ix s
  | .identTimer ix => Sys2Proof.Machine.execIdentTimer ix s
  | .syncTimer ix => Sys2Proof.Machine.execSyncTimer ix s
  | .rimFrameReceive ix bytes line => Sys2Proof.Machine.execRimFrameReceive ix bytes line s
  | .rimEntrySend ix => Sys2Proof.Machine.execRimEntrySend ix s
  | .rimBsetRead lix => Sys2Proof.Machine.execRimBsetRead lix s
  | .rimBsetWrite lix b => Sys2Proof.Machine.execRimBsetWrite lix b s
  | .rimFecLock ix => Sys2Proof.Machine.execRimFecLock ix s
  | .rimOutComplete ix => Sys2Proof.Machine.execRimOutComplete ix s
  -- chapters 8 and 9: host functions, rings and host commands
  | .vfEnableWrite en mse ari => Sys2Proof.Machine.execVfEnableWrite en mse ari s
  | .numvfsWrite n => Sys2Proof.Machine.execNumvfsWrite n s
  | .initiateFlr f => Sys2Proof.Machine.execInitiateFlr f s
  | .flrReadsAbandon f => Sys2Proof.Machine.execFlrReadsAbandon f s
  | .flrComplete f => Sys2Proof.Machine.execFlrComplete f s
  | .busMasterEnableChange f ctl => Sys2Proof.Machine.execBusMasterEnableChange f ctl s
  | .d3hotTransition d3 => Sys2Proof.Machine.execD3hotTransition d3 s
  | .hostLinkUp speed width => Sys2Proof.Machine.execHostLinkUp speed width s
  | .linkSpeedChange speed width => Sys2Proof.Machine.execLinkSpeedChange speed width s
  | .dmaReadComplete f n bytes err => Sys2Proof.Machine.execDmaReadComplete f n bytes err s
  | .dmaCompletionTimeout f n => Sys2Proof.Machine.execDmaCompletionTimeout f n s
  | .dmaRound => Sys2Proof.Machine.execDmaRound s
  | .dllAckReceive f => Sys2Proof.Machine.execDllAckReceive f s
  | .msixSend f => Sys2Proof.Machine.execMsixSend f s
  | .doorbellFetch f => Sys2Proof.Machine.execDoorbellFetch f s
  | .doorbellReturn f bytes => Sys2Proof.Machine.execDoorbellReturn f bytes s
  | .ringEnable f k => Sys2Proof.Machine.execRingEnable f k s
  | .ringDisable f k => Sys2Proof.Machine.execRingDisable f k s
  | .commandFetch f bytes => Sys2Proof.Machine.execCommandFetch f bytes s
  | .cmdNop f => Sys2Proof.Machine.execCmdNop f s
  | .cmdTime f => Sys2Proof.Machine.execCmdTime f s
  | .cmdInv f => Sys2Proof.Machine.execCmdInv f s
  | .cmdKey f => Sys2Proof.Machine.execCmdKey f s
  | .cmdGateway f => Sys2Proof.Machine.execCmdGateway f s
  | .cmdTwrite f buf fail => Sys2Proof.Machine.execCmdTwrite f buf fail s
  | .cmdTread f => Sys2Proof.Machine.execCmdTread f s
  | .cmdTclear f => Sys2Proof.Machine.execCmdTclear f s
  | .cmdPlace f => Sys2Proof.Machine.execCmdPlace f s
  | .cmdCancel f => Sys2Proof.Machine.execCmdCancel f s
  | .cmdSchedule f => Sys2Proof.Machine.execCmdSchedule f s
  | .completionWrite f => Sys2Proof.Machine.execCompletionWrite f s
  | .eventWrite f => Sys2Proof.Machine.execEventWrite f s
  | .recordWrite f => Sys2Proof.Machine.execRecordWrite f s
  | .bulkOutFetch f desc bytes err => Sys2Proof.Machine.execBulkOutFetch f desc bytes err s
  | .bulkInWrite f => Sys2Proof.Machine.execBulkInWrite f s
  | .statusRecordWrite f => Sys2Proof.Machine.execStatusRecordWrite f s
  | .bar2Access a n wr env => Sys2Proof.Machine.execBar2Access a n wr env s
  | .aerLinkError e hdr => Sys2Proof.Machine.execAerLinkError e hdr s
  -- chapter 10: the instructions of Plait
  | .add t a => Sys2Proof.Machine.execAdd t a s
  | .sub t a => Sys2Proof.Machine.execSub t a s
  | .and t a => Sys2Proof.Machine.execAnd t a s
  | .or t a => Sys2Proof.Machine.execOr t a s
  | .xor t a => Sys2Proof.Machine.execXor t a s
  | .andn t a => Sys2Proof.Machine.execAndn t a s
  | .shl t a => Sys2Proof.Machine.execShl t a s
  | .shr t a => Sys2Proof.Machine.execShr t a s
  | .sar t a => Sys2Proof.Machine.execSar t a s
  | .rol t a => Sys2Proof.Machine.execRol t a s
  | .min t a => Sys2Proof.Machine.execMin t a s
  | .max t a => Sys2Proof.Machine.execMax t a s
  | .minu t a => Sys2Proof.Machine.execMinu t a s
  | .maxu t a => Sys2Proof.Machine.execMaxu t a s
  | .sextw t a => Sys2Proof.Machine.execSextw t a s
  | .sextp t a => Sys2Proof.Machine.execSextp t a s
  | .zextw t a => Sys2Proof.Machine.execZextw t a s
  | .zextp t a => Sys2Proof.Machine.execZextp t a s
  | .clz t a => Sys2Proof.Machine.execClz t a s
  | .popc t a => Sys2Proof.Machine.execPopc t a s
  | .getp t a => Sys2Proof.Machine.execGetp t a s
  | .setp t a => Sys2Proof.Machine.execSetp t a s
  | .immediateLoad t a => Sys2Proof.Machine.execImmediateLoad t a s
  | .cmpEq t a => Sys2Proof.Machine.execCmpEq t a s
  | .cmpNe t a => Sys2Proof.Machine.execCmpNe t a s
  | .cmpLt t a => Sys2Proof.Machine.execCmpLt t a s
  | .cmpGe t a => Sys2Proof.Machine.execCmpGe t a s
  | .cmpLtu t a => Sys2Proof.Machine.execCmpLtu t a s
  | .cmpGeu t a => Sys2Proof.Machine.execCmpGeu t a s
  | .cmpAny t a => Sys2Proof.Machine.execCmpAny t a s
  | .cmpNone t a => Sys2Proof.Machine.execCmpNone t a s
  | .pand t a => Sys2Proof.Machine.execPand t a s
  | .por t a => Sys2Proof.Machine.execPor t a s
  | .pxor t a => Sys2Proof.Machine.execPxor t a s
  | .pandn t a => Sys2Proof.Machine.execPandn t a s
  | .mul t a => Sys2Proof.Machine.execMul t a s
  | .mulu t a => Sys2Proof.Machine.execMulu t a s
  | .mac t a => Sys2Proof.Machine.execMac t a s
  | .macu t a => Sys2Proof.Machine.execMacu t a s
  | .div t a => Sys2Proof.Machine.execDiv t a s
  | .divu t a => Sys2Proof.Machine.execDivu t a s
  | .mfmh t a => Sys2Proof.Machine.execMfmh t a s
  | .mfml t a => Sys2Proof.Machine.execMfml t a s
  | .mtmh t a => Sys2Proof.Machine.execMtmh t a s
  | .mtml t a => Sys2Proof.Machine.execMtml t a s
  | .ld t a => Sys2Proof.Machine.execLd t a s
  | .ldu t a => Sys2Proof.Machine.execLdu t a s
  | .st t a => Sys2Proof.Machine.execSt t a s
  | .ldf t a => Sys2Proof.Machine.execLdf t a s
  | .stf t a => Sys2Proof.Machine.execStf t a s
  | .pref t a => Sys2Proof.Machine.execPref t a s
  | .dclean t a => Sys2Proof.Machine.execDclean t a s
  | .dflush t a => Sys2Proof.Machine.execDflush t a s
  | .dinv t a => Sys2Proof.Machine.execDinv t a s
  | .icinv t a => Sys2Proof.Machine.execIcinv t a s
  | .dzero t a => Sys2Proof.Machine.execDzero t a s
  | .tlbiVa t a => Sys2Proof.Machine.execTlbiVa t a s
  | .tlbiAsid t a => Sys2Proof.Machine.execTlbiAsid t a s
  | .tlbiAll t a => Sys2Proof.Machine.execTlbiAll t a s
  | .tlbiLocal t a => Sys2Proof.Machine.execTlbiLocal t a s
  | .l1dinvAll t a => Sys2Proof.Machine.execL1dinvAll t a s
  | .l2cleanAll t a => Sys2Proof.Machine.execL2cleanAll t a s
  | .l2flushAll t a => Sys2Proof.Machine.execL2flushAll t a s
  | .shortAbsoluteLoad t k a => Sys2Proof.Machine.execShortAbsoluteLoad t k a s
  | .shortAbsoluteStore t k a => Sys2Proof.Machine.execShortAbsoluteStore t k a s
  | .btst t a => Sys2Proof.Machine.execBtst t a s
  | .bset t a => Sys2Proof.Machine.execBset t a s
  | .bclr t a => Sys2Proof.Machine.execBclr t a s
  | .binv t a => Sys2Proof.Machine.execBinv t a s
  | .bld t a => Sys2Proof.Machine.execBld t a s
  | .bst t a => Sys2Proof.Machine.execBst t a s
  | .br t a => Sys2Proof.Machine.execBr t a s
  | .jr t a => Sys2Proof.Machine.execJr t a s
  | .bmove t a => Sys2Proof.Machine.execBmove t a s
  | .bmoved t a => Sys2Proof.Machine.execBmoved t a s
  | .bfill t a => Sys2Proof.Machine.execBfill t a s
  | .bcmp t a => Sys2Proof.Machine.execBcmp t a s
  | .sigdi t a => Sys2Proof.Machine.execSigdi t a s
  | .sigdh t a => Sys2Proof.Machine.execSigdh t a s
  | .daddm t a => Sys2Proof.Machine.execDaddm t a s
  | .dsubm t a => Sys2Proof.Machine.execDsubm t a s
  | .dadd t a => Sys2Proof.Machine.execDadd t a s
  | .dsub t a => Sys2Proof.Machine.execDsub t a s
  | .dchk t a => Sys2Proof.Machine.execDchk t a s
  | .dtob t a => Sys2Proof.Machine.execDtob t a s
  | .btod t a => Sys2Proof.Machine.execBtod t a s
  | .fadd t a => Sys2Proof.Machine.execFadd t a s
  | .fsub t a => Sys2Proof.Machine.execFsub t a s
  | .fmul t a => Sys2Proof.Machine.execFmul t a s
  | .fdiv t a => Sys2Proof.Machine.execFdiv t a s
  | .fsqrt t a => Sys2Proof.Machine.execFsqrt t a s
  | .fma t a => Sys2Proof.Machine.execFma t a s
  | .fms t a => Sys2Proof.Machine.execFms t a s
  | .fnma t a => Sys2Proof.Machine.execFnma t a s
  | .fmin t a => Sys2Proof.Machine.execFmin t a s
  | .fmax t a => Sys2Proof.Machine.execFmax t a s
  | .fabs t a => Sys2Proof.Machine.execFabs t a s
  | .fneg t a => Sys2Proof.Machine.execFneg t a s
  | .fmov t a => Sys2Proof.Machine.execFmov t a s
  | .fcvt t a => Sys2Proof.Machine.execFcvt t a s
  | .fcvti t a => Sys2Proof.Machine.execFcvti t a s
  | .fcvtiu t a => Sys2Proof.Machine.execFcvtiu t a s
  | .fcvtit t a => Sys2Proof.Machine.execFcvtit t a s
  | .fcvtf t a => Sys2Proof.Machine.execFcvtf t a s
  | .fcvtfu t a => Sys2Proof.Machine.execFcvtfu t a s
  | .fmvfg t a => Sys2Proof.Machine.execFmvfg t a s
  | .fmvgf t a => Sys2Proof.Machine.execFmvgf t a s
  | .feq t a => Sys2Proof.Machine.execFeq t a s
  | .flt t a => Sys2Proof.Machine.execFlt t a s
  | .fle t a => Sys2Proof.Machine.execFle t a s
  | .funord t a => Sys2Proof.Machine.execFunord t a s
  | .ldres t a => Sys2Proof.Machine.execLdres t a s
  | .stcom t a => Sys2Proof.Machine.execStcom t a s
  | .aswp t a => Sys2Proof.Machine.execAswp t a s
  | .aadd t a => Sys2Proof.Machine.execAadd t a s
  | .acas t a => Sys2Proof.Machine.execAcas t a s
  | .aor t a => Sys2Proof.Machine.execAor t a s
  | .aand t a => Sys2Proof.Machine.execAand t a s
  | .nop t a => Sys2Proof.Machine.execNop t a s
  | .trap t a => Sys2Proof.Machine.execTrap t a s
  | .sync t a => Sys2Proof.Machine.execSync t a s
  | .fenceL t a => Sys2Proof.Machine.execFenceL t a s
  | .fenceS t a => Sys2Proof.Machine.execFenceS t a s
  | .fence t a => Sys2Proof.Machine.execFence t a s
  | .fenceIo t a => Sys2Proof.Machine.execFenceIo t a s
  | .mfc t a => Sys2Proof.Machine.execMfc t a s
  | .mtc t a => Sys2Proof.Machine.execMtc t a s
  | .flushp t a => Sys2Proof.Machine.execFlushp t a s
  | .barp t a => Sys2Proof.Machine.execBarp t a s
  | .hold t a => Sys2Proof.Machine.execHold t a s
  | .release t a => Sys2Proof.Machine.execRelease t a s
  | .rete t a => Sys2Proof.Machine.execRete t a s
  | .wait t a => Sys2Proof.Machine.execWait t a s
  | .brk t a => Sys2Proof.Machine.execBrk t a s
  -- chapters 11 and 12: stake cores, clusters, DRAM
  | .interruptTake c => Sys2Proof.Machine.execInterruptTake c s
  | .fpTrapTake c => Sys2Proof.Machine.execFpTrapTake c s
  | .machineCheckTake c => Sys2Proof.Machine.execMachineCheckTake c s
  | .lostStore c combining ix => Sys2Proof.Machine.execLostStore c combining ix s
  | .holdWindowExpire c => Sys2Proof.Machine.execHoldWindowExpire c s
  | .coreReset c => Sys2Proof.Machine.execCoreReset c s
  | .coreAutoStart c => Sys2Proof.Machine.execCoreAutoStart c s
  | .stakeReset c => Sys2Proof.Machine.execStakeReset c s
  | .stakeStart r c => Sys2Proof.Machine.execStakeStart r c s
  | .clusterOut k => Sys2Proof.Machine.execClusterOut k s
  | .clusterIn k => Sys2Proof.Machine.execClusterIn k s
  | .clusterPark r k => Sys2Proof.Machine.execClusterPark r k s
  | .stkSwiWrite c v => Sys2Proof.Machine.execStkSwiWrite c v s
  | .train => Sys2Proof.Machine.execTrain s
  | .trainComplete failch step => Sys2Proof.Machine.execTrainComplete failch step s
  | .eccInit => Sys2Proof.Machine.execEccInit s
  | .eccInitComplete => Sys2Proof.Machine.execEccInitComplete s
  | .scrubStart => Sys2Proof.Machine.execScrubStart s
  | .scrubLine env => Sys2Proof.Machine.execScrubLine env s
  | .abort => Sys2Proof.Machine.execAbort s
  | .scrubComplete => Sys2Proof.Machine.execScrubComplete s
  | .clusterOutComplete k => Sys2Proof.Machine.execClusterOutComplete k s
  | .clusterInComplete k => Sys2Proof.Machine.execClusterInComplete k s
  -- chapter 13: time base, channels, timers, watchdogs
  | .tick => Sys2Proof.Machine.execTick s
  | .tbStepWrite v => Sys2Proof.Machine.execTbStepWrite v s
  | .compareChannelFire n => Sys2Proof.Machine.execCompareChannelFire n s
  | .timerPeriodEvent k => Sys2Proof.Machine.execTimerPeriodEvent k s
  | .timerStart k => Sys2Proof.Machine.execTimerStart k s
  | .timerStop k => Sys2Proof.Machine.execTimerStop k s
  | .timerRestart k => Sys2Proof.Machine.execTimerRestart k s
  | .timerPeriodWrite k v => Sys2Proof.Machine.execTimerPeriodWrite k v s
  | .watchdogKick r cls u key => Sys2Proof.Machine.execWatchdogKick r cls u key s
  | .watchdogExpire w => Sys2Proof.Machine.execWatchdogExpire w s
  | .trialWatchdogExpire => Sys2Proof.Machine.execTrialWatchdogExpire s
  | .trialWatchdogReset => Sys2Proof.Machine.execTrialWatchdogReset s
  -- chapter 14: boot, images, recovery
  | .bootRomStage flashOk => Sys2Proof.Machine.execBootRomStage flashOk s
  | .bootHandleStage flashOk => Sys2Proof.Machine.execBootHandleStage flashOk s
  | .bootHostStage dpc rate failch step => Sys2Proof.Machine.execBootHostStage dpc rate failch step s
  | .bootDramStage flashOk => Sys2Proof.Machine.execBootDramStage flashOk s
  | .bootHoopsStage flashOk => Sys2Proof.Machine.execBootHoopsStage flashOk s
  | .bootRunStage => Sys2Proof.Machine.execBootRunStage s
  | .recoveryGo => Sys2Proof.Machine.execRecoveryGo s
  | .bootConfirm r kind key => Sys2Proof.Machine.execBootConfirm r kind key s
  | .flashWrite => Sys2Proof.Machine.execFlashWrite s
  | .activate => Sys2Proof.Machine.execActivate s
  | .stageTenant => Sys2Proof.Machine.execStageTenant s
  | .confirmTenant => Sys2Proof.Machine.execConfirmTenant s
  | .removeTenant => Sys2Proof.Machine.execRemoveTenant s
  | .bootImgComplete flashOk => Sys2Proof.Machine.execBootImgComplete flashOk s
  | .measExtend r ix => Sys2Proof.Machine.execMeasExtend r ix s
  -- chapter 15: power, clocks, supplies and wake
  | .dvfsRequest k step => Sys2Proof.Machine.execDvfsRequest k step s
  | .dvfsComplete k => Sys2Proof.Machine.execDvfsComplete k s
  | .pmbusAcknowledge status vout nack => Sys2Proof.Machine.execPmbusAcknowledge status vout nack s
  | .pmbusTimeout => Sys2Proof.Machine.execPmbusTimeout s
  | .regulatorValidWrite ix v voutMode => Sys2Proof.Machine.execRegulatorValidWrite ix v voutMode s
  | .supplyWarning rail => Sys2Proof.Machine.execSupplyWarning rail s
  | .supplyRecovery m => Sys2Proof.Machine.execSupplyRecovery m s
  | .supplyResetLevel => Sys2Proof.Machine.execSupplyResetLevel s
  | .monitorSweep auto vals => Sys2Proof.Machine.execMonitorSweep auto vals s
  | .thermalTrip sensor => Sys2Proof.Machine.execThermalTrip sensor s
  | .referenceLoss => Sys2Proof.Machine.execReferenceLoss s
  | .pllLockReturn => Sys2Proof.Machine.execPllLockReturn s
  | .hush r => Sys2Proof.Machine.execHush r s
  | .hushEntered => Sys2Proof.Machine.execHushEntered s
  | .hushWake sig pat smb stage => Sys2Proof.Machine.execHushWake sig pat smb stage s
  | .wakeComplete => Sys2Proof.Machine.execWakeComplete s
  | .hoopDoze h => Sys2Proof.Machine.execHoopDoze h s
  | .smbReadState => Sys2Proof.Machine.execSmbReadState s
  | .smbReadHighestTemp => Sys2Proof.Machine.execSmbReadHighestTemp s
  | .smbReadTemp ix => Sys2Proof.Machine.execSmbReadTemp ix s
  | .smbReadVolt rail => Sys2Proof.Machine.execSmbReadVolt rail s
  | .smbReadBelow => Sys2Proof.Machine.execSmbReadBelow s
  | .smbWake => Sys2Proof.Machine.execSmbWake s
  | .smbHush v => Sys2Proof.Machine.execSmbHush v s
  -- chapters 16 and 17: debug, trace, counters, the error log, the 1149.1 port
  | .authRequest t level emu => Sys2Proof.Machine.execAuthRequest t level emu s
  | .authRespond t => Sys2Proof.Machine.execAuthRespond t s
  | .authDrop t => Sys2Proof.Machine.execAuthDrop t s
  | .testLogicReset => Sys2Proof.Machine.execTestLogicReset s
  | .dbgdrUpdate off write peek v => Sys2Proof.Machine.execDbgdrUpdate off write peek v s
  | .dbgAccRead t size peek => Sys2Proof.Machine.execDbgAccRead t size peek s
  | .dbgAccWrite t size peek => Sys2Proof.Machine.execDbgAccWrite t size peek s
  | .halt r c => Sys2Proof.Machine.execHalt r c s
  | .debugHaltTake t => Sys2Proof.Machine.execDebugHaltTake t s
  | .debugResume r c => Sys2Proof.Machine.execDebugResume r c s
  | .debugStep r c => Sys2Proof.Machine.execDebugStep r c s
  | .debugExec r c env => Sys2Proof.Machine.execDebugExec r c env s
  | .dbgRegselRead r t n => Sys2Proof.Machine.execDbgRegselRead r t n s
  | .dbgRegselWrite r t n => Sys2Proof.Machine.execDbgRegselWrite r t n s
  | .engineHalt r e => Sys2Proof.Machine.execEngineHalt r e s
  | .engineResume r e => Sys2Proof.Machine.execEngineResume r e s
  | .engineStep r e ctx => Sys2Proof.Machine.execEngineStep r e ctx s
  | .dbgVtTxRead r c peek => Sys2Proof.Machine.execDbgVtTxRead r c peek s
  | .dbgVtRxWrite r c v => Sys2Proof.Machine.execDbgVtRxWrite r c v s
  | .tracePacketAccept src vc kind size addr => Sys2Proof.Machine.execTracePacketAccept src vc kind size addr s
  | .traceSinkWrite fail => Sys2Proof.Machine.execTraceSinkWrite fail s
  | .trcBufdataRead peek => Sys2Proof.Machine.execTrcBufdataRead peek s
  | .counterLatch => Sys2Proof.Machine.execCounterLatch s
  | .snap r => Sys2Proof.Machine.execSnap r s
  | .counterDumpComplete fail => Sys2Proof.Machine.execCounterDumpComplete fail s
  | .tapInstructionLoad code => Sys2Proof.Machine.execTapInstructionLoad code s
  | .fatalReset => Sys2Proof.Machine.execFatalReset s
  | .errRstDevice r key => Sys2Proof.Machine.execErrRstDevice r key s
  | .errRstBlock r blk inst key => Sys2Proof.Machine.execErrRstBlock r blk inst key s
  | .logClear r => Sys2Proof.Machine.execLogClear r s
  | .challengeExpire t => Sys2Proof.Machine.execChallengeExpire t s

end Sys2Proof.Machine
end

