-- ==== Sys2Proof/Safety.lean ====
section
/-!
DEFINITION. What a sound state is: memory and the register file in canonical form, and every fill that a status field reports equal to
what the queue, buffer or table holds, PHASE what a move in progress does. And what a step must never do.
-/
namespace Sys2Proof.Machine

/-- The register file and the byte memories are in canonical form. -/
def Dev.canonical (d : Dev) : Bool :=
  Tab.sorted d.regs && Memory.wf d.mem.dram && Tab.wf 0xFF d.boot.flash && Tab.wf 0 d.boot.stag && Tab.wf 0 d.trc.buf

/-- FP_STATUS of port p reports its MLP receive buffer (R72). -/
def Dev.fpReports (d : Dev) (p : Nat) : Prop :=
  d.get (FP_STATUS_LEVEL p) = (d.fport p).occ / 1024 % 2048 ∧
  d.get (FP_STATUS_HIWAT p) = b2n (decide (d.get (FP_BUF_HIWAT p) * 65536 ≤ (d.fport p).occ))

/-- HIF_FN_STATUS of function f reports its outstanding reads and kept entries. -/
def Dev.fnReports (d : Dev) (f : Nat) : Prop :=
  d.get (HIF_FN_STATUS_READS f) = (d.fnS f).reads.length % 128 ∧ d.get (HIF_FN_STATUS_KEPT f) = (d.fnS f).kept.length % 512

/-- Every fill field reports what it stands for. -/
def Dev.reports (d : Dev) : Prop :=
  (∀ p, p < 4 → d.fpReports p) ∧ (∀ f, f < 64 → d.fnReports f) ∧
  (∀ m, d.hoop.mig = some m → m.pend = false → d.get HOOP_MIG_STATUS_PHASE = if d.migDrained m then 2 else 1) ∧
  d.get BSK_FREE_CELLS = d.freeCells ∧ d.get RIM_CTAB_USED = d.ord.remote.length % 2 ^ 13 ∧
  d.get ERR_STATUS_USED = d.err.log.length % 2 ^ 9 ∧ d.get TRC_STATUS_FILL = d.trc.fill / 4096 % 2 ^ 5

/-- A key that no field reporting a fill, or the PHASE of a move, has. -/
def notFill (k : Nat) : Prop :=
  (∀ p, p < 4 → k ≠ (FP_STATUS_LEVEL p).key ∧ k ≠ (FP_STATUS_HIWAT p).key) ∧
  (∀ f, f < 64 → k ≠ (HIF_FN_STATUS_READS f).key ∧ k ≠ (HIF_FN_STATUS_KEPT f).key) ∧
  k ≠ HOOP_MIG_STATUS_PHASE.key ∧ k ≠ BSK_FREE_CELLS.key ∧ k ≠ RIM_CTAB_USED.key ∧ k ≠ ERR_STATUS_USED.key ∧ k ≠ TRC_STATUS_FILL.key

/-- A sound state. -/
def State.sound (s : State) : Prop := s.dev.canonical = true ∧ s.dev.reports

/-- A step is safe when it neither faults nor is refused. -/
def State.safe (s : State) : Prop := ∃ t, step s = .next t

/-- A command completes: it answers a next state, with the commands that wait as they were, of whose device P holds. -/
def State.completes (s : State) (i : Instr) (P : Dev → Prop) : Prop := ∃ t, exec i s = .next t ∧ t.pending = s.pending ∧ P t.dev

/-- A command makes the device d, brought up to date as every command ends; the commands that wait stay as they were. -/
def State.becomes (s : State) (i : Instr) (d : Dev) : Prop := exec i s = .next { s with dev := d.settle }

/-- Of the register file only the named fields, and those that report a fill, may have changed. -/
def Dev.onlyRegs (d t : Dev) (l : List Fld) : Prop := ∀ f : Fld, f.key ∉ l.map Fld.key → notFill f.key → t.get f = d.get f

/-- Of the Basket's own state only the queues, the notes and marks of events, what a consumer has taken and the numbers of a function's rings
changed: not the shard map, the held entries, the queue-access commands, the lower tier or the scrub. -/
def BskS.queuesOnly (b c : BskS) : Prop :=
  c = { b with q := c.q, notes := c.notes, taken := c.taken, lowEvent := c.lowEvent, bank := c.bank, eseq := c.eseq, rseq := c.rseq,
               bseq := c.bseq }

/-- Nothing but the Basket's queues and its own counters (BSK_CNT, BSK_DROP_CNT) changed: what committing an entry may change. -/
def Dev.bskOnly (d t : Dev) : Prop :=
  t = { d with regs := t.regs, bsk := t.bsk } ∧ d.bsk.queuesOnly t.bsk ∧
  ∀ g : Fld, (∀ i, i < 16 → g.key ≠ (BSK_CNT_COUNT i).key ∧ g.key ≠ (BSK_DROP_CNT_COUNT i).key) → t.get g = d.get g

/-- Nothing changed but what an error record may change (R393, R394, R395): the error block's log, its counters, the fatal record's AER bit, and,
by the record's event, the Basket. -/
def Dev.errOnly (d t : Dev) : Prop :=
  t = { d with regs := t.regs, bsk := t.bsk, err := t.err, hif := { d.hif with aerU := t.hif.aerU } } ∧ d.bsk.queuesOnly t.bsk ∧
  ∀ g : Fld, (∀ i, i < 16 → g.key ≠ (BSK_CNT_COUNT i).key ∧ g.key ≠ (BSK_DROP_CNT_COUNT i).key) →
    (∀ i, i < 8 → g.key ≠ (ERR_CNT_COUNT i).key) → g.key ≠ ERR_STATUS_LOST.key → t.get g = d.get g

/-! ### Threads of Plait -/

/-- A thread's record y is x, but for the counts of its PMCs and the loads it has performed ahead, with an instruction more counted behind a pending
FP trap. -/
def Thr.goesTo (x y : Thr) : Prop :=
  y = { x with ctl := y.ctl, ahead := y.ahead, fpt := x.fpt.map (fun p => (p.1, p.2.1, p.2.2 + 1)) } ∧ ∀ n, n < 0x330 ∨ 0x336 ≤ n → y.cr n = x.cr n

/-- Of the device only thread k's own record may have changed, which context of its engine issued last, and the number of free values drawn. -/
def Dev.threadOnly (d t : Dev) (k : Nat) : Prop :=
  (∀ j, j ≠ k → t.th j = d.th j) ∧ t.thr = { d.thr with t := t.thr.t, issued := t.thr.issued } ∧ d.onlyRegs t [] ∧ (∀ a, t.memByte a = d.memByte a) ∧
  t.out = d.out ∧ t.mle = d.mle ∧ t.fp = d.fp ∧ t.bsk = d.bsk ∧ t.hoop = d.hoop ∧ t.rfx = d.rfx ∧ t.ord = d.ord ∧ t.ldg = d.ldg ∧
  t.rim = d.rim ∧ t.hif = d.hif ∧ t.tb = d.tb ∧ t.pwr = d.pwr ∧ t.err = d.err ∧ t.dbg = d.dbg

/-- What a thread's next instruction runs under, and the device once its control registers have been settled for it. -/
def Dev.entering (d : Dev) (t : ThreadId) (env : MemEnv) : Dev × Cx :=
  (d.updThr (tid t) (fun h => { h with waiting := false })).ctxFor io t false env

/-- Nothing goes before thread t's next instruction (R261): it may run, no request is pending, no link register waits, no unit halts it. -/
def Dev.quiet (d : Dev) (t : ThreadId) : Prop :=
  let h := d.th (tid t)
  d.runnable t = true ∧ h.link = none ∧ h.waiting = false ∧ h.stepping = 0 ∧ h.haltReq = none ∧ h.mc = none ∧ h.fpt = none ∧
  (kindOf t = .engine ∨ h.irqNow = none) ∧ ∀ e c, t = .engine e c → d.engineBreak e.val c.val h.pc = false

/-- The fetch of instruction i of thread t succeeds and leaves the device d1: on a stake core past its break units, elsewhere at an address of
its configuration, with its hoop's stores sound, and on the handle core where its protection unit lets it execute. -/
def Dev.fetched (d : Dev) (t : ThreadId) (i : PIns) (d1 : Dev) : Prop :=
  let x := d.entering t i.env
  let h := d.th (tid t)
  if kindOf t = .stake then
    ((if !h.inLong && !h.annul then x.1.units x.2 [1] x.2.pc 1 false else .ok x.1 ()).bind fun d _ => d.fetchIns x.2 i.len) = .ok d1 ()
  else h.pc < 2 ^ (kindOf t).eaw ∧ i.env.hoopStore = false ∧ (kindOf t = .handle → x.1.hpuStops 0 x.2.pc i.len = false) ∧ d1 = x.1

/-- Instruction i may stand where thread t is: not in a delay slot, unless it is one that may (R234). -/
def Dev.placed (d : Dev) (t : ThreadId) (i : PIns) : Prop :=
  i.noSlot = true → (d.th (tid t)).slot = false ∧
    ((d.th (tid t)).npc = none ∨ (d.th (tid t)).npc = some (wadd 64 (d.th (tid t)).pc i.len))

/-- Instruction i of thread t is about to execute: it is fetched, legal, in a place it may have, not annulled, and its guard is true. -/
def Dev.poised (d : Dev) (t : ThreadId) (i : PIns) (d1 : Dev) : Prop :=
  d.quiet t ∧ d.fetched t i d1 ∧ i.legal (kindOf t) = true ∧ d.placed t i ∧ (d.th (tid t)).annul = false ∧ i.guard (d.th (tid t)) = true

/-- A thread's record y is that of a thread which had record h and has entered level b (R262): pair, STATUS without an open HOLD window,
cause, address and detail saved, level b of STATUS alone, its own g28–g31, the PC at the level's vector; the other registers as they were. -/
def Thr.entered (h y : Thr) (b code addr info : Nat) (pair : Nat × Nat) : Prop :=
  let o := 0x208 + 8 * b
  y.cr o = pair.1 ∧ y.cr (o + 1) = pair.2 ∧ y.cr (o + 2) = h.cr 0 - (if h.held then 32 else 0) ∧ y.cr (o + 3) = code ∧ y.cr (o + 4) = addr ∧
  y.cr (o + 5) = info ∧ y.cr 0 = 4 * b ∧
  y.pc = (if b = 1 then bits (h.cr 0x200) 41 10 * 1024 + 0x40 * vecOfCause code else bits (h.cr 0x201) 41 0) ∧
  y.npc = none ∧ y.slot = false ∧ y.resv = none ∧ (∀ n, n < 28 → y.gr n = h.gr n) ∧
  (∀ j, j < 4 → y.gr (28 + j) % 2 ^ 64 = h.bankG b j % 2 ^ 64) ∧ y.f = h.f ∧ y.b = h.b ∧ y.p = h.p ∧
  ∀ n, n ≠ 0 → n < o ∨ o + 6 ≤ n → n < 0x330 ∨ 0x336 ≤ n → y.cr n = h.cr n

/-- The command retires instruction i of thread t, having left the device d2, its own record h changed to f h: the PC moves on and nothing else
changes. -/
def State.retiresFrom (s : State) (c : Instr) (t : ThreadId) (i : PIns) (d2 : Dev) (f : Thr → Thr) : Prop :=
  s.completes c (fun d => ((f (d2.th (tid t))).advance (d2.th (tid t)).pc i.len .next).goesTo (d.th (tid t)) ∧ d2.threadOnly d (tid t))

/-- Wherever it is about to execute, the command retires instruction i of thread t with its own record h changed to f h, and changes nothing
else but what its fetch changes. -/
def State.retires (s : State) (c : Instr) (t : ThreadId) (i : PIns) (f : Thr → Thr) : Prop :=
  ∀ d1, s.dev.poised t i d1 → s.retiresFrom c t i d1 f

end Sys2Proof.Machine
end

