-- ==== Sys2Proof/Certificates/Slice0/Obligations.lean ====
section
/-!
DEFINITION. The statements for the provers, family by family: what every step does, what reset leaves, what each command does where the
spec says it executes, and the rules that hold of every state.
-/
open Sys2Proof Sys2Proof.Machine

/-! ### The machine -/

/-- A step takes the command at the front of the queue and runs it with the queue's rest (the block model's step). -/
def Obligations.StepRunsFront : Prop :=
  ∀ (s : State) (c : Instr) (q : List Instr), step { s with pending := c :: q } = exec c { s with pending := q }

/-- With no command waiting the block idles (the model's choice, log entry 1). -/
def Sys2Proof.Claims.IdleOnEmptyQueue : Prop := ∀ s : State, s.pending = [] → step s = .next s

/-- Every command answers a next state and leaves the commands that wait as they are: no command of the table stops the Vezan. -/
def Sys2Proof.Claims.EveryCommandAnswers : Prop := ∀ (c : Instr) (s : State), ∃ t, exec c s = .next t ∧ t.pending = s.pending

/-- Before its first power-up the Vezan is held in reset, no command waits, and every register field holds its Reset value. -/
def Obligations.ResetState : Prop :=
  State.reset.pending = [] ∧ State.reset.dev.boot.held = true ∧ (∀ f : Fld, State.reset.dev.get f = f.rst) ∧
  (∀ n, State.reset.dev.queue n = Queue.reset n)

/-- The state at reset is sound. -/
def Obligations.ResetSound : Prop := State.reset.sound

/-- From every sound state every step answers a sound state: memory and the register file keep their canonical form, and the status fields
report what the buffers, tables and queues hold. -/
def Obligations.StepKeepsSound : Prop := ∀ s t : State, s.sound → step s = .next t → t.sound

/-- While RESET_N is low no command but the resets, their release and the 1149.1 port's changes anything (the model's choice). -/
def Sys2Proof.Claims.HeldIgnores : Prop :=
  ∀ (c : Instr) (s : State), s.dev.boot.held = true → c ≠ .powerOnReset → c ≠ .resetRelease → c ≠ .supplyResetLevel →
    c ≠ .testLogicReset → (∀ o w p v, c ≠ .dbgdrUpdate o w p v) → (∀ k, c ≠ .tapInstructionLoad k) → exec c s = .next s

/-- What every command ends with changes only the fields that report a fill and nothing a read of memory shows. -/
def Sys2Proof.Claims.EndOfCommand : Prop :=
  ∀ d : Dev, d.onlyRegs d.settle [] ∧ (∀ a, Tab.get 0 d.settle.mem.dram a = Tab.get 0 d.mem.dram a) ∧
    d.settle.out = d.out ∧ d.settle.mle = d.mle ∧ d.settle.fp = d.fp ∧ d.settle.bsk = d.bsk ∧ d.settle.hoop = d.hoop ∧
    d.settle.ord = d.ord ∧ d.settle.ldg = d.ldg ∧ d.settle.rim = d.rim ∧ d.settle.hif = d.hif ∧ d.settle.thr = d.thr ∧
    d.settle.tb = d.tb ∧ d.settle.pwr = d.pwr ∧ d.settle.err = d.err ∧ d.settle.dbg = d.dbg

/-- Every command answers a next state and leaves the commands that wait as they are, and what it ends with changes only the fields that report a
fill; with no command waiting the block idles (the model's choice, log entry 1), and while RESET_N is low commands have no effect (log entry 31). -/
def Obligations.CommandsEnd : Prop := Claims.EveryCommandAnswers ∧ Claims.EndOfCommand ∧ Claims.IdleOnEmptyQueue ∧ Claims.HeldIgnores


/-! ### What statements say of a queue -/

/-- Queue n takes entry e at once: it is enabled and not spilled, e fits below its depth limit, and there is room for it (R94). -/
def Sys2Proof.Machine.Dev.hasRoom (d : Dev) (n : Nat) (e : Entry) : Prop :=
  let q := d.queue n
  q.enable = true ∧ e.cells ≤ q.odq ∧ q.spilled = false ∧ q.head + e.cells ≤ q.odq ∧ d.room q e.cells = true ∧ d.bsk.notes = []

/-- In t the queue n holds entry e behind what it held in d, has counted it, and the other queues are as they were (R91, R94). -/
def Sys2Proof.Machine.Dev.gotEntry (d t : Dev) (n : Nat) (e : Entry) : Prop :=
  (t.queue n).es = (d.queue n).es ++ [e] ∧ (t.queue n).committed = satw 48 ((d.queue n).committed + 1) ∧ ∀ m, m ≠ n → t.queue m = d.queue m

/-- The entry of an event of code `code` with its parameters for function f as its next number stands (R215). -/
def Sys2Proof.Machine.Dev.eventOf (d : Dev) (f code : Nat) (par : List (Nat × Nat)) : Entry :=
  eventEntry code (decide (f ≠ 0)) (Tab.get 0 d.bsk.eseq f) d.now (packParams par [])

/-- An event for the PF finds room in its event queue. -/
def Sys2Proof.Machine.Dev.eventFits (d : Dev) (code : Nat) (par : List (Nat × Nat)) : Prop := d.hasRoom 0x1402 (d.eventOf 0 code par)

/-- The PF's event queue got the event. -/
def Sys2Proof.Machine.Dev.raised (d t : Dev) (code : Nat) (par : List (Nat × Nat)) : Prop := d.gotEntry t 0x1402 (d.eventOf 0 code par)
/-! ### Chapter 2: the message layer -/

/-- The inventory commands with the OP each writes (Table 2-19). -/
def Sys2Proof.invOps : List (Instr × Nat) := [(.register, 1), (.update, 2), (.suspend, 3), (.resume, 4), (.remove, 5), (.lookup, 6)]

/-- An inventory command takes its operands at the write and sets BUSY; while BUSY is 1 it is refused as a command while busy (R58). -/
def Sys2Proof.Claims.InventoryCommandsStart : Prop :=
  ∀ (s : State) (i : Instr) (op : Nat), s.dev.awake = true → (i, op) ∈ invOps →
    let c : InvCmd :=
      ⟨op, s.dev.get MLE_INV_UID_UID, s.dev.get MLE_INV_ENTRY_LIX, s.dev.get MLE_INV_ENTRY_OWNER, s.dev.get MLE_INV_ENTRY_GW⟩
    (s.dev.get MLE_INV_STATUS_BUSY = 0 →
      s.becomes i { s.dev.put MLE_INV_STATUS_BUSY 1 with mle := { s.dev.mle with invPend := some c } }) ∧
    (s.dev.get MLE_INV_STATUS_BUSY = 1 → s.becomes i (s.dev.raiseErr 4 0 0x0002 3 0x30018 0))

/-- The key commands with the OP each writes (Table 2-19). -/
def Sys2Proof.keyOps (lix : Lix) : List (Instr × Nat) :=
  [(.loadCurrent lix, 1), (.loadNext lix, 2), (.loadNextAndRekey lix, 3), (.startRekey lix, 4), (.eraseNext lix, 5), (.eraseAll lix, 6)]

/-- A key command takes its operands at the write and sets BUSY; while BUSY is 1 it is refused as a command while busy (R58). -/
def Sys2Proof.Claims.KeyCommandsStart : Prop :=
  ∀ (s : State) (lix : Lix) (i : Instr) (op : Nat), s.dev.awake = true → (i, op) ∈ keyOps lix →
    let c : KeyCmd :=
      ⟨op, lix.toNat, s.dev.get MLE_KEY_EPOCH_EPOCH, s.dev.blob MLE_KEY_DBLOB_BYTES, s.dev.blob MLE_KEY_LBLOB_BYTES⟩
    (s.dev.get MLE_KEY_STATUS_BUSY = 0 →
      s.becomes i { s.dev.put MLE_KEY_STATUS_BUSY 1 with mle := { s.dev.mle with keyPend := some c } }) ∧
    (s.dev.get MLE_KEY_STATUS_BUSY = 1 → s.becomes i (s.dev.raiseErr 4 0 0x0002 3 0x30020 0))

/-- How an inventory command ends: RESULT by the first test of Table 2-19 that refuses it, BUSY 0; a refused REGISTER leaves the inventory, an
accepted one enters the lantern, REMOVE takes it out, SUSPEND and RESUME change its suspension alone (R58). -/
def Sys2Proof.Claims.InventoryCommandsEnd : Prop :=
  ∀ (s : State) (c : InvCmd), s.dev.awake = true → s.dev.mle.invPend = some c →
    s.completes .invCommandComplete (fun t => t.get MLE_INV_STATUS_BUSY = 0 ∧ t.get MLE_INV_STATUS_RESULT = s.dev.invResult c ∧
      t.mle.invPend = none ∧
      (s.dev.invResult c ≠ 0 → t.mle.inv = s.dev.mle.inv) ∧
      (c.op = 1 → s.dev.invResult c = 0 → t.mle.inv = Tab.ins s.dev.mle.inv c.lix { uid := c.uid, owner := c.owner, gw := c.gw }) ∧
      (c.op = 6 → t.mle.inv = s.dev.mle.inv)) ∧
    (c.op = 1 → c.uid = 0 → s.dev.invResult c = 1) ∧
    (c.op = 1 → c.uid ≠ 0 → (s.dev.byUid c.uid).isSome → s.dev.invResult c = 2) ∧
    (c.op ≠ 1 → s.dev.byUid c.uid = none → s.dev.invResult c = 4)

/-- A key command ends with BUSY 0 and its RESULT; a refused one changes no lantern; LOAD CURRENT loads the unwrapped key as the current key
of the epoch given, in the slot of its parity (R33, R58). -/
def Sys2Proof.Claims.KeyCommandsEnd : Prop :=
  ∀ (s : State) (c : KeyCmd), s.dev.awake = true → s.dev.mle.keyPend = some c →
    s.completes .keyUnwrapComplete (fun t => t.get MLE_KEY_STATUS_BUSY = 0 ∧ t.get MLE_KEY_STATUS_RESULT = s.dev.keyResult c ∧
      t.mle.keyPend = none ∧ (s.dev.keyResult c ≠ 0 → t.mle.inv = s.dev.mle.inv) ∧
      (∀ (l : Lantern) (k : BitVec 128), c.op = 1 → s.dev.lantern c.lix = some l → keyUnwrap s.dev.fuse.kek c.dblob = some k →
        s.dev.keyResult c = 0 → ∃ m, t.lantern c.lix = some m ∧ m.slot c.epoch = { st := .current, key := k, epoch := c.epoch } ∧
          m.slot (c.epoch + 1) = {} ∧ m.uid = l.uid ∧ m.txSeq = 0 ∧ m.rekey = none)) ∧
    (s.dev.lantern c.lix = none → s.dev.keyResult c = 1)

/-- MLE_GW_CMD WRITE stores the operands in the gateway's entry and READ returns the entry: a READ of another entry is not affected by a WRITE
(R27, R57). -/
def Sys2Proof.Claims.GatewayTable : Prop :=
  ∀ (s : State) (i : BitVec 12), s.dev.awake = true →
    s.becomes (.mleGwWrite i) (s.dev.setGateway i.toNat ⟨s.dev.get MLE_GW_ADDR_HI_ADDR, s.dev.get MLE_GW_ADDR_LO_ADDR,
      s.dev.get MLE_GW_CFG_UDP_PORT + s.dev.get MLE_GW_CFG_FP * 2 ^ 16 + s.dev.get MLE_GW_CFG_VALID * 2 ^ 18⟩) ∧
    (∀ (d : Dev) (j : Nat) (g : Gateway), (d.setGateway j g).gateway j = g ∧ ∀ k, k ≠ j → (d.setGateway j g).gateway k = d.gateway k) ∧
    s.completes (.mleGwRead i) (fun t => t.get MLE_GW_ADDR_HI_ADDR = (s.dev.gateway i.toNat).hi % 2 ^ 64 ∧
      t.get MLE_GW_ADDR_LO_ADDR = (s.dev.gateway i.toNat).lo % 2 ^ 64 ∧
      t.get MLE_GW_CFG_UDP_PORT = (s.dev.gateway i.toNat).cfg % 2 ^ 16 ∧
      t.get MLE_GW_CFG_FP = (s.dev.gateway i.toNat).cfg / 2 ^ 16 % 4 ∧
      t.get MLE_GW_CFG_VALID = (s.dev.gateway i.toNat).cfg / 2 ^ 18 % 2 ∧ t.mle = s.dev.mle ∧
      s.dev.onlyRegs t [MLE_GW_ADDR_HI_ADDR, MLE_GW_ADDR_LO_ADDR, MLE_GW_CFG_UDP_PORT, MLE_GW_CFG_FP, MLE_GW_CFG_VALID])

/-- A rekey over time: another REKEY comes due while sends remain; after the last one the rekey ends and event 0x0206 with cause 0 is raised;
an old slot is retired when its grace ends (R54). -/
def Sys2Proof.Claims.RekeyTimers : Prop :=
  ∀ (s : State) (lix : Lix) (l : Lantern), s.dev.awake = true → s.dev.lantern lix.toNat = some l →
    (∀ r : Rekey, l.rekey = some r → r.due = false → 1 ≤ r.sends → r.sends < s.dev.get MLE_REKEY_TRIES →
      s.completes (.rekeyResend lix) (fun t => t.lantern lix.toNat = some { l with rekey := some { r with due := true } } ∧
        t.mle.due = s.dev.mle.due ++ [lix.toNat] ∧ s.dev.onlyRegs t [] ∧ ∀ k, k ≠ lix.toNat → t.lantern k = s.dev.lantern k)) ∧
    (∀ r : Rekey, l.rekey = some r → r.due = false → s.dev.get MLE_REKEY_TRIES ≤ r.sends →
      s.becomes (.rekeyExhausted lix) ((s.dev.endRekey lix.toNat).pfEvent 0x0206 [(4, lix.toNat), (4, l.nextEpoch), (1, 0)])) ∧
    (∀ p, l.parOf .old = some p →
      s.completes (.oldSlotRetire lix) (fun t => ∃ m, t.lantern lix.toNat = some m ∧ (m.slot p).st = .retired ∧
        m.slot (p + 1) = l.slot (p + 1) ∧ m.rekey = l.rekey ∧ s.dev.onlyRegs t [] ∧ ∀ k, k ≠ lix.toNat → t.lantern k = s.dev.lantern k))

/-- The replay window of R35: SEQ 0, a SEQ 64 or more below H and a SEQ already accepted fail; every other passes, and once accepted fails. -/
def Obligations.ReplayWindow : Prop :=
  ∀ (k : KeySlot) (seq : Nat),
    (k.replay seq = 0 ↔ seq ≠ 0 ∧ k.h < seq + 64 ∧ (seq ≤ k.h → k.map.testBit (k.h - seq) = false)) ∧
    (k.replay seq = 0 → (k.accept seq).replay seq = 0x0D ∧ (k.accept seq).h = max k.h seq ∧
      (∀ q, 0 < q → q ≠ seq → (k.accept seq).h < q + 64 → (k.map.testBit (k.h - q) = true ∧ q ≤ k.h ↔ (k.accept seq).replay q = 0x0D)))

/-- The message layer takes the oldest datagram of the port whose turn it is and counts it; one that fails a check is dropped under the
reason of the first check it fails, in the order of R59, and one that passes is admitted with its SEQ entered in the window. -/
def Sys2Proof.Claims.DatagramChecks : Prop :=
  ∀ (s : State) (p : Nat) (g : Dgram) (r : List Dgram), s.dev.awake = true → s.dev.get MLE_CTRL_ENABLE = 1 →
    s.dev.portTurn = some p → (s.dev.fport p).buf = g :: r →
    let d0 := (s.dev.setFport p { s.dev.fport p with buf := r }).inc (FP_CNT_COUNT p 0)
    let d := { d0 with mle := { d0.mle with rr := (p + 1) % 4 } }
    let b := g.bytes
    let uid := beAt b 4 8
    let plen := beAt b 2 2
    let ty := byteAt b 1
    let sane := 32 ≤ b.length ∧ byteAt b 0 / 16 = 3
    let sized := sane ∧ ty ≠ 0x3F ∧ plen ≤ 1200 ∧ plen + 32 = b.length
    let typed := sized ∧ (byteAt b 0).testBit 3 = false ∧ ty ∈ [1, 2, 3, 4, 5, 0x11, 0x21, 0x31]
    (b.length < 32 → s.becomes .mlpDatagramReceive (d.mleDrop 1)) ∧
    (32 ≤ b.length → byteAt b 0 / 16 ≠ 3 → s.becomes .mlpDatagramReceive (d.mleDrop 2)) ∧
    (sane → ty = 0x3F → s.becomes .mlpDatagramReceive ((d.mleDrop 5).unregister uid true p g.src)) ∧
    (sane → ty ≠ 0x3F → (1200 < plen ∨ plen + 32 ≠ b.length) → s.becomes .mlpDatagramReceive (d.mleDrop 3)) ∧
    (sized → (byteAt b 0).testBit 3 = true → s.becomes .mlpDatagramReceive (d.mleDrop 4)) ∧
    (sized → (byteAt b 0).testBit 3 = false → ty ∉ [1, 2, 3, 4, 5, 0x11, 0x21, 0x31] → s.becomes .mlpDatagramReceive (d.mleDrop 6)) ∧
    (typed → s.dev.byUid uid = none → s.becomes .mlpDatagramReceive ((d.mleDrop 7).unregister uid false p g.src)) ∧
    (∀ (lix : Nat) (l : Lantern), typed → s.dev.byUid uid = some (lix, l) →
      let ep := byteAt b 0 / 4 % 2
      let k := l.slot ep
      let seq := beAt b 12 4
      (l.suspended = true → s.becomes .mlpDatagramReceive (d.mleDrop 8)) ∧
      (l.suspended = false → k.st = .empty → s.becomes .mlpDatagramReceive (d.mleDrop 9)) ∧
      (l.suspended = false → k.st = .retired → s.becomes .mlpDatagramReceive (d.mleDrop 0x0A)) ∧
      (l.suspended = false → k.st ≠ .empty → k.st ≠ .retired → k.replay seq ≠ 0 → s.becomes .mlpDatagramReceive (d.mleDrop (k.replay seq))) ∧
      let opened := gcmOpen k.key (mlpNonce 0 k.epoch seq) (b.take 16) ((b.drop 16).take (b.length - 32)) (b.drop (b.length - 16))
      (l.suspended = false → k.st ≠ .empty → k.st ≠ .retired → k.replay seq = 0 → opened = none →
        s.becomes .mlpDatagramReceive ((d.mleDrop 0x0E).authFail lix l)) ∧
      (∀ pl : List Byte, l.suspended = false → k.st = .current → k.replay seq = 0 → seq < s.dev.get MLE_SEQ_WARN_THRESHOLD →
        opened = some pl →
        let m := l.setSlot ep (k.accept seq)
        (payloadOk ty pl = false → s.becomes .mlpDatagramReceive ((d.setLantern lix m).mleDrop 0x0F)) ∧
        (payloadOk ty pl = true → s.becomes .mlpDatagramReceive ((d.setLantern lix m).mleAdmit lix m p ep ty (b.take 16) pl))))

/-- Egress: with no REKEY due and both egress queues without an entry nothing is sent; a due REKEY counts as one of its sends, and an egress
message for an UID that no longer has its local index is withheld under reason 1 (R54, R61, R63). -/
def Sys2Proof.Claims.EgressOrder : Prop :=
  ∀ (s : State), s.dev.awake = true → s.dev.ord.todo = [] →
    (∀ (lix : Nat) (r : List Nat) (l : Lantern) (k : Rekey), s.dev.mle.due = lix :: r → s.dev.lantern lix = some l → l.rekey = some k →
      s.dev.get MLE_CTRL_ENABLE = 0 →
      s.becomes .mlpEgressTake ((({ s.dev with mle := { s.dev.mle with due := r } }).setLantern lix
        { l with rekey := some { k with sends := k.sends + 1, due := false } }).inc (MLE_TXDROP_CNT_COUNT 4))) ∧
    (s.dev.mle.due = [] → s.dev.taken 0x158C = [] → s.dev.taken 0x158D = [] → (s.dev.queue 0x158C).es = [] → (s.dev.queue 0x158D).es = [] →
      s.becomes .mlpEgressTake s.dev)

/-- The inventory commands, at the write that starts them and at their end (R58, Table 2-19). -/
def Obligations.InventoryCommands : Prop := Claims.InventoryCommandsStart ∧ Claims.InventoryCommandsEnd

/-- The key commands, at the write that starts them and at their end (R33, R58, Table 2-19). -/
def Obligations.KeyCommands : Prop := Claims.KeyCommandsStart ∧ Claims.KeyCommandsEnd


/-- A datagram that passes every check of R59 is admitted: its entry, prefix, header and payload, stands last in the queue of its type — the shard's
lantern queue for DETECT and WAVE, 0x158B for ENERGY, 0x158A for an ORDER-ACK, the owner's for a reply — its SEQ is in the window, and it is
counted (R35, R59, R62). -/
def Sys2Proof.Claims.DatagramAdmitted : Prop :=
  ∀ (s : State) (p : Nat) (g : Dgram) (r : List Dgram) (lix : Nat) (l : Lantern) (pl : List Byte) (q : Nat), s.dev.awake = true →
    s.dev.get MLE_CTRL_ENABLE = 1 → s.dev.portTurn = some p → (s.dev.fport p).buf = g :: r →
    let b := g.bytes
    let ty := byteAt b 1
    let ep := byteAt b 0 / 4 % 2
    let k := l.slot ep
    let seq := beAt b 12 4
    let e : Entry := { words := s.dev.prefixWords lix l.owner p ep ++ packWords (b.take 16 ++ pl) }
    let dest := if ty = 1 ∨ ty = 5 then s.dev.shardQueue (lix / 32) else if ty = 4 then some 0x158B else if ty = 0x11 then some 0x158A
      else if ty = 0x21 then some (0x15C0 + l.owner) else none
    byteAt b 0 / 16 = 3 → beAt b 2 2 ≤ 1200 → beAt b 2 2 + 32 = b.length → (byteAt b 0).testBit 3 = false → s.dev.byUid (beAt b 4 8) = some (lix, l) →
    l.suspended = false → k.st = .current → k.replay seq = 0 → seq < s.dev.get MLE_SEQ_WARN_THRESHOLD →
    gcmOpen k.key (mlpNonce 0 k.epoch seq) (b.take 16) ((b.drop 16).take (b.length - 32)) (b.drop (b.length - 16)) = some pl →
    payloadOk ty pl = true → dest = some q → s.dev.hasRoom q e →
    s.completes .mlpDatagramReceive (fun t => s.dev.gotEntry t q e ∧ t.lantern lix = some (l.setSlot ep (k.accept seq)) ∧ (t.fport p).buf = r ∧
      t.get MLE_RX_CNT_COUNT = satw 48 (s.dev.get MLE_RX_CNT_COUNT + 1))

/-- The checks of a received datagram and the admission of one that passes them (R35, R59, R60, R62). -/
def Obligations.DatagramChecks : Prop := Claims.DatagramChecks ∧ Claims.DatagramAdmitted

/-- An egress entry whose lantern, key, gateway, port and next hop allow it is sealed under the current key with the next SEQ, and its frame waits on
the link of its next hop; it is counted (R38, R39, R61, R63, R73–R75). -/
def Sys2Proof.Claims.MessageSent : Prop :=
  ∀ (s : State) (e : Entry) (r : List Entry) (l : Lantern) (par link : Nat), s.dev.awake = true →
    s.dev.ord.todo = [] → s.dev.mle.due = [] → s.dev.get MLE_CTRL_ENABLE = 1 → s.dev.taken 0x158C = e :: r → e.poison = false →
    let w := fun i => (e.words.getD i 0).toNat
    let ty := w 5 / 256
    let lix := w 4 + w 5 % 4 * 65536
    let uid := wordsNat (e.words.take 4)
    let pl := slice (wordBytes (e.words.drop 8)) 0 (w 6)
    let k := l.slot par
    let seq := l.txSeq + 1
    let g := s.dev.gateway l.gw
    let p := bits g.cfg 17 16
    let nh := Tab.get 0 s.dev.fp.nh l.gw
    let hdr := beBytes 1 (0x38 + k.epoch % 2 * 4) ++ beBytes 1 ty ++ beBytes 2 pl.length ++ beBytes 8 uid ++ beBytes 4 seq
    let sealed_ := gcmSeal k.key (mlpNonce 1 k.epoch seq) hdr pl
    egressFits ty (w 6) = true → s.dev.lantern lix = some l → l.uid = uid → l.suspended = false → l.parOf .current = some par → seq < 0xFFFFFF00 →
    seq < s.dev.get MLE_SEQ_WARN_THRESHOLD → g.valid = true → s.dev.fpOpen p = true → nh.testBit 50 = true →
    s.dev.fpTxLink p (bits nh 49 48) = some link →
    s.completes .mlpEgressTake (fun t => t.lantern lix = some { l with txSeq := seq } ∧ t.taken 0x158C = r ∧
      (∃ moved, (t.fport p).txq = (s.dev.fport p).txq ++ [⟨link, s.dev.mlpFrame p (bits nh 47 0) g (hdr ++ sealed_.1 ++ sealed_.2), moved⟩]) ∧
      t.get MLE_TX_CNT_COUNT = satw 48 (s.dev.get MLE_TX_CNT_COUNT + 1))

/-- After its last allowed send a rekey ends: the lantern's rekey is gone and event 0x0206 with cause 0 goes to the PF (R54). -/
def Sys2Proof.Claims.RekeyEnds : Prop :=
  ∀ (s : State) (lix : Lix) (l : Lantern) (r : Rekey), s.dev.awake = true → s.dev.lantern lix.toNat = some l → l.rekey = some r → r.due = false →
    s.dev.get MLE_REKEY_TRIES ≤ r.sends →
    let par := [(4, lix.toNat), (4, l.nextEpoch), (1, 0)]
    s.completes (.rekeyExhausted lix) (fun t => t.lantern lix.toNat = some { l with rekey := none } ∧ lix.toNat ∉ t.mle.due ∧
      (s.dev.eventFits 0x0206 par → s.dev.raised t 0x0206 par))

/-- The gateway table, the timers of a rekey and of an old key slot, and egress (R27, R54, R57, R61, R63). -/
def Obligations.GatewaysRekeysEgress : Prop :=
  Claims.GatewayTable ∧ Claims.RekeyTimers ∧ Claims.EgressOrder ∧ Claims.MessageSent ∧ Claims.RekeyEnds
/-! ### Chapter 3: the field ports -/

/-- FP_SVC.OP: what OUT, IN and PARK do in each state of a port, and that a command while BUSY is refused (R67, R82, R83, Table 3-8). -/
def Sys2Proof.Claims.PortServiceCommands : Prop :=
  ∀ (s : State) (r : Requester) (p : Port), s.dev.awake = true →
    let st := s.dev.get (FP_SVC_STATE p)
    (s.dev.get (FP_SVC_BUSY p) = 1 →
      s.becomes (.fpOut r p) (s.dev.raiseErr 3 p 0x0002 3 (fpOff p 2) 0) ∧
      s.becomes (.fpIn p) (s.dev.raiseErr 3 p 0x0002 3 (fpOff p 2) 0)) ∧
    (s.dev.get (FP_SVC_BUSY p) = 0 →
      (st = 0 → s.becomes (.fpOut r p) s.dev ∧ s.becomes (.fpIn p) (s.dev.fpReturn p)) ∧
      (st = 1 → s.becomes (.fpOut r p) ((s.dev.fpLanesOff p).put (FP_SVC_STATE p) 0) ∧ s.becomes (.fpIn p) s.dev) ∧
      (st = 2 → s.becomes (.fpIn p) s.dev ∧
        s.becomes (.fpOut r p) (((s.dev.put (FP_SVC_BUSY p) 1).addCnt (FP_TXDROP_COUNT p 2) (s.dev.fport p).txq.length).setFport p
          { s.dev.fport p with txq := [] })) ∧
      (st = 3 → s.becomes (.fpOut r p) (s.dev.raiseErr 3 p 0x0003 3 (fpOff p 2) (srcOf r)) ∧
        s.becomes (.fpIn p) (((s.dev.put (FP_WAKE_CAUSE p) 0).pfEvent 0x0305 [(1, p), (1, 0)]).fpReturn p)) ∧
      (st = 0 → s.completes (.fpPark r p) (fun t => t.get (FP_SVC_STATE p) = 3 ∧ t.fp = s.dev.fp ∧ t.mle = s.dev.mle))) ∧
    (s.dev.get (FP_SVC_BUSY p) = 1 → (s.dev.fport p).buf = [] →
      s.becomes (.fpOutComplete p) ((((s.dev.slowDrain p).fpLanesOff p).put (FP_SVC_STATE p) 0).put (FP_SVC_BUSY p) 0))

/-- Bring-up: a link reaches the stages of Table 3-3 in their order, and RS-FEC lock starts its hold-off; at its end the link is usable and a
returning port is in service (event 0x0306); a codeword or the loss of a stage in the hold-off ends it until the next FEC lock; a usable link
that loses lock stops, loses the frames queued on it, counts the loss and raises event 0x0302; a port still returning after its time raises event
0x0307 (R67, R68). -/
def Obligations.LinkBringUp : Prop :=
  ∀ (s : State) (p : Port) (l : Fin 4) (st : LinkStage), s.dev.awake = true →
    let k := s.dev.fpLink p l
    let f := s.dev.fport p
    (f.lanesOn = true → s.dev.get (FP_SVC_STATE p) = 1 → (s.dev.get (FP_STATUS_FEC_LOCK p)).testBit k = false →
      s.becomes (.fpFecLock p ⟨l, .fec⟩) ((s.dev.fpLocks p k 0 5 true).setFport p { f with holdoff := f.holdoff ||| 2 ^ k }) ∧
      (st ≠ .fec → s.becomes (.fpFecLock p ⟨l, st⟩) (s.dev.fpLocks p k 0 (stageNo st) true))) ∧
    (f.holdoff.testBit k = true → f.lost.testBit k = false → s.dev.get (FP_SVC_STATE p) = 1 →
      s.completes (.fpHoldoffEnd p l) (fun t => t.get (FP_SVC_STATE p) = 2 ∧ (t.get (FP_STATUS_LINK_UP p)).testBit k = true ∧
        (t.fport p).holdoff.testBit k = false ∧ (t.fport p).buf = f.buf ∧ t.mle = s.dev.mle)) ∧
    (f.holdoff.testBit k = true →
      s.becomes (.uncorrectableCodeword (.field p l) none)
        (((s.dev.inc (FP_LCNT_COUNT p (8 * k + 5))).fpLocks p k 5 5 false).setFport p { f with holdoff := f.holdoff - 2 ^ k }) ∧
      s.becomes (.uncorrectableCodeword (.field p l) (some st))
        ((s.dev.fpLocks p k (stageNo st) 5 false).setFport p { f with holdoff := f.holdoff - 2 ^ k })) ∧
    ((s.dev.get (FP_STATUS_LINK_UP p)).testBit k = true →
      s.completes (.fpLockLoss p ⟨l, st⟩) (fun t => (t.get (FP_STATUS_LINK_UP p)).testBit k = false ∧
        t.get (FP_LCNT_COUNT p (8 * k + 7)) = satw 48 (s.dev.get (FP_LCNT_COUNT p (8 * k + 7)) + 1) ∧
        (t.fport p).txq = f.txq.filter (fun x => x.link != k) ∧ t.get (FP_SVC_STATE p) = s.dev.get (FP_SVC_STATE p) ∧ t.mle = s.dev.mle)) ∧
    (s.dev.get (FP_SVC_STATE p) = 1 →
      s.becomes (.fpReturnTimeout p) (s.dev.pfEvent 0x0307 [(1, p), (4, s.dev.fpStatus p)]))

/-- The wake detector of a parked port, in the two modes in which it is armed, brings the port back with its cause and event 0x0305 while the
device runs (R83). -/
def Sys2Proof.Claims.PortWake : Prop :=
  ∀ (s : State) (p : Port) (pattern : Bool), s.dev.onAir = true → s.dev.get PWR_STATUS_STATE = 0 → s.dev.get (FP_SVC_STATE p) = 3 →
    (s.dev.get (FP_WAKE_MODE p) = 1 →
      s.becomes (.fpWakeDetect p pattern) (((s.dev.put (FP_WAKE_CAUSE p) 1).pfEvent 0x0305 [(1, p), (1, 1)]).fpReturn p)) ∧
    (s.dev.get (FP_WAKE_MODE p) = 2 →
      s.becomes (.fpWakeDetect p true) (((s.dev.put (FP_WAKE_CAUSE p) 2).pfEvent 0x0305 [(1, p), (1, 2)]).fpReturn p) ∧
      s.becomes (.fpWakeDetect p false) s.dev) ∧
    (s.dev.get (FP_WAKE_MODE p) = 0 → s.becomes (.fpWakeDetect p pattern) s.dev)

/-- A received frame is counted on its link and classified once (R69): a drop counts under its reason and changes nothing else; an MLP
datagram that fits and finds the buffer below high water enters the port's receive buffer, 8 B dearer than its payload (R71, R72); a frame for
the slow lane that finds a token and fits enters the slow-lane buffer with its receive timestamp, and one that does not fit is dropped under
0x0D (R77). -/
def Sys2Proof.Claims.FrameReception : Prop :=
  ∀ (s : State) (p : Port) (l : Fin 4) (f : List Byte) (cw sym : BitVec 16) (begun : Bool), s.dev.awake = true →
    let k := s.dev.fpLink p l
    let d := (((s.dev.inc (FP_LCNT_COUNT p (8 * k + 0))).addCnt (FP_LCNT_COUNT p (8 * k + 1)) f.length).addCnt
      (FP_LCNT_COUNT p (8 * k + 4)) cw.toNat).addCnt (FP_LCNT_COUNT p (8 * k + 6)) sym.toNat
    (∀ r, s.dev.classify p k f begun = .drop r → s.becomes (.fpFrameReceive p l f cw sym begun) (d.inc (FP_RXDROP_COUNT p r))) ∧
    (∀ (b : List Byte) (src : Nat), s.dev.classify p k f begun = .mlp b src →
      (s.dev.fport p).occ < s.dev.get (FP_BUF_HIWAT p) * 65536 → (s.dev.fport p).occ + b.length + 8 < s.dev.get (FP_BUF_HIWAT p) * 65536 →
      s.dev.get (FP_BUF_HIWAT p) ≤ 16 →
      s.completes (.fpFrameReceive p l f cw sym begun) (fun t => (t.fport p).buf = (s.dev.fport p).buf ++ [⟨b, src, s.dev.now⟩] ∧
        (t.fport p).occ = (s.dev.fport p).occ + b.length + 8 ∧ t.mle = s.dev.mle ∧ t.bsk = s.dev.bsk)) ∧
    (∀ tag : Bool, s.dev.classify p k f begun = .slow tag → s.dev.get (FP_SLRATE_RATE p) ≠ 0 →
      (s.dev.fport p).slUsed + 1000000 ≤ s.dev.get (FP_SLRATE_BURST p) * 1000000 →
      let body := f.take (f.length - 4)
      ((s.dev.fport p).slowOcc + body.length ≤ 65536 →
        s.completes (.fpFrameReceive p l f cw sym begun) (fun t =>
          (t.fport p).slow = (s.dev.fport p).slow ++ [⟨k, tag, (s.dev.stamp (s.dev.get (FP_TS_ADJ_RX p))).1,
            (s.dev.stamp (s.dev.get (FP_TS_ADJ_RX p))).2, body⟩] ∧ (t.fport p).buf = (s.dev.fport p).buf ∧ t.bsk = s.dev.bsk)) ∧
      (65536 < (s.dev.fport p).slowOcc + body.length →
        s.completes (.fpFrameReceive p l f cw sym begun) (fun t => (t.fport p).slow = (s.dev.fport p).slow ∧
          t.get (FP_RXDROP_COUNT p 0x0D) = satw 48 (s.dev.get (FP_RXDROP_COUNT p 0x0D) + 1))))

/-- Of the frames R69 drops: one shorter than 64 B under 2, one whose FCS does not match under 1, both on a usable link of a port in service;
and every frame of a port out of service under 0x0E. -/
def Sys2Proof.Claims.FrameDrops : Prop :=
  ∀ (d : Dev) (p l : Nat) (f : List Byte),
    (d.get (FP_SVC_STATE p) ≠ 2 → d.classify p l f false = .drop 0x0E) ∧
    (d.fpOpen p = true → (d.get (FP_STATUS_LINK_UP p)).testBit (d.fpLink p l) = true →
      (f.length < 64 → d.classify p l f false = .drop 2) ∧
      (64 ≤ f.length → fcs (f.take (f.length - 4)) ≠ f.drop (f.length - 4) → d.classify p l f false = .drop 1))

/-- FP_CFG takes VLAN_EN and VID at any time and MODE only while the port is out of service; a write that would change MODE otherwise is
ignored whole, and one with a reserved VID is refused (R86, Table 3-8). -/
def Sys2Proof.Claims.PortConfiguration : Prop :=
  ∀ (s : State) (r : Requester) (p : Port) (v : BitVec 32), s.dev.awake = true →
    let n := v.toNat
    let vidBad := n.testBit 1 = true ∧ (n / 16 % 4096 = 0 ∨ n / 16 % 4096 = 4095)
    (¬ vidBad → (n % 2 = s.dev.get (FP_CFG_MODE p) ∨ s.dev.get (FP_SVC_STATE p) = 0) →
      s.becomes (.fpCfgWrite r p v) (((s.dev.put (FP_CFG_MODE p) (n % 2)).put (FP_CFG_VLAN_EN p) (n / 2 % 2)).put (FP_CFG_VID p) (n / 16 % 4096))) ∧
    (¬ vidBad → n % 2 ≠ s.dev.get (FP_CFG_MODE p) → s.dev.get (FP_SVC_STATE p) ≠ 0 →
      s.becomes (.fpCfgWrite r p v) (s.dev.raiseErr 3 p 0x0003 3 (fpOff p 0) (srcOf r))) ∧
    (vidBad → s.becomes (.fpCfgWrite r p v) (s.dev.raiseErr 3 p 0x0001 3 (fpOff p 0) 0))

/-- The next-hop table: WRITE stores FP_NH_ENTRY as the gateway's entry and READ returns what the entry holds (R74). -/
def Sys2Proof.Claims.NextHopTable : Prop :=
  ∀ (s : State) (i : BitVec 12), s.dev.awake = true →
    (let v := s.dev.get FP_NH_ENTRY_MAC + s.dev.get FP_NH_ENTRY_LINK * 2 ^ 48 + s.dev.get FP_NH_ENTRY_VALID * 2 ^ 50
     s.completes (.fpNhWrite i) (fun t => Tab.get 0 t.fp.nh i.toNat = v ∧
       (∀ j, j ≠ i.toNat → Tab.get 0 t.fp.nh j = Tab.get 0 s.dev.fp.nh j) ∧ t.fp.port = s.dev.fp.port ∧ s.dev.onlyRegs t [])) ∧
    (let v := Tab.get 0 s.dev.fp.nh i.toNat
     s.completes (.fpNhRead i) (fun t => t.get FP_NH_ENTRY_MAC = v % 2 ^ 48 ∧ t.get FP_NH_ENTRY_LINK = v / 2 ^ 48 % 4 ∧
       t.get FP_NH_ENTRY_VALID = v / 2 ^ 50 % 2 ∧ t.fp = s.dev.fp ∧
       s.dev.onlyRegs t [FP_NH_ENTRY_MAC, FP_NH_ENTRY_LINK, FP_NH_ENTRY_VALID]))

/-- Transmission: with MLP frames alone waiting the oldest leaves on its link and is counted; a slow-lane frame leaves with its FCS when it is
the slow lane's turn, which with SLSHARE 0 it never is while an MLP frame waits, and with TSREQ its time, cookie and link enter the FIFO; a read of FP_TXTS_INFO moves the oldest FIFO entry into the latch and returns it, and with
PEEK it moves nothing (R76, R78, R81). -/
def Obligations.PortTransmission : Prop :=
  ∀ (s : State) (p : Port), s.dev.awake = true →
    (∀ (x : TxFrame) (r : List TxFrame), (s.dev.fport p).txq = x :: r → s.dev.slowNext p = none →
      let d := ((s.dev.setFport p { s.dev.fport p with txq := r }).fpEmit p x.link x.bytes).inc (FP_CNT_COUNT p 2)
      s.becomes (.fpFrameTransmit p) (if x.moved then d.inc (FP_CNT_COUNT p 4) else d)) ∧
    ((s.dev.fport p).txq ≠ [] → s.dev.get (FP_BUF_SLSHARE p) = 0 → s.becomes (.slowLaneSend p) s.dev) ∧
    ((s.dev.fport p).txq = [] → s.dev.slowNext p = none → s.becomes (.fpFrameTransmit p) s.dev) ∧
    (∀ (e : Entry) (r : List Entry) (l : Nat), s.dev.taken (0x1584 + p) = e :: r → e.poison = false → s.dev.fpOpen p = true →
      let d := { s.dev with bsk := { s.dev.bsk with taken := Tab.set [] s.dev.bsk.taken (0x1584 + p) r } }
      let w := fun i => (e.words.getD i 0).toNat
      let b := slice (wordBytes (e.words.drop 8)) 0 (w 0)
      (s.dev.fport p).txq = [] → 60 ≤ w 0 → w 0 ≤ 1518 → w 1 / 8 % 2 = 0 → w 1 / 4 % 2 = 0 → usableFrom (s.dev.get (FP_STATUS_LINK_UP p)) 4 0 = some l →
      s.becomes (.slowLaneSend p) ((d.fpEmit p l (b ++ fcs b)).inc (FP_CNT_COUNT p 3))) ∧
    (∀ (x : TxStamp) (r : List TxStamp), (s.dev.fport p).fifo = x :: r →
      s.completes (.fpTxtsInfoRead p false) (fun t => (t.fport p).fifo = r ∧ t.get (FP_TXTS_INFO_VALID p) = 1 ∧
        t.get (FP_TXTS_INFO_LINK p) = x.link % 4 ∧ t.get (FP_TXTS_INFO_FRAC p) = x.frac % 256 ∧
        t.get (FP_TXTS_INFO_COOKIE p) = x.cookie % 65536 ∧ t.get (FP_TXTS_TIME_NS p) = x.ns % 2 ^ 64 ∧
        t.out = .readData (fpOff p 0x20) (t.txtsInfo p) :: s.dev.out)) ∧
    ((s.dev.fport p).fifo = [] → s.completes (.fpTxtsInfoRead p false) (fun t => t.get (FP_TXTS_INFO_VALID p) = 0 ∧ t.fp = s.dev.fp)) ∧
    s.becomes (.fpTxtsInfoRead p true) (s.dev.emit (.readData (fpOff p 0x20) (s.dev.txtsInfo p)))

/-- What becomes of a frame that a field port receives (R69, R71, R72). -/
def Obligations.PortReception : Prop := Claims.FrameReception ∧ Claims.FrameDrops


/-- The commands of a field port by their results. OUT of a returning port stops its lanes, and of a port in service begins the drain, which ends with
the slow-lane buffer empty, the lanes off and the port out of service; IN and a wake start bring-up, with the cause in FP_WAKE.CAUSE; FEC lock
starts a link's hold-off, and a codeword or a stage lost in it ends it; a port still returning raises event 0x0307; the oldest MLP frame and a
slow-lane frame leave on their link and are counted (R67, R68, R76–R78, R82, R83). -/
def Sys2Proof.Claims.PortResults : Prop :=
  ∀ (s : State) (r : Requester) (p : Port), s.dev.awake = true →
    let d := s.dev
    let f := d.fport p
    let st := d.get (FP_SVC_STATE p)
    let starts := fun (t : Dev) (cause : Nat) => t.get (FP_SVC_STATE p) = 1 ∧ (t.fport p).lanesOn = true ∧ t.get (FP_WAKE_CAUSE p) = cause ∧
      (d.eventFits 0x0305 [(1, p), (1, cause)] → d.raised t 0x0305 [(1, p), (1, cause)])
    (d.get (FP_SVC_BUSY p) = 0 →
      (st = 1 → s.completes (.fpOut r p) (fun t => t.get (FP_SVC_STATE p) = 0 ∧ (t.fport p).lanesOn = false ∧ t.get (FP_STATUS_LINK_UP p) = 0)) ∧
      (st = 2 → s.completes (.fpOut r p) (fun t => t.get (FP_SVC_BUSY p) = 1 ∧ (t.fport p).txq = [] ∧
        t.get (FP_TXDROP_COUNT p 2) = satw 48 (d.get (FP_TXDROP_COUNT p 2) + f.txq.length))) ∧
      (st = 0 → s.completes (.fpIn p) (fun t => t.get (FP_SVC_STATE p) = 1 ∧ (t.fport p).lanesOn = true ∧ t.bsk = d.bsk)) ∧
      (st = 3 → s.completes (.fpIn p) (fun t => starts t 0))) ∧
    (d.get (FP_SVC_BUSY p) = 1 → f.buf = [] →
      s.completes (.fpOutComplete p) (fun t => t.get (FP_SVC_STATE p) = 0 ∧ t.get (FP_SVC_BUSY p) = 0 ∧ t.get (FP_STATUS_LINK_UP p) = 0 ∧
        t.get (FP_STATUS_FEC_LOCK p) = 0 ∧ (t.fport p).slow = [] ∧ (t.fport p).lanesOn = false ∧ (t.fport p).holdoff = 0)) ∧
    (st = 3 → d.get PWR_STATUS_STATE = 0 → ∀ pattern, d.get (FP_WAKE_MODE p) = 1 ∨ d.get (FP_WAKE_MODE p) = 2 ∧ pattern = true →
      s.completes (.fpWakeDetect p pattern) (fun t => starts t (d.get (FP_WAKE_MODE p)))) ∧
    (st = 1 → s.completes (.fpReturnTimeout p) (fun t => t.fp = d.fp ∧ t.get (FP_SVC_STATE p) = 1 ∧
      (d.eventFits 0x0307 [(1, p), (4, d.fpStatus p)] → d.raised t 0x0307 [(1, p), (4, d.fpStatus p)]))) ∧
    (∀ (l : Fin 4) (stage : LinkStage),
      let k := d.fpLink p l
      (f.lanesOn = true → st = 1 ∨ st = 2 → (d.get (FP_STATUS_FEC_LOCK p)).testBit k = false →
        s.completes (.fpFecLock p ⟨l, .fec⟩) (fun t => (t.get (FP_STATUS_FEC_LOCK p)).testBit k = true ∧ (t.fport p).holdoff = f.holdoff ||| 2 ^ k ∧
          t.get (FP_LANE_SIGNAL p k) = 1 ∧ t.get (FP_LANE_CDR_LOCK p k) = 1 ∧ t.get (FP_LANE_ADAPT_DONE p k) = 1 ∧
          (t.get (FP_STATUS_BLOCK_LOCK p)).testBit k = true ∧ (d.get (FP_CFG_MODE p) = 0 → t.get (FP_STATUS_AM_LOCK p) = 1))) ∧
      (f.holdoff.testBit k = true →
        s.completes (.uncorrectableCodeword (.field p l) none) (fun t => (t.get (FP_STATUS_FEC_LOCK p)).testBit k = false ∧
          (t.fport p).holdoff = f.holdoff - 2 ^ k ∧ t.get (FP_LCNT_COUNT p (8 * k + 5)) = satw 48 (d.get (FP_LCNT_COUNT p (8 * k + 5)) + 1)) ∧
        s.completes (.uncorrectableCodeword (.field p l) (some stage)) (fun t => (t.get (FP_STATUS_FEC_LOCK p)).testBit k = false ∧
          (t.fport p).holdoff = f.holdoff - 2 ^ k))) ∧
    (∀ (x : TxFrame) (q : List TxFrame), f.txq = x :: q → d.slowNext p = none →
      s.completes (.fpFrameTransmit p) (fun t => t.out = .fpFrame p x.link x.bytes :: d.out ∧ (t.fport p).txq = q ∧
        t.get (FP_CNT_COUNT p 2) = satw 48 (d.get (FP_CNT_COUNT p 2) + 1) ∧ (t.fport p).slow = f.slow ∧ t.bsk = d.bsk)) ∧
    (∀ (e : Entry) (q : List Entry) (l : Nat), d.taken (0x1584 + p) = e :: q → e.live = true → e.poison = false → d.fpOpen p = true → f.txq = [] →
      let w := fun i => (e.words.getD i 0).toNat
      let b := slice (wordBytes (e.words.drop 8)) 0 (w 0)
      60 ≤ w 0 → w 0 ≤ 1518 → w 1 / 8 % 2 = 0 → w 1 / 4 % 2 = 0 → usableFrom (d.get (FP_STATUS_LINK_UP p)) 4 0 = some l →
      ∀ c ∈ [Instr.slowLaneSend p, .fpFrameTransmit p],
        s.completes c (fun t => t.out = .fpFrame p l (b ++ fcs b) :: d.out ∧ t.taken (0x1584 + p) = q ∧
          t.get (FP_CNT_COUNT p 3) = satw 48 (d.get (FP_CNT_COUNT p 3) + 1)))

/-- The service states of a field port, its wake detector, and its commands by their results (R67, R82, R83, Table 3-8). -/
def Obligations.PortService : Prop := Claims.PortServiceCommands ∧ Claims.PortWake ∧ Claims.PortResults

/-- FP_CFG by its result (R86). -/
def Sys2Proof.Claims.PortConfigured : Prop :=
  ∀ (s : State) (r : Requester) (p : Port) (v : BitVec 32), s.dev.awake = true →
    let n := v.toNat
    ¬ (n.testBit 1 = true ∧ (n / 16 % 4096 = 0 ∨ n / 16 % 4096 = 4095)) → (n % 2 = s.dev.get (FP_CFG_MODE p) ∨ s.dev.get (FP_SVC_STATE p) = 0) →
    s.completes (.fpCfgWrite r p v) (fun t => t.get (FP_CFG_MODE p) = n % 2 ∧ t.get (FP_CFG_VLAN_EN p) = n / 2 % 2 ∧
      t.get (FP_CFG_VID p) = n / 16 % 4096 ∧ s.dev.onlyRegs t [FP_CFG_MODE p, FP_CFG_VLAN_EN p, FP_CFG_VID p])

/-- The configuration of a port and the next-hop table (R74, R86). -/
def Obligations.PortTables : Prop := Claims.PortConfiguration ∧ Claims.PortConfigured ∧ Claims.NextHopTable
/-! ### Chapter 4: the Basket and the weave -/

/-- An entry that finds room on a queue that is enabled, not spilled and shallower than its depth limit is placed at its tail and counted as
committed; on a disabled queue it is refused under reason 4 and above the depth limit under reason 3, and counted as dropped (R91–R94, R100). -/
def Sys2Proof.Claims.EntryPlacement : Prop :=
  ∀ (d : Dev) (n : Nat) (e : Entry), let q := d.queue n
    (q.enable = true → e.cells ≤ q.odq → q.spilled = false → q.head + e.cells ≤ q.odq → d.room q e.cells = true →
      (d.enq n e).2 = .placed ∧ ((d.enq n e).1.queue n).es = q.es ++ [e] ∧ ((d.enq n e).1.queue n).head = q.head + e.cells ∧
      ((d.enq n e).1.queue n).committed = satw 48 (q.committed + 1) ∧
      ((d.enq n e).1.queue n).cells = q.cells ++ (takeCells e.cells d.usedCells d.bsk.bank).1 ∧
      (d.enq n e).1.get (BSK_CNT_COUNT 0) = satw 48 (d.get (BSK_CNT_COUNT 0) + 1) ∧
      (∀ m, m ≠ n → (d.enq n e).1.queue m = d.queue m)) ∧
    (q.enable = false → d.enq n e = (d.countDrop n 4 1, .refused 4)) ∧
    (q.enable = true → q.odq < e.cells → d.enq n e = (d.countDrop n 3 1, .refused 3)) ∧
    ((d.countDrop n 4 1).queue n).dropped = satw 48 (q.dropped + 1) ∧
    (d.countDrop n 4 1).get (BSK_DROP_CNT_COUNT 4) = satw 48 (d.get (BSK_DROP_CNT_COUNT 4) + 1)

/-- A cell comes from the next bank in rotation that has a free one (R88): every cell of the banks passed over is in use. -/
def Sys2Proof.Claims.CellAllocation : Prop :=
  ∀ (used : List Nat) (b c : Nat), b < 32 → freeFrom used 32 b = some c →
    c < 393216 ∧ c ∉ used ∧ ∀ k, k < (c + 32 - b) % 32 → ∀ x, x < 393216 → x % 32 = (b + k) % 32 → x ∈ used

/-- Whatever the Basket does with an entry, committing it changes nothing but the queues and the Basket's counters. -/
def Sys2Proof.Claims.CommitFrame : Prop := ∀ (d : Dev) (n : Nat) (e : Entry), d.bskOnly (d.enqueue n e).1 ∧ ∀ (f c : Nat) (p : List (Nat × Nat)), d.bskOnly (d.event f c p)

/-- A queue delivers its oldest whole entry (R91, R98): the oldest live entry whose cells all lie in HEAD leaves, is counted, and frees its
cells; a queue without an entry is empty. -/
def Sys2Proof.Claims.DequeueOrder : Prop :=
  ∀ (s : State) (q : QNum) (e : Entry) (r : List Entry), s.dev.awake = true →
    let n := q.toNat
    let x := s.dev.queue n
    ¬ (0x1400 ≤ n ∧ n < 0x1580 ∧ (n - 0x1400) % 6 = 4) → x.es = e :: r → e.live = true → e.cells ≤ x.head - 16 * x.refillFly →
    s.completes (.bskDequeue q .good) (fun t => t.taken n = s.dev.taken n ++ [e] ∧ (t.queue n).es = r ∧
      (t.queue n).head = x.head - e.cells ∧ (t.queue n).dequeued = satw 48 (x.dequeued + 1) ∧
      t.get (BSK_CNT_COUNT 1) = satw 48 (s.dev.get (BSK_CNT_COUNT 1) + 1) ∧ (∀ m, m ≠ n → t.queue m = s.dev.queue m) ∧
      s.dev.onlyRegs t [BSK_CNT_COUNT 1])

/-- BSK_ENQUEUE commits an entry of the words given: to an event, record or bulk-in queue with the function's next number in it, to a command or
bulk-out queue with the function's generation, to a hand-off queue as a hand-off; a held entry is retried with the same words (R92, R99, R196,
R215, R216, R218). -/
def Sys2Proof.Claims.EnqueueCommands : Prop :=
  ∀ (s : State) (q : QNum), s.dev.awake = true → let n := q.toNat
    let f := (n - 0x1400) / 6
    let k := (n - 0x1400) % 6
    (∀ ws : List Word, n < 0x1400 → byteAt (msgBytes { words := ws }) 1 ≠ 1 → s.becomes (.bskEnqueue q ws) (s.dev.send n { words := ws })) ∧
    (∀ ws : List Word, 0x1580 ≤ n → n < 0x15A0 ∨ 0x15C0 ≤ n → s.becomes (.bskEnqueue q ws) (s.dev.send n { words := ws })) ∧
    (∀ ws : List Word, 0x15A0 ≤ n → n < 0x15C0 → s.becomes (.bskEnqueue q ws) (s.dev.send n { words := ws, hand := true })) ∧
    (∀ ws : List Word, 0x1400 ≤ n → n < 0x1580 → k = 0 ∨ k = 4 →
      s.becomes (.bskEnqueue q ws) (s.dev.send n { words := ws, gen := s.dev.get (HIF_FN_STATUS_GEN f) })) ∧
    (∀ ws : List Word, 0x1400 ≤ n → n < 0x1580 → k = 1 → s.becomes (.bskEnqueue q ws) (s.dev.send n { words := ws })) ∧
    (∀ ws : List Word, 0x1400 ≤ n → n < 0x1580 → k = 2 →
      let e := ({ words := ws } : Entry).numbered 2 (Tab.get 0 s.dev.bsk.eseq f)
      (s.dev.enqueue n e).2 = .placed →
      s.becomes (.bskEnqueue q ws) { (s.dev.enqueue n e).1 with bsk := { (s.dev.enqueue n e).1.bsk with
        eseq := Tab.set 0 (s.dev.enqueue n e).1.bsk.eseq f ((Tab.get 0 s.dev.bsk.eseq f + 1) % 2 ^ 32) } }) ∧
    (s.dev.bsk.held.find? (fun h => h.q == n) = none → s.becomes (.heldRetry q) s.dev) ∧
    (∀ h : Held, s.dev.bsk.held.find? (fun h => h.q == n) = some h → (s.dev.enqueue n h.e).2 = .held →
      s.becomes (.heldRetry q) (s.dev.enqueue n h.e).1) ∧
    (∀ h : Held, s.dev.bsk.held.find? (fun h => h.q == n) = some h → (s.dev.enqueue n h.e).2 = .placed → (n - 0x1400) % 6 = 4 →
      let d := (s.dev.enqueue n h.e).1
      s.becomes (.heldRetry q) ({ d with bsk := { d.bsk with held := dropHeld n d.bsk.held } }.boutQueued ((n - 0x1400) / 6) h.e .placed))

/-- Spill, refill and join (R95): a block of 16 cells goes from TAIL to LOW when it may; its write ends counted as 16 cells; a block comes back
into HEAD when HEAD has room; TAIL is relinked to HEAD when LOW is empty and both fit the on-die depth. -/
def Sys2Proof.Claims.SpillRefillJoin : Prop :=
  ∀ (s : State) (q : QNum), s.dev.awake = true →
    let n := q.toNat
    let x := s.dev.queue n
    (s.dev.spillOk x = true → s.dev.bsk.notes = [] →
      let d := s.dev.setQueue n { x with tail := x.tail - 16, low := x.low + 1, spillFly := x.spillFly + 1 }
      d.ltSize * 262144 ≤ d.ltFree * 10 → s.becomes (.spill q) d) ∧
    (0 < x.spillFly → s.becomes (.spillWriteComplete q)
      ((s.dev.setQueue n { x with spillFly := x.spillFly - 1, cells := dropSpan x.cells x.head 16 }).addCnt (BSK_CNT_COUNT 2) 16)) ∧
    (x.spilled = true → x.spillFly < x.low → x.head + 16 ≤ x.odq → 16 ≤ s.dev.freeCells →
      s.becomes (.refill q) ((s.dev.allocate 16).1.setQueue n { x with
        head := x.head + 16, low := x.low - 1, refillFly := x.refillFly + 1,
        cells := x.cells.take x.head ++ (s.dev.allocate 16).2 ++ x.cells.drop x.head })) ∧
    (0 < x.refillFly → x.es.all Entry.live = true →
      s.becomes (.refillArrive q [] false)
        ((s.dev.setQueue n { x with refillFly := x.refillFly - 1 }).addCnt (BSK_CNT_COUNT 3) 16)) ∧
    (x.spilled = true → x.low = 0 → x.spillFly = 0 → x.refillFly = 0 → x.head + x.tail ≤ x.odq →
      s.becomes (.join q) (s.dev.setQueue n { x with head := x.head + x.tail, tail := 0, spilled := false }))

/-- BSK_Q_CMD on a queue that is not reserved (R96, R105, R110): READ loads the queue's configuration and fill, WRITE stores the operands or
ends with RESULT 1, 2 or 3, COUNTS loads the three counts, and with clear also sets them to 0; a reserved queue ends with RESULT 4. -/
def Sys2Proof.Claims.QueueCommands : Prop :=
  ∀ (s : State), s.dev.awake = true → s.dev.get BSK_Q_CMD_BUSY = 0 →
    let n := s.dev.get BSK_Q_SEL_QUEUE
    let q := s.dev.queue n
    (queueReserved n = true → ∀ i ∈ [Instr.bskQRead, .bskQWrite, .flush, .counts, .countsAndClear], s.becomes i (s.dev.put BSK_Q_CMD_RESULT 4)) ∧
    (queueReserved n = false →
      s.completes .bskQRead (fun t => t.get BSK_Q_CMD_RESULT = 0 ∧ t.get BSK_Q_CFG_ENABLE = b2n q.enable ∧ t.get BSK_Q_CFG_CLASS = q.cls % 8 ∧
        t.get BSK_Q_CFG_OWNER = q.owner % 64 ∧ t.get BSK_Q_CFG_POLICY = q.policy % 4 ∧ t.get BSK_Q_CFG_ODQ = q.odq % 2 ^ 19 ∧
        t.get BSK_Q_CFG_LTQ = q.ltq % 2 ^ 17 ∧ t.get BSK_Q_STAT_HEAD = q.head % 2 ^ 19 ∧ t.get BSK_Q_STAT_TAIL = q.tail % 64 ∧
        t.get BSK_Q_STAT_SPILLED = b2n q.spilled ∧ t.get BSK_Q_STAT_LOW = q.low % 2 ^ 25 ∧ t.bsk = s.dev.bsk) ∧
      (s.dev.get BSK_Q_CFG_POLICY = 2 → queueHoldOk n = false → s.completes .bskQWrite (fun t => t.get BSK_Q_CMD_RESULT = 1 ∧ t.bsk = s.dev.bsk)) ∧
      (s.dev.get BSK_Q_CFG_POLICY ≠ 2 → 0 < s.dev.get BSK_Q_CFG_LTQ → s.dev.get BSK_Q_CFG_ODQ < 64 →
        s.completes .bskQWrite (fun t => t.get BSK_Q_CMD_RESULT = 2 ∧ t.bsk = s.dev.bsk)) ∧
      (s.dev.get BSK_Q_CFG_POLICY ≠ 2 → s.dev.get BSK_Q_CFG_LTQ = 0 → queueSoftware n = true → s.dev.get BSK_Q_CFG_OWNER ≠ q.owner →
        q.noEntry = false → s.completes .bskQWrite (fun t => t.get BSK_Q_CMD_RESULT = 3 ∧ t.bsk = s.dev.bsk)) ∧
      (s.dev.get BSK_Q_CFG_POLICY ≠ 2 ∨ queueHoldOk n = true → s.dev.get BSK_Q_CFG_LTQ = 0 ∨ 64 ≤ s.dev.get BSK_Q_CFG_ODQ →
        queueSoftware n = false ∨ s.dev.get BSK_Q_CFG_OWNER = q.owner ∨ q.noEntry = true →
        s.completes .bskQWrite (fun t => t.get BSK_Q_CMD_RESULT = 0 ∧ (t.queue n).enable = s.dev.on BSK_Q_CFG_ENABLE ∧
          (t.queue n).cls = s.dev.get BSK_Q_CFG_CLASS ∧ (t.queue n).policy = s.dev.get BSK_Q_CFG_POLICY ∧
          (t.queue n).odq = s.dev.get BSK_Q_CFG_ODQ ∧ (t.queue n).ltq = s.dev.get BSK_Q_CFG_LTQ ∧
          (t.queue n).owner = (if queueSoftware n then s.dev.get BSK_Q_CFG_OWNER else q.owner) ∧ (t.queue n).es = q.es ∧
          ∀ m, m ≠ n → t.queue m = s.dev.queue m)) ∧
      (∀ i ∈ [Instr.counts, .countsAndClear], s.completes i (fun t => t.get (BSK_Q_CNT_COUNT 0) = q.committed % 2 ^ 48 ∧
        t.get (BSK_Q_CNT_COUNT 1) = q.dequeued % 2 ^ 48 ∧ t.get (BSK_Q_CNT_COUNT 2) = q.dropped % 2 ^ 48 ∧ t.get BSK_Q_CMD_RESULT = 0 ∧
        t.queue n = (if i = .counts then q else { q with committed := 0, dequeued := 0, dropped := 0 }))))

/-- FLUSH (R105): with no block in flight every entry present goes at once, counted under reason 6; with blocks in flight the command stays busy,
and ends when they have arrived. -/
def Sys2Proof.Claims.QueueFlush : Prop :=
  ∀ (s : State), s.dev.awake = true →
    (let n := s.dev.get BSK_Q_SEL_QUEUE
     let q := s.dev.queue n
     let k := (q.es.filter Entry.live).length
     s.dev.get BSK_Q_CMD_BUSY = 0 → queueReserved n = false → q.dropped < 2 ^ 48 →
      (q.spillFly = 0 → q.refillFly = 0 → q.low = 0 →
        s.completes .flush (fun t => ((t.queue n).es.filter Entry.live) = [] ∧ (t.queue n).dropped = satw 48 (q.dropped + k) ∧
          t.get BSK_Q_CMD_BUSY = 0 ∧ t.get BSK_Q_CMD_RESULT = 0 ∧ ∀ m, m ≠ n → t.queue m = s.dev.queue m)) ∧
      (q.spillFly ≠ 0 → s.becomes .flush (((s.dev.put BSK_Q_CMD_RESULT 0).setQueue n { q with flush := some k }).put BSK_Q_CMD_BUSY 1))) ∧
    (∀ (n : Nat) (q : Queue), s.dev.bsk.q.find? (fun e => e.2.flush.isSome) = some (n, q) → q.spillFly = 0 → q.refillFly = 0 →
      s.becomes .flushComplete (s.dev.flushNow n (q.flush.getD 0)) ∧ (s.dev.flushNow n (q.flush.getD 0)).get BSK_Q_CMD_BUSY = 0)

/-- The shard map (R90): BSK_SHARDQ WRITE maps a shard to a lantern queue and READ returns what it maps to; a write of another queue's number is
refused as reserved, and one while the shard migrates is refused. -/
def Sys2Proof.Claims.ShardMap : Prop :=
  ∀ (s : State) (r : Requester) (sh : Shard) (q : QNum) (v : Bool), s.dev.awake = true →
    (q.toNat < 0x1400 → s.dev.hoop.mig = none →
      s.completes (.bskShardqWrite r sh q v) (fun t => Tab.get (sh.toNat / 2, true) t.bsk.shard sh.toNat = (q.toNat, v) ∧
        t.shardQueue sh.toNat = (if v then some q.toNat else none) ∧ (∀ k, k ≠ sh.toNat → t.shardQueue k = s.dev.shardQueue k) ∧
        s.dev.onlyRegs t [BSK_SHARDQ_SHARD, BSK_SHARDQ_QUEUE, BSK_SHARDQ_VALID])) ∧
    (0x1400 ≤ q.toNat → s.becomes (.bskShardqWrite r sh q v) (s.dev.raiseErr 5 0 0x0001 3 0x2C030 0)) ∧
    s.completes (.bskShardqRead sh) (fun t =>
      t.get BSK_SHARDQ_QUEUE = (Tab.get (sh.toNat / 2, true) s.dev.bsk.shard sh.toNat).1 % 2 ^ 13 ∧
      t.get BSK_SHARDQ_VALID = b2n (Tab.get (sh.toNat / 2, true) s.dev.bsk.shard sh.toNat).2 ∧ t.get BSK_SHARDQ_SHARD = sh.toNat ∧
      t.bsk = s.dev.bsk ∧ s.dev.onlyRegs t [BSK_SHARDQ_SHARD, BSK_SHARDQ_QUEUE, BSK_SHARDQ_VALID])

/-- Queue access from a stake core (R109): ENQ and DEQ set BUSY and start; a command while BUSY is refused, as is a LEN of 0 or above 2,048; a
queue the core may not use ends with RESULT 3, a DEQ from an empty queue with RESULT 1, and a target that does not answer with RESULT 6. -/
def Sys2Proof.Claims.QueueAccess : Prop :=
  ∀ (s : State) (c : Core) (q : QNum) (len : BitVec 12), s.dev.awake = true →
    (s.dev.get (BSK_QA_STATUS_BUSY c) = 0 → 1 ≤ len.toNat → len.toNat ≤ 2048 →
      ∀ x ∈ [(Instr.enq c q len, 1), (Instr.deq c q len, 2)],
        s.becomes x.1 { s.dev.put (BSK_QA_STATUS_BUSY c) 1 with bsk :=
          { s.dev.bsk with qa := s.dev.bsk.qa ++ [⟨c, x.2, q.toNat, len.toNat, s.dev.get (BSK_QA_ADDR_ADDR c)⟩] } }) ∧
    (s.dev.get (BSK_QA_STATUS_BUSY c) = 1 → ∀ i ∈ [Instr.enq c q len, .deq c q len],
      s.becomes i (s.dev.raiseErr 5 0 0x0002 3 (0x2C400 + 0x10 * c) 0)) ∧
    (∀ (x : QaCmd) (cell : CellEnv) (env : DramEnvs), s.dev.bsk.qa.find? (fun x => x.core == c.val) = some x →
      (x.op = 1 → queueCoreEnq x.q = false → s.becomes (.queueAccessComplete c cell env) (s.dev.qaResult x.core 3 0 0)) ∧
      (x.op = 2 → queueCoreDeq x.q = false → s.becomes (.queueAccessComplete c cell env) (s.dev.qaResult x.core 3 0 0)) ∧
      (x.op = 2 → queueCoreDeq x.q = true → queueSoftware x.q = true → s.dev.canTake x.q = false →
        s.becomes (.queueAccessComplete c cell env) (s.dev.qaResult x.core 1 0 0)) ∧
      (x.op = 2 → queueSoftware x.q = true → ∀ e r, s.dev.taken x.q = e :: r → e.poison = false → e.words.length ≤ x.len →
        s.dev.memOk .qa x.addr e.words.length true = true →
        s.becomes (.queueAccessComplete c .good env)
          ((({ s.dev with bsk := { s.dev.bsk with taken := Tab.set [] s.dev.bsk.taken x.q r } } : Dev).writeWords x.addr e.words.length
            (wordsNat e.words) 9999).qaResult x.core 0 0 e.words.length)) ∧
      s.becomes (.weaveRequestTimeout (.qaPort c)) (s.dev.qaResult c 6 0 0)) ∧
    s.completes (.weaveRequestTimeout (.qaPort c)) (fun t => t.mle = s.dev.mle ∧ t.fp = s.dev.fp) ∧
    (∀ (d : Dev) (res reason n : Nat), n < 2 ^ 12 → res < 16 →
      (d.qaResult c res reason n).get (BSK_QA_STATUS_BUSY c) = 0 ∧ (d.qaResult c res reason n).get (BSK_QA_STATUS_RESULT c) = res ∧
      (d.qaResult c res reason n).get (BSK_QA_STATUS_ELEN c) = n)

/-- Scrubbing (R108): while EN is 1 each read moves on by one cell, and a pass that ends is counted; a corrected quad is counted and recorded
for the queue that holds the cell, an uncorrectable one poisons the entry that holds it and is recorded as deferred (R106, R107). -/
def Sys2Proof.Claims.BasketScrub : Prop :=
  ∀ (s : State) (x : QNum), s.dev.awake = true →
    (s.dev.get BSK_SCRUB_EN = 0 → s.becomes (.bskScrubRead x .good) s.dev) ∧
    (s.dev.get BSK_SCRUB_EN = 1 →
      let d := { s.dev with bsk := { s.dev.bsk with scrub := (s.dev.bsk.scrub + 1) % 393216 } }
      ((s.dev.bsk.scrub + 1) % 393216 ≠ 0 → s.becomes (.bskScrubRead x .good) d) ∧
      ((s.dev.bsk.scrub + 1) % 393216 = 0 → s.becomes (.bskScrubRead x .good) (d.inc (BSK_CNT_COUNT 6))) ∧
      (∀ (q i : Nat), (s.dev.bsk.scrub + 1) % 393216 ≠ 0 → s.dev.cellOwner s.dev.bsk.scrub = some (q, i) →
        s.becomes (.bskScrubRead x .corrected) ((d.inc (BSK_CNT_COUNT 4)).raiseErr 5 0 0x0020 2 q 0) ∧
        (i < ((s.dev.queue q).es.filter Entry.live).length →
          s.becomes (.bskScrubRead x .bad) (((d.setQueue q { s.dev.queue q with
            es := poisonNth (s.dev.queue q).es i }).inc (BSK_CNT_COUNT 5)).raiseErr 5 0 0x0021 2 q 0))))

/-- The entry that a command's words make at queue n's ingress: tagged as its producers tag it, with the next number of the function in an event,
record or bulk-in entry (R196, R215, R216, R218). -/
def Sys2Proof.Machine.Dev.entryFor (d : Dev) (n : Nat) (ws : List Word) : Entry :=
  let f := (n - 0x1400) / 6
  let e := d.tagged n ws
  if 0x1400 ≤ n ∧ n < 0x1580 then
    (if (n - 0x1400) % 6 = 2 then e.numbered 2 (Tab.get 0 d.bsk.eseq f)
     else if (n - 0x1400) % 6 = 3 then e.numbered 2 (Tab.get 0 d.bsk.rseq f)
     else if (n - 0x1400) % 6 = 5 then e.numbered 4 (Tab.get 0 d.bsk.bseq f) else e)
  else e

/-- The Basket's commands by their results. BSK_ENQUEUE and HELD_RETRY place their entry where there is room for it, and FLUSH_COMPLETE ends with the
entries that FLUSH found gone and BUSY clear. A queue access that completes answers RESULT 0 with the entry in its queue (ENQ), or in memory and
gone from its queue (DEQ). A request of the weave that times out ends its waiter's command with "absent" (RESULT 6 of a queue access, 2 of a
debug access) and loses a waiting store with a machine check. Every scrub read moves on by one cell and counts what it finds (R94, R99,
R104, R105, R108, R109). -/
def Sys2Proof.Claims.BasketResults : Prop :=
  ∀ (s : State), s.dev.awake = true →
    (∀ (q : QNum) (ws : List Word), s.dev.hasRoom q.toNat (s.dev.entryFor q.toNat ws) →
      s.completes (.bskEnqueue q ws) (fun t => s.dev.gotEntry t q.toNat (s.dev.entryFor q.toNat ws))) ∧
    (∀ (q : QNum) (h : Held), s.dev.bsk.held.find? (fun h => h.q == q.toNat) = some h → s.dev.hasRoom q.toNat h.e →
      s.completes (.heldRetry q) (fun t => s.dev.gotEntry t q.toNat h.e ∧ t.bsk.held = dropHeld q.toNat s.dev.bsk.held)) ∧
    (∀ (n : Nat) (q : Queue), s.dev.bsk.q.find? (fun e => e.2.flush.isSome) = some (n, q) → s.dev.queue n = q → q.spillFly = 0 → q.refillFly = 0 →
      q.dropped < 2 ^ 48 →
      s.completes .flushComplete (fun t => (t.queue n).es.filter Entry.live = (q.es.filter Entry.live).drop (q.flush.getD 0) ∧
        (t.queue n).flush = none ∧ (t.queue n).dropped = satw 48 (q.dropped + q.flush.getD 0) ∧ t.get BSK_Q_CMD_BUSY = 0 ∧
        ∀ m, m ≠ n → t.queue m = s.dev.queue m)) ∧
    (∀ (c : Core) (x : QaCmd) (cell : CellEnv) (env : DramEnvs), s.dev.bsk.qa.find? (fun x => x.core == c.val) = some x →
      let over_ := fun (t : Dev) (n : Nat) => t.get (BSK_QA_STATUS_BUSY c) = 0 ∧ t.get (BSK_QA_STATUS_RESULT c) = 0 ∧
        t.get (BSK_QA_STATUS_ELEN c) = n % 2 ^ 12
      let r := s.dev.readSpan env 0x5C x.addr x.len
      let ws := leWords x.len (r.1.wordsAt x.addr x.len)
      (x.op = 1 → queueCoreEnq x.q = true → s.dev.memOk .qa x.addr x.len false = true →
        r.1.hasRoom x.q (r.1.entryFor x.q ws) →
        s.completes (.queueAccessComplete c cell env) (fun t => over_ t x.len ∧
          r.1.gotEntry t x.q { r.1.entryFor x.q ws with poison := r.2 })) ∧
      (∀ (e : Entry) (es : List Entry), let q := s.dev.queue x.q
        let n := e.words.length
        x.op = 2 → queueCoreDeq x.q = true → s.dev.taken x.q = [] → q.es = e :: es → e.live = true → e.cells ≤ q.head - 16 * q.refillFly →
        (0x1400 ≤ x.q → x.q < 0x1580 → e.gen = s.dev.get (HIF_FN_STATUS_GEN ((x.q - 0x1400) / 6))) → e.poison = false → n ≤ x.len →
        s.dev.memOk .qa x.addr n true = true →
        s.completes (.queueAccessComplete c .good env) (fun t => over_ t n ∧ (t.queue x.q).es = es ∧
          (t.queue x.q).dequeued = satw 48 (q.dequeued + 1) ∧
          ((∀ j, j < n → Tab.find s.dev.mem.l2 ((x.addr + j) / 32) = none) → t.wordsAt x.addr n = wordsNat e.words)))) ∧
    (∀ (c : Core), s.dev.bsk.qa.any (fun x => x.core == c.val) = true →
      s.completes (.weaveRequestTimeout (.qaPort c)) (fun t => t.get (BSK_QA_STATUS_BUSY c) = 0 ∧ t.get (BSK_QA_STATUS_RESULT c) = 6 ∧
        t.bsk = { s.dev.bsk with qa := s.dev.bsk.qa.filter (fun x => x.core != c.val) })) ∧
    (s.dev.get DBG_ACC_CMD_BUSY = 1 →
      s.completes (.weaveRequestTimeout .access) (fun t => t.get DBG_ACC_CMD_BUSY = 0 ∧ t.get DBG_ACC_CMD_RESULT = 2 ∧
        s.dev.onlyRegs t [DBG_ACC_CMD_BUSY, DBG_ACC_CMD_RESULT])) ∧
    (∀ (c : Core) (k : Bool) (i : Nat) (e : BufEnt), (s.dev.bufOf c.val (b2n k))[i]? = some e →
      s.completes (.weaveRequestTimeout (.store c k i)) (fun t => t.bufOf c.val (b2n k) = (s.dev.bufOf c.val (b2n k)).eraseIdx i ∧
        (t.th (tid (.stake c))).mc = some (0x0011, 2, 0) ∧ ∀ a, t.memByte a = s.dev.memByte a)) ∧
    (∀ (x : QNum) (env : CellEnv), s.dev.get BSK_SCRUB_EN = 1 →
      s.completes (.bskScrubRead x env) (fun t => t.bsk.scrub = (s.dev.bsk.scrub + 1) % 393216 ∧
        (env = .corrected ∨ env = .structCorrected → t.get (BSK_CNT_COUNT 4) = satw 48 (s.dev.get (BSK_CNT_COUNT 4) + 1)) ∧
        (env = .bad ∨ env = .structBad → t.get (BSK_CNT_COUNT 5) = satw 48 (s.dev.get (BSK_CNT_COUNT 5) + 1)) ∧
        (t.bsk.scrub = 0 → t.get (BSK_CNT_COUNT 6) = satw 48 (s.dev.get (BSK_CNT_COUNT 6) + 1))))

/-- Committing an entry: where it goes, what is counted, and what stays as it was (R91–R94, R100). -/
def Obligations.EntryCommit : Prop := Claims.EntryPlacement ∧ Claims.CellAllocation ∧ Claims.CommitFrame

/-- Taking an entry from a queue, committing one by command and retrying a held one, and the results of the Basket's commands (R91, R92, R94,
R98, R99, R104, R105, R108, R109). -/
def Obligations.EnqueueDequeue : Prop := Claims.DequeueOrder ∧ Claims.EnqueueCommands ∧ Claims.BasketResults

/-- Spill, refill, join and flush of a queue (R95, R96, R102). -/
def Obligations.SpillRefillFlush : Prop := Claims.SpillRefillJoin ∧ Claims.QueueFlush

/-- The commands on a queue's tables and the queue-access window. -/
def Obligations.QueueTables : Prop := Claims.QueueCommands ∧ Claims.QueueAccess

/-- The shard map and the scrub of the Basket. -/
def Obligations.ShardMapAndScrub : Prop := Claims.ShardMap ∧ Claims.BasketScrub

/-! ### Chapter 5: the hoops and the reflex unit -/

/-- Dispatch (R116): a hoop that is not in service takes nothing; one in service with a free context that can take nothing and works on nothing
kicks its watchdog; an entry its dispatcher takes for a lantern of its own goes to a free context and is counted, and one for a lantern that is
not its own and does not migrate away is discarded and counted. -/
def Sys2Proof.Claims.HoopDispatch : Prop :=
  ∀ (s : State) (h : Hoop), s.dev.awake = true →
    (s.dev.get (HOOP_SVC_STATE h) ≠ 2 → s.becomes (.hoopDispatch h) s.dev) ∧
    (s.dev.get (HOOP_SVC_STATE h) = 2 → (s.dev.freeCtx h).isSome →
      (afterOf (s.dev.hoopQueues h) (Tab.get 0 s.dev.hoop.rr h)).find? (fun q => s.dev.takeOk h q) = none →
      s.dev.hoop.ctxs.any (fun c => c.hoop == h.val) = false → s.becomes (.hoopDispatch h) (s.dev.wdKick 1 h)) ∧
    (∀ (d : Dev) (q : Nat) (e : Entry), e.mark = none → d.hoop.mig = none → e.lost = false →
      (∀ g c, d.shardHoop (entryShard e) = h.val → d.freeCtx h = some (g, c) →
        (d.dispatched h q e).hoop.ctxs = d.hoop.ctxs ++ [⟨h, g, c, q, entryShard e, e, 0, .run⟩] ∧
        (d.dispatched h q e).get (HOOP_CNT_COUNT h 0) = satw 48 (d.get (HOOP_CNT_COUNT h 0) + 1)) ∧
      (e.hand = false → d.shardHoop (entryShard e) ≠ h.val →
        (d.dispatched h q e).hoop.ctxs = d.hoop.ctxs ∧ (d.dispatched h q e).bsk = d.bsk ∧
        (d.dispatched h q e).get (HOOP_CNT_COUNT h 2) = satw 48 (d.get (HOOP_CNT_COUNT h 2) + 1))) ∧
    (∀ (q : Nat) (e : Entry), s.dev.get (HOOP_SVC_STATE h) = 2 → (s.dev.freeCtx h).isSome →
      (afterOf (s.dev.hoopQueues h) (Tab.get 0 s.dev.hoop.rr h)).find? (fun q => s.dev.takeOk h q) = some q →
      let d := { s.dev with hoop := { s.dev.hoop with rr := Tab.set 0 s.dev.hoop.rr h q, doze := Tab.set false s.dev.hoop.doze h false } }
      (d.takeFor q).2 = .entry e → s.becomes (.hoopDispatch h) ((d.takeFor q).1.dispatched h q e))

/-- The stock program on a message (R118, Table 5-1): a DETECT's records are counted one by one, and one that needs the pairing unit waits for it;
a HEALTH keeps the lantern's detector health, a FAULT raises event 0x0501 to the PF and the
owner, a WAVE part is joined to its snapshot; each frees the context; a context that waits for its pairing scores does nothing. -/
def Sys2Proof.Claims.StockProgram : Prop :=
  ∀ (s : State) (h : Hoop) (e : Fin 16) (c : Fin 4) (x : Ctx), s.dev.awake = true → s.dev.ctxOf h e c = some x →
    let b := msgBytes x.entry
    let pl := b.drop 16
    let lix := msgLix x.entry
    (x.phase ≠ .run → s.becomes (.stockProgramMessage h e c) s.dev) ∧
    (x.phase = .run → x.entry.hand = true →
      s.becomes (.stockProgramMessage h e c) ((s.dev.postLocal x.hoop (handTarget x.entry % 2 ^ 18) (handExpect x.entry)).ctxDone x)) ∧
    (x.phase = .run → x.entry.hand = false →
      (byteAt b 1 = 1 → byteAt pl 0 % 16 ≤ x.next → s.becomes (.stockProgramMessage h e c) (s.dev.ctxDone x)) ∧
      (byteAt b 1 = 1 → x.next < byteAt pl 0 % 16 →
        let d := ((s.dev.touchRec lix).touchSlots lix).countSites lix (detRec pl x.next)
        needsPairing (detRec pl x.next) ((d.lrec lix).cands (detRec pl x.next)) = true →
        s.becomes (.stockProgramMessage h e c) (d.setCtx { x with phase := .wantPairing })) ∧
      (byteAt b 1 = 2 → s.becomes (.stockProgramMessage h e c)
        (((s.dev.touchRec lix).setLrec lix { s.dev.lrec lix with unhealthy := !(byteAt pl 27).testBit 0 }).ctxDone x)) ∧
      (byteAt b 1 = 3 → s.becomes (.stockProgramMessage h e c)
        ((s.dev.bothEvent (msgOwner x.entry) 0x0501 [(4, lix), (2, beAt pl 8 2), (1, byteAt pl 10), (1, byteAt pl 11)]).ctxDone x)) ∧
      (byteAt b 1 = 5 → s.becomes (.stockProgramMessage h e c) ((s.dev.wavePart lix pl).ctxDone x))) ∧
    (∀ d : Dev, (d.ctxDone x).ctxOf x.hoop x.eng x.ctx = none)

/-- An expectation enters one of a lantern's eight slots; with all eight full it replaces the one with the earliest ETA and is counted (R119). -/
def Obligations.ExpectationSlots : Prop :=
  ∀ (d : Dev) (h lix : Nat) (x : Expect),
    ((d.lrec lix).slots.length < 8 → ((d.postLocal h lix x).lrec lix).slots = (d.lrec lix).slots ++ [x]) ∧
    ((d.lrec lix).slots.length = 8 → ((d.postLocal h lix x).lrec lix).slots.length = 8 ∧ x ∈ ((d.postLocal h lix x).lrec lix).slots ∧
      (∃ y ∈ (d.lrec lix).slots, (∀ z ∈ (d.lrec lix).slots, y.eta ≤ z.eta) ∧ ∀ z ∈ (d.lrec lix).slots, z ≠ y → z ∈ ((d.postLocal h lix x).lrec lix).slots) ∧
      (d.postLocal h lix x).get (HOOP_CNT_COUNT h 7) = satw 48 (d.get (HOOP_CNT_COUNT h 7) + 1))

/-- A track whose last expectation has passed unmatched ends with an OD record to the lantern's owner (R120, R122), and does not end before, nor
while an expectation of it is on its way; one whose last expectation lies on another device leaves this one without a record (log entry 86); an
incomplete WAVE snapshot is written with event 0x0509 when its time has passed; a context submits its pairing job, which joins the unit's queue
(R123); the unit's result takes the oldest job. -/
def Sys2Proof.Claims.TracksWavesPairing : Prop :=
  ∀ (s : State), s.dev.awake = true →
    (∀ (k : BitVec 48) (t : Track), s.dev.trackExpected k.toNat = [] → s.dev.trackMoving k.toNat = false → Tab.find s.dev.hoop.tracks k.toNat = some t →
      t.away = 0 → t.last / 2 ^ 18 = s.dev.get RIM_CFG_DEVNO → t.hoop < 32 →
      s.completes (.trackEnd k) (fun u => u.hoop.tracks = Tab.del s.dev.hoop.tracks k.toNat ∧ u.mle = s.dev.mle ∧
        u.get (HOOP_CNT_COUNT t.hoop 6) = satw 48 (s.dev.get (HOOP_CNT_COUNT t.hoop 6) + 1))) ∧
    (∀ (k : BitVec 48) (t : Track), s.dev.trackExpected k.toNat = [] → s.dev.trackMoving k.toNat = false → Tab.find s.dev.hoop.tracks k.toNat = some t →
      t.away ≠ 0 → t.away < s.dev.now → s.completes (.trackEnd k) (fun u => u.hoop.tracks = Tab.del s.dev.hoop.tracks k.toNat ∧
        s.dev.onlyRegs u [] ∧ u.bsk = s.dev.bsk)) ∧
    (∀ k : BitVec 48, s.dev.trackMoving k.toNat = true → s.becomes (.trackEnd k) s.dev) ∧
    (∀ (k : BitVec 48) (x : Nat × Expect), x ∈ s.dev.trackExpected k.toNat → s.dev.now ≤ x.2.eta + x.2.win → s.becomes (.trackEnd k) s.dev) ∧
    (∀ (lix : Lix) (snap : BitVec 16) (w : Wave), s.dev.hoop.waves.find? (fun w => w.lix == lix.toNat && w.snap == snap.toNat) = some w →
      s.becomes (.waveSnapshotTimeout lix snap) ((({ s.dev with hoop := { s.dev.hoop with
        waves := s.dev.hoop.waves.filter (fun w => !(w.lix == lix.toNat && w.snap == snap.toNat)) } } : Dev).waveOut w).bothEvent (s.dev.ownerOf lix.toNat) 0x0509
          [(4, lix.toNat), (2, snap.toNat), (1, w.mask)])) ∧
    (∀ (h : Hoop) (e : Fin 16) (c : Fin 4) (x : Ctx), s.dev.ctxOf h e c = some x →
      (x.phase = .wantPairing → s.completes (.pairingJob h e c) (fun t => t.hoop.jobs = s.dev.hoop.jobs ++ [s.dev.pairJob h e c x] ∧
        t.ctxOf h e c = some { x with phase := .pairing } ∧ s.dev.onlyRegs t [] ∧ t.bsk = s.dev.bsk)) ∧
      (x.phase ≠ .wantPairing → s.becomes (.pairingJob h e c) s.dev)) ∧
    (∀ h : Hoop, s.dev.hoop.jobs.find? (fun j => j.hoop == h.val) = none → s.becomes (.pairingResult h) s.dev) ∧
    (∀ (h : Hoop) (j : PairJob), s.dev.hoop.jobs.find? (fun j => j.hoop == h.val) = some j → s.dev.ctxOf h j.eng j.ctx = none →
      s.becomes (.pairingResult h) { s.dev with hoop := { s.dev.hoop with jobs := s.dev.hoop.jobs.erase j } }) ∧
    (∀ (h : Hoop) (j : PairJob) (c : Ctx), s.dev.hoop.jobs.find? (fun j => j.hoop == h.val) = some j → s.dev.ctxOf h j.eng j.ctx = some c →
      s.completes (.pairingResult h) (fun t => t.hoop.jobs = s.dev.hoop.jobs.erase j ∧
        Tab.get [] t.hoop.scores (4 * (16 * h.val + j.eng) + j.ctx) = j.scores ∧ t.hoop.shardT = s.dev.hoop.shardT ∧ t.mle = s.dev.mle))

/-- The pairing scores of R124 on signatures of equal bytes: the Hamming distance of a signature and itself is 0, both scores are symmetric, and
the Hamming score of two bytes is at most 8; a job scores each of its candidates, and one of the other format "no score". -/
def Sys2Proof.Claims.PairingScores : Prop :=
  (∀ a : List Byte, pairScore 2 a a = 0) ∧ (∀ (f : Nat) (a b : List Byte), pairScore f a b = pairScore f b a) ∧
  (∀ a b : List Byte, 0 ≤ pairScore 2 a b ∧ pairScore 2 a b ≤ 8 * a.length) ∧
  (∀ j : PairJob, j.scores.length = j.cands.length ∧ ∀ (i : Nat) (e : Expect), j.cands[i]? = some e →
    j.scores[i]? = some (if e.sigf = j.sigf then some (pairScore j.sigf j.query e.sig) else none))

/-- Customer invocations (R125, R126): with nothing queued the engine's context 3 ends what it ran and starts nothing; a queued invocation whose
function has the turn starts at its program's entry with its registers at reset and is counted; an invocation beyond its budget is abandoned and counted; OUT_CMD
sends the output buffer as a record, and with a length of 0 or above 2,048, a kind below 0x80 or a selector above 1 ends with result 2 and sends nothing. -/
def Sys2Proof.Claims.CustomerInvocations : Prop :=
  ∀ (s : State), s.dev.awake = true →
    (∀ (h : Hoop) (e : Fin 16) (n : BitVec 16), let g := 16 * h.val + e.val
      (s.dev.get (HOOP_SVC_STATE h) ≠ 2 → s.becomes (.customerInvocation h e n) (s.dev.invEnd g)) ∧
      (∀ (f : Nat) (t : Tab Nat) (v : Invoc), s.dev.get (HOOP_SVC_STATE h) = 2 → s.dev.custLoaded = true → s.dev.get (DBG_ENG_STAT_HALTED g) = 0 →
        (s.dev.invEnd g).strandPick h n.toNat = some (f, t) →
        (Tab.get [] s.dev.hoop.invq h).find? (fun v => v.fn == f && (s.dev.invEnd g).invFree v) = some v →
        s.completes (.customerInvocation h e n) (fun u => u.runningOn g = some ⟨g, v, 0, 0⟩ ∧
          Tab.get [] u.hoop.invq h = (Tab.get [] s.dev.hoop.invq h).erase v ∧ u.hoop.strDef = t ∧
          (Tab.get {} u.thr.t (4 * g + 3)) = { pc := s.dev.partEntry v.part } ∧
          u.get (HOOP_CNT_COUNT h 8) = satw 48 (s.dev.get (HOOP_CNT_COUNT h 8) + 1) ∧ s.dev.onlyRegs u [HOOP_CNT_COUNT h 8] ∧ u.bsk = s.dev.bsk))) ∧
    (∀ (g : Fin 512), (s.dev.runningOn g = none → s.becomes (.invocationBudgetExpire g) s.dev) ∧
      (∀ r : Running, s.dev.runningOn g = some r →
        s.completes (.invocationBudgetExpire g) (fun t => t.runningOn g = none ∧
          t.get (HOOP_CNT_COUNT (g / 16) 9) = satw 48 (s.dev.get (HOOP_CNT_COUNT (g / 16) 9) + 1) ∧ t.mle = s.dev.mle))) ∧
    (∀ (g : Fin 512) (v : BitVec 32), (s.dev.runningOn g = none → s.becomes (.outCmd g v) s.dev) ∧
      (∀ r : Running, s.dev.runningOn g = some r → let w := v.toNat
        let n := w % 4096
        let buf := s.dev.obufWords g
        let d := s.dev.sendRecord r.inv.fn (w / 65536 % 256) (wordBytes (buf.take n ++ List.replicate (n - buf.length) 0))
        1 ≤ n → n ≤ 2048 → w / 4096 % 4 = 0 → 0x80 ≤ w / 65536 % 256 →
        Tab.get 0 d.bsk.rseq r.inv.fn ≠ Tab.get 0 s.dev.bsk.rseq r.inv.fn →
        s.becomes (.outCmd g v) { d with hoop := { d.hoop with
          running := d.hoop.running.map (fun x => if x.eng == g.val then { x with outResult := 0, outReason := 0 } else x) } }) ∧
      (∀ r : Running, s.dev.runningOn g = some r → let w := v.toNat
        (w % 4096 = 0 ∨ 2048 < w % 4096 ∨ 2 ≤ w / 4096 % 4 ∨ w / 65536 % 256 < 0x80) →
        s.becomes (.outCmd g v) { s.dev with hoop := { s.dev.hoop with
          running := s.dev.hoop.running.map (fun x => if x.eng == g.val then { x with outResult := 2, outReason := 0 } else x) } }))

/-- The reflex unit's tables (R127, R128, R133): READ loads an entry or a curve, WRITE stores one that its checks accept and otherwise ends with
the check's RESULT and stores nothing, CLEAR leaves the entry with VALID 0; while BUSY is 1 a command is ignored with an error record. -/
def Sys2Proof.Claims.ReflexTables : Prop :=
  ∀ (s : State) (lix : Lix) (c : BitVec 8), s.dev.awake = true →
    (s.dev.get RFX_TBL_STATUS_BUSY = 1 → ∀ i ∈ [Instr.rfxTblRead lix, .rfxTblWrite lix, .rfxTblClear lix],
      s.becomes i (s.dev.raiseErr 9 0 0x0002 3 0x30230 0)) ∧
    (s.dev.get RFX_CRV_STATUS_BUSY = 1 → ∀ i ∈ [Instr.rfxCrvRead c, .rfxCrvWrite c], s.becomes i (s.dev.raiseErr 9 0 0x0002 3 0x30254 0)) ∧
    (s.dev.get RFX_TBL_STATUS_BUSY = 0 → s.dev.get RFX_CRV_STATUS_BUSY = 0 →
    let q := fun i => s.dev.get (RFX_ENT_QUAD i)
    let k := (List.range 5).map (fun i => s.dev.get (RFX_CRV_QUAD i))
    s.completes (.rfxTblRead lix) (fun t => (∀ i, i < 8 → t.get (RFX_ENT_QUAD i) = quadAt (s.dev.rfxEnt lix.toNat) i % 2 ^ 64) ∧
      t.get RFX_TBL_STATUS_RESULT = 0 ∧ t.rfx = s.dev.rfx) ∧
    (rfxEntCheck (q 0) = 0 → s.completes (.rfxTblWrite lix) (fun t => t.get RFX_TBL_STATUS_RESULT = 0 ∧
      quadAt (t.rfxEnt lix.toNat) 0 = q 0 % 2 ^ 57 ∧ (∀ i, 0 < i → i < 8 → quadAt (t.rfxEnt lix.toNat) i = q i) ∧
      (∀ j, j ≠ lix.toNat → t.rfxEnt j = s.dev.rfxEnt j) ∧ t.rfx.crv = s.dev.rfx.crv)) ∧
    (rfxEntCheck (q 0) ≠ 0 → s.becomes (.rfxTblWrite lix) (s.dev.tblDone RFX_TBL_STATUS_RESULT RFX_TBL_STATUS_BUSY (rfxEntCheck (q 0)))) ∧
    s.completes (.rfxTblClear lix) (fun t => t.get RFX_TBL_STATUS_RESULT = 0 ∧ quadAt (t.rfxEnt lix.toNat) 0 % 2 = 0 ∧
      quadAt (t.rfxEnt lix.toNat) 0 / 2 = quadAt (s.dev.rfxEnt lix.toNat) 0 / 2 ∧
      (∀ i, 0 < i → quadAt (t.rfxEnt lix.toNat) i = quadAt (s.dev.rfxEnt lix.toNat) i) ∧ ∀ j, j ≠ lix.toNat → t.rfxEnt j = s.dev.rfxEnt j) ∧
    s.completes (.rfxCrvRead c) (fun t => (∀ i, i < 5 → t.get (RFX_CRV_QUAD i) = quadAt (Tab.get [] s.dev.rfx.crv c.toNat) i % 2 ^ 64) ∧
      t.get RFX_CRV_STATUS_RESULT = 0 ∧ t.rfx = s.dev.rfx) ∧
    (crvCheck k ≠ 0 → s.becomes (.rfxCrvWrite c) (s.dev.tblDone RFX_CRV_STATUS_RESULT RFX_CRV_STATUS_BUSY (crvCheck k))) ∧
    (crvCheck k = 0 → s.completes (.rfxCrvWrite c) (fun t => t.get RFX_CRV_STATUS_RESULT = 0 ∧
      crvN (Tab.get [] t.rfx.crv c.toNat) = crvN k ∧ (∀ j, j < 8 → crvT (Tab.get [] t.rfx.crv c.toNat) j = crvT k j ∧
        crvL (Tab.get [] t.rfx.crv c.toNat) j = crvL k j) ∧ t.rfx.ent = s.dev.rfx.ent ∧ ∀ j, j ≠ c.toNat → Tab.get [] t.rfx.crv j = Tab.get [] s.dev.rfx.crv j)))

/-- The level a curve gives (R129): before its first point that point's level, after its last none, at its last that point's level, and between
two points a level between theirs. -/
def Sys2Proof.Claims.ReflexCurve : Prop :=
  ∀ (c : List Nat) (t : Nat), crvCheck c = 0 →
    (t ≤ 10000 * crvT c 0 → crvLevel c t = some (crvL c 0)) ∧
    (10000 * crvT c (crvN c - 1) < t → crvLevel c t = none) ∧
    (∀ j, j + 1 < crvN c → 10000 * crvT c j ≤ t → t < 10000 * crvT c (j + 1) →
      ∃ v, crvLevel c t = some v ∧ min (crvL c j) (crvL c (j + 1)) ≤ v ∧ v ≤ max (crvL c j) (crvL c (j + 1)))

/-- The reflex unit works on its records in order; with the unit or the lantern's entry disabled a record is counted and triggers nothing (R129,
R131). -/
def Sys2Proof.Claims.ReflexRecords : Prop :=
  ∀ (s : State), s.dev.awake = true →
    (s.dev.rfx.inq = [] → s.becomes .reflexRecord s.dev) ∧
    (∀ (m : RfxIn) (r : List RfxIn), s.dev.rfx.inq = m :: r → s.dev.get RFX_CTRL_EN = 0 →
      s.completes .reflexRecord (fun t => t.rfx.inq = r ∧ t.rfx.ent = s.dev.rfx.ent ∧
        t.get (RFX_CNT_COUNT 1) = satw 48 (s.dev.get (RFX_CNT_COUNT 1) + 1) ∧ t.get (RFX_CNT_COUNT 4) = satw 48 (s.dev.get (RFX_CNT_COUNT 4) + 1) ∧
        t.bsk = s.dev.bsk ∧ t.mle = s.dev.mle)) ∧
    (∀ (m : RfxIn) (r : List RfxIn), s.dev.rfx.inq = m :: r → s.becomes .reflexRecord
      (({ s.dev with rfx := { s.dev.rfx with inq := r } } : Dev).rfxRecord m))

/-- HOOP_SVC (R134): OUT with shards assigned is refused, and without any takes a hoop in service out; IN brings a hoop that is out of service or
parked into the returning state with its stores cleared; it then enters service; PARK is accepted out of service alone. Each change raises event
0x0507. -/
def Sys2Proof.Claims.HoopService : Prop :=
  ∀ (s : State) (r : Requester) (h : Hoop), s.dev.awake = true →
    let st := s.dev.get (HOOP_SVC_STATE h)
    (s.dev.get (HOOP_SVC_BUSY h) = 0 →
      (s.dev.nshard h ≠ 0 → s.becomes (.hoopOut r h) (s.dev.raiseErr 7 h 0x0003 3 (hoopSvcOff h) (srcOf r))) ∧
      (s.dev.nshard h = 0 → st = 2 → s.completes (.hoopOut r h) (fun t => t.get (HOOP_SVC_STATE h) = 0 ∧ t.get (HOOP_SVC_CAUSE h) = 0 ∧
        t.hoop = { s.dev.hoop with outAt := t.hoop.outAt } ∧ t.mle = s.dev.mle)) ∧
      (st = 0 ∨ st = 3 → s.completes (.hoopIn h) (fun t => t.get (HOOP_SVC_STATE h) = 1 ∧ t.get (HOOP_SVC_BUSY h) = 1 ∧
        (∀ e ∈ t.thr.wstore, e.1 / 32768 / 16 ≠ h.val) ∧ t.hoop.shardT = s.dev.hoop.shardT ∧ t.mle = s.dev.mle)) ∧
      (st = 0 → s.completes (.hoopPark r h) (fun t => t.get (HOOP_SVC_STATE h) = 3 ∧ t.hoop = s.dev.hoop ∧ t.mle = s.dev.mle))) ∧
    (st = 1 → s.completes (.hoopInComplete h) (fun t => t.get (HOOP_SVC_STATE h) = 2 ∧ t.get (HOOP_SVC_BUSY h) = 0 ∧
      t.hoop = { s.dev.hoop with sites := t.hoop.sites })) ∧
    (s.dev.get (HOOP_SVC_BUSY h) = 1 → st ≠ 1 → s.becomes (.hoopIn h) (s.dev.raiseErr 7 h 0x0002 3 (hoopSvcOff h) 0) ∧
      s.becomes (.hoopOut r h) (s.dev.raiseErr 7 h 0x0002 3 (hoopSvcOff h) 0))

/-- HOOP_SHARD (R115, R135): READ returns the shard's hoop and whether it moves; WRITE reassigns a shard whose queue is empty and which no context
holds, with REFUSED 0, and otherwise sets REFUSED and reassigns nothing; a shard that moves is refused. -/
def Sys2Proof.Claims.ShardAssignment : Prop :=
  ∀ (s : State) (r : Requester) (sh : Shard) (h : Hoop), s.dev.awake = true → s.dev.hoop.mig = none →
    s.completes (.hoopShardRead sh) (fun t => t.get HOOP_SHARD_SHARD = sh.toNat ∧ t.get HOOP_SHARD_HOOP = s.dev.shardHoop sh.toNat % 32 ∧
      t.get HOOP_SHARD_STATE = 0 ∧ t.hoop = s.dev.hoop ∧ s.dev.onlyRegs t [HOOP_SHARD_SHARD, HOOP_SHARD_HOOP, HOOP_SHARD_STATE]) ∧
    (∀ q, s.dev.shardQueue sh.toNat = some q → s.dev.holds q = false → s.dev.shardHeld sh.toNat = false →
      s.completes (.hoopShardWrite r sh h) (fun t => t.shardHoop sh.toNat = h.val ∧ (∀ k, k ≠ sh.toNat → t.shardHoop k = s.dev.shardHoop k) ∧
        t.get HOOP_SHARD_REFUSED = 0 ∧ t.bsk = s.dev.bsk)) ∧
    (s.dev.shardHeld sh.toNat = true → s.completes (.hoopShardWrite r sh h) (fun t => t.hoop = s.dev.hoop ∧ t.get HOOP_SHARD_REFUSED = 1))

/-- Migration (R135, Table 5-10). With no move in progress or pending: QMOVE and SMOVE between hoops in service begin a move, SMOVE mapping the
shard to its new queue; a forced QMOVE reassigns the queue's shards at once when the source is not in service; a move that has drained finishes
with RESULT 0; one that times out ends with RESULT 6 and PHASE 3; a move is refused while one is pending, but for the forced SMOVE of its shard, and
while BUSY is 1; while a move runs PHASE is 1 until it has drained and then 2. -/
def Sys2Proof.Claims.Migration : Prop :=
  ∀ (s : State), s.dev.awake = true →
    let q := s.dev.get HOOP_MIG_ARG_QUEUE
    let dh := s.dev.get HOOP_MIG_ARG_DHOOP
    let sh := s.dev.get HOOP_MIG_ARG_SHARD
    let dq := s.dev.get HOOP_MIG_ARG_DQUEUE
    let d := s.dev
    (d.get HOOP_MIG_STATUS_BUSY = 1 → ∀ i ∈ [Instr.qmove, .smove, .qmoveForced, .smoveForced], s.becomes i (d.raiseErr 7 0 0x0002 3 0x2D018 0)) ∧
    (d.get HOOP_MIG_STATUS_BUSY = 0 → d.hoop.mig = none →
      (q < 0x1400 → (d.shardsOf q).isEmpty = false → d.hoopUp dh = true →
        (d.hoopUp (d.queueHoop q) = true → s.becomes .qmove (d.migBegin ⟨1, q, 0, dh, d.queueHoop q, false⟩)) ∧
        (d.hoopUp (d.queueHoop q) = false → s.becomes .qmove (d.put HOOP_MIG_STATUS_RESULT 1)) ∧
        (d.hoopUp (d.queueHoop q) = true → s.becomes .qmoveForced (d.put HOOP_MIG_STATUS_RESULT 2)) ∧
        (d.hoopUp (d.queueHoop q) = false → s.becomes .qmoveForced
          (((d.shardTaken (d.shardsOf q) (d.queueHoop q)).put HOOP_MIG_STATUS_MIGNO (d.get HOOP_MIG_STATUS_MIGNO + 1)).migFinish 3 q dh
            (d.shardsOf q)))) ∧
      (∀ old, d.shardQueue sh = some old → dq < 0x1400 → d.hoopUp (d.shardHoop sh) = true → d.hoopUp dh = true →
        (d.shardsOf dq).all (fun x => d.shardHoop x == dh) = true →
        s.completes .smove (fun t => t.shardQueue sh = some dq ∧ t.get HOOP_MIG_STATUS_BUSY = 1 ∧ t.get HOOP_MIG_STATUS_PHASE = 1 ∧
          t.get HOOP_MIG_STATUS_MARKS = 0 ∧ t.hoop.mig = some ⟨2, old, sh, dh, d.shardHoop sh, false⟩ ∧ t.hoop.shardT = d.hoop.shardT)) ∧
      (sh < 8192 → d.shardQueue sh = none → s.becomes .smove (d.put HOOP_MIG_STATUS_RESULT 5)) ∧
      s.becomes .smoveForced (d.put HOOP_MIG_STATUS_RESULT 8) ∧ s.becomes .migrationComplete d ∧ s.becomes .migrationTimeout d) ∧
    (∀ m : Mig, d.hoop.mig = some m →
      (d.get HOOP_MIG_STATUS_BUSY = 0 → m.pend = true → ∀ i ∈ [Instr.qmove, .smove, .qmoveForced], s.becomes i (d.put HOOP_MIG_STATUS_RESULT 7)) ∧
      (d.get HOOP_MIG_STATUS_BUSY = 0 → m.pend = true → m.op = 2 → m.shard ≠ sh → s.becomes .smoveForced (d.put HOOP_MIG_STATUS_RESULT 7)) ∧
      (d.get HOOP_MIG_STATUS_BUSY = 0 → m.pend = true → m.op = 2 → m.shard = sh → d.hoopUp dh = true →
        s.completes .smoveForced (fun t => t.shardHoop sh = dh ∧ t.hoop.mig = none ∧ t.get HOOP_MIG_STATUS_RESULT = 0 ∧
          t.get HOOP_MIG_STATUS_BUSY = 0)) ∧
      (m.pend = false → d.migDrained m = true → m.op = 2 →
        s.completes .migrationComplete (fun t => t.shardHoop m.shard = m.dhoop ∧ t.hoop.mig = none ∧ t.get HOOP_MIG_STATUS_RESULT = 0 ∧
          t.get HOOP_MIG_STATUS_BUSY = 0 ∧ t.get HOOP_MIG_STATUS_PHASE = 0)) ∧
      (m.pend = false → d.settle.get HOOP_MIG_STATUS_PHASE = if d.migDrained m then 2 else 1) ∧
      (m.pend = false → s.completes .migrationTimeout (fun t => t.get HOOP_MIG_STATUS_RESULT = 6 ∧ t.get HOOP_MIG_STATUS_PHASE = 3 ∧
        t.get HOOP_MIG_STATUS_BUSY = 0 ∧ t.hoop.mig = (if m.op = 1 then none else some { m with pend := true }) ∧ t.hoop.shardT = d.hoop.shardT)))

/-- HOOP_SVC and HOOP_SHARD (R115, R134, R135). -/
def Obligations.HoopServiceAndShards : Prop := Claims.HoopService ∧ Claims.ShardAssignment


/-- The entry of a record of kind `kind` for function f as its next number stands (R216), and that of a bulk-in body (R218). -/
def Sys2Proof.Machine.Dev.recordOf (d : Dev) (f kind : Nat) (body : List Byte) : Entry :=
  let n := body.length
  { words := packWords (leBytes 1 kind ++ leBytes 1 (if 48 < n then 1 + cdiv (n - 48) 64 else 1) ++ leBytes 2 n ++
      leBytes 4 (Tab.get 0 d.bsk.rseq f) ++ leBytes 8 d.now ++ body) }
def Sys2Proof.Machine.Dev.bulkInOf (d : Dev) (f kind : Nat) (body : List Byte) : Entry :=
  { words := packWords (leBytes 1 kind ++ leBytes 3 0 ++ leBytes 4 body.length ++ leBytes 4 (Tab.get 0 d.bsk.bseq f) ++ leBytes 4 0 ++
      leBytes 8 d.now ++ body) }

/-- Dispatch and the stock program by their results: an entry of the hoop's own leaves its queue for a free context; a hand-off's expectation enters
its lantern's slots, HEALTH sets the lantern's detector health, FAULT raises event 0x0501, and each of these messages frees the context, as
does a WAVE part; a DETECT frees it or leaves it waiting for the pairing unit (R116, R118, Table 5-1). -/
def Sys2Proof.Claims.HoopResults : Prop :=
  ∀ (s : State) (h : Hoop), s.dev.awake = true →
    (∀ (q g c : Nat) (e : Entry) (r : List Entry), s.dev.get (HOOP_SVC_STATE h) = 2 → s.dev.freeCtx h = some (g, c) →
      (afterOf (s.dev.hoopQueues h) (Tab.get 0 s.dev.hoop.rr h)).find? (fun q => s.dev.takeOk h q) = some q → s.dev.taken q = [] →
      (s.dev.queue q).es = e :: r → e.live = true → e.poison = false → e.cells ≤ (s.dev.queue q).head - 16 * (s.dev.queue q).refillFly →
      e.mark = none → e.lost = false → s.dev.hoop.mig = none → s.dev.shardHoop (entryShard e) = h.val →
      s.completes (.hoopDispatch h) (fun t => t.hoop.ctxs = s.dev.hoop.ctxs ++ [⟨h, g, c, q, entryShard e, e, 0, .run⟩] ∧ (t.queue q).es = r ∧
        (∀ m, m ≠ q → t.queue m = s.dev.queue m) ∧ t.get (HOOP_CNT_COUNT h 0) = satw 48 (s.dev.get (HOOP_CNT_COUNT h 0) + 1))) ∧
    (∀ (e : Fin 16) (c : Fin 4) (x : Ctx), s.dev.ctxOf h e c = some x → x.phase = .run →
      let b := msgBytes x.entry
      let pl := b.drop 16
      let lix := msgLix x.entry
      let to_ := handTarget x.entry % 2 ^ 18
      let par := [(4, lix), (2, beAt pl 8 2), (1, byteAt pl 10), (1, byteAt pl 11)]
      (x.entry.hand = true ∨ byteAt b 1 ≠ 1 → s.completes (.stockProgramMessage h e c) (fun t => t.ctxOf h e c = none ∧
        (x.entry.hand = true → (s.dev.lrec to_).slots.length < 8 → (t.lrec to_).slots = (s.dev.lrec to_).slots ++ [handExpect x.entry]) ∧
        (x.entry.hand = false → byteAt b 1 = 2 → t.lrec lix = { s.dev.lrec lix with unhealthy := !(byteAt pl 27).testBit 0 }) ∧
        (x.entry.hand = false → byteAt b 1 = 3 → msgOwner x.entry = 0 → s.dev.eventFits 0x0501 par → s.dev.raised t 0x0501 par))) ∧
      (x.entry.hand = false → byteAt b 1 = 1 → s.completes (.stockProgramMessage h e c) (fun t => t.ctxOf h e c = none ∨
        ∃ n, t.ctxOf h e c = some { x with next := n, phase := .wantPairing })))

/-- A WAVE snapshot whose time has passed leaves the list of snapshots and is written to its owner's bulk-in queue (R44, R122). -/
def Sys2Proof.Claims.WaveResults : Prop :=
  ∀ (s : State) (lix : Lix) (snap : BitVec 16) (w : Wave), s.dev.awake = true →
    let mine := fun (w : Wave) => w.lix == lix.toNat && w.snap == snap.toNat
    let f := s.dev.ownerOf w.lix
    s.dev.hoop.waves.find? mine = some w →
    s.completes (.waveSnapshotTimeout lix snap) (fun t => t.hoop.waves = s.dev.hoop.waves.filter (fun w => !mine w) ∧ t.mle = s.dev.mle ∧
      (s.dev.hasRoom (0x1405 + 6 * f) (s.dev.bulkInOf f 1 (leBytes 8 w.t0 ++ leBytes 2 w.snap ++ leBytes 2 w.ts ++ leBytes 1 w.mask ++ leBytes 3 0 ++
          leBytes 4 w.lix ++ leBytes 4 0 ++ (List.range 1024).flatMap (fun i => leBytes 2 (w.samples.getD i 0)))) →
        Tab.get 0 t.bsk.bseq f = (Tab.get 0 s.dev.bsk.bseq f + 1) % 2 ^ 32))

/-- OUT_CMD by its result: the first LEN words of the output buffer stand in the function's record queue (selector 0) or bulk-in queue (1), with its
next number, and OUT_STAT reports result 0 (R126, R216, R218). -/
def Sys2Proof.Claims.OutResults : Prop :=
  ∀ (s : State) (g : Fin 512) (v : BitVec 32) (r : Running), s.dev.awake = true → s.dev.runningOn g = some r →
    let w := v.toNat
    let n := w % 4096
    let f := r.inv.fn
    let buf := s.dev.obufWords g
    let body := wordBytes (buf.take n ++ List.replicate (n - buf.length) 0)
    1 ≤ n → n ≤ 2048 → 0x80 ≤ w / 65536 % 256 →
    (w / 4096 % 4 = 0 → s.dev.hasRoom (0x1403 + 6 * f) (s.dev.recordOf f (w / 65536 % 256) body) →
      s.completes (.outCmd g v) (fun t => s.dev.gotEntry t (0x1403 + 6 * f) (s.dev.recordOf f (w / 65536 % 256) body) ∧
        t.runningOn g = some { r with outResult := 0, outReason := 0 })) ∧
    (w / 4096 % 4 = 1 → s.dev.hasRoom (0x1405 + 6 * f) (s.dev.bulkInOf f (w / 65536 % 256) body) →
      s.completes (.outCmd g v) (fun t => s.dev.gotEntry t (0x1405 + 6 * f) (s.dev.bulkInOf f (w / 65536 % 256) body) ∧
        t.runningOn g = some { r with outResult := 0, outReason := 0 }))

/-- A record that triggers: its orders for this device's neighbours stand as one entry in queue 0x1588, and are counted (R129–R131). -/
def Sys2Proof.Claims.ReflexOrders : Prop :=
  ∀ (s : State) (m : RfxIn) (r : List RfxIn), s.dev.awake = true → s.dev.rfx.inq = m :: r →
    let d := s.dev
    let e := d.rfxEnt m.lix
    let q0 := quadAt e 0
    let b2 := byteAt m.bytes 2
    let dt := m.base + 1000 * beAt m.bytes 0 2
    let a := !b2.testBit 4
    let c := Tab.get [] d.rfx.crv (if a then bits q0 36 29 else bits q0 44 37)
    let n := if a then bits q0 4 1 else bits q0 8 5
    let split := if a then bits q0 12 9 else bits q0 16 13
    let os := fun (lo hi dev : Nat) => d.rfxOrders e c (if a then 0 else 8) lo hi (max (byteAt m.bytes 3) (d.get RFX_CTRL_VMIN)) (if a then -1 else 1)
      (sgn 16 (beAt m.bytes 4 2)) dt dev
    let dev := d.get RIM_CFG_DEVNO
    let loc := os 0 (min n split) dev
    d.get RFX_CTRL_EN = 1 → q0.testBit 0 = true → (bits q0 52 45).testBit (b2 / 32) = true → bits q0 56 53 ≤ b2 % 16 →
    m.adm ≤ dt + d.get RFX_CTRL_MAXAGE * 1000000 → loc ≠ [] → os split n (if a then bits q0 22 17 else bits q0 28 23) = [] →
    d.hasRoom 0x1588 (rfxEntry false dev (d.iln m.lix) dt loc) →
    s.completes .reflexRecord (fun t => t.rfx.inq = r ∧ d.gotEntry t 0x1588 (rfxEntry false dev (d.iln m.lix) dt loc) ∧
      t.get (RFX_CNT_COUNT 1) = satw 48 (d.get (RFX_CNT_COUNT 1) + 1) ∧ t.get (RFX_CNT_COUNT 5) = satw 48 (d.get (RFX_CNT_COUNT 5) + 1) ∧
      t.get (RFX_CNT_COUNT 6) = satw 48 (d.get (RFX_CNT_COUNT 6) + loc.length))

/-- QMOVE and forced QMOVE by their results: QMOVE leaves the move in progress with BUSY 1; a forced one gives every shard of the queue to the
destination at once, with RESULT 0 (R135, Table 5-10). -/
def Sys2Proof.Claims.MoveResults : Prop :=
  ∀ (s : State), s.dev.awake = true →
    let d := s.dev
    let q := d.get HOOP_MIG_ARG_QUEUE
    let dh := d.get HOOP_MIG_ARG_DHOOP
    d.get HOOP_MIG_STATUS_BUSY = 0 → d.hoop.mig = none → q < 0x1400 → (d.shardsOf q).isEmpty = false → d.hoopUp dh = true →
    (d.hoopUp (d.queueHoop q) = true → s.completes .qmove (fun t => t.hoop = { d.hoop with mig := some ⟨1, q, 0, dh, d.queueHoop q, false⟩ } ∧
      t.get HOOP_MIG_STATUS_BUSY = 1 ∧ t.get HOOP_MIG_STATUS_MARKS = 0 ∧ t.get HOOP_MIG_STATUS_MIGNO = (d.get HOOP_MIG_STATUS_MIGNO + 1) % 2 ^ 16 ∧
      t.get HOOP_MIG_STATUS_PHASE = (if (d.shardsOf q).any d.shardHeld then 1 else 2) ∧ t.bsk = d.bsk)) ∧
    (d.hoopUp (d.queueHoop q) = false → s.completes .qmoveForced (fun t => (∀ x ∈ d.shardsOf q, t.shardHoop x = dh) ∧
      (∀ x, x ∉ d.shardsOf q → t.shardHoop x = d.shardHoop x) ∧ t.hoop.mig = none ∧ t.get HOOP_MIG_STATUS_RESULT = 0 ∧
      t.get HOOP_MIG_STATUS_BUSY = 0 ∧ t.get HOOP_MIG_STATUS_PHASE = 0))

/-- Dispatch of a hoop and the stock program. -/
def Obligations.HoopWork : Prop := Claims.HoopDispatch ∧ Claims.StockProgram ∧ Claims.HoopResults

/-- Tracks, WAVE snapshots and pairing: when they end, what they send, and the scores of the pairing unit (R120–R124). -/
def Obligations.TracksWavesScores : Prop := Claims.TracksWavesPairing ∧ Claims.WaveResults ∧ Claims.PairingScores

/-- The reflex unit: its tables, its records and its curves (R127–R133). -/
def Obligations.ReflexUnit : Prop := Claims.ReflexTables ∧ Claims.ReflexRecords ∧ Claims.ReflexOrders ∧ Claims.ReflexCurve

/-- Customer invocations and OUT_CMD (R125, R126). -/
def Obligations.CustomerInvocations : Prop := Claims.CustomerInvocations ∧ Claims.OutResults

/-- Migration of shards between hoops (R135). -/
def Obligations.Migration : Prop := Claims.Migration ∧ Claims.MoveResults
/-! ### Chapter 6: the order merge and the life ledger -/

/-- merge(n, S) of R140: while a lockout of function 0 or of the owner is active on the lantern its SRC is 5, and a single lockout of function 0
gives its level and fade; otherwise the level lies between the class's floor (0 where the class has gone dark) and its ceiling, and with no
candidate at all the level is that floor under SRC 6. -/
def Obligations.MergeRule : Prop :=
  ∀ (d : Dev) (n o s start : Nat),
    let c := d.roadClass (d.olan n).cls
    let act := (d.ord.recs.map (·.2)).filter (fun k => k.covers n && k.active s)
    let lo := if c.darkcal = 0 ∨ 0 < (d.calLevel c.darkcal start).1 then c.floor else 0
    let m := d.merge n o s start
    ((m.2.2 = 5 ↔ ∃ k ∈ act, k.kind = 1 ∧ (k.fn = 0 ∨ (o ≠ 0 ∧ k.fn = o)))) ∧
    (∀ k, act.filter (fun k => k.kind == 1 && k.fn == 0) = [k] → m = (k.level, k.fade, 5)) ∧
    (c.floor ≤ c.ceil → m.2.2 ≠ 5 → lo ≤ m.1 ∧ m.1 ≤ c.ceil) ∧
    (act = [] → (d.olan n).rv = false → d.compCount n = 0 → (d.olan n).schcal = 0 → (d.olan n).fbcal = 0 → c.floor ≤ c.ceil →
      (d.olan n).lvalid = false → m.1 = lo ∧ m.2.2 = 6)

/-- PLACE (R142): a refused command changes nothing; an accepted one takes the lowest free record and the next CSEQ. CANCEL frees the record
of a function's own, or of any function for the PF, and a number that names no record is refused with status 4. -/
def Sys2Proof.Claims.OrderRecords : Prop :=
  ∀ (d : Dev) (fn kind level fade first last start stop : Nat),
    let p := d.ordPlace fn kind level fade first last start stop
    (kind = 0 → fn = 0 → p = (d, 2, 0, 0)) ∧
    (kind ≠ 0 ∨ fn ≠ 0 → last < first ∨ 262143 < last ∨ 1000 < level ∨ later stop start = false → p = (d, 4, 0, 0)) ∧
    (p.2.1 ≠ 0 → p.1 = d) ∧
    (p.2.1 = 0 → Tab.find d.ord.recs p.2.2.1 = none ∧ (∀ i, i < p.2.2.1 → (Tab.find d.ord.recs i).isSome) ∧ p.2.2.1 < 16384 ∧
      p.2.2.2 = (d.ord.cseq + 1) % 2 ^ 32 ∧
      Tab.find p.1.ord.recs p.2.2.1 = some ⟨first, last, fn, kind, level, fade, start, stop, (d.ord.cseq + 1) % 2 ^ 32⟩ ∧
      (∀ i, i ≠ p.2.2.1 → Tab.find p.1.ord.recs i = Tab.find d.ord.recs i) ∧ p.1.regs = d.regs ∧ p.1.bsk = d.bsk) ∧
    (∀ n, Tab.find d.ord.recs n = none → d.ordCancel fn n = (d, 4)) ∧
    (∀ n r, n < 16384 → Tab.find d.ord.recs n = some r → (fn ≠ 0 ∧ r.fn ≠ fn → d.ordCancel fn n = (d, 3)) ∧
      (fn = 0 ∨ r.fn = fn → (d.ordCancel fn n).2 = 0 ∧ Tab.find (d.ordCancel fn n).1.ord.recs n = none))

/-- The cut-off and the sweep (R140, R150): before its cut-off a slot is not merged; at it the sources are merged as they stand, once; the sweep of
a slot whose cut-off has passed is counted and frees the records that have ended, and none runs before. Its duration is a free value of at most
8,200 (log entry 28). -/
def Sys2Proof.Claims.OrderSweep : Prop :=
  ∀ (s : State), s.dev.awake = true →
    (s.dev.now + s.dev.ord.lead * 1000 < s.dev.ord.next * 1000000 → s.dev.ordCut = s.dev) ∧
    (s.dev.ord.next * 1000000 ≤ s.dev.now + s.dev.ord.lead * 1000 → let t := s.dev.ordCut
      t.ord.next = s.dev.ord.next + 1 ∧ t.ord.lead = s.dev.get ORD_CFG_LEAD ∧ t.ord.todo = [] ∧ t.ord.recs = s.dev.ord.recs ∧ t.ord.cseq = s.dev.ord.cseq ∧
      ∃ res, t.ord.cuts = s.dev.ord.cuts ++ [⟨s.dev.ord.next, res⟩] ∧ res.map (·.lix) = s.dev.mle.inv.map (·.1)) ∧
    (s.dev.ord.cuts = [] → s.becomes .orderSweep s.dev) ∧
    (∀ c r, s.dev.ord.cuts = c :: r →
      s.completes .orderSweep (fun t => t.ord.cuts = r ∧ t.ord.next = s.dev.ord.next ∧ t.ord.lead = s.dev.ord.lead ∧
        t.get ORD_STAT_SLOT = c.slot % 2 ^ 32 ∧ t.get ORD_STAT_SWEEP ≤ 8200 ∧
        t.ord.recs = s.dev.ord.recs.filter (fun e => later e.2.stop (c.slot % 2 ^ 32)) ∧ (r ≠ [] → t.ord.todo = []) ∧
        t.get (ORD_CNT_COUNT 0) = satw 48 (s.dev.get (ORD_CNT_COUNT 0) + 1)))

/-- Which due lanterns an ORDER goes to first (R150): the classes in order, and every due lantern of the sweep once. The number of the slot that
holds the time base, and when one slot number is later than another (R45). -/
def Sys2Proof.Claims.OrderPriority : Prop :=
  (∀ d : Dev, d.slotNow = d.get TB_NS_NS / 1000000 % 2 ^ 32) ∧
  (∀ a b : Nat, a < 2 ^ 32 → b < 2 ^ 32 →
    (later a b = true ↔ 1 ≤ (a + 2 ^ 32 - b) % 2 ^ 32 ∧ (a + 2 ^ 32 - b) % 2 ^ 32 ≤ 2 ^ 31 - 1)) ∧
  ∀ (rot : List Nat) (due : List OrdDue), (∀ x ∈ due, 1 ≤ x.cls ∧ x.cls ≤ 5) →
    (orderDue rot due).Perm due ∧ (orderDue rot due).Pairwise (fun a b => a.cls ≤ b.cls)

/-- A write of ORD_CFG sets its three fields, and LEAD holds from the pending slot on when its cut-off under the new lead lies after the write
(R140, Table 6-8); a field outside its range refuses the whole write. -/
def Sys2Proof.Claims.OrderConfiguration : Prop :=
  ∀ (s : State) (lead refresh : BitVec 10) (ack : BitVec 2), s.dev.awake = true →
    let ok := 100 ≤ lead.toNat ∧ lead.toNat ≤ 900 ∧ ack.toNat ≤ 2 ∧ 10 ≤ refresh.toNat ∧ refresh.toNat ≤ 1000
    let d := s.dev
    (ok → s.completes (.ordCfgWrite lead ack refresh) (fun t => t.get ORD_CFG_LEAD = lead.toNat ∧ t.get ORD_CFG_ACKMODE = ack.toNat ∧
      t.get ORD_CFG_REFRESH = refresh.toNat ∧ d.onlyRegs t [ORD_CFG_LEAD, ORD_CFG_ACKMODE, ORD_CFG_REFRESH] ∧
      t.ord = { d.ord with lead := if d.now + lead.toNat * 1000 < d.ord.next * 1000000 ∧ d.now + d.ord.lead * 1000 < d.ord.next * 1000000
        then lead.toNat else d.ord.lead })) ∧
    (¬ ok → s.becomes (.ordCfgWrite lead ack refresh) (d.errReserved 0xA 0 0x30100) ∧ d.errOnly (d.errReserved 0xA 0 0x30100))

/-- The entries the merge and the ledger take from their queues: a reflex entry applies its orders (R146), a compensation entry sets or clears a
remote record (R173), a FAULT changes the lantern's dark set (R147), an ORDER-ACK ends the wait for it (R152), STATUS and ENERGY reach the ledger
(R154). A reflex order for a lantern of this device gives its level; one for another is counted and changes no lantern. -/
def Sys2Proof.Claims.QueueConsumers : Prop :=
  ∀ (s : State) (q : Nat) (e : Entry) (r : List Entry), s.dev.awake = true → s.dev.taken q = e :: r → e.poison = false →
    let d := { s.dev with bsk := { s.dev.bsk with taken := Tab.set [] s.dev.bsk.taken q r } }
    (q = 0x1588 → isReflexEntry e = true → s.becomes .reflexApply (d.reflexEntry e) ∧ s.becomes .compensationApply s.dev) ∧
    (q = 0x1588 → isReflexEntry e = false → s.becomes .compensationApply (d.compApply e) ∧ s.becomes .reflexApply s.dev) ∧
    (q = 0x1589 → s.becomes .faultApply (d.faultApply e)) ∧
    (q = 0x158A → s.becomes .orderAckApply (d.ackApply e)) ∧
    (q = 0x158B → isStatusEntry e = true → s.becomes .ledgerStatusApply (d.ldgApply e)) ∧
    (q = 0x158B → isStatusEntry e = false → s.becomes .ledgerEnergyApply (d.ldgApply e)) ∧
    (d.get LDG_CFG_EN ≠ 1 → d.ldgApply e = d) ∧
    (d.get LDG_CFG_EN = 1 → d.msgKnown e = false → d.ldgApply e = d.inc (LDG_CNT_COUNT 6)) ∧
    (∀ target level fade expire, let x := target % 2 ^ 18; let o := d.olan x
      (target / 2 ^ 18 ≠ d.get RIM_CFG_DEVNO ∨ d.lantern x = none → d.reflexApply target level fade expire = d.inc (ORD_CNT_COUNT 8)) ∧
      (target / 2 ^ 18 = d.get RIM_CFG_DEVNO → (d.lantern x).isSome → o.rv = false →
        d.reflexApply target level fade expire =
          (d.setOlan x { o with rlevel := level, rfade := fade, rexp := (expire + 999999) / 1000000 % 2 ^ 32, rv := true }).inc (ORD_CNT_COUNT 7))) ∧
    (let x := msgLix e; let o := d.olan x
      let hit := d.msgKnown e = true ∧ beAt ((msgBytes e).drop 16) 4 4 = o.lslot ∧ (o.ack = 1 ∨ o.ack = 2)
      (hit → (d.ackApply e).olan x = { o with ack := 0, tries := 0 } ∧ ∀ k, k ≠ x → (d.ackApply e).olan k = d.olan k) ∧
      (¬ hit → d.ackApply e = d.inc (ORD_CNT_COUNT 6)))

/-- FAULTs are taken in queue order (R147). One that is severe and set enters its code in the lantern's dark set, one beyond four codes sets the
overflow mark and raises event 0x0606, and every other takes its code out; a lantern is dark while a code or the mark stands, and the mark stands
until CLEAR; a FAULT of a lantern no longer registered so is counted alone. -/
def Obligations.DarkSets : Prop :=
  ∀ (d : Dev) (e : Entry),
    let lix := msgLix e
    let pl := (msgBytes e).drop 16
    let code := beAt pl 8 2
    let r := d.olan lix
    let dark := byteAt pl 10 = 2 ∧ byteAt pl 11 = 1
    let c := d.inc (ORD_CNT_COUNT 9)
    let t := d.faultApply e
    (d.msgKnown e = false → t = c) ∧
    (d.msgKnown e = true → dark → r.codes.contains code = true → t = c) ∧
    (d.msgKnown e = true → dark → r.codes.contains code = false →
      (r.codes.length < 4 → t.olan lix = { r with codes := r.codes ++ [code] }) ∧
      (4 ≤ r.codes.length → t.olan lix = { r with dovf := true } ∧
        t = (c.setOlan lix { r with dovf := true }).bothEvent (c.ownerOf lix) 0x0606 [(4, lix), (2, code)])) ∧
    (d.msgKnown e = true → ¬ dark → t.olan lix = { r with codes := r.codes.filter (· != code) }) ∧
    ((t.olan lix).dark = true ↔ (t.olan lix).codes ≠ [] ∨ (t.olan lix).dovf = true) ∧ (r.dovf = true → (t.olan lix).dovf = true) ∧
    t.get (ORD_CNT_COUNT 9) = satw 48 (d.get (ORD_CNT_COUNT 9) + 1) ∧
    (∀ k, k ≠ lix → t.olan k = d.olan k) ∧
    (∀ (s : State) (l : List Entry), s.dev.awake = true → s.dev.taken 0x1589 = e :: l → e.poison = false →
      s.becomes .faultApply (({ s.dev with bsk := { s.dev.bsk with taken := Tab.set [] s.dev.bsk.taken 0x1589 l } } : Dev).faultApply e)) ∧
    (∀ s : State, s.dev.awake = true → s.dev.get ORD_TBL_CMD_BUSY = 0 → s.dev.get ORD_TBL_SEL_TABLE = 0 → ordIndexOk 0 (s.dev.get ORD_TBL_SEL_INDEX) = true →
      s.completes .ordTblClear (fun u => (u.olan (s.dev.get ORD_TBL_SEL_INDEX)).dark = false))

/-- Compensation entries whose expiry has come are freed and counted (R173). -/
def Sys2Proof.Claims.CompensationExpiry : Prop :=
  ∀ (s : State), s.dev.awake = true →
    s.becomes .compensationExpire (({ s.dev with ord := { s.dev.ord with
      remote := s.dev.ord.remote.filter (fun r => s.dev.ord.ticks < r.expiry) } } : Dev).addCnt (RIM_GCNT_COUNT 3)
        (s.dev.ord.remote.filter (fun r => r.expiry ≤ s.dev.ord.ticks)).length)

/-- The ORD tables (R162, Table 6-9): an index out of range ends with RESULT 1; READ loads the entry; WRITE stores what its table's checks allow
(R144, R145, R149), and refuses a bad value with RESULT 2, a bad owner with RESULT 3 and an order record with RESULT 4; CLEAR empties a lantern
entry's dark and reflex state or frees an order record; while BUSY is 1 a command is ignored with an error record. -/
def Sys2Proof.Claims.OrderTables : Prop :=
  ∀ (s : State), s.dev.awake = true →
    let d := s.dev
    (d.get ORD_TBL_CMD_BUSY = 1 → ∀ c ∈ [Instr.ordTblRead, .ordTblWrite, .ordTblClear], s.becomes c (d.raiseErr 0xA 0 0x0002 3 0x3010C 0)) ∧
    (d.get ORD_TBL_CMD_BUSY = 0 →
    let t := d.get ORD_TBL_SEL_TABLE
    let i := d.get ORD_TBL_SEL_INDEX
    let q := (List.range 16).map (fun i => d.get (ORD_DATA_QUAD i))
    let stored := fun P => s.completes .ordTblWrite (fun u => u.get ORD_TBL_CMD_RESULT = 0 ∧ d.onlyRegs u [ORD_TBL_CMD_RESULT, ORD_TBL_CMD_BUSY] ∧ P u)
    let refused := fun (c : Instr) n => s.becomes c (d.tblDone ORD_TBL_CMD_RESULT ORD_TBL_CMD_BUSY n)
    (ordIndexOk t i = false → ∀ c ∈ [Instr.ordTblRead, .ordTblWrite, .ordTblClear], refused c 1) ∧
    (ordIndexOk t i = true →
      (∀ l, d.ordRead t i = some l → l.length ≤ 16 → s.completes .ordTblRead (fun u => u.get ORD_TBL_CMD_RESULT = 0 ∧
        (∀ k, k < l.length → u.get (ORD_DATA_QUAD k) = quadAt l k % 2 ^ 64) ∧ u.ord = d.ord)) ∧
      (t = 0 →
        let fb := bits (quadAt q 0) 17 8
        let sc := bits (quadAt q 0) 27 18
        let bad := (fb ≠ 0 ∧ d.calOwner fb ≠ 0) ∨ (sc ≠ 0 ∧ d.calOwner sc ≠ d.ownerOf i)
        (bad → refused .ordTblWrite 3) ∧
        (¬ bad → stored (fun u => u.olan i = { d.olan i with cls := bits (quadAt q 0) 7 0, fbcal := fb, schcal := sc } ∧
          ∀ j, j ≠ i → u.olan j = d.olan j)) ∧
        s.completes .ordTblClear (fun u => u.get ORD_TBL_CMD_RESULT = 0 ∧ u.ord.recs = d.ord.recs ∧
          u.olan i = { d.olan i with codes := [], dovf := false, rv := false, lvalid := false, ack := 0 } ∧ ∀ j, j ≠ i → u.olan j = d.olan j)) ∧
      (t = 1 →
        let c := RoadClass.ofQuads q
        let bad := c.ceil < c.floor ∨ 1000 < c.ceil ∨ 1000 < c.fclevel ∨ 8 < c.fcn
        (bad → refused .ordTblWrite 2) ∧ (¬ bad → c.darkcal ≠ 0 → d.calOwner c.darkcal ≠ 0 → refused .ordTblWrite 3) ∧
        (¬ bad → c.darkcal = 0 ∨ d.calOwner c.darkcal = 0 →
          stored (fun u => u.roadClass i = c ∧ (∀ j, j ≠ i → u.roadClass j = d.roadClass j) ∧ u.ord.lan = d.ord.lan))) ∧
      (t = 2 →
        let c := calMask q
        let bad := bits (quadAt c 1) 34 32 = 7 ∨ 1000 < bits (quadAt c 0) 25 16
        let foreign := (calProgs c).any (fun p => d.progOwner p != bits (quadAt c 0) 5 0)
        (bad → refused .ordTblWrite 2) ∧ (¬ bad → foreign = true → refused .ordTblWrite 3) ∧
        (¬ bad → foreign = false → bits (quadAt c 0) 5 0 = d.calOwner i →
          stored (fun u => (∀ k, quadAt (u.calendar i) k = quadAt c k) ∧ ∀ j, j ≠ i → u.calendar j = d.calendar j))) ∧
      (t = 3 →
        (progOk (progMask q) = false → refused .ordTblWrite 2) ∧
        (progOk (progMask q) = true → quadAt (progMask q) 15 = d.progOwner i →
          stored (fun u => u.program i = progMask q ∧ ∀ j, j ≠ i → u.program j = d.program j))) ∧
      (t = 4 → refused .ordTblWrite 4 ∧ s.completes .ordTblClear (fun u => u.get ORD_TBL_CMD_RESULT = 0 ∧ Tab.find u.ord.recs i = none ∧
        (∀ j, j ≠ i → Tab.find u.ord.recs j = Tab.find d.ord.recs j) ∧ u.ord.lan = d.ord.lan)) ∧
      (1 ≤ t → t ≤ 3 → refused .ordTblClear 4)))

/-- Decimal sums (R159): a total of 16 decimal digits stays one, gains what is added modulo 10^16, and the wrap is reported. -/
def Obligations.DecimalTotals : Prop :=
  ∀ (total add : Nat), allDigits 16 total = true →
    bcdVal 16 (decAdd total add).1 = (bcdVal 16 total + add) % 10 ^ 16 ∧ allDigits 16 (decAdd total add).1 = true ∧
    ((decAdd total add).2 = true ↔ 10 ^ 16 ≤ bcdVal 16 total + add)

/-- status(n, m) of R156: a STATUS not later than the last is counted alone; a known engine gains what its bins and factors give and its cycles; an
engine seen for the first time starts at 0; an identity of 0 is counted. -/
def Sys2Proof.Claims.LedgerStatus : Prop :=
  ∀ (d : Dev) (n : Nat) (pl : List Byte), let g := d.ldgRec n
    (beAt pl 0 8 ≤ g.laststat → d.ldgStatus n pl = d.inc (LDG_CNT_COUNT 2)) ∧
    (beAt pl 52 8 = 0 → d.statusEngine n pl = d.inc (LDG_CNT_COUNT 3)) ∧
    (beAt pl 52 8 ≠ 0 → g.known.testBit 0 = false →
      let h := (d.statusEngine n pl).ldgRec n
      h.engid = beAt pl 52 8 ∧ h.eq = 0 ∧ h.ecyc = 0 ∧ h.known.testBit 0 = true ∧ h.einst = beAt pl 0 8 ∧ h.dsec = g.dsec ∧ h.drvid = g.drvid) ∧
    (beAt pl 52 8 ≠ 0 → g.known.testBit 0 = true → beAt pl 52 8 = g.engid →
      let k := tempBand (sgn 16 (beAt pl 20 2))
      let add := sumN ((List.range 8).map (fun b => beAt pl (28 + 2 * b) 2 * d.ageFactor g.type k b))
      let cyc := g.ecyc + sinceLast (beAt pl 44 4) g.bcyc
      g.eq + add < 2 ^ 48 → cyc < 2 ^ 32 →
      let h := (d.statusEngine n pl).ldgRec n
      h.eq = g.eq + add ∧ h.ecyc = cyc ∧ h.bcyc = beAt pl 44 4 ∧ h.engid = g.engid ∧ h.dsec = g.dsec)

/-- Energy periods (R160): a boundary that is due closes the period: a record for each function that owns a lantern or has a total, the counts since
the last period start again, and the next period begins there; with none due nothing happens. -/
def Sys2Proof.Claims.EnergyPeriods : Prop :=
  ∀ (s : State), s.dev.onAir = true →
    (s.dev.ldg.due = none → s.becomes .energyPeriodBoundary s.dev) ∧
    (∀ b, s.dev.ldg.due = some b → s.becomes .energyPeriodBoundary { s.dev with ldg := { s.dev.ldg with
      due := none, out := s.dev.ldg.out ++ s.dev.energyFns.map (fun f => (f, s.dev.energyBody f b)), acc := [], start := b } })

/-- The LDG tables (R161): an index out of range ends with RESULT 1; READ loads an entry; a record written is the record stored, one whose energy
counts are not decimal is refused with RESULT 2; types and ageing tables are stored; the totals of a function are never written (RESULT 4); CLEAR
zeroes a record (R158), and no other table's entry; while BUSY is 1 a command is ignored with an error record. -/
def Sys2Proof.Claims.LedgerTables : Prop :=
  ∀ (s : State), s.dev.awake = true →
    let d := s.dev
    (d.get LDG_TBL_CMD_BUSY = 1 → ∀ c ∈ [Instr.ldgTblRead, .ldgTblWrite, .ldgTblClear], s.becomes c (d.raiseErr 0xB 0 0x0002 3 0x2F80C 0)) ∧
    (d.get LDG_TBL_CMD_BUSY = 0 →
    let t := d.get LDG_TBL_SEL_TABLE
    let i := d.get LDG_TBL_SEL_INDEX
    let q := (List.range 32).map (fun i => d.get (LDG_DATA_QUAD i))
    let stored := fun P => s.completes .ldgTblWrite (fun u => u.get LDG_TBL_CMD_RESULT = 0 ∧ d.onlyRegs u [LDG_TBL_CMD_RESULT, LDG_TBL_CMD_BUSY] ∧ P u)
    let refused := fun (c : Instr) n => s.becomes c (d.tblDone LDG_TBL_CMD_RESULT LDG_TBL_CMD_BUSY n)
    (ldgIndexOk t i = false → ∀ c ∈ [Instr.ldgTblRead, .ldgTblWrite, .ldgTblClear], refused c 1) ∧
    (ldgIndexOk t i = true →
      (∀ l, d.ldgRead t i = some l → l.length ≤ 32 → s.completes .ldgTblRead (fun u => u.get LDG_TBL_CMD_RESULT = 0 ∧
        (∀ k, k < l.length → u.get (LDG_DATA_QUAD k) = quadAt l k % 2 ^ 64) ∧ u.ldg = d.ldg)) ∧
      (t = 0 →
        let digits := allDigits 16 (quadAt q 10) = true ∧ allDigits 16 (quadAt q 11) = true
        (¬ digits → refused .ldgTblWrite 2) ∧
        (digits → stored (fun u => u.ldgRec i = LdgRec.ofQuads q ∧ ∀ j, j ≠ i → u.ldgRec j = d.ldgRec j)) ∧
        s.completes .ldgTblClear (fun u => u.get LDG_TBL_CMD_RESULT = 0 ∧ u.ldgRec i = {} ∧ ∀ j, j ≠ i → u.ldgRec j = d.ldgRec j)) ∧
      (t = 1 → stored (fun u => quadAt (u.ldgType i) 0 = quadAt q 0 ∧ quadAt (u.ldgType i) 1 = quadAt q 1 % 2 ^ 32 ∧
        ∀ j, j ≠ i → u.ldgType j = d.ldgType j)) ∧
      (t = 2 → stored (fun u => u.ldgAge i = (List.range 32).map (quadAt q) ∧ ∀ j, j ≠ i → u.ldgAge j = d.ldgAge j)) ∧
      (t = 3 → refused .ldgTblWrite 4) ∧ (t ≠ 0 → refused .ldgTblClear 4)))

/-- The order records and ORD_CFG (R140, R142). -/
def Obligations.OrderRecordsAndConfiguration : Prop := Claims.OrderRecords ∧ Claims.OrderConfiguration

/-- The sweep at a cut-off and the order in which due lanterns are served (R45, R140, R150). -/
def Obligations.OrderSweeps : Prop := Claims.OrderSweep ∧ Claims.OrderPriority

/-- The ORD and LDG tables (R149, R158, R161, R162). -/
def Obligations.OrderAndLedgerTables : Prop := Claims.OrderTables ∧ Claims.LedgerTables

/-- STATUS and the energy periods in the ledger (R156, R160). -/
def Obligations.LedgerUpdates : Prop := Claims.LedgerStatus ∧ Claims.EnergyPeriods


/-- The merge's consumers by their results: the entry is gone from its queue; after a reflex entry every registered lantern of this device that it
names has a reflex level, and after one order that lantern has the order's; a compensation entry stands in the table until its expiry, or is gone from
it; a FAULT changes its lantern's dark set; an ORDER-ACK of the last ORDER ends the wait, and every other is counted (R146, R147, R152, R173). -/
def Sys2Proof.Claims.ConsumerResults : Prop :=
  ∀ (s : State) (e : Entry) (r : List Entry), s.dev.awake = true → e.poison = false →
    let d := s.dev
    let n := (e.words.getD 0 0).toNat % 16
    let q := fun (i : Nat) => wordsNat ((e.words.drop i).take 4)
    let here := fun (k : Nat) => bits (q (8 + 8 * k)) 23 0 / 2 ^ 18 = d.get RIM_CFG_DEVNO ∧ (d.lantern (bits (q (8 + 8 * k)) 17 0)).isSome = true
    let w0 := (e.words.getD 0 0).toNat
    let key : RComp → Bool := fun x => x.sdev == (e.words.getD 1 0).toNat % 64 && x.slan == wordsNat ((e.words.drop 2).take 2) % 2 ^ 24 &&
      x.side == bits w0 10 10
    let ts := (List.range (bits w0 9 6)).map (fun k => wordsNat ((e.words.drop (8 + 2 * k)).take 2) % 2 ^ 24)
    let lix := msgLix e
    let o := d.olan lix
    let pl := (msgBytes e).drop 16
    (d.taken 0x1588 = e :: r → isReflexEntry e = true →
      s.completes .reflexApply (fun t => t.taken 0x1588 = r ∧ (∀ k, k < n → here k → (t.olan (bits (q (8 + 8 * k)) 17 0)).rv = true) ∧
        (n = 1 → here 0 → (d.olan (bits (q 8) 17 0)).rv = false → t.olan (bits (q 8) 17 0) = { d.olan (bits (q 8) 17 0) with
          rlevel := bits (q 8) 33 24, rfade := bits (q 8) 51 36, rexp := (q 12 + 999999) / 1000000 % 2 ^ 32, rv := true }))) ∧
    (d.taken 0x1588 = e :: r → isReflexEntry e = false →
      (w0.testBit 5 = false → s.completes .compensationApply (fun t => t.taken 0x1588 = r ∧ t.ord.remote = d.ord.remote.filter (fun x => !key x))) ∧
      (w0.testBit 5 = true → ts ≠ [] → (∀ t ∈ ts, t / 2 ^ 18 = d.get RIM_CFG_DEVNO) → d.ord.remote.any key = false → d.ord.remote.length < 4096 →
        s.completes .compensationApply (fun t => t.taken 0x1588 = r ∧ t.ord.remote = d.ord.remote ++ [⟨(e.words.getD 1 0).toNat % 64,
          wordsNat ((e.words.drop 2).take 2) % 2 ^ 24, bits w0 10 10, ts, d.ord.ticks + 3 * d.get RIM_CFG_CREF⟩]))) ∧
    (d.taken 0x1589 = e :: r →
      s.completes .faultApply (fun t => t.taken 0x1589 = r ∧ (∀ k, k ≠ lix → t.olan k = d.olan k) ∧
        (d.msgKnown e = true → byteAt pl 10 = 2 → byteAt pl 11 = 1 → (t.olan lix).dark = true) ∧
        (d.msgKnown e = true → ¬ (byteAt pl 10 = 2 ∧ byteAt pl 11 = 1) → t.olan lix = { o with codes := o.codes.filter (· != beAt pl 8 2) }))) ∧
    (d.taken 0x158A = e :: r →
      let hit := d.msgKnown e = true ∧ beAt pl 4 4 = o.lslot ∧ (o.ack = 1 ∨ o.ack = 2)
      (hit → s.completes .orderAckApply (fun t => t.taken 0x158A = r ∧ t.olan lix = { o with ack := 0, tries := 0 } ∧
        (∀ k, k ≠ lix → t.olan k = d.olan k) ∧ t.get (ORD_CNT_COUNT 4) = satw 48 (d.get (ORD_CNT_COUNT 4) + 1))) ∧
      (¬ hit → s.completes .orderAckApply (fun t => t.taken 0x158A = r ∧ t.ord = d.ord ∧
        t.get (ORD_CNT_COUNT 6) = satw 48 (d.get (ORD_CNT_COUNT 6) + 1))))

/-- The ledger's consumers by their results, with the ledger enabled and a lantern registered to the UID: a later STATUS leaves its time and counts in
the record; a later ENERGY its reading, and once a reading is known the energy gained since enters the lantern's and the owner's totals in
decimal (R154, R156, R159). -/
def Sys2Proof.Claims.LedgerResults : Prop :=
  ∀ (s : State) (e : Entry) (r : List Entry), s.dev.awake = true → s.dev.taken 0x158B = e :: r → e.poison = false → s.dev.get LDG_CFG_EN = 1 →
    s.dev.msgKnown e = true →
    let d := s.dev
    let n := msgLix e
    let g := d.ldgRec n
    let f := d.ownerOf n
    let pl := (msgBytes e).drop 16
    let time := beAt pl 0 8
    let eact := beAt pl 8 8
    (isStatusEntry e = true → g.laststat < time →
      s.completes .ledgerStatusApply (fun t => t.taken 0x158B = r ∧ (t.ldgRec n).laststat = time ∧
        (g.nstat + 1 < 2 ^ 32 → (t.ldgRec n).nstat = g.nstat + 1) ∧ (∀ j, j ≠ n → t.ldgRec j = d.ldgRec j) ∧
        t.get (LDG_CNT_COUNT 0) = satw 48 (d.get (LDG_CNT_COUNT 0) + 1))) ∧
    (isStatusEntry e = false → g.lasten < time → f < 64 →
      s.completes .ledgerEnergyApply (fun t => t.taken 0x158B = r ∧ (t.ldgRec n).lasten = time ∧ (t.ldgRec n).beact = eact ∧
        (g.known.testBit 2 = false → (t.ldgRec n).etot = g.etot ∧ (t.ldgRec n).known.testBit 2 = true) ∧
        (g.known.testBit 2 = true → g.beact ≤ eact →
          (t.ldgRec n).etot = (decAdd g.etot (bcdVal 16 eact - bcdVal 16 g.beact)).1 ∧
          t.get (LDG_ETOT_TOTAL f) = (decAdd (d.get (LDG_ETOT_TOTAL f)) (bcdVal 16 eact - bcdVal 16 g.beact)).1) ∧
        (∀ j, j ≠ n → t.ldgRec j = d.ldgRec j) ∧ t.get (LDG_CNT_COUNT 1) = satw 48 (d.get (LDG_CNT_COUNT 1) + 1)))

/-- What the merge and the ledger do with the entries of their queues, and the end of remote compensation (R146, R147, R152, R154, R156, R159,
R173). -/
def Obligations.QueueConsumption : Prop := Claims.QueueConsumers ∧ Claims.ConsumerResults ∧ Claims.LedgerResults ∧ Claims.CompensationExpiry


/-! ### Chapter 7: the rim links -/

/-- Rim bring-up and service: IN is refused while DVALID or NBRV is 0 and otherwise turns the lanes on, returning (R165); FEC lock starts the
hold-off, whose end starts the IDENT exchange (R166); PARK is for a link out of service; OUT drains a link in service and its end turns the lanes
off; loss of lock makes a link in service return, is counted and raises event 0x0702, and a drain goes on; a link still returning raises 0x0704
(R82, R166, R177). -/
def Sys2Proof.Claims.RimService : Prop :=
  ∀ (s : State) (r : Requester) (i : Link), s.dev.awake = true →
    let d := s.dev
    let st := d.get (RIM_SVC_STATE i)
    let l := d.rlink i
    (d.get (RIM_SVC_BUSY i) = 1 →
      s.becomes (.rimOut r i) (d.raiseErr 0xC i 0x0002 3 (rimOff i 2) 0) ∧ s.becomes (.rimIn r i) (d.raiseErr 0xC i 0x0002 3 (rimOff i 2) 0) ∧
      s.becomes (.rimOutComplete i) (((d.rimLanesOff i).put (RIM_SVC_STATE i) 0).put (RIM_SVC_BUSY i) 0)) ∧
    (d.get (RIM_SVC_BUSY i) = 0 →
      (d.get RIM_CFG_DVALID = 0 ∨ d.get (RIM_LCFG_NBRV i) = 0 →
        s.becomes (.rimIn r i) (d.raiseErr 0xC i 0x0003 3 (rimOff i 2) (srcOf r))) ∧
      (d.get RIM_CFG_DVALID = 1 → d.get (RIM_LCFG_NBRV i) = 1 → (st = 0 ∨ st = 3) →
        s.becomes (.rimIn r i) ((d.put (RIM_SVC_STATE i) 1).setRlink i { l with lanesOn := true, holdoff := false, ident := false })) ∧
      (d.get RIM_CFG_DVALID = 1 → d.get (RIM_LCFG_NBRV i) = 1 → (st = 1 ∨ st = 2) → s.becomes (.rimIn r i) d) ∧
      (st = 0 → s.becomes (.rimOut r i) d ∧
        s.completes (.rimPark r i) (fun t => t.get (RIM_SVC_STATE i) = 3 ∧ t.rim = d.rim ∧ t.ord = d.ord)) ∧
      (st = 1 → s.becomes (.rimOut r i) ((d.rimLanesOff i).put (RIM_SVC_STATE i) 0)) ∧
      (st = 2 → s.becomes (.rimOut r i) (d.put (RIM_SVC_BUSY i) 1)) ∧
      (st = 3 → s.becomes (.rimOut r i) (d.raiseErr 0xC i 0x0003 3 (rimOff i 2) (srcOf r)))) ∧
    (l.lanesOn = true → d.get (RIM_STATUS_FEC_LOCK i) = 0 →
      s.becomes (.rimFecLock ⟨i, .fec⟩) ((d.rimLocks i 0 5 true).setRlink i { l with holdoff := true }) ∧
      ∀ g : LinkStage, g ≠ .fec → s.becomes (.rimFecLock ⟨i, g⟩) (d.rimLocks i 0 (stageNo g) true)) ∧
    (l.holdoff = true → d.get (RIM_SVC_BUSY i) = 0 →
      s.becomes (.rimHoldoffEnd i) ((d.setRlink i { l with holdoff := false, ident := true }).put (RIM_SVC_STATE i) 1)) ∧
    (l.holdoff = true → d.get (RIM_SVC_BUSY i) = 1 →
      s.becomes (.rimHoldoffEnd i) (d.setRlink i { l with holdoff := false, ident := true })) ∧
    (∀ g : LinkStage, l.ident = true → st = 2 →
      s.completes (.rimLockLoss ⟨i, g⟩) (fun t => t.get (RIM_SVC_STATE i) = (if d.get (RIM_SVC_BUSY i) = 0 then 1 else 2) ∧
        t.get (RIM_STATUS_FEC_LOCK i) = 0 ∧ t.get (RIM_SVC_BUSY i) = d.get (RIM_SVC_BUSY i))) ∧
    (∀ g : LinkStage, l.ident = true → st = 2 → d.get (RIM_SVC_BUSY i) = 0 →
      s.completes (.rimLockLoss ⟨i, g⟩) (fun t => t.get (RIM_SVC_STATE i) = 1 ∧ t.get (RIM_STATUS_FEC_LOCK i) = 0 ∧
        t.get (RIM_CNT_COUNT i 10) = satw 48 (d.get (RIM_CNT_COUNT i 10) + 1) ∧ t.rlink i = { l with ident := false, holdoff := false } ∧
        t.ord = d.ord)) ∧
    (st = 1 → s.becomes (.rimReturnTimeout i) (d.pfEvent 0x0704 [(1, i), (4, d.rimStatus i), (1, d.get (RIM_SVC_IDERR i))]))

/-- Rim frames: a link that has come up sends IDENT, and SYNC with the next PSEQ of both pools, and nothing while OUT drains it (R82, R166,
R168); an entry leaves as a frame
of its pool while that pool has credit, and is discarded and counted while the link is out of service (R168, R171); a frame whose CRC is wrong is
counted and delivers nothing, a SYNC frees every missing PSEQ whatever the link's state, a pool frame on a link that is not in service is
refused unless it began before the OUT that drains it, a good IDENT puts a returning link in service with both pools full (R166, R174);
RIM_BSET writes and reads one lantern's bit (R174). -/
def Sys2Proof.Claims.RimFrames : Prop :=
  ∀ (s : State) (i : Link), s.dev.awake = true →
    let d := s.dev
    let l := d.rlink i
    (l.ident = true → d.get (RIM_SVC_BUSY i) = 0 → s.becomes (.identTimer i) (d.rimEmit i (d.rimFrame i 4 0
      (leWords 2 (d.get RIM_INSTALL_ID) ++ [BitVec.ofNat 16 (d.get RIM_CFG_DEVNO + d.get RIM_CFG_DVALID * 64)]) []))) ∧
    (l.ident = false ∨ d.get (RIM_SVC_BUSY i) = 1 → s.becomes (.identTimer i) d ∧ s.becomes (.syncTimer i) d) ∧
    (l.ident = true → d.get (RIM_SVC_BUSY i) = 0 → s.becomes (.syncTimer i)
      (d.rimEmit i (d.rimFrame i 3 0 [BitVec.ofNat 16 l.txR, BitVec.ofNat 16 l.txH, 0] []))) ∧
    (∀ (e : Entry) (r : List Entry), d.taken (0x158E + i) = e :: r → e.poison = false →
      let d := { d with bsk := { d.bsk with taken := Tab.set [] d.bsk.taken (0x158E + i) r } }
      (s.dev.rimOpen i = true → s.dev.rimCanSend i e = true → s.becomes (.rimEntrySend i) (d.rimSendEntry i e)) ∧
      (s.dev.rimOpen i = true → s.dev.rimCanSend i e = false → s.becomes (.rimEntrySend i) s.dev) ∧
      (s.dev.rimOpen i = false → s.becomes (.rimEntrySend i) ((d.inc (RIM_CNT_COUNT i 5)).riseAt (3 * i) 1))) ∧
    (∀ (b : List Byte) (cw : RimRxLine), l.ident = true →
      let d0 := (d.inc (RIM_CNT_COUNT i 1)).addCnt (RIM_CNT_COUNT i 8) cw.cw.toNat
      (rimParse b = none → s.becomes (.rimFrameReceive i b cw) ((d0.inc (RIM_CNT_COUNT i 6)).riseAt (3 * i + 1) 1)) ∧
      (∀ f, rimParse b = some f → f.type = 3 →
        s.becomes (.rimFrameReceive i b cw) ((if d.get (RIM_SVC_STATE i) = 2 then
          (d0.setRlink i { l with freedR := f.freedR, freedH := f.freedH }).rimCred i else d0).rimGotSync i f)) ∧
      (∀ f, rimParse b = some f → f.type = 1 ∨ f.type = 2 → cw.begun = false ∨ d.get (RIM_SVC_BUSY i) = 0 → d.rimOpen i = false →
        s.completes (.rimFrameReceive i b cw) (fun t => t.get (RIM_CNT_COUNT i 11) = satw 48 (d.get (RIM_CNT_COUNT i 11) + 1) ∧
          t.get (RIM_SVC_STATE i) = d.get (RIM_SVC_STATE i))) ∧
      (∀ f, rimParse b = some f → f.type = 4 → d.get (RIM_SVC_BUSY i) = 0 → d.get (RIM_SVC_STATE i) = 1 → f.w4 + f.w5 * 65536 = d.get RIM_INSTALL_ID →
        f.w6 % 64 = d.get (RIM_LCFG_NBR i) → f.w6.testBit 6 = true →
        s.completes (.rimFrameReceive i b cw) (fun t => t.get (RIM_SVC_STATE i) = 2 ∧ t.get (RIM_SVC_IDERR i) = 0 ∧
          t.get (RIM_STATUS_PEER i) = f.w6 % 64 ∧ t.get (RIM_STATUS_CRED_R i) = 32 ∧ t.get (RIM_STATUS_CRED_H i) = 96 ∧
          (t.rlink i).txR = 0 ∧ (t.rlink i).txH = 0)) ∧
      (∀ f, rimParse b = some f → f.type = 4 → d.get (RIM_SVC_BUSY i) = 1 → d.get (RIM_SVC_STATE i) = 2 →
        s.completes (.rimFrameReceive i b cw) (fun t => t.get (RIM_SVC_STATE i) = 2)) ∧
      (∀ f, rimParse b = some f → f.type = 4 → d.get (RIM_SVC_BUSY i) = 0 → d.get (RIM_SVC_STATE i) = 2 → f.w4 + f.w5 * 65536 ≠ d.get RIM_INSTALL_ID →
        s.completes (.rimFrameReceive i b cw) (fun t => t.get (RIM_SVC_STATE i) = 1 ∧ t.get (RIM_SVC_IDERR i) = 1))) ∧
    (∀ (n : Nat) (r : Bool), (d.rimMissing i n r).get (RIM_CNT_COUNT i 7) = satw 48 (d.get (RIM_CNT_COUNT i 7) + n)) ∧
    (∀ (x : Lix) (b : Bool),
      s.completes (.rimBsetWrite x b) (fun t => Tab.get false t.rim.bset x.toNat = b ∧
        (∀ y, y ≠ x.toNat → Tab.get false t.rim.bset y = Tab.get false d.rim.bset y) ∧ t.rim.link = d.rim.link ∧
        d.onlyRegs t [RIM_BSET_LIX, RIM_BSET_BIT]) ∧
      s.completes (.rimBsetRead x) (fun t => t.get RIM_BSET_BIT = b2n (Tab.get false d.rim.bset x.toNat) ∧ t.rim = d.rim ∧
        d.onlyRegs t [RIM_BSET_LIX, RIM_BSET_BIT]))

/-- The commands of a rim link by their results. Bring-up: FEC lock reaches every stage and starts the hold-off, a codeword lost in it or a stage lost
ends it, and the end of a drain leaves the link out of service with its lanes off. Sending: IDENT, SYNC and an entry that has credit leave as a
frame of their type, counted, and a pool's next PSEQ moves on. Receiving: a hand-off for a lantern of the boundary set stands in that
lantern's queue, a reflex or compensation entry whose targets are all in the set in queue 0x1588, and the pool's buffer is freed (R166–R171,
R174). -/
def Sys2Proof.Claims.RimResults : Prop :=
  ∀ (s : State) (i : Link), s.dev.awake = true →
    let d := s.dev
    let l := d.rlink i
    let sent := fun (t : Dev) (f : List Byte) => t.out = .rimFrame i f :: d.out ∧ t.get (RIM_CNT_COUNT i 0) = satw 48 (d.get (RIM_CNT_COUNT i 0) + 1)
    (l.lanesOn = true → d.get (RIM_STATUS_FEC_LOCK i) = 0 →
      s.completes (.rimFecLock ⟨i, .fec⟩) (fun t => t.rlink i = { l with holdoff := true } ∧ t.get (RIM_STATUS_FEC_LOCK i) = 1 ∧
        t.get (RIM_STATUS_AM_LOCK i) = 1 ∧ t.get (RIM_STATUS_BLOCK_LOCK i) = 15 ∧ ∀ k, k < 4 → t.get (RIM_LANE_SIGNAL i k) = 1 ∧
          t.get (RIM_LANE_CDR_LOCK i k) = 1 ∧ t.get (RIM_LANE_ADAPT_DONE i k) = 1)) ∧
    s.completes (.uncorrectableCodeword (.rim i) none) (fun t => t.get (RIM_CNT_COUNT i 9) = satw 48 (d.get (RIM_CNT_COUNT i 9) + 1) ∧
      (l.holdoff = true → t.get (RIM_STATUS_FEC_LOCK i) = 0 ∧ t.rlink i = { l with holdoff := false })) ∧
    (∀ g : LinkStage, l.holdoff = true → s.completes (.uncorrectableCodeword (.rim i) (some g)) (fun t =>
      t.get (RIM_STATUS_FEC_LOCK i) = 0 ∧ t.rlink i = { l with holdoff := false } ∧ t.get (RIM_CNT_COUNT i 9) = d.get (RIM_CNT_COUNT i 9))) ∧
    (d.get (RIM_SVC_BUSY i) = 1 → s.completes (.rimOutComplete i) (fun t => t.get (RIM_SVC_STATE i) = 0 ∧ t.get (RIM_SVC_BUSY i) = 0 ∧
      t.get (RIM_STATUS_FEC_LOCK i) = 0 ∧ t.rlink i = { l with lanesOn := false, holdoff := false, ident := false })) ∧
    (l.ident = true → d.get (RIM_SVC_BUSY i) = 0 →
      s.completes (.identTimer i) (fun t => sent t (d.rimFrame i 4 0
        (leWords 2 (d.get RIM_INSTALL_ID) ++ [BitVec.ofNat 16 (d.get RIM_CFG_DEVNO + d.get RIM_CFG_DVALID * 64)]) []) ∧ t.rim = d.rim) ∧
      s.completes (.syncTimer i) (fun t => sent t (d.rimFrame i 3 0 [BitVec.ofNat 16 l.txR, BitVec.ofNat 16 l.txH, 0] []) ∧ t.rim = d.rim)) ∧
    (∀ (e : Entry) (r : List Entry), d.taken (0x158E + i) = e :: r → e.poison = false → d.rimOpen i = true → d.rimCanSend i e = true →
      s.completes (.rimEntrySend i) (fun t => t.taken (0x158E + i) = r ∧
        (inPoolR e = true → sent t (d.rimFrame i 1 l.txR [0, 0, 0] e.words) ∧ t.rlink i = { l with txR := (l.txR + 1) % 65536 }) ∧
        (inPoolR e = false → sent t (d.rimFrame i 2 l.txH [0, 0, 0] e.words) ∧ t.rlink i = { l with txH := (l.txH + 1) % 65536 } ∧
          t.get (RIM_CNT_COUNT i 4) = satw 48 (d.get (RIM_CNT_COUNT i 4) + 1)))) ∧
    (∀ (b : List Byte) (cw : RimRxLine) (f : RimRx), l.ident = true → rimParse b = some f → d.get (RIM_SVC_STATE i) = 2 →
      d.get (RIM_SVC_BUSY i) = 0 ∨ cw.begun = true → f.sdev = d.get (RIM_STATUS_PEER i) →
      let w0 := (f.pl.getD 0 0).toNat
      let n := if w0 % 16 = 0 then bits w0 9 6 else w0 % 16
      let z := if w0 % 16 = 0 then 2 else 8
      let e := handTarget { words := f.pl }
      let sh := e % 2 ^ 18 / 32
      let q := (d.shardQueue sh).getD (0x15A0 + d.shardHoop sh)
      let l1 := { l with freedR := f.freedR, freedH := f.freedH }
      let gapR := pseqGap l.rxR f.pseq
      let gapH := pseqGap l.rxH f.pseq
      (f.type = 2 → d.inBset e = true → d.hasRoom q { words := f.pl, hand := true } →
        s.completes (.rimFrameReceive i b cw) (fun t => d.gotEntry t q { words := f.pl, hand := true } ∧
          t.get (RIM_CNT_COUNT i 1) = satw 48 (d.get (RIM_CNT_COUNT i 1) + 1) ∧
          t.rlink i = { l1 with rxH := (l.rxH + gapH + 1) % 65536, ownH := (l.ownH + gapH + 1) % 256 })) ∧
      (f.type = 1 → 0 < n → f.pl.length = 8 + z * n → (∀ k, k < n → d.inBset (wordsNat ((f.pl.drop (8 + z * k)).take 2) % 2 ^ 24) = true) →
        d.hasRoom 0x1588 { words := f.pl } →
        s.completes (.rimFrameReceive i b cw) (fun t => d.gotEntry t 0x1588 { words := f.pl } ∧
          t.get (RIM_CNT_COUNT i 1) = satw 48 (d.get (RIM_CNT_COUNT i 1) + 1) ∧
          t.rlink i = { l1 with rxR := (l.rxR + gapR + 1) % 65536, ownR := (l.ownR + gapR + 1) % 256 })))

/-- The rim links: their service and their frames (R165–R174). -/
def Obligations.RimLinks : Prop := Claims.RimService ∧ Claims.RimFrames ∧ Claims.RimResults


/-! ### Chapters 8 and 9: the host interface, the rings and the host commands -/

/-- Configuration writes and resets of functions while configuration requests are answered: NumVFs only with VF Enable 0, VF Enable refused for
more than 7 VFs without ARI, its clearing an FLR of every VF (R185, R200), the PF's own also returning VF Enable, NumVFs, ARI, 10-Bit Tag
Requester Enable and D3hot to their defaults; an FLR moves the function to STATE 2 under a new GEN, withdraws
its waiting reads, sends its kept entries again and frees its ad hoc orders, the PF's taking every VF with it; it completes only with no read
outstanding (R199, R202). -/
def Obligations.FunctionResets : Prop :=
  ∀ (s : State) (f : Fn), s.dev.awake = true → s.dev.cfgOpen = true →
    let d := s.dev
    let vf := fun (g : Nat) => 1 ≤ g ∧ g ≤ d.get HIF_STATUS_NUMVF ∧ g < 64 ∧ d.get HIF_STATUS_VFE = 1 ∧ d.get (HIF_FN_STATUS_STATE g) ≠ 2
    let hit := fun (t : Dev) (g : Nat) => t.get (HIF_FN_STATUS_STATE g) = 2 ∧
      t.get (HIF_FN_STATUS_GEN g) = (d.get (HIF_FN_STATUS_GEN g) + 1) % 2 ^ (HIF_FN_STATUS_GEN g).w ∧ (t.fnS g).want = [] ∧
      (t.fnS g).reads = (d.fnS g).reads ∧ (t.fnS g).kept = (d.fnS g).redo ∧ (t.fnS g).msixEn = false ∧
      ∀ e ∈ t.ord.recs, e.2.kind = 0 → e.2.fn ≠ g
    (∀ n : BitVec 16, (d.get HIF_STATUS_VFE = 0 → n.toNat ≤ 63 → s.becomes (.numvfsWrite n) ((d.put HIF_STATUS_NUMVF n.toNat).vfChanged d)) ∧
      (d.get HIF_STATUS_VFE = 1 ∨ 63 < n.toNat → s.becomes (.numvfsWrite n) d)) ∧
    (∀ mse ari : Bool, let d1 := { d with hif := { d.hif with ari := ari, vfMse := mse } }
      (d.get HIF_STATUS_VFE = 0 → 7 < d.get HIF_STATUS_NUMVF → ari = false →
        s.becomes (.vfEnableWrite true mse ari) (d1.raiseErr 1 0 0x0003 3 2 0x65)) ∧
      (d.get HIF_STATUS_VFE = 0 → (d.get HIF_STATUS_NUMVF ≤ 7 ∨ ari = true) →
        s.becomes (.vfEnableWrite true mse ari) ((d1.put HIF_STATUS_VFE 1).fixStates.vfChanged d)) ∧
      (d.get HIF_STATUS_VFE = 1 → s.completes (.vfEnableWrite false mse ari) (fun t => t.get HIF_STATUS_VFE = 0 ∧
        t.hif.ari = ari ∧ t.hif.vfMse = mse ∧ ∀ g, vf g → hit t g))) ∧
    (f ≠ 0 → vf f → s.completes (.initiateFlr f) (fun t => hit t f ∧ t.get (HIF_CNT_COUNT 7) = satw 48 (d.get (HIF_CNT_COUNT 7) + 1) ∧
      ∀ g, g ≠ f.val → t.fnS g = d.fnS g)) ∧
    (d.get (HIF_FN_STATUS_STATE 0) ≠ 2 → s.completes (.initiateFlr 0) (fun t => hit t 0 ∧ t.get HIF_STATUS_VFE = 0 ∧ t.get HIF_STATUS_NUMVF = 0 ∧
      t.hif.ari = false ∧ t.hif.tag10 = false ∧ t.hif.d3 = false ∧ ∀ g, vf g → hit t g)) ∧
    (d.get (HIF_FN_STATUS_STATE f) = 2 →
      s.becomes (.initiateFlr f) (if f = 0 then d.dropGrant 1 else d) ∧
      s.completes (.flrReadsAbandon f) (fun t => (t.fnS f).reads = [] ∧
        (t.fnS f).abandoned = (d.fnS f).abandoned + (d.fnS f).reads.length ∧ (∀ g, g ≠ f.val → t.fnS g = d.fnS g) ∧
        t.get (HIF_CNT_COUNT 4) = satw 48 (d.get (HIF_CNT_COUNT 4) + (d.fnS f).reads.length)) ∧
      ((d.fnS f).reads ≠ [] → s.becomes (.flrComplete f) d) ∧
      ((d.fnS f).reads = [] → s.completes (.flrComplete f) (fun t => t.fnS f = (d.fnS f).afterFlr ∧
        t.get (HIF_FN_STATUS_STATE f) = (if d.get HIF_STATUS_ISLAND = 1 then 3 else 0) ∧
        t.get (HIF_FN_STATUS_GEN f) = d.get (HIF_FN_STATUS_GEN f) % 2 ^ (HIF_FN_STATUS_GEN f).w ∧ t.get (RING_CTRL_EN f) = (RING_CTRL_EN f).rst ∧
        ∀ g, g ≠ f.val → t.fnS g = d.fnS g)))

/-- The requests that carry n bytes at an address cover them, none of them too long (Table 8-1); the identity values, SR-IOV values and version and
ID of the capabilities that configuration space reports (R183–R185); a configuration request before boot STAGE 2 gets Request Retry Status (R182). -/
def Sys2Proof.Claims.ConfigSpace : Prop :=
  (∀ (z a n : Nat), 0 < z → let p := pieces z (n + 1) a n
    sumN (p.map Prod.snd) = n ∧ (∀ x ∈ p, 0 < x.2 ∧ x.1 % z + x.2 ≤ z) ∧
    ∀ i x, p[i]? = some x → x.1 = a + sumN ((p.take i).map Prod.snd)) ∧
  ∀ (d : Dev) (f : Fn),
    (d.get BOOT_STATUS_STAGE < 2 → ∀ o, d.cfgRead f o = .retry) ∧
    (2 ≤ d.get BOOT_STATUS_STAGE → d.on HIF_STATUS_LINK_UP = true → d.fnOn f = true →
      d.cfgRead f 0x00 = .data (if f = 0 then 0x64001FC6 else 0xFFFFFFFF) ∧ d.cfgRead f 0x08 = .data 0x120000B0 ∧
      d.cfgRead f 0x0C = .data 0 ∧ d.cfgRead f 0x2C = .data 0x00011FC6 ∧ d.cfgRead f 0x3C = .data 0 ∧
      d.cfgRead f 0x54 = .data (if f = 0 then 0xF08000 else 0x8000) ∧ d.cfgRead f 0x58 = .data (if f = 0 then 0xF0C000 else 0xC000) ∧
      d.cfgRead f 0x9C = .data 0x3E ∧
      (f = 0 → d.cfgRead f 0x14C = .data (d.fuse.serial % 2 ^ 32) ∧ d.cfgRead f 0x2AC = .data 0x003F003F ∧
        d.cfgRead f 0x2B0 = .data (d.get HIF_STATUS_NUMVF) ∧ d.cfgRead f 0x2B4 = .data 0x00010001 ∧ d.cfgRead f 0x2B8 = .data 0x64010000 ∧
        d.cfgRead f 0x2BC = .data 0x1F ∧ d.cfgRead f 0x2C0 = .data (d.fnS 0).cfg.sysPage.toNat)) ∧
    ∀ s : State, s.dev = d → d.awake = true → d.get BOOT_STATUS_STAGE < 2 →
      s.becomes (.numvfsWrite 0) (d.emit (.cfgRetry 0)) ∧ (∀ c, s.becomes (.busMasterEnableChange f c) (d.emit (.cfgRetry f))) ∧
      (∀ b, s.becomes (.d3hotTransition b) (d.emit (.cfgRetry 0))) ∧
      ∀ en m a, s.becomes (.vfEnableWrite en m a) (d.emit (.cfgRetry 0))

/-- The link and what it carries: link-up within MAXSPEED, and within 8 GT/s in ROM recovery, ends an interruption with event 0x0801 and a change of speed or width raises 0x0803
(R182, R201); DL_Down, a hot reset and PERST# put every function in STATE 3 under a new GEN, clear VF Enable and begin island operation (R201);
Bus Master Enable and D3hot take effect (R194, R195); AER records what the link detects (R192); a single pending cause whose time has come sends
its vector's message, and nothing waiting sends nothing (R190, R191). -/
def Sys2Proof.Claims.HostLink : Prop :=
  ∀ (s : State) (f : Fn), s.dev.awake = true →
    let d := s.dev
    (∀ (v : BitVec 3) (w : BitVec 4), v.toNat ≤ d.topSpeed →
      (d.get HIF_STATUS_LINK_UP = 0 → 2 ≤ d.get BOOT_STATUS_STAGE → d.get PWR_STATUS_STATE ≠ 1 → d.get PWR_STATUS_STATE ≠ 2 →
        s.becomes (.hostLinkUp v w)
          (((d.put HIF_STATUS_LINK_UP 1).put HIF_STATUS_SPEED v.toNat).put HIF_STATUS_WIDTH w.toNat).linkEvent) ∧
      (d.get HIF_STATUS_LINK_UP = 1 → d.get HIF_STATUS_SPEED ≠ v.toNat →
        s.becomes (.linkSpeedChange v w) (((d.put HIF_STATUS_SPEED v.toNat).put HIF_STATUS_WIDTH w.toNat).pfEvent 0x0803
          [(1, d.get HIF_STATUS_SPEED), (1, d.get HIF_STATUS_WIDTH), (1, v.toNat), (1, w.toNat)]))) ∧
    (∀ c : Fin 3, d.get HIF_STATUS_LINK_UP = 1 ∨ c = 2 →
      s.completes (.hostInterfaceReset c) (fun t => t.get HIF_STATUS_ISLAND = 1 ∧ t.get HIF_STATUS_LINK_UP = 0 ∧ t.get HIF_STATUS_VFE = 0 ∧
        t.get HIF_STATUS_NUMVF = 0 ∧ t.get HIF_ISL_INFO_CAUSE = c ∧ t.get HIF_ISL_TIME_TIME = d.now % 2 ^ 64 ∧ t.hif.hirPend = true ∧
        (∀ e ∈ t.ord.recs, e.2.kind = 0 → e.2.fn = 0) ∧
        ∀ g, g < 64 → t.get (HIF_FN_STATUS_STATE g) = 3 ∧ t.fnS g = (d.fnS g).wipe (d.fnS g).redo ∧
          t.get (HIF_FN_STATUS_GEN g) = (d.get (HIF_FN_STATUS_GEN g) + 1) % 2 ^ (HIF_FN_STATUS_GEN g).w)) ∧
    (d.get HIF_STATUS_LINK_UP = 0 → s.becomes (.hostInterfaceReset 0) (d.dropGrant 1)) ∧
    (∀ c : HostCtl, d.cfgOpen = true → d.fnOn f = true →
      s.completes (.busMasterEnableChange f c) (fun t => (t.fnS f).bme = c.bme ∧ (t.fnS f).ero = c.ero ∧ (t.fnS f).msixEn = c.msixEn ∧
        (t.fnS f).fmask = c.fmask ∧ (t.fnS f).cfg = c.cfg ∧ (t.fnS f).mse = (c.mse && f == 0) ∧ (t.fnS f).reads = (d.fnS f).reads ∧
        ∀ g, g ≠ f.val → t.fnS g = d.fnS g)) ∧
    (∀ b : Bool, d.cfgOpen = true → s.completes (.d3hotTransition b) (fun t => t.hif.d3 = b ∧ (b = true → ∀ g, t.dmaOk g = false) ∧ ∀ g, (t.fnS g).bme = (d.fnS g).bme ∧
      (t.fnS g).reads = (d.fnS g).reads ∧ (t.fnS g).kept = (d.fnS g).kept)) ∧
    (∀ (e : AerErr) (h : HdrO), d.get HIF_STATUS_LINK_UP = 1 →
      s.completes (.aerLinkError e h) (fun t => ((aerBit e).2 = true → t.hif.aerC = d.hif.aerC ||| 2 ^ (aerBit e).1 ∧ t.hif.aerU = d.hif.aerU ∧
          t.get (HIF_CNT_COUNT 9) = satw 48 (d.get (HIF_CNT_COUNT 9) + 1)) ∧
        ((aerBit e).2 = false → t.hif.aerU = d.hif.aerU ||| 2 ^ (aerBit e).1 ∧ t.hif.aerC = d.hif.aerC) ∧
        (d.hif.aerHdr.isSome → t.hif.aerHdr = d.hif.aerHdr) ∧ (d.hif.aerHdr = none → t.hif.aerHdr = h.map BitVec.toNat))) ∧
    (∀ m : Nat, (d.fnS f).modN = [0, 0, 0, 0, 0, m] → (d.fnS f).pba = 0 → (d.fnS f).modLast = [] → 0 < m →
      let v := d.get (HIF_FN_VEC_VEC5 f)
      let e := Tab.get {} (d.fnS f).msix v
      (d.vecBlocked f v = false → s.completes (.msixSend f) (fun t => t.out = .msix f v e.addr e.data :: d.out ∧
        t.get (HIF_CNT_COUNT 3) = satw 48 (d.get (HIF_CNT_COUNT 3) + 1) ∧ (t.fnS f).pba = 0)) ∧
      (d.vecBlocked f v = true → s.completes (.msixSend f) (fun t => t.out = d.out ∧ (t.fnS f).pba = 2 ^ v))) ∧
    ((d.fnS f).modN = [0, 0, 0, 0, 0, 0] → (d.fnS f).pba = 0 → s.becomes (.msixSend f) d)

/-- The reads whose completions come in the order of x: those of its ring, and doorbell and abandoned ring reads each among themselves (R210). -/
def Sys2Proof.sameOrder (x : DmaRd) (k : RdKind) : Bool :=
  k.ring == x.kind.ring && (k == .stale) == (x.kind == .stale) && (k == .doorbell) == (x.kind == .doorbell)

/-- Rings toward the device: an enable with a base, size or record address missing is refused as a write refused in state, an accepted one starts
the ring's indices at 0 and fetches at once, a disable stops its fetches (R209); the doorbell record is read when its time has come, its indices
are taken where they pass their check and otherwise raise ring error 1 (R208, R210, R211); data of an outstanding read is used in ring order,
discarded during an FLR, and a read that fails is reported (R193, R202, R212, R217). -/
def Sys2Proof.Claims.RingFetches : Prop :=
  ∀ (s : State) (f : Fn) (k : Fin 6), s.dev.awake = true →
    let d := s.dev
    let fs := d.fnS f
    (d.barOpen f = false → s.becomes (.ringEnable f k) (d.barClosed f false) ∧ s.becomes (.ringDisable f k) (d.barClosed f false) ∧
      .hostError f .ur ∈ (d.barClosed f false).out) ∧
    (d.barOpen f = true → d.inFlr f = true → s.becomes (.ringEnable f k) d ∧ s.becomes (.ringDisable f k) d) ∧
    (d.barOpen f = true → d.inFlr f = false →
      (d.ringOn f k = true → s.becomes (.ringEnable f k) d ∧
        s.completes (.ringDisable f k) (fun t => t.ringOn f k = false ∧ (∀ j, j < 6 → j ≠ k.val → t.ringOn f j = d.ringOn f j) ∧
          (∀ x ∈ (t.fnS f).want ++ (t.fnS f).reads, x.kind.ring ≠ some k.val) ∧ (t.fnS f).reads.length = fs.reads.length ∧
          (t.fnS f).di = fs.di ∧ (t.fnS f).kept = fs.kept)) ∧
      (d.ringOn f k = false → s.becomes (.ringDisable f k) d ∧
        (d.enableBad f k = true → s.becomes (.ringEnable f k) (d.raiseErr 2 f 0x0003 3 (pageOff f 0x62) 0x65)) ∧
        (d.enableBad f k = false → fs.di.length = 6 → fs.hi.length = 6 →
          s.completes (.ringEnable f k) (fun t => t.ringOn f k = true ∧ (∀ j, j < 6 → j ≠ k.val → t.ringOn f j = d.ringOn f j) ∧
            (t.fnS f).devIx k = 0 ∧ (t.fnS f).hostIx k = 0 ∧ (t.fnS f).owed = true ∧ (t.fnS f).fetchNow = true ∧
            (∀ j, j ≠ k.val → (t.fnS f).devIx j = fs.devIx j ∧ (t.fnS f).hostIx j = fs.hostIx j) ∧
            (f = 0 → k = 0 → t.get HIF_STATUS_ISLAND ≠ 1))))) ∧
    (d.dmaOk f = true → fs.reads.any (fun r => r.kind == .doorbell) = false → d.readRoom f = true →
      d.get (RING_CTRL_EN f) ≠ 0 → (fs.fetchNow = true ∨ fs.pollNext ≤ d.now) →
      s.completes (.doorbellFetch f) (fun t => t.out = .hostRead f (d.get (RING_DB_ADDR_ADDR f) * 64) 64 :: d.out ∧
        (t.fnS f).reads = fs.reads ++ [⟨.doorbell, d.get (RING_DB_ADDR_ADDR f) * 64, 64⟩] ∧ (t.fnS f).fetchNow = false)) ∧
    (fs.reads.any (fun r => r.kind == .doorbell) = true → s.becomes (.doorbellFetch f) d) ∧
    (∀ (r : DmaRd) (l : List DmaRd) (b : List Byte), takeRead (· == .doorbell) fs.reads = some (r, l) → d.get (HIF_FN_STATUS_STATE f) ≠ 2 →
      d.get (RING_CTRL_EN f) = 1 → fs.hi.length = 6 →
      (d.indexOk f 0 (dbIndex b 0) = true → s.completes (.doorbellReturn f b) (fun t => (t.fnS f).hostIx 0 = dbIndex b 0 ∧
        t.get (RING_CTRL_EN f) = 1 ∧ t.get (RING_ERR_ERR f) = d.get (RING_ERR_ERR f))) ∧
      (d.indexOk f 0 (dbIndex b 0) = false → d.get (RING_ERR_ERR f) = 0 → s.completes (.doorbellReturn f b) (fun t =>
        (t.fnS f).hostIx 0 = fs.hostIx 0 ∧ t.get (RING_CTRL_EN f) = 0 ∧ t.get (RING_ERR_ERR f) = 1 ∧ t.get (RING_ERR_CODE f) = 1))) ∧
    (∀ (n : BitVec 7) (x r : DmaRd) (l : List DmaRd) (b : List Byte), fs.reads[n.toNat]? = some x →
      takeRead (sameOrder x) fs.reads = some (r, l) →
      let d1 := d.setFn f { fs with reads := l }
      (d.get (HIF_FN_STATUS_STATE f) = 2 → s.becomes (.dmaCompletionTimeout f n) (d1.flrRead f (some .timeout)) ∧
        ∀ e, e ≠ some .timeout → s.becomes (.dmaReadComplete f n b e) (d1.inc (HIF_CNT_COUNT 4))) ∧
      (d.get (HIF_FN_STATUS_STATE f) ≠ 2 → s.becomes (.dmaCompletionTimeout f n) (d1.readFailed f r .timeout) ∧
        (∀ e, s.becomes (.dmaReadComplete f n b (some e)) (d1.readFailed f r e)) ∧
        (r.kind.ring ≠ some 4 → s.becomes (.dmaReadComplete f n b none) (d1.readData f r b)))) ∧
    (∀ (i a m : Nat) (l : List DmaRd) (b : List Byte), takeRead (fun q => q.ring == some 0) fs.reads = some (⟨.cmd i, a, m⟩, l) →
      d.get (HIF_FN_STATUS_STATE f) ≠ 2 →
      s.becomes (.commandFetch f b) ((d.setFn f { fs with reads := l }).cmdData f i b)) ∧
    (∀ (i a m : Nat) (l : List DmaRd) (desc b : List Byte) (e : DmaErrO),
      takeRead (fun q => q.ring == some 4) fs.reads = some (⟨.bout i, a, m⟩, l) → d.get (HIF_FN_STATUS_STATE f) ≠ 2 → d.boutFree f = true →
      let d1 := d.setFn f { fs with reads := l }
      (boutKindOk (byteAt desc 12) = false ∨ leAt desc 8 4 = 0 ∨ 4032 < leAt desc 8 4 →
        s.becomes (.bulkOutFetch f desc b e) (d1.ringError f 4 4 i)) ∧
      (boutKindOk (byteAt desc 12) = true → leAt desc 8 4 ≠ 0 → leAt desc 8 4 ≤ 4032 →
        s.becomes (.bulkOutFetch f desc b e) (d1.boutData f i desc b e)) ∧
      (boutKindOk (byteAt desc 12) = true → leAt desc 8 4 ≠ 0 → leAt desc 8 4 ≤ 4032 → d1.boutOwned f desc = false →
        d1.boutData f i desc b e = (d1.boutUsed f (d1.fnS f).bep).bothEvent f 0x0902 [(1, f), (4, i), (1, 2)]))

/-- The commands that write an entry to the host, with the ring each writes (Table 9-1). -/
def Sys2Proof.ringWrites (f : Fn) : List (Instr × Nat) := [(.completionWrite f, 1), (.eventWrite f, 2), (.recordWrite f, 3), (.bulkInWrite f, 5)]

/-- Rings toward the host: an entry is written once its ring is enabled, its function may issue requests and it has room, and all but a
completion is kept until its status write is acknowledged (R197, R214–R218); a status write publishes the indices (R207); an acknowledgement releases what the oldest status write published (R197); a DMA round moves on by one function and serves
no function of weight 0 while one with a weight has work (R189), whose poll without an enabled ring is put off (R208). -/
def Sys2Proof.Claims.RingDeliveries : Prop :=
  ∀ (s : State) (f : Fn), s.dev.awake = true →
    let d := s.dev
    let fs := d.fnS f
    (∀ (c : Instr) (k : Nat), (c, k) ∈ ringWrites f →
      (d.dmaOk f = false ∨ d.ringOn f k = false → s.becomes c d) ∧
      (∀ (e : Entry) (r : List Entry), d.taken (ringQ f k) = e :: r → d.dmaOk f = true → d.ringOn f k = true →
        fs.kept.any (fun x => x.redo && x.ring == k) = false → e.gen = d.get (HIF_FN_STATUS_GEN f) →
        let d1 := { d with bsk := { d.bsk with taken := Tab.set [] d.bsk.taken (ringQ f k) r } }
        let w := d1.writeEntry f k e
        (d.ringRoom f k e = false → s.becomes c d) ∧
        (d.ringRoom f k e = true → k = 1 → s.becomes c w) ∧
        (d.ringRoom f k e = true → k ≠ 1 → d.keepRoom f = false → s.becomes c d) ∧
        (d.ringRoom f k e = true → k ≠ 1 → d.keepRoom f = true →
          s.becomes c (w.setFn f { w.fnS f with kept := (w.fnS f).kept ++ [⟨k, e, 0, false⟩] })))) ∧
    (∀ (k : Nat) (e : Entry), k ≠ 5 → k < 6 → slotsOf k e = 1 → fs.di.length = 6 →
      (d.writeEntry f k e).out = .hostWrite f (d.descAddr f k (wadd 32 (fs.devIx k) 0)) (slice (entryBytes k e) 0 64) (fs.ero && d.on HIF_CFG_RO_EN) ::
        d.out ∧ ((d.writeEntry f k e).fnS f).devIx k = wadd 32 (fs.devIx k) 1) ∧
    (d.dmaOk f = true → d.get (RING_ST_ADDR_V f) = 1 → fs.statusDue = true →
      s.completes (.statusRecordWrite f) (fun t => (t.fnS f).statusDue = false ∧ (t.fnS f).pub = fs.di ∧
        (t.fnS f).sws = fs.sws ++ [fs.swNo + 1] ∧ (t.fnS f).sseq = wadd 32 fs.sseq 1 ∧
        (∀ x ∈ (t.fnS f).kept, x.redo = false → x.sw ≠ 0) ∧
        ∃ b, t.out = .hostWrite f (d.get (RING_ST_ADDR_ADDR f) * 64) b false :: d.out ∧ b.length = 64 ∧
          (∀ k, k < 6 → leAt b (4 * k) 4 = fs.devIx k % 2 ^ 32) ∧ byteAt b 24 = d.get (HIF_FN_STATUS_GEN f) % 256)) ∧
    (d.dmaOk f = false ∨ d.get (RING_ST_ADDR_V f) = 0 ∨ fs.statusDue = false → s.becomes (.statusRecordWrite f) d) ∧
    (∀ (n : Nat) (r : List Nat), fs.sws = n :: r → s.becomes (.dllAckReceive f)
      (d.setFn f { fs with sws := r, kept := fs.kept.filter (fun x => x.redo || x.sw == 0 || decide (n < x.sw)) })) ∧
    (fs.sws = [] → s.becomes (.dllAckReceive f) d) ∧
    (d.get HIF_STATUS_LINK_UP = 0 → s.becomes .dmaRound d) ∧
    (d.get HIF_STATUS_LINK_UP = 1 → s.completes .dmaRound (fun t => t.hif.rr = (d.hif.rr + 1) % 64 ∧
      ∀ g : Fn, d.get (HIF_QOS_SHARE_DMAW f) ≠ 0 → (d.nextItem f).isSome → d.get (HIF_QOS_SHARE_DMAW g) = 0 → d.dmaOk g = true →
        t.fnS g = (d.pollSkip g).fnS g))

/-- A host command at the head of its queue, of the present generation and not poisoned, is, in its function's turn of dispatch, completed with its STATUS, DETAIL and RESULT after
its effect: an undefined opcode ends with STATUS 0x01, a command of the PF's alone from a VF with STATUS 0x02, and the block's refusal with STATUS
0x05 and its RESULT as DETAIL (R188, R212–R214, R142, R145). -/
def Sys2Proof.Claims.HostCommands : Prop :=
  ∀ (s : State) (f : Fn) (e : Entry) (r : List Entry), s.dev.awake = true → s.dev.taken (ringQ f 0) = e :: r → e.poison = false →
    e.gen = s.dev.get (HIF_FN_STATUS_GEN f) →
    let d := { s.dev with bsk := { s.dev.bsk with taken := Tab.set [] s.dev.bsk.taken (ringQ f 0) r } }.served f
    let b := wordBytes e.words
    let op := leAt b 0 2
    let ends := fun (c : Instr) (x : Dev) (y : CmdEnd) => s.becomes c (x.complete f e y)
    (s.dev.cmdTurn f = false → ∀ c ∈ ([.cmdNop f, .cmdTime f, .cmdInv f, .cmdKey f, .cmdGateway f, .cmdTread f, .cmdTclear f, .cmdPlace f,
      .cmdCancel f, .cmdSchedule f] : List Instr), s.becomes c s.dev) ∧
    (s.dev.cmdTurn f = true →
    (opcodeKnown op = false → ends (.cmdNop f) d ⟨1, 0, []⟩) ∧
    (opcodeKnown op = true → op ≠ 1 → s.becomes (.cmdNop f) s.dev) ∧
    (op = 0x0001 → ends (.cmdNop f) d ⟨0, 0, []⟩) ∧
    (op = 0x0002 → ends (.cmdTime f) d ⟨0, 0, leBytes 8 d.now⟩) ∧
    (op = 0x0101 → d.mle.invPend = none →
      (f ≠ 0 → ends (.cmdInv f) d ⟨2, 0, []⟩) ∧
      (f = 0 → byteAt b 22 = 0 ∨ 6 < byteAt b 22 → ends (.cmdInv f) d ⟨1, 0, []⟩) ∧
      (f = 0 → 1 ≤ byteAt b 22 → byteAt b 22 ≤ 6 → leAt b 20 2 ≤ 4095 →
        let c : InvCmd := ⟨byteAt b 22, leAt b 8 8, bits (leAt b 16 4) 17 0, bits (leAt b 16 4) 23 18, leAt b 20 2⟩
        let x := d.invRun c
        ends (.cmdInv f) x.1 (blockEnd x.2 (leBytes 8 (x.1.invEntry c.uid))))) ∧
    (op = 0x0102 → d.mle.keyPend = none →
      let a := leAt b 8 4
      (f ≠ 0 → ends (.cmdKey f) d ⟨2, 0, []⟩) ∧
      (f = 0 → 1 ≤ bits a 20 18 → bits a 20 18 ≤ 6 →
        let x := d.keyRunAll ⟨bits a 20 18, bits a 17 0, leAt b 12 4, slice b 16 24, slice b 40 24⟩
        ends (.cmdKey f) x.1 (blockEnd x.2 []))) ∧
    (op = 0x0103 →
      (f ≠ 0 → ends (.cmdGateway f) d ⟨2, 0, []⟩) ∧
      (f = 0 → leAt b 8 2 ≤ 4095 →
        let g := d.gateway (leAt b 8 2)
        (byteAt b 10 = 1 → ends (.cmdGateway f) d ⟨0, 0, leBytes 4 g.cfg ++ beBytes 8 g.hi ++ beBytes 8 g.lo⟩) ∧
        (byteAt b 10 = 2 → ends (.cmdGateway f)
          (d.setGateway (leAt b 8 2) ⟨beAt b 16 8, beAt b 24 8, leAt b 12 4 % 2 ^ 19⟩) ⟨0, 0, []⟩)) ∧
      (f = 0 → 4095 < leAt b 8 2 → byteAt b 10 = 1 ∨ byteAt b 10 = 2 → ends (.cmdGateway f) d ⟨4, 0, []⟩)) ∧
    (d.dmaOk f = true →
      let t := byteAt b 8
      let n := leAt b 16 4
      (op = 0x0110 → ∀ buf : List Byte,
        (tableSize t = 0 → ends (.cmdTwrite f buf none) d ⟨1, 0, []⟩) ∧
        (tableSize t ≠ 0 → tableAllowed f t true = false → ends (.cmdTwrite f buf none) d ⟨2, 0, []⟩) ∧
        (tableSize t ≠ 0 → tableAllowed f t true = true → n = 0 ∨ 4096 < n → ends (.cmdTwrite f buf none) d ⟨4, 0, []⟩) ∧
        (tableSize t ≠ 0 → tableAllowed f t true = true → 0 < n → n ≤ 4096 →
          let x := Dev.twriteLoop n d f t (leAt b 12 4) (leAt b 24 8) buf none 0
          ends (.cmdTwrite f buf none) x.1 x.2 ∧ ∃ j, j ≤ n ∧ x.2.result = leBytes 4 j ∧ (x.2.status = 0 ↔ j = n))) ∧
      (op = 0x0111 →
        (tableSize t = 0 → ends (.cmdTread f) d ⟨1, 0, []⟩) ∧
        (tableSize t ≠ 0 → tableAllowed f t false = true → 0 < n → n ≤ 4096 →
          let x := Dev.treadLoop n d f t (leAt b 12 4) (leAt b 24 8) 0
          ends (.cmdTread f) x.1 x.2 ∧ ∃ j, j ≤ n ∧ x.2.result = leBytes 4 j ∧ (x.2.status = 0 ↔ j = n)))) ∧
    (op = 0x0112 →
      (f ≠ 0 → ends (.cmdTclear f) d ⟨2, 0, []⟩) ∧
      (f = 0 → byteAt b 8 ≠ 3 → byteAt b 8 ≠ 10 → ends (.cmdTclear f) d ⟨1, 0, []⟩) ∧
      (f = 0 → byteAt b 8 = 3 ∨ byteAt b 8 = 10 → 0 < leAt b 16 4 → leAt b 16 4 ≤ 4096 →
        let x := Dev.tclearLoop (leAt b 16 4) d (byteAt b 8) (leAt b 12 4) 0
        ends (.cmdTclear f) x.1 x.2)) ∧
    (op = 0x0120 → byteAt b 8 ≤ 1 →
      let x := d.ordPlace f (byteAt b 8) (leAt b 10 2) (leAt b 12 2) (leAt b 16 4) (leAt b 20 4) (leAt b 24 4) (leAt b 28 4)
      ends (.cmdPlace f) x.1 ⟨x.2.1, 0, if x.2.1 = 0 then leBytes 2 x.2.2.1 ++ leBytes 2 0 ++ leBytes 4 x.2.2.2 else []⟩) ∧
    (op = 0x0120 → 1 < byteAt b 8 → ends (.cmdPlace f) d ⟨1, 0, []⟩) ∧
    (op = 0x0121 → ends (.cmdCancel f) (d.ordCancel f (leAt b 8 2)).1 ⟨(d.ordCancel f (leAt b 8 2)).2, 0, []⟩) ∧
    (op = 0x0122 → let x := d.ordSchedule f (leAt b 8 4) (leAt b 12 4) (leAt b 16 2)
      ends (.cmdSchedule f) x.1 ⟨x.2.1, x.2.2.1, leBytes 4 x.2.2.2⟩))

/-- PF BAR2 outside recovery: a closed BAR answers Unsupported Request; during an FLR of the PF, and with B2EN 0 a read returns 0 and a write does nothing (R192, R194); an
access no memory controller serves is refused, a read with Completer Abort, which AER logs (R192, R275, R286); a write changes its bytes alone and a read of lines an
L2 holds returns them. -/
def Sys2Proof.Claims.Bar2Window : Prop :=
  ∀ (s : State) (a : BitVec 28) (n : BitVec 13) (w : List Byte) (env : DramEnvs), s.dev.awake = true → s.dev.pwr.emul = false →
    s.dev.get BOOT_STATUS_STAGE ≠ 14 → s.dev.get BOOT_STATUS_STAGE ≠ 15 →
    let d := s.dev
    let byte := 2 * d.get HIF_BAR2_BASE_ADDR + a.toNat
    let msgs := fun (t : Dev) (l : List Out) => ∃ p : List Out, t.out = p ++ l ∧ ∀ o ∈ p, ∃ k, o = .errMsg 0 k
    (d.barOpen 0 = false → s.becomes (.bar2Access a n none env) (d.barClosed 0 true) ∧
      s.becomes (.bar2Access a n (some w) env) (d.barClosed 0 false)) ∧
    (d.barOpen 0 = true → d.inFlr 0 = true → s.becomes (.bar2Access a n none env) (d.emit (.readData a.toNat 0)) ∧
      s.becomes (.bar2Access a n (some w) env) d) ∧
    (d.barOpen 0 = true → d.inFlr 0 = false → d.get HIF_CFG_B2EN = 0 → s.becomes (.bar2Access a n none env) (d.emit (.readData a.toNat 0)) ∧
      s.becomes (.bar2Access a n (some w) env) d) ∧
    (d.barOpen 0 = true → d.inFlr 0 = false → d.get HIF_CFG_B2EN = 1 →
      (d.memOk .bar2 (byte / 2) ((byte + n.toNat + 1) / 2 - byte / 2) false = false →
        s.completes (.bar2Access a n none env) (fun t => msgs t (.hostError 0 .ca :: d.out) ∧ t.hif.aerU.testBit 15 = true ∧ ∀ x, t.memByte x = d.memByte x)) ∧
      (d.memOk .bar2 (byte / 2) ((byte + w.length + 1) / 2 - byte / 2) true = false →
        s.completes (.bar2Access a n (some w) env) (fun t => msgs t d.out ∧ t.hif.aerU.testBit 15 = true ∧ ∀ x, t.memByte x = d.memByte x)) ∧
      (d.memOk .bar2 (byte / 2) ((byte + w.length + 1) / 2 - byte / 2) true = true →
        (∀ x ∈ d.mem.l2, x.2.data.length = 64) →
        s.completes (.bar2Access a n (some w) env) (fun t => (∀ i, i < w.length → t.memByte (byte + i) = w.getD i 0) ∧
          (∀ x, x < byte ∨ byte + w.length ≤ x → t.memByte x = d.memByte x) ∧ t.out = d.out)) ∧
      (d.memOk .bar2 (byte / 2) ((byte + n.toNat + 1) / 2 - byte / 2) false = true →
        (∀ ln, byte / 64 ≤ ln → 64 * ln < byte + n.toNat → (Tab.find d.mem.l2 ln).isSome ∧ d.linePoison ln = false) →
        s.becomes (.bar2Access a n none env) (d.emit (.readData a.toNat (leNat (d.bytesAt byte n.toNat))))))

/-- Reads by their results: link-up sets LINK_UP, speed and width; a command's descriptor stands in the command queue and a bulk-out one with its
data in the bulk-out queue, under the function's GEN, and BOUT_C moves on; a bulk-in descriptor posts its buffer; a read that fails or times out is
reported in HIF_FN_ERR and disables its ring (R182, R193, R196, R201, R210–R212, R217, R218). -/
def Sys2Proof.Claims.FetchResults : Prop :=
  ∀ (s : State) (f : Fn), s.dev.awake = true →
    let d := s.dev
    let fs := d.fnS f
    let gen := d.get (HIF_FN_STATUS_GEN f)
    let cmd := fun (i : Nat) (b : List Byte) => ({ words := packWords (slice b 0 64), gen := gen, cidx := i, ep := fs.cep } : Entry)
    let bout := fun (i : Nat) (desc b : List Byte) =>
      ({ words := packWords (slice desc 0 64 ++ slice b 0 (leAt desc 8 4)), gen := gen, cidx := i, ep := fs.bep } : Entry)
    (∀ (v : BitVec 3) (w : BitVec 4), d.get HIF_STATUS_LINK_UP = 0 → 2 ≤ d.get BOOT_STATUS_STAGE → v.toNat ≤ d.topSpeed →
      d.get PWR_STATUS_STATE ≠ 1 → d.get PWR_STATUS_STATE ≠ 2 →
      let par := [(1, d.get HIF_ISL_INFO_CAUSE), (8, d.get HIF_ISL_TIME_TIME), (8, d.now)]
      s.completes (.hostLinkUp v w) (fun t => t.get HIF_STATUS_LINK_UP = 1 ∧ t.get HIF_STATUS_SPEED = v.toNat ∧ t.get HIF_STATUS_WIDTH = w.toNat ∧
        t.hif.hirPend = false ∧ (d.hif.hirPend = true → d.eventFits 0x0801 par → d.raised t 0x0801 par))) ∧
    (d.get (HIF_FN_STATUS_STATE f) ≠ 2 →
      (∀ (i a m : Nat) (l : List DmaRd) (b : List Byte), takeRead (fun q => q.ring == some 0) fs.reads = some (⟨.cmd i, a, m⟩, l) →
        d.holding (ringQ f 0) = false → d.hasRoom (ringQ f 0) (cmd i b) →
        s.completes (.commandFetch f b) (fun t => d.gotEntry t (ringQ f 0) (cmd i b) ∧ (t.fnS f).reads = l)) ∧
      (∀ (i a m : Nat) (l : List DmaRd) (desc b : List Byte),
        takeRead (fun q => q.ring == some 4) fs.reads = some (⟨.bout i, a, m⟩, l) → d.boutFree f = true → boutKindOk (byteAt desc 12) = true →
        leAt desc 8 4 ≠ 0 → leAt desc 8 4 ≤ 4032 → d.boutOwned f desc = true → fs.di.length = 6 → d.hasRoom (ringQ f 4) (bout i desc b) →
        s.completes (.bulkOutFetch f desc b none) (fun t => d.gotEntry t (ringQ f 4) (bout i desc b) ∧ (t.fnS f).reads = l ∧
          (t.fnS f).devIx 4 = wadd 32 (fs.devIx 4) 1)) ∧
      (∀ (n : BitVec 7) (x r : DmaRd) (l : List DmaRd), fs.reads[n.toNat]? = some x → takeRead (sameOrder x) fs.reads = some (r, l) →
        (∀ (i : Nat) (b : List Byte), r.kind = .cmd i → d.holding (ringQ f 0) = false → d.hasRoom (ringQ f 0) (cmd i b) →
          s.completes (.dmaReadComplete f n b none) (fun t => d.gotEntry t (ringQ f 0) (cmd i b) ∧ (t.fnS f).reads = l)) ∧
        (∀ (i : Nat) (b : List Byte), r.kind = .bin i → 4096 ≤ leAt b 8 4 → leAt b 0 8 % 64 = 0 →
          s.completes (.dmaReadComplete f n b none) (fun t => (t.fnS f).bufs = fs.bufs ++ [⟨i, leAt b 0 8, leAt b 8 4⟩] ∧ (t.fnS f).reads = l)) ∧
        s.completes (.dmaCompletionTimeout f n) (fun t => t.get (HIF_FN_ERR_CTO f) = 1 ∧ (t.fnS f).reads.length = l.length ∧
          t.get (HIF_CNT_COUNT 5) = satw 48 (d.get (HIF_CNT_COUNT 5) + 1) ∧ ∀ k, r.kind.ring = some k → t.ringOn f k = false) ∧
        ∀ (b : List Byte) (e : DmaErr), s.completes (.dmaReadComplete f n b (some e)) (fun t => (t.fnS f).reads.length = l.length ∧
          (e = .ur → t.get (HIF_FN_ERR_UR f) = 1) ∧ (e = .ca → t.get (HIF_FN_ERR_CA f) = 1) ∧ (e = .timeout → t.get (HIF_FN_ERR_CTO f) = 1) ∧
          (e = .poison → t.get (HIF_FN_ERR_POISON f) = 1) ∧ ∀ k, r.kind.ring = some k → t.ringOn f k = false)))

/-- Ring writes by their results: a completion, event or record of one slot goes into the ring's next slot and the index moves on by one; a bulk-in
entry goes into the oldest posted buffer and its descriptor; all but a completion are kept until published (R197, R214–R216, R218). -/
def Sys2Proof.Claims.WriteResults : Prop :=
  ∀ (s : State) (f : Fn) (c : Instr) (k : Nat) (e : Entry) (r : List Entry), s.dev.awake = true → (c, k) ∈ ringWrites f →
    let d := s.dev
    let fs := d.fnS f
    let ro := fs.ero && d.on HIF_CFG_RO_EN
    let b := entryBytes k e
    d.taken (ringQ f k) = e :: r → d.dmaOk f = true → d.ringOn f k = true → fs.kept.any (fun x => x.redo && x.ring == k) = false →
    e.gen = d.get (HIF_FN_STATUS_GEN f) → d.ringRoom f k e = true → fs.di.length = 6 → (k ≠ 1 → d.keepRoom f = true) → slotsOf k e = 1 →
    s.completes c (fun t => t.taken (ringQ f k) = r ∧ (t.fnS f).devIx k = wadd 32 (fs.devIx k) 1 ∧
      (t.fnS f).kept = fs.kept ++ (if k = 1 then [] else [⟨k, e, 0, false⟩]) ∧
      (k ≠ 5 → t.out = .hostWrite f (d.descAddr f k (wadd 32 (fs.devIx k) 0)) (slice b 0 64) ro :: d.out) ∧
      (k = 5 → ∀ x l, fs.bufs = x :: l → (t.fnS f).bufs = l ∧ ∃ p, t.out = .hostWrite f (d.descAddr f 5 x.idx + 12)
        (slice (leBytes 1 (byteAt b 0) ++ leBytes 1 (b2n e.poison) ++ leBytes 2 0 ++ leBytes 4 (leAt b 4 4) ++ slice b 8 4 ++ slice b 16 8) 0 52) ro ::
          p ++ d.out))

/-- The completion of a command entry that ends as r says (Table 9-7). -/
def Sys2Proof.Machine.Entry.completion (e : Entry) (r : CmdEnd) : Entry :=
  let b := wordBytes e.words
  { words := packWords (slice b 0 2 ++ leBytes 1 r.status ++ leBytes 1 r.detail ++ slice b 4 4 ++ leBytes 4 e.cidx ++ leBytes 4 0 ++ slice r.result 0 48),
    gen := e.gen, cidx := e.cidx }

/-- The host commands by their results: when it is the function's turn the command leaves its queue, has its effect, and its completion stands in the
function's completion queue: NOP, TIME with the time base, INV with the inventory after it, KEY, GATEWAY, TWRITE and TREAD of an entry, TCLEAR
of a lantern, PLACE with its record, CANCEL and SCHEDULE (R142, R145, R212–R214). -/
def Sys2Proof.Claims.CommandResults : Prop :=
  ∀ (s : State) (f : Fn) (e : Entry) (r : List Entry), s.dev.awake = true → s.dev.taken (ringQ f 0) = e :: r → e.poison = false →
    e.gen = s.dev.get (HIF_FN_STATUS_GEN f) → s.dev.cmdTurn f = true →
    let d := { s.dev with bsk := { s.dev.bsk with taken := Tab.set [] s.dev.bsk.taken (ringQ f 0) r } }.served f
    let b := wordBytes e.words
    let op := leAt b 0 2
    let ends := fun (c : Instr) (x : Dev) (y : CmdEnd) (P : Dev → Prop) => x.hasRoom (ringQ f 1) (e.completion y) →
      s.completes c (fun t => x.gotEntry t (ringQ f 1) (e.completion y) ∧ t.taken (ringQ f 0) = r ∧ P t)
    (op = 0x0001 → ends (.cmdNop f) d ⟨0, 0, []⟩ (fun t => t.mle = d.mle ∧ t.ord = d.ord ∧ t.out = d.out)) ∧
    (op = 0x0002 → ends (.cmdTime f) d ⟨0, 0, leBytes 8 d.now⟩ (fun t => t.mle = d.mle ∧ t.ord = d.ord ∧ t.out = d.out)) ∧
    (op = 0x0101 → d.mle.invPend = none → f = 0 → 1 ≤ byteAt b 22 → byteAt b 22 ≤ 6 → leAt b 20 2 ≤ 4095 →
      let c : InvCmd := ⟨byteAt b 22, leAt b 8 8, bits (leAt b 16 4) 17 0, bits (leAt b 16 4) 23 18, leAt b 20 2⟩
      let x := d.invRun c
      ends (.cmdInv f) x.1 (blockEnd (d.invResult c) (leBytes 8 (x.1.invEntry c.uid))) (fun t =>
        (d.invResult c ≠ 0 ∨ c.op = 6 → t.mle = d.mle) ∧
        (c.op = 1 → d.invResult c = 0 → t.lantern c.lix = some { uid := c.uid, owner := c.owner, gw := c.gw }))) ∧
    (op = 0x0102 → d.mle.keyPend = none → f = 0 →
      let a := leAt b 8 4
      let c : KeyCmd := ⟨bits a 20 18, bits a 17 0, leAt b 12 4, slice b 16 24, slice b 40 24⟩
      1 ≤ bits a 20 18 → bits a 20 18 ≤ 6 →
        ends (.cmdKey f) (d.keyRunAll c).1 (blockEnd (d.keyResult c) []) (fun t => t.mle = (if d.keyResult c = 0 then (d.keyStore c).mle else d.mle))) ∧
    (op = 0x0103 → f = 0 → leAt b 8 2 ≤ 4095 →
      let g := d.gateway (leAt b 8 2)
      let n : Gateway := ⟨beAt b 16 8, beAt b 24 8, leAt b 12 4 % 2 ^ 19⟩
      (byteAt b 10 = 1 → ends (.cmdGateway f) d ⟨0, 0, leBytes 4 g.cfg ++ beBytes 8 g.hi ++ beBytes 8 g.lo⟩ (fun t => t.mle = d.mle)) ∧
      (byteAt b 10 = 2 → ends (.cmdGateway f) (d.setGateway (leAt b 8 2) n) ⟨0, 0, []⟩ (fun t => t.gateway (leAt b 8 2) = n ∧
        ∀ i, i ≠ leAt b 8 2 → t.gateway i = d.gateway i))) ∧
    (d.dmaOk f = true → leAt b 16 4 = 1 →
      let t0 := byteAt b 8
      let ix := leAt b 12 4
      let a := leAt b 24 8
      (∀ buf : List Byte, op = 0x0110 → f = 0 → t0 = 9 → ix < 262144 →
        let q := (tableQuads (slice buf 0 128)).map (fun v => v &&& 0x80000003FFFFFFFF)
        ends (.cmdTwrite f buf none) ((d.hostReads f a 128).setSucc ix (if q.all (· == 0) then [] else q)) ⟨0, 0, leBytes 4 1⟩
          (fun t => (t.lrec ix).succ = (if q.all (· == 0) then [] else q) ∧ (t.lrec ix).slots = (d.lrec ix).slots)) ∧
      (op = 0x0111 → tableSize t0 ≠ 0 → tableAllowed f t0 false = true → tableIndexOk t0 ix = true → (d.tableGet f t0 ix).1 = 0 →
        d.tblPoison t0 ix = false → a % d.maxPayload + tableSize t0 ≤ d.maxPayload →
        let w := slice ((d.tableGet f t0 ix).2.flatMap (leBytes 8)) 0 (tableSize t0)
        ends (.cmdTread f) (d.hostWrite f a w false) ⟨0, 0, leBytes 4 1⟩ (fun t => t.out = .hostWrite f a w false :: d.out))) ∧
    (op = 0x0112 → f = 0 → byteAt b 8 = 3 → leAt b 16 4 = 1 → leAt b 12 4 < 262144 → let ix := leAt b 12 4
      let o := { d.olan ix with codes := [], dovf := false, rv := false, lvalid := false, ack := 0 }
      ends (.cmdTclear f) (d.setOlan ix o) ⟨0, 0, leBytes 4 1⟩ (fun t => t.olan ix = o ∧ ∀ j, j ≠ ix → t.olan j = d.olan j)) ∧
    (op = 0x0120 → byteAt b 8 ≤ 1 →
      let x := d.ordPlace f (byteAt b 8) (leAt b 10 2) (leAt b 12 2) (leAt b 16 4) (leAt b 20 4) (leAt b 24 4) (leAt b 28 4)
      ends (.cmdPlace f) x.1 ⟨x.2.1, 0, if x.2.1 = 0 then leBytes 2 x.2.2.1 ++ leBytes 2 0 ++ leBytes 4 x.2.2.2 else []⟩ (fun t =>
        (x.2.1 = 0 → Tab.find t.ord.recs x.2.2.1 = some ⟨leAt b 16 4, leAt b 20 4, f, byteAt b 8, leAt b 10 2, leAt b 12 2, leAt b 24 4, leAt b 28 4,
          (d.ord.cseq + 1) % 2 ^ 32⟩) ∧ (x.2.1 ≠ 0 → t.ord = d.ord))) ∧
    (op = 0x0121 → let n := leAt b 8 2
      ends (.cmdCancel f) (d.ordCancel f n).1 ⟨(d.ordCancel f n).2, 0, []⟩ (fun t =>
        ((d.ordCancel f n).2 = 0 → Tab.find t.ord.recs n = none ∧ ∀ i, i ≠ n → Tab.find t.ord.recs i = Tab.find d.ord.recs i) ∧
        ((d.ordCancel f n).2 ≠ 0 → t.ord = d.ord))) ∧
    (op = 0x0122 → let x := d.ordSchedule f (leAt b 8 4) (leAt b 12 4) (leAt b 16 2)
      ends (.cmdSchedule f) x.1 ⟨x.2.1, x.2.2.1, leBytes 4 x.2.2.2⟩ (fun t => x.2.1 = 0 → ∀ l ∈ d.regIn (leAt b 8 4) (leAt b 12 4),
        f = 0 ∨ l.2.owner = f → (t.olan l.1).schcal = leAt b 16 2))

/-- The host commands: when they run, how they end, and what they leave (R188, R212–R214). -/
def Obligations.HostCommands : Prop := Claims.HostCommands ∧ Claims.CommandResults

/-- The host link and the window of BAR2 (R182, R186, R190–R195, R201). -/
def Obligations.HostLinkAndWindow : Prop := Claims.ConfigSpace ∧ Claims.HostLink ∧ Claims.Bar2Window

/-- The rings of a function, toward the device and toward the host (R206–R220). -/
def Obligations.Rings : Prop := Claims.RingFetches ∧ Claims.FetchResults ∧ Claims.RingDeliveries ∧ Claims.WriteResults


/-! ### Chapter 10: the instructions of Plait -/

/-- The instruction of a Plait command: its thread, and its fields with the class and FN that Tables 10-6 to 10-8 and 12-7 give its mnemonic. -/
def Sys2Proof.plait : Instr → Option (ThreadId × PIns)
  | .add t a => some (t, ofReg a 0 0)
  | .sub t a => some (t, ofReg a 0 1)
  | .and t a => some (t, ofReg a 0 2)
  | .or t a => some (t, ofReg a 0 3)
  | .xor t a => some (t, ofReg a 0 4)
  | .andn t a => some (t, ofReg a 0 5)
  | .shl t a => some (t, ofReg a 0 6)
  | .shr t a => some (t, ofReg a 0 7)
  | .sar t a => some (t, ofReg a 0 8)
  | .rol t a => some (t, ofReg a 0 9)
  | .min t a => some (t, ofReg a 0 10)
  | .max t a => some (t, ofReg a 0 11)
  | .minu t a => some (t, ofReg a 0 12)
  | .maxu t a => some (t, ofReg a 0 13)
  | .sextw t a => some (t, ofReg a 0 14)
  | .sextp t a => some (t, ofReg a 0 15)
  | .zextw t a => some (t, ofReg a 0 16)
  | .zextp t a => some (t, ofReg a 0 17)
  | .clz t a => some (t, ofReg a 0 18)
  | .popc t a => some (t, ofReg a 0 19)
  | .getp t a => some (t, ofReg a 0 22)
  | .setp t a => some (t, ofReg a 0 23)
  | .immediateLoad t a => some (t, ofArg a 1)
  | .cmpEq t a => some (t, ofReg a 3 0)
  | .cmpNe t a => some (t, ofReg a 3 1)
  | .cmpLt t a => some (t, ofReg a 3 2)
  | .cmpGe t a => some (t, ofReg a 3 3)
  | .cmpLtu t a => some (t, ofReg a 3 4)
  | .cmpGeu t a => some (t, ofReg a 3 5)
  | .cmpAny t a => some (t, ofReg a 3 6)
  | .cmpNone t a => some (t, ofReg a 3 7)
  | .pand t a => some (t, ofReg a 3 16)
  | .por t a => some (t, ofReg a 3 17)
  | .pxor t a => some (t, ofReg a 3 18)
  | .pandn t a => some (t, ofReg a 3 19)
  | .mul t a => some (t, ofReg a 2 0)
  | .mulu t a => some (t, ofReg a 2 1)
  | .mac t a => some (t, ofReg a 2 2)
  | .macu t a => some (t, ofReg a 2 3)
  | .div t a => some (t, ofReg a 2 4)
  | .divu t a => some (t, ofReg a 2 5)
  | .mfmh t a => some (t, ofReg a 2 6)
  | .mfml t a => some (t, ofReg a 2 7)
  | .mtmh t a => some (t, ofReg a 2 8)
  | .mtml t a => some (t, ofReg a 2 9)
  | .ld t a => some (t, ofReg a 4 (0 + a.sub.toNat % 4))
  | .ldu t a => some (t, ofReg a 4 (4 + a.sub.toNat % 4))
  | .st t a => some (t, ofReg a 4 (8 + a.sub.toNat % 4))
  | .ldf t a => some (t, ofReg a 4 (12 + a.sub.toNat % 4))
  | .stf t a => some (t, ofReg a 4 (16 + a.sub.toNat % 4))
  | .pref t a => some (t, ofReg a 4 (20 + a.sub.toNat % 4))
  | .dclean t a => some (t, ofCache a 0)
  | .dflush t a => some (t, ofCache a 1)
  | .dinv t a => some (t, ofCache a 2)
  | .icinv t a => some (t, ofCache a 3)
  | .dzero t a => some (t, ofCache a 4)
  | .tlbiVa t a => some (t, ofCache a 8)
  | .tlbiAsid t a => some (t, ofCache a 9)
  | .tlbiAll t a => some (t, ofCache a 10)
  | .tlbiLocal t a => some (t, ofCache a 11)
  | .l1dinvAll t a => some (t, ofCache a 16)
  | .l2cleanAll t a => some (t, ofCache a 17)
  | .l2flushAll t a => some (t, ofCache a 18)
  | .shortAbsoluteLoad t k a => some (t, { ofArg a (5 + k.val) with x := false })
  | .shortAbsoluteStore t k a => some (t, { ofArg a (5 + k.val) with x := true })
  | .btst t a => some (t, ofReg a 8 0)
  | .bset t a => some (t, ofReg a 8 1)
  | .bclr t a => some (t, ofReg a 8 2)
  | .binv t a => some (t, ofReg a 8 3)
  | .bld t a => some (t, ofReg a 8 4)
  | .bst t a => some (t, ofReg a 8 5)
  | .br t a => some (t, ofArg a 9)
  | .jr t a => some (t, ofReg a 10 0)
  | .bmove t a => some (t, ofReg a 11 (a.sub.toNat * 8 + 0))
  | .bmoved t a => some (t, ofReg a 11 (a.sub.toNat * 8 + 1))
  | .bfill t a => some (t, ofReg a 11 (a.sub.toNat * 8 + 2))
  | .bcmp t a => some (t, ofReg a 11 (a.sub.toNat * 8 + 3))
  | .sigdi t a => some (t, ofReg a 11 (a.sub.toNat * 8 + 4))
  | .sigdh t a => some (t, ofReg a 11 (a.sub.toNat * 8 + 5))
  | .daddm t a => some (t, ofReg a 11 (a.sub.toNat * 8 + 6))
  | .dsubm t a => some (t, ofReg a 11 (a.sub.toNat * 8 + 7))
  | .dadd t a => some (t, ofReg a 12 (a.sub.toNat * 8 + 0))
  | .dsub t a => some (t, ofReg a 12 (a.sub.toNat * 8 + 1))
  | .dchk t a => some (t, ofReg a 12 (a.sub.toNat * 8 + 2))
  | .dtob t a => some (t, ofReg a 12 (a.sub.toNat * 8 + 3))
  | .btod t a => some (t, ofReg a 12 (a.sub.toNat * 8 + 4))
  | .fadd t a => some (t, ofReg a 13 0)
  | .fsub t a => some (t, ofReg a 13 1)
  | .fmul t a => some (t, ofReg a 13 2)
  | .fdiv t a => some (t, ofReg a 13 3)
  | .fsqrt t a => some (t, ofReg a 13 4)
  | .fma t a => some (t, ofReg a 13 5)
  | .fms t a => some (t, ofReg a 13 6)
  | .fnma t a => some (t, ofReg a 13 7)
  | .fmin t a => some (t, ofReg a 13 8)
  | .fmax t a => some (t, ofReg a 13 9)
  | .fabs t a => some (t, ofReg a 13 10)
  | .fneg t a => some (t, ofReg a 13 11)
  | .fmov t a => some (t, ofReg a 13 12)
  | .fcvt t a => some (t, ofReg a 13 16)
  | .fcvti t a => some (t, ofReg a 13 17)
  | .fcvtiu t a => some (t, ofReg a 13 18)
  | .fcvtit t a => some (t, ofReg a 13 19)
  | .fcvtf t a => some (t, ofReg a 13 20)
  | .fcvtfu t a => some (t, ofReg a 13 21)
  | .fmvfg t a => some (t, ofReg a 13 22)
  | .fmvgf t a => some (t, ofReg a 13 23)
  | .feq t a => some (t, ofReg a 13 24)
  | .flt t a => some (t, ofReg a 13 25)
  | .fle t a => some (t, ofReg a 13 26)
  | .funord t a => some (t, ofReg a 13 27)
  | .ldres t a => some (t, ofReg a 14 (0 + a.sub.toNat % 4))
  | .stcom t a => some (t, ofReg a 14 (4 + a.sub.toNat % 4))
  | .aswp t a => some (t, ofReg a 14 (8 + a.sub.toNat % 4))
  | .aadd t a => some (t, ofReg a 14 (12 + a.sub.toNat % 4))
  | .acas t a => some (t, ofReg a 14 (16 + a.sub.toNat % 4))
  | .aor t a => some (t, ofReg a 14 (20 + a.sub.toNat % 4))
  | .aand t a => some (t, ofReg a 14 (24 + a.sub.toNat % 4))
  | .nop t a => some (t, ofSys a 0)
  | .trap t a => some (t, ofSys a 1)
  | .sync t a => some (t, ofSys a 2)
  | .fenceL t a => some (t, { ofSys a 3 with ra := 0, rb := 0, fn := 0 })
  | .fenceS t a => some (t, { ofSys a 3 with ra := 1, rb := 0, fn := 0 })
  | .fence t a => some (t, { ofSys a 3 with ra := 2, rb := 0, fn := 0 })
  | .fenceIo t a => some (t, { ofSys a 3 with ra := 3, rb := 0, fn := 0 })
  | .mfc t a => some (t, ofSys a 4)
  | .mtc t a => some (t, ofSys a 5)
  | .flushp t a => some (t, ofSys a 6)
  | .barp t a => some (t, ofSys a 7)
  | .hold t a => some (t, ofSys a 8)
  | .release t a => some (t, ofSys a 9)
  | .rete t a => some (t, ofSys a 10)
  | .wait t a => some (t, ofSys a 11)
  | .brk t a => some (t, ofSys a 12)
  | _ => none

/-- INT, IMM, MUL, CMP and DEC write the registers Tables 10-6 and 10-7 give them, in one place each, and nothing else changes: ADD … POPC, GETP,
SETP, the immediate load, MUL … MTML, EQ … NONE, PAND … PANDN, DADD … BTOD (R236, R238, R244). -/
def Sys2Proof.Claims.PlaitInteger : Prop :=
  ∀ (s : State) (c : Instr) (t : ThreadId) (i : PIns), s.dev.awake = true → plait c = some (t, i) →
    (i.cls = 0 → i.fn ≤ 19 → s.retires c t i (fun h => h.setG i.rd (alu i.x i.fn (h.gr i.ra) (i.opB h)))) ∧
    (i.cls = 0 → i.fn = 22 → s.retires c t i (fun h => h.setG i.rd h.preds)) ∧
    (i.cls = 0 → i.fn = 23 → s.retires c t i (fun h => { h with p := h.gr i.ra / 2 % 128 * 2 })) ∧
    (i.cls = 1 → i.x = false → s.retires c t i (fun h => h.setG i.rd (if i.l then sext 32 (i.arg + 65536 * i.imm) else sext 16 i.arg))) ∧
    (i.cls = 1 → i.x = true → s.retires c t i (fun h => h.setG i.rd ((i.arg + 65536 * i.imm) * 2 ^ 32 + h.gr i.rd % 2 ^ 32))) ∧
    (i.cls = 2 → i.fn ≤ 5 → s.retires c t i (fun h => h.mulTo (kindOf t) (mulDiv i.fn (h.gr i.ra) (h.gr i.rb) (h.mh * 2 ^ 64 + h.ml)))) ∧
    (i.cls = 2 → i.fn = 6 → s.retires c t i (fun h => h.setG i.rd h.mh)) ∧
    (i.cls = 2 → i.fn = 7 → s.retires c t i (fun h => h.setG i.rd h.ml)) ∧
    (i.cls = 2 → i.fn = 8 → s.retires c t i (fun h => { h with mh := h.gr i.ra })) ∧
    (i.cls = 2 → i.fn = 9 → s.retires c t i (fun h => { h with ml := h.gr i.ra })) ∧
    (i.cls = 3 → i.fn ≤ 7 → s.retires c t i (fun h => h.cmpTo i.pt i.mode (cmpOp i.x i.fn (h.gr i.ra) (i.opB h)))) ∧
    (i.cls = 3 → 16 ≤ i.fn → s.retires c t i (fun h => h.cmpTo i.pt i.mode (predOp i.fn (h.pr i.ra) (h.pr i.rb)))) ∧
    (i.cls = 12 → i.fn % 8 = 2 → s.retires c t i (fun h => h.setP (i.fn / 8) (allDigits 16 (h.gr i.ra)))) ∧
    (i.cls = 12 → i.fn % 8 = 4 → s.retires c t i (fun h =>
      (h.setG i.rd (toBcd 16 (h.gr i.ra % 10 ^ 16))).setP (i.fn / 8) (decide (10 ^ 16 ≤ h.gr i.ra)))) ∧
    (∀ d1, s.dev.poised t i d1 → let h := d1.th (tid t)
      badDigits 16 (h.gr i.ra) = false → i.cls = 12 →
      (i.fn % 8 = 3 → s.retiresFrom c t i d1 (fun h => h.setG i.rd (bcdVal 16 (h.gr i.ra)))) ∧
      (badDigits 16 (h.gr i.rb) = false →
        let cin := b2n (i.x && h.pr (i.fn / 8))
        (i.fn % 8 = 0 → let r := digAdd 16 (h.gr i.ra) (h.gr i.rb) cin
          s.retiresFrom c t i d1 (fun h => (h.setG i.rd r.1).setP (i.fn / 8) r.2)) ∧
        (i.fn % 8 = 1 → let r := digSub 16 (h.gr i.ra) (h.gr i.rb) cin
          s.retiresFrom c t i d1 (fun h => (h.setG i.rd r.1).setP (i.fn / 8) r.2))))

/-- The integer arithmetic of Table 10-7: 64-bit operations wrap, shift counts are taken modulo 64, with X = 1 the low halves are operated on and
the result sign-extended; the comparisons; products, and quotients truncated toward zero with a division by zero giving ml 0 and mh RA
(R236, R238); decimal sums and differences with their carry and borrow (R244). -/
def Sys2Proof.Claims.IntegerArithmetic : Prop :=
  (∀ a b : BitVec 64, let n := b.toNat % 64
    alu false 0 a.toNat b.toNat = (a + b).toNat ∧ alu false 1 a.toNat b.toNat = (a - b).toNat ∧
    alu false 2 a.toNat b.toNat = (a &&& b).toNat ∧ alu false 3 a.toNat b.toNat = (a ||| b).toNat ∧
    alu false 4 a.toNat b.toNat = (a ^^^ b).toNat ∧ alu false 5 a.toNat b.toNat = (a &&& ~~~b).toNat ∧
    alu false 6 a.toNat b.toNat = (a <<< n).toNat ∧ alu false 7 a.toNat b.toNat = (a >>> n).toNat ∧
    alu false 8 a.toNat b.toNat = (a.sshiftRight n).toNat ∧ alu false 9 a.toNat b.toNat = (a.rotateLeft n).toNat ∧
    alu false 10 a.toNat b.toNat = (if b.slt a then b else a).toNat ∧ alu false 11 a.toNat b.toNat = (if a.slt b then b else a).toNat ∧
    alu false 12 a.toNat b.toNat = (if b.ult a then b else a).toNat ∧ alu false 13 a.toNat b.toNat = (if a.ult b then b else a).toNat ∧
    alu false 14 a.toNat b.toNat = ((a.setWidth 16).signExtend 64).toNat ∧ alu false 15 a.toNat b.toNat = ((a.setWidth 32).signExtend 64).toNat ∧
    alu false 16 a.toNat b.toNat = (a.setWidth 16).toNat ∧ alu false 17 a.toNat b.toNat = (a.setWidth 32).toNat ∧
    alu false 18 a.toNat b.toNat ≤ 64 ∧ a.toNat < 2 ^ (64 - alu false 18 a.toNat b.toNat) ∧
    (a ≠ 0 → 2 ^ (63 - alu false 18 a.toNat b.toNat) ≤ a.toNat) ∧
    alu false 19 a.toNat b.toNat = (List.range 64).countP (fun k => a.getLsbD k) ∧
    alu true 0 a.toNat b.toNat = ((a.setWidth 32 + b.setWidth 32).signExtend 64).toNat ∧
    alu true 1 a.toNat b.toNat = ((a.setWidth 32 - b.setWidth 32).signExtend 64).toNat ∧
    alu true 8 a.toNat b.toNat = (((a.setWidth 32).sshiftRight (b.toNat % 32)).signExtend 64).toNat) ∧
  (∀ a b : BitVec 64, cmpOp false 0 a.toNat b.toNat = (a == b) ∧ cmpOp false 1 a.toNat b.toNat = (a != b) ∧
    cmpOp false 2 a.toNat b.toNat = a.slt b ∧ cmpOp false 3 a.toNat b.toNat = b.sle a ∧ cmpOp false 4 a.toNat b.toNat = a.ult b ∧
    cmpOp false 5 a.toNat b.toNat = b.ule a ∧ cmpOp false 6 a.toNat b.toNat = (a &&& b != 0) ∧
    cmpOp false 7 a.toNat b.toNat = (a &&& b == 0) ∧ cmpOp true 2 a.toNat b.toNat = (a.setWidth 32).slt (b.setWidth 32)) ∧
  (∀ (a b : BitVec 64) (m : Nat), m < 2 ^ 128 →
    let w := fun (fn : Nat) => let r := mulDiv fn a.toNat b.toNat m; r.1 * 2 ^ 64 + r.2
    ((w 0 : Nat) : Int) = a.toInt * b.toInt % 2 ^ 128 ∧ w 1 = a.toNat * b.toNat ∧
    ((w 2 : Nat) : Int) = (m + a.toInt * b.toInt) % 2 ^ 128 ∧ w 3 = (m + a.toNat * b.toNat) % 2 ^ 128 ∧
    (b = 0 → mulDiv 4 a.toNat b.toNat m = (a.toNat, 0) ∧ mulDiv 5 a.toNat b.toNat m = (a.toNat, 0)) ∧
    (b ≠ 0 → mulDiv 4 a.toNat b.toNat m = ((a.srem b).toNat, (a.sdiv b).toNat) ∧
      mulDiv 5 a.toNat b.toNat m = ((a % b).toNat, (a / b).toNat))) ∧
  (∀ (n a b c : Nat), c ≤ 1 → badDigits n a = false → badDigits n b = false →
    (badDigits n (digAdd n a b c).1 = false ∧
      bcdVal n (digAdd n a b c).1 + 10 ^ n * b2n (digAdd n a b c).2 = bcdVal n a + bcdVal n b + c) ∧
    (badDigits n (digSub n a b c).1 = false ∧
      bcdVal n (digSub n a b c).1 + (bcdVal n b + c) = bcdVal n a + 10 ^ n * b2n (digSub n a b c).2))

/-- FP writes its result and leaves its flags in FPSR, and on a stake core sets an FP trap pending for those whose trap is enabled: FADD …
FMAX, FCVT; FABS, FNEG and FMOV touch no flag; FCVTI … FCVTFU, FMVFG, FMVGF; FEQ … FUN (R245, R246, R268). -/
def Sys2Proof.Claims.PlaitFloat : Prop :=
  ∀ (s : State) (c : Instr) (t : ThreadId) (i : PIns), s.dev.awake = true → plait c = some (t, i) → i.cls = 13 →
    let f := fmtOf i.x
    let cut := fun (v : Nat) => if i.x then v else v % 2 ^ 32
    let top := if i.x then 2 ^ 63 else 2 ^ 31
    let rm := fun (h : Thr) => bits (h.cr 0x010) 1 0
    let ftz := fun (h : Thr) => bit (h.cr 0x010) 2
    let one := fun (h : Thr) => f.unpack (ftz h) (cut (h.fr i.ra))
    let toF := fun (h : Thr) (r : Nat × Nat) => (h.setF i.rd r.1).fpRaise (kindOf t) h.pc r.2
    let toG := fun (h : Thr) (r : Nat × Nat) => (h.setG i.rd r.1).fpRaise (kindOf t) h.pc r.2
    (i.fn ≤ 9 → s.retires c t i (fun h => toF h (fpArith i.fn i.x (rm h) (ftz h) (cut (h.fr i.ra)) (cut (h.fr i.rb)) (cut (h.fr i.rd))))) ∧
    (i.fn = 10 → s.retires c t i (fun h => h.setF i.rd (cut (h.fr i.ra) % top))) ∧
    (i.fn = 11 → s.retires c t i (fun h => h.setF i.rd (cut (h.fr i.ra) ^^^ top))) ∧
    (i.fn = 12 → s.retires c t i (fun h => h.setF i.rd (cut (h.fr i.ra)))) ∧
    (i.fn = 16 → s.retires c t i (fun h => toF h (f.convert (fmtOf !i.x) (rm h) (ftz h)
      ((fmtOf !i.x).unpack (ftz h) (if i.x then h.fr i.ra % 2 ^ 32 else h.fr i.ra))))) ∧
    (i.fn = 17 → s.retires c t i (fun h => toG h ((one h).toInt (rm h) true))) ∧
    (i.fn = 18 → s.retires c t i (fun h => toG h ((one h).toInt (rm h) false))) ∧
    (i.fn = 19 → s.retires c t i (fun h => toG h ((one h).toInt 1 true))) ∧
    (i.fn = 20 → s.retires c t i (fun h => toF h (f.ofInt (rm h) (ftz h) (sgn 64 (h.gr i.ra))))) ∧
    (i.fn = 21 → s.retires c t i (fun h => toF h (f.ofInt (rm h) (ftz h) (h.gr i.ra : Nat)))) ∧
    (i.fn = 22 → s.retires c t i (fun h => h.setG i.rd (cut (h.fr i.ra)))) ∧
    (i.fn = 23 → s.retires c t i (fun h => h.setF i.rd (cut (h.gr i.ra)))) ∧
    (24 ≤ i.fn → i.fn ≤ 27 → s.retires c t i (fun h =>
      let r := fpCompare i.fn i.x (ftz h) (cut (h.fr i.ra)) (cut (h.fr i.rb))
      (h.cmpTo i.pt i.mode r.1).fpRaise (kindOf t) h.pc r.2))

/-- Loads, stores, BIT and ATOM: each completes where its access does, with the register or predicate Table 10-7 gives it (R237, R240,
R242, R243); an engine's word store and bit space hold what is stored, LDRES reserves and STCOM stores under the reservation alone; PREF
and the cache operations complete (R291). Here d1 is the device after the fetch and d2 after the access. -/
def Sys2Proof.Claims.PlaitMemory : Prop :=
  ∀ (s : State) (c : Instr) (t : ThreadId) (i : PIns) (d1 d2 : Dev), s.dev.awake = true → plait c = some (t, i) → s.dev.poised t i d1 →
    let cx := (s.dev.entering t i.env).2
    let h := d1.th (tid t)
    let n := szWords (i.fn % 4)
    let va := i.ea h n
    let b := h.gr i.rb % 2 ^ (16 * n)
    (∀ v, i.cls = 4 → d1.mload (d1.loadCx cx i) 1 va n = .ok d2 v →
      (i.fn / 4 = 0 → s.retiresFrom c t i d2 (fun h => h.setG i.rd (sext (16 * n) v))) ∧
      (i.fn / 4 = 1 → s.retiresFrom c t i d2 (fun h => h.setG i.rd v)) ∧
      (i.fn / 4 = 3 → s.retiresFrom c t i d2 (fun h => h.setF i.rd v))) ∧
    (i.cls = 4 → i.fn / 4 = 2 → d1.mstore cx 2 va n (h.gr i.rd) = .ok d2 () → s.retiresFrom c t i d2 id) ∧
    (i.cls = 4 → i.fn / 4 = 4 → d1.mstore cx 2 va n (h.fr i.rd) = .ok d2 () → s.retiresFrom c t i d2 id) ∧
    (i.cls = 4 → i.fn / 4 = 5 → s.retiresFrom c t i (if kindOf t = .stake then d1.spref cx va else d1) id) ∧
    (i.cls = 4 → i.fn / 4 = 6 → (cx.user = false ∨ i.rd ≠ 2 ∧ i.rd < 8) → d1.mcache cx i.rd va = .ok d2 () → s.retiresFrom c t i d2 id) ∧
    (5 ≤ i.cls → i.cls ≤ 7 → let m := szWords (i.cls - 5)
      (∀ v, i.x = false → d1.mload cx 1 (i.sha h) m = .ok d2 v → s.retiresFrom c t i d2 (fun h => h.setG i.rd (sext (16 * m) v))) ∧
      (i.x = true → d1.mstore cx 2 (i.sha h) m (h.gr i.rd) = .ok d2 () → s.retiresFrom c t i d2 id)) ∧
    (∀ v, i.cls = 8 → let w := i.ea h 1
      (i.fn = 0 → d1.mbit cx w .load (fun _ => none) = .ok d2 v → s.retiresFrom c t i d2 (fun h => h.cmpTo i.pt i.mode v)) ∧
      (i.fn = 4 → d1.mbit cx w .load (fun _ => none) = .ok d2 v → s.retiresFrom c t i d2 (fun h => h.setG i.rd (b2n v))) ∧
      (i.fn = 5 → d1.mbit cx w .store (fun _ => some (bit (h.gr i.rd) 0)) = .ok d2 v → s.retiresFrom c t i d2 id) ∧
      (i.fn = 1 → d1.mbit cx w .rmw (fun _ => some true) = .ok d2 v → s.retiresFrom c t i d2 (fun h => h.setP i.pt v)) ∧
      (i.fn = 2 → d1.mbit cx w .rmw (fun _ => some false) = .ok d2 v → s.retiresFrom c t i d2 (fun h => h.setP i.pt v)) ∧
      (i.fn = 3 → d1.mbit cx w .rmw (fun x => some (!x)) = .ok d2 v → s.retiresFrom c t i d2 (fun h => h.setP i.pt v))) ∧
    (i.cls = 14 →
      (∀ v, i.fn / 4 = 0 → d1.mldres cx (h.gr i.ra) n = .ok d2 v → s.retiresFrom c t i d2 (fun h => h.setG i.rd (sext (16 * n) v))) ∧
      (∀ v, i.fn / 4 = 1 → d1.mstcom cx (h.gr i.ra) n b = .ok d2 v → s.retiresFrom c t i d2 (fun h => h.setP i.pt v)) ∧
      (∀ v, 2 ≤ i.fn / 4 → i.fn / 4 ≤ 6 → d1.matom cx (h.gr i.ra) n (fun x => match i.fn / 4 with
          | 2 => some b
          | 3 => some ((x + b) % 2 ^ (16 * n))
          | 4 => if x = h.gr i.rd % 2 ^ (16 * n) then some b else none
          | 5 => some (x ||| b)
          | _ => some (x &&& b)) = .ok d2 v →
        s.retiresFrom c t i d2 (fun h => h.setG i.rd (sext (16 * n) v)))) ∧
    (∀ (e : Fin 512) (x : Fin 4) (a w : Nat) (r : Acc) (g : Bool → Option Bool), t = .engine e x → d1.invOf t = none → a + n ≤ 2 ^ 24 →
      d1.mload cx 1 a n = .ok d1 ((List.range n).foldl (fun v j => v + d1.engWord e (a + j) * 65536 ^ j) 0) ∧
      (∃ d, d1.mstore cx 2 a n w = .ok d () ∧ (∀ j, j < n → d.engWord e (a + j) = w / 65536 ^ j % 65536) ∧
        (∀ y, y < 2 ^ 24 → y < a ∨ a + n ≤ y → d.engWord e y = d1.engWord e y) ∧ d.mem = d1.mem ∧ d.regs = d1.regs) ∧
      (a ≤ 65535 → ∃ d, let old := Tab.get false d1.thr.bstore (e * 65536 + a)
        d1.mbit cx a r g = .ok d old ∧ (∀ y, y ≠ e * 65536 + a → Tab.get false d.thr.bstore y = Tab.get false d1.thr.bstore y) ∧
          Tab.get false d.thr.bstore (e * 65536 + a) = (g old).getD old) ∧
      (a % n = 0 → ∃ d, d1.mldres cx a n = .ok d ((List.range n).foldl (fun v j => v + d1.engWord e (a + j) * 65536 ^ j) 0) ∧
        (d.th (tid t)).resv = some (engPlace e a, n)) ∧
      (a % n = 0 →
        (h.resv = some (engPlace e a, n) → ∃ d, d1.mstcom cx a n w = .ok d true ∧ (d.th (tid t)).resv = none ∧
          ∀ j, j < n → d.engWord e (a + j) = w / 65536 ^ j % 65536) ∧
        (h.resv ≠ some (engPlace e a, n) → ∃ d, d1.mstcom cx a n w = .ok d false ∧ (d.th (tid t)).resv = none ∧
          ∀ y, d.engWord e y = d1.engWord e y)))

/-- One element of a LONG instruction, on the words its registers name: BMOVE and BMOVED copy, BFILL fills, BCMP compares, SIGDI and SIGDH add to
ml, DADDM and DSUBM add and subtract decimal digits with the carry in RB[63]; the registers then describe the elements that remain, and the
instruction ends after the last one, or where BCMP finds a difference, or at once for a count of 0 (R241, Table 10-10). -/
def Sys2Proof.Claims.PlaitLong : Prop :=
  ∀ (s : State) (c : Instr) (t : ThreadId) (i : PIns) (d1 : Dev), s.dev.awake = true → plait c = some (t, i) → i.cls = 11 →
    s.dev.poised t i d1 →
    let cx := (s.dev.entering t i.env).2
    let h := d1.th (tid t)
    let a := h.gr i.rd
    let b := h.gr i.ra
    let left := h.gr i.rb % 2 ^ 32
    let op := i.fn % 8
    let ended := fun (h : Thr) => let y : Thr := if op = 3 then h.setP (i.fn / 8) true else h
      { y with inLong := false, mulq := h.mulq ++ (h.acc.map (fun m => [(4, m)])).getD [], acc := none }
    let after := fun (d : Dev) (f : Thr → Thr) =>
      ((f (d.th (tid t))).gr i.rb % 2 ^ 32 = 0 → s.retiresFrom c t i d (fun h => ended (f h))) ∧
      ((f (d.th (tid t))).gr i.rb % 2 ^ 32 ≠ 0 →
        s.completes c (fun x => ({ f (d.th (tid t)) with inLong := true } : Thr).goesTo (x.th (tid t)) ∧ d.threadOnly x (tid t)))
    let moved := fun (sd sa : Nat) (top : Bool) (h : Thr) => h.elemDone i sd sa top
    let top := bit (h.gr i.rb) 63
    (left = 0 → s.retiresFrom c t i d1 ended) ∧
    (left ≠ 0 →
      (∀ d2 d3 v, op = 0 → d1.mload cx 5 b 1 = .ok d2 v → d2.mstore cx 5 a 1 v = .ok d3 () → after d3 (moved 1 1 top)) ∧
      (∀ d2 d3 v, op = 1 → d1.mload cx 5 b 1 = .ok d2 v → d2.mstore cx 5 a 1 v = .ok d3 () →
        after d3 (moved (2 ^ 64 - 1) (2 ^ 64 - 1) top)) ∧
      (∀ d2, op = 2 → d1.mstore cx 5 a 1 (b % 65536) = .ok d2 () → after d2 (moved 1 0 top)) ∧
      (∀ d2 d3 v w, 3 ≤ op → d1.mload cx 5 a 1 = .ok d2 v → d2.mload cx 5 b 1 = .ok d3 w →
        (op = 3 → v = w → after d3 (moved 1 1 top)) ∧
        (op = 3 → v ≠ w → s.retiresFrom c t i d3 (fun h => { h.setP (i.fn / 8) false with inLong := false })) ∧
        (op = 4 ∨ op = 5 → let x : Int := if op = 4 then dotWord v w else (popc 16 (v ^^^ w) : Nat)
          ∃ fv, after d3 (fun h => let y := moved 1 1 top h
            if kindOf t = .stake then { y with mh := fv, ml := wrapI 64 (h.ml + x) }
            else { y with acc := some (fv, wrapI 64 ((h.acc.getD (0, h.ml)).2 + x)) })) ∧
        (∀ d4, 6 ≤ op → badDigits 4 v = false → badDigits 4 w = false →
          let r := if op = 6 then digAdd 4 v w (b2n top) else digSub 4 v w (b2n top)
          d3.mstore cx 5 a 1 r.1 = .ok d4 () → after d4 (moved 1 1 r.2))))

/-- Branches and the guard: a taken BR or JR makes its target the NPC behind its slot, and its link register waits for the slot's end; an
untaken one goes on, annulling the slot with X = 1; an instruction whose guard is false, or in an annulled slot, executes nothing and still takes
its place (R232, R233, R235). -/
def Sys2Proof.Claims.PlaitBranches : Prop :=
  ∀ (s : State) (c : Instr) (t : ThreadId) (i : PIns) (d1 : Dev), s.dev.awake = true → plait c = some (t, i) →
    s.dev.quiet t → s.dev.fetched t i d1 → i.legal (kindOf t) = true → s.dev.placed t i →
    let h := d1.th (tid t)
    let goes := fun (f : Flow) (x : Thr) => s.completes c (fun d => (x.advance h.pc i.len f).goesTo (d.th (tid t)) ∧ d1.threadOnly d (tid t))
    (h.annul = true → goes .next h) ∧
    (h.annul = false → i.guard h = false → i.cls ≠ 9 → i.cls ≠ 10 → goes .next { h with inLong := false }) ∧
    (h.annul = false → i.guard h = false → i.cls = 9 ∨ i.cls = 10 → goes (.branch false 0 i.x i.rd) { h with inLong := false }) ∧
    (h.annul = false → i.guard h = true → i.cls = 9 → goes (.branch true (wadd 64 h.pc i.disp) i.x i.rd) h) ∧
    (h.annul = false → i.guard h = true → i.cls = 10 → goes (.branch true (h.gr i.ra) i.x i.rd) h) ∧
    (∀ (target : Nat) (x : Bool), (h.advance h.pc i.len (.branch true target x i.rd)).npc = some target ∧
      (h.advance h.pc i.len (.branch true target x i.rd)).annul = false ∧
      (h.npc = none → (h.advance h.pc i.len (.branch true target x i.rd)).pc = wadd 64 h.pc i.len) ∧
      (h.advance h.pc i.len (.branch true target x i.rd)).link = (if i.rd = 0 then none else some i.rd) ∧
      (h.advance h.pc i.len (.branch false target x i.rd)).annul = x)

/-- SYS (Table 10-8): NOP, BARP, the load fence and, in system mode, FLUSHP change nothing but the PC; SYNC applies the marked writes; the other
fences drain a stake core's buffers; MFC and MTC move a control register that may be read or written; HOLD, RELEASE and WAIT act on STATUS;
RETE restores the saved pair and STATUS; BRK under BRKHALT asks for a halt (R228, R249, R263, R264, R267). -/
def Sys2Proof.Claims.PlaitSystem : Prop :=
  ∀ (s : State) (c : Instr) (t : ThreadId) (i : PIns) (d1 : Dev), s.dev.awake = true → plait c = some (t, i) → i.cls = 15 →
    s.dev.poised t i d1 →
    let cx := (s.dev.entering t i.env).2
    let h := d1.th (tid t)
    let n := i.arg % 1024
    let reg := ctlReg (kindOf t) h.lvl (bit (h.cr 0x320) 1) n
    ((i.rd = 0 ∨ i.rd = 7 ∨ i.rd = 6 ∧ cx.user = false) → s.retiresFrom c t i d1 id) ∧
    (i.rd = 2 → s.retiresFrom c t i d1 Thr.sync) ∧
    (i.rd = 3 → s.retiresFrom c t i (if kindOf t = .stake ∧ i.arg ≠ 0 then d1.drainAll cx.core cx.env else d1) id) ∧
    (∀ r, i.rd = 4 → reg = some r → (cx.user = false ∨ r.ur = true) →
      s.retiresFrom c t i (d1.mfcVal cx n).1 (fun h => h.setG (i.arg / 1024) (d1.mfcVal cx n).2)) ∧
    (∀ r, i.rd = 5 → reg = some r → r.wr = true → (cx.user = false ∨ r.uw = true) →
      s.retiresFrom c t i (d1.mtcDo cx n (h.gr (i.arg / 1024)) r.sync) id) ∧
    (∀ r, reg = some r → r.wr = true → r.sync = true → (d1.mtcDo cx n (h.gr (i.arg / 1024)) r.sync).th (tid t) =
      { h with pend := h.pend ++ [(n, ctlMask (kindOf t) n (h.gr (i.arg / 1024)))] }) ∧
    (cx.user = false →
      (i.rd = 8 → s.retiresFrom c t i d1 (fun h =>
        { h.setCr 0 (h.cr 0 ||| 32) with hold := if h.held then min h.hold i.arg else i.arg })) ∧
      (i.rd = 9 → s.retiresFrom c t i d1 (fun h => if h.lvl = 1 then h.setCr 0 (h.cr 0 ||| 16) else h)) ∧
      (i.rd = 11 → s.retiresFrom c t i d1 (fun h =>
        { h.setCr 0 (h.cr 0 - (if h.held then 32 else 0)) with hold := 0, waiting := true })) ∧
      (∀ x, i.rd = 10 → h.rete = some x → kindOf t ≠ .engine →
        s.completes c (fun d => x.goesTo (d.th (tid t)) ∧ d1.threadOnly d (tid t)) ∧
        x.pc = h.cr (0x210 + 8 * (h.lvl - 1)) ∧ x.npc = some (h.cr (0x211 + 8 * (h.lvl - 1))) ∧
        x.cr 0 = h.cr (0x212 + 8 * (h.lvl - 1)) % 32 ∧ x.resv = none)) ∧
    (i.rd = 12 → kindOf t ≠ .engine → d1.get (DBG_CORE_CTL_BRKHALT (dbgCore t)) = 1 →
      s.retiresFrom c t i d1 (fun h => { h with haltReq := some (h.haltReq.getD (3, 0)) })) ∧
    (∀ e x, i.rd = 12 → t = .engine e x → d1.get (DBG_ENG_CTL_BRKHALT e) = 1 →
      s.completes c (fun d => d.get (DBG_ENG_STAT_HALTED e) = 1 ∧ d.get (DBG_ENG_STAT_CAUSE e) = 3 ∧
        (d.th (tid t)).pc = (h.advance h.pc i.len .next).pc))

/-- Synchronous faults of a stake core or the handle core, with no marked write waiting: an instruction that is not legal or may not stand in
its slot (0x01), a privileged one in user mode (0x02), TRAP (0x03), BRK without BRKHALT (0x04), a decimal operand with a digit above 9 (0x08).
At level 0, and on a stake core at level 1 after RELEASE, each enters level 1; at level 1 before it level 2; at level 2 it resets the core with
REASON 1 (R231, R234, R244, R256, R257, R260, R262, R264, R265). -/
def Obligations.PlaitFaults : Prop :=
  ∀ (s : State) (c : Instr) (t : ThreadId) (i : PIns) (d1 : Dev), s.dev.awake = true → plait c = some (t, i) → kindOf t ≠ .engine →
    s.dev.quiet t → s.dev.fetched t i d1 →
    let cx := (s.dev.entering t i.env).2
    let h := d1.th (tid t)
    let n := i.arg % 1024
    let own := (h.pc, h.npc.getD (wadd 64 h.pc i.len))
    let faults := fun (code info : Nat) (pair : Nat × Nat) =>
      let enters := fun (b : Nat) => s.completes c (fun d => h.entered (d.th (tid t)) b code 0 info pair ∧ ∀ j, j ≠ tid t → d.th j = d1.th j)
      (h.lvl = 0 → enters 1) ∧
      (kindOf t = .stake → h.lvl = 1 → (h.rel = true → enters 1) ∧ (h.rel = false → enters 2)) ∧
      (∀ k, t = .stake k → h.lvl = 2 → s.completes c (fun d => d.get (STK_CORE_CTL_BUSY k) = 1 ∧ d.get (STK_RST_INFO_REASON k) = 1 ∧
        d.get (STK_RST_INFO_CODE k) = code ∧ d.get (STK_RST_PC_PC k 1) = h.cr 0x210 % 2 ^ 64 ∧ d.get (STK_RST_PC_PC k 2) = h.cr 0x218 % 2 ^ 64))
    h.pend = [] →
    (i.legal (kindOf t) = false → faults 0x01 0 own) ∧
    (i.noSlot = true → h.slot = true → faults 0x01 0 own) ∧
    (s.dev.poised t i d1 →
      (i.cls = 15 → cx.user = true → i.rd ∈ [6, 8, 9, 10, 11] → faults 0x02 0 own) ∧
      (i.cls = 4 → i.fn / 4 = 6 → cx.user = true → i.rd = 2 ∨ 8 ≤ i.rd → faults 0x02 0 own) ∧
      (i.cls = 15 → i.rd = 4 ∨ i.rd = 5 → ctlReg (kindOf t) h.lvl (bit (h.cr 0x320) 1) n = none → faults 0x01 0 own) ∧
      (∀ r, ctlReg (kindOf t) h.lvl (bit (h.cr 0x320) 1) n = some r → i.cls = 15 →
        (i.rd = 4 → cx.user = true → r.ur = false → faults 0x02 0 own) ∧
        (i.rd = 5 → r.wr = false → faults 0x01 0 own) ∧
        (i.rd = 5 → r.wr = true → cx.user = true → r.uw = false → faults 0x02 0 own)) ∧
      (i.cls = 15 → i.rd = 1 → faults 0x03 i.arg (wadd 64 h.pc 2, wadd 64 (wadd 64 h.pc 2) (d1.peekLen cx (wadd 64 h.pc 2)))) ∧
      (i.cls = 15 → i.rd = 12 → d1.get (DBG_CORE_CTL_BRKHALT (dbgCore t)) = 0 → faults 0x04 (i.arg % 4096) own) ∧
      (i.cls = 15 → i.rd = 10 → cx.user = false → h.rete = none → faults 0x01 0 own) ∧
      (i.cls = 12 → i.fn % 8 = 3 → badDigits 16 (h.gr i.ra) = true → faults 0x08 0 own) ∧
      (i.cls = 12 → i.fn % 8 ≤ 1 → badDigits 16 (h.gr i.ra) = true ∨ badDigits 16 (h.gr i.rb) = true → faults 0x08 0 own))

/-! ### Chapter 10, instruction by instruction: where each mnemonic of Tables 10-6 to 10-8 and 12-7 completes -/

/-- The integer instructions by name. Wherever the instruction is about to execute: ADD, SUB, AND, OR, XOR, ANDN, SHL, SHR, SAR, ROL, MIN, MAX, MINU,
MAXU, SEXTW, SEXTP, ZEXTW, ZEXTP, CLZ and POPC write RD; GETP, SETP; the immediate load; EQ, NE, LT, GE, LTU, GEU, ANY and NONE, and PAND, POR, PXOR
and PANDN, write PT under MODE; MUL, MULU, MAC, MACU, DIV and DIVU write mh:ml; MFMH, MFML, MTMH, MTML; DADD, DSUB and DTOB of decimal operands,
DCHK and BTOD of any. Nothing else changes but the PC. -/
def Sys2Proof.Claims.IntegerRows : Prop :=
  ∀ (s : State) (t : ThreadId) (a : PReg) (b : PArg), s.dev.awake = true →
    (∀ x ∈ ([(.add t a, 0), (.sub t a, 1), (.and t a, 2), (.or t a, 3), (.xor t a, 4), (.andn t a, 5), (.shl t a, 6), (.shr t a, 7), (.sar t a, 8),
        (.rol t a, 9), (.min t a, 10), (.max t a, 11), (.minu t a, 12), (.maxu t a, 13), (.sextw t a, 14), (.sextp t a, 15), (.zextw t a, 16),
        (.zextp t a, 17), (.clz t a, 18), (.popc t a, 19)] : List (Instr × Nat)),
      let i := ofReg a 0 x.2; s.retires x.1 t i (fun h => h.setG i.rd (alu i.x x.2 (h.gr i.ra) (i.opB h)))) ∧
    (let i := ofReg a 0 22;
      s.retires (.getp t a) t i (fun h => h.setG i.rd h.preds)) ∧
    (let i := ofReg a 0 23;
      s.retires (.setp t a) t i (fun h => { h with p := h.gr i.ra / 2 % 128 * 2 })) ∧
    (let i := ofArg b 1;
      s.retires (.immediateLoad t b) t i (fun h => h.setG i.rd
        (if i.x then (i.arg + 65536 * i.imm) * 2 ^ 32 + h.gr i.rd % 2 ^ 32 else if i.l then sext 32 (i.arg + 65536 * i.imm) else sext 16 i.arg))) ∧
    (∀ x ∈ ([(.cmpEq t a, 0), (.cmpNe t a, 1), (.cmpLt t a, 2), (.cmpGe t a, 3), (.cmpLtu t a, 4), (.cmpGeu t a, 5), (.cmpAny t a, 6),
        (.cmpNone t a, 7)] : List (Instr × Nat)),
      let i := ofReg a 3 x.2; s.retires x.1 t i (fun h => h.cmpTo i.pt i.mode (cmpOp i.x x.2 (h.gr i.ra) (i.opB h)))) ∧
    (∀ x ∈ ([(.pand t a, 16), (.por t a, 17), (.pxor t a, 18), (.pandn t a, 19)] : List (Instr × Nat)),
      let i := ofReg a 3 x.2; s.retires x.1 t i (fun h => h.cmpTo i.pt i.mode (predOp x.2 (h.pr i.ra) (h.pr i.rb)))) ∧
    (∀ x ∈ ([(.mul t a, 0), (.mulu t a, 1), (.mac t a, 2), (.macu t a, 3), (.div t a, 4), (.divu t a, 5)] : List (Instr × Nat)),
      let i := ofReg a 2 x.2; s.retires x.1 t i (fun h => h.mulTo (kindOf t) (mulDiv x.2 (h.gr i.ra) (h.gr i.rb) (h.mh * 2 ^ 64 + h.ml)))) ∧
    s.retires (.mfmh t a) t (ofReg a 2 6) (fun h => h.setG a.rd.toNat h.mh) ∧
    s.retires (.mfml t a) t (ofReg a 2 7) (fun h => h.setG a.rd.toNat h.ml) ∧
    s.retires (.mtmh t a) t (ofReg a 2 8) (fun h => { h with mh := h.gr a.ra.toNat }) ∧
    s.retires (.mtml t a) t (ofReg a 2 9) (fun h => { h with ml := h.gr a.ra.toNat }) ∧
    (let pt := a.sub.toNat;
      s.retires (.dchk t a) t (ofReg a 12 (pt * 8 + 2)) (fun h => h.setP pt (allDigits 16 (h.gr a.ra.toNat))) ∧
      s.retires (.btod t a) t (ofReg a 12 (pt * 8 + 4)) (fun h =>
        (h.setG a.rd.toNat (toBcd 16 (h.gr a.ra.toNat % 10 ^ 16))).setP pt (decide (10 ^ 16 ≤ h.gr a.ra.toNat))) ∧
      ∀ d1,
        let h := d1.th (tid t)
        let cin := b2n (a.x && h.pr pt)
        badDigits 16 (h.gr a.ra.toNat) = false →
        (s.dev.poised t (ofReg a 12 (pt * 8 + 3)) d1 →
          s.retiresFrom (.dtob t a) t (ofReg a 12 (pt * 8 + 3)) d1 (fun h => h.setG a.rd.toNat (bcdVal 16 (h.gr a.ra.toNat)))) ∧
        (badDigits 16 (h.gr a.rb.toNat) = false →
          let sum := digAdd 16 (h.gr a.ra.toNat) (h.gr a.rb.toNat) cin
          let diff := digSub 16 (h.gr a.ra.toNat) (h.gr a.rb.toNat) cin
          (s.dev.poised t (ofReg a 12 (pt * 8 + 0)) d1 →
            s.retiresFrom (.dadd t a) t (ofReg a 12 (pt * 8 + 0)) d1 (fun h => (h.setG a.rd.toNat sum.1).setP pt sum.2)) ∧
          (s.dev.poised t (ofReg a 12 (pt * 8 + 1)) d1 →
            s.retiresFrom (.dsub t a) t (ofReg a 12 (pt * 8 + 1)) d1 (fun h => (h.setG a.rd.toNat diff.1).setP pt diff.2))))

/-- The integer instructions of Plait, class by class and by name, and the operations under them (R236, R238, R239, R244). -/
def Obligations.PlaitIntegers : Prop := Claims.PlaitInteger ∧ Claims.IntegerArithmetic ∧ Claims.IntegerRows

/-- The FP instructions by name: FADD, FSUB, FMUL, FDIV, FSQRT, FMA, FMS, FNMA, FMIN and FMAX; FABS, FNEG, FMOV; FCVT; FCVTI, FCVTIU, FCVTIT; FCVTF,
FCVTFU; FMVFG, FMVGF; FEQ, FLT, FLE and FUN. -/
def Sys2Proof.Claims.FloatRows : Prop :=
  ∀ (s : State) (t : ThreadId) (a : PReg), s.dev.awake = true →
    let f := fmtOf a.x
    let rd := a.rd.toNat
    let ra := a.ra.toNat
    let rb := a.rb.toNat
    let cut := fun (v : Nat) => if a.x then v else v % 2 ^ 32
    let top := if a.x then 2 ^ 63 else 2 ^ 31
    let rm := fun (h : Thr) => bits (h.cr 0x010) 1 0
    let ftz := fun (h : Thr) => bit (h.cr 0x010) 2
    let one := fun (h : Thr) => f.unpack (ftz h) (cut (h.fr ra))
    let toF := fun (h : Thr) (r : Nat × Nat) => (h.setF rd r.1).fpRaise (kindOf t) h.pc r.2
    let toG := fun (h : Thr) (r : Nat × Nat) => (h.setG rd r.1).fpRaise (kindOf t) h.pc r.2
    (∀ x ∈ ([(.fadd t a, 0), (.fsub t a, 1), (.fmul t a, 2), (.fdiv t a, 3), (.fsqrt t a, 4), (.fma t a, 5), (.fms t a, 6), (.fnma t a, 7),
        (.fmin t a, 8), (.fmax t a, 9)] : List (Instr × Nat)),
      s.retires x.1 t (ofReg a 13 x.2) (fun h => toF h (fpArith x.2 a.x (rm h) (ftz h) (cut (h.fr ra)) (cut (h.fr rb)) (cut (h.fr rd))))) ∧
    s.retires (.fabs t a) t (ofReg a 13 10) (fun h => h.setF rd (cut (h.fr ra) % top)) ∧
    s.retires (.fneg t a) t (ofReg a 13 11) (fun h => h.setF rd (cut (h.fr ra) ^^^ top)) ∧
    s.retires (.fmov t a) t (ofReg a 13 12) (fun h => h.setF rd (cut (h.fr ra))) ∧
    s.retires (.fcvt t a) t (ofReg a 13 16) (fun h => toF h (f.convert (fmtOf !a.x) (rm h) (ftz h)
      ((fmtOf !a.x).unpack (ftz h) (if a.x then h.fr ra % 2 ^ 32 else h.fr ra)))) ∧
    s.retires (.fcvti t a) t (ofReg a 13 17) (fun h => toG h ((one h).toInt (rm h) true)) ∧
    s.retires (.fcvtiu t a) t (ofReg a 13 18) (fun h => toG h ((one h).toInt (rm h) false)) ∧
    s.retires (.fcvtit t a) t (ofReg a 13 19) (fun h => toG h ((one h).toInt 1 true)) ∧
    s.retires (.fcvtf t a) t (ofReg a 13 20) (fun h => toF h (f.ofInt (rm h) (ftz h) (sgn 64 (h.gr ra)))) ∧
    s.retires (.fcvtfu t a) t (ofReg a 13 21) (fun h => toF h (f.ofInt (rm h) (ftz h) (h.gr ra : Nat))) ∧
    s.retires (.fmvfg t a) t (ofReg a 13 22) (fun h => h.setG rd (cut (h.fr ra))) ∧
    s.retires (.fmvgf t a) t (ofReg a 13 23) (fun h => h.setF rd (cut (h.gr ra))) ∧
    (∀ x ∈ ([(.feq t a, 24), (.flt t a, 25), (.fle t a, 26), (.funord t a, 27)] : List (Instr × Nat)),
      s.retires x.1 t (ofReg a 13 x.2) (fun h =>
        let r := fpCompare x.2 a.x (ftz h) (cut (h.fr ra)) (cut (h.fr rb))
        (h.cmpTo (rd % 8) (rd / 8) r.1).fpRaise (kindOf t) h.pc r.2))

/-- The floating-point instructions of Plait (R245, R246, R268). -/
def Obligations.PlaitFloat : Prop := Claims.PlaitFloat ∧ Claims.FloatRows

/-- Of the device d the words va … va + n − 1 of engine e's address space became those of w, and nothing else of its storage, no memory, no register
and not thread k's record changed. -/
def Sys2Proof.Machine.Dev.wroteWords (d u : Dev) (k e va n w : Nat) : Prop :=
  (∀ j, j < n → u.engWord e (va + j) = w / 65536 ^ j % 65536) ∧
  (∀ g y, y < 2 ^ 24 → (∀ j, j < n → engPlace g y ≠ engPlace e (va + j)) → u.engWord g y = d.engWord g y) ∧
  u.th k = d.th k ∧ u.mem = d.mem ∧ u.regs = d.regs ∧ u.out = d.out

/-- Of the device d bit n of engine e's bit space became b, and nothing else changed. -/
def Sys2Proof.Machine.Dev.wroteBit (d u : Dev) (e n : Nat) (b : Bool) : Prop :=
  Tab.get false u.thr.bstore (e * 65536 + n) = b ∧
  (∀ y, y ≠ e * 65536 + n → Tab.get false u.thr.bstore y = Tab.get false d.thr.bstore y) ∧
  u = { d with thr := { d.thr with bstore := u.thr.bstore } }

/-- Loads, stores, bits and atomics by name, where a strand engine runs its stock program and the address lies in its space: LD, LDU, LDF and the short
absolute load write the words loaded to the register; ST, STF and the short absolute store write the register's words; PREF does nothing; BTST and
BLD read a bit, BSET, BCLR and BINV set, clear and invert it and give what it was, BST stores RD's; LDRES loads and reserves; STCOM stores under the
reservation alone, which it ends; ASWP, AADD, ACAS, AOR and AAND write their result and give what was there (R225, R237, R240, R242, R243). -/
def Sys2Proof.Claims.MemoryRows : Prop :=
  ∀ (s : State) (e : Fin 512) (x : Fin 4) (a : PReg) (b : PArg) (k : Fin 3) (d1 : Dev), s.dev.awake = true →
    let t := ThreadId.engine e x
    d1.invOf t = none →
    let h := d1.th (tid t)
    let sz := a.sub.toNat % 4
    let n := szWords sz
    let val := fun (va n : Nat) => (List.range n).foldl (fun v j => v + d1.engWord e (va + j) * 65536 ^ j) 0
    let stores := fun (c : Instr) (i : PIns) (va n w : Nat) (f : Thr → Thr) => ∃ u, d1.wroteWords u (tid t) e va n w ∧ s.retiresFrom c t i u f
    let goes := fun (i : PIns) (P : Nat → Prop) => s.dev.poised t i d1 → i.ea h n + n ≤ 2 ^ 24 → P (i.ea h n)
    let short := fun (i : PIns) (P : Nat → Prop) => s.dev.poised t i d1 → i.sha h + szWords k ≤ 2 ^ 24 → P (i.sha h)
    let bitAt := fun (i : PIns) (P : Nat → Prop) => s.dev.poised t i d1 → i.ea h 1 ≤ 65535 → P (i.ea h 1)
    let was := fun (y : Nat) => Tab.get false d1.thr.bstore (e * 65536 + y)
    let sets := fun (c : Instr) (i : PIns) (y : Nat) (v : Bool) (f : Thr → Thr) => ∃ u, d1.wroteBit u e y v ∧ s.retiresFrom c t i u f
    let atom := fun (op : Nat) (P : PIns → Nat → Nat → Prop) => let i := ofReg a 14 (4 * op + sz); let va := h.gr i.ra;
      s.dev.poised t i d1 → va + n ≤ 2 ^ 24 → va % n = 0 → P i va (h.gr i.rb % 2 ^ (16 * n))
    let old := fun (va : Nat) (h : Thr) => h.setG a.rd.toNat (sext (16 * n) (val va n))
    (let i := ofReg a 4 (0 + sz);
      goes i (fun va => s.retiresFrom (.ld t a) t i d1 (fun h => h.setG i.rd (sext (16 * n) (val va n))))) ∧
    (let i := ofReg a 4 (4 + sz);
      goes i (fun va => s.retiresFrom (.ldu t a) t i d1 (fun h => h.setG i.rd (val va n)))) ∧
    (let i := ofReg a 4 (12 + sz);
      goes i (fun va => s.retiresFrom (.ldf t a) t i d1 (fun h => h.setF i.rd (val va n)))) ∧
    (let i := ofReg a 4 (8 + sz);
      goes i (fun va => stores (.st t a) i va n (h.gr i.rd) id)) ∧
    (let i := ofReg a 4 (16 + sz);
      goes i (fun va => stores (.stf t a) i va n (h.fr i.rd) id)) ∧
    (let i := ofReg a 4 (20 + sz);
      s.dev.poised t i d1 → s.retiresFrom (.pref t a) t i d1 id) ∧
    (let i : PIns := { ofArg b (5 + k) with x := false };
      short i (fun va => s.retiresFrom (.shortAbsoluteLoad t k b) t i d1 (fun h => h.setG i.rd (sext (16 * szWords k) (val va (szWords k)))))) ∧
    (let i : PIns := { ofArg b (5 + k) with x := true };
      short i (fun va => stores (.shortAbsoluteStore t k b) i va (szWords k) (h.gr i.rd) id)) ∧
    (let i := ofReg a 8 0;
      bitAt i (fun y => s.retiresFrom (.btst t a) t i d1 (fun h => h.cmpTo i.pt i.mode (was y)))) ∧
    (let i := ofReg a 8 1;
      bitAt i (fun y => sets (.bset t a) i y true (fun h => h.setP i.pt (was y)))) ∧
    (let i := ofReg a 8 2;
      bitAt i (fun y => sets (.bclr t a) i y false (fun h => h.setP i.pt (was y)))) ∧
    (let i := ofReg a 8 3;
      bitAt i (fun y => sets (.binv t a) i y (!was y) (fun h => h.setP i.pt (was y)))) ∧
    (let i := ofReg a 8 4;
      bitAt i (fun y => s.retiresFrom (.bld t a) t i d1 (fun h => h.setG i.rd (b2n (was y))))) ∧
    (let i := ofReg a 8 5;
      bitAt i (fun y => sets (.bst t a) i y (bit (h.gr i.rd) 0) id)) ∧
    atom 0 (fun i va _ => s.retiresFrom (.ldres t a) t i d1 (fun h => old va { h with resv := some (engPlace e va, n) })) ∧
    atom 1 (fun i va w =>
      (h.resv = some (engPlace e va, n) → stores (.stcom t a) i va n w (fun h => { h.setP i.pt true with resv := none })) ∧
      (h.resv ≠ some (engPlace e va, n) → s.retiresFrom (.stcom t a) t i d1 (fun h => { h.setP i.pt false with resv := none }))) ∧
    atom 2 (fun i va w => stores (.aswp t a) i va n w (old va)) ∧
    atom 3 (fun i va w => stores (.aadd t a) i va n ((val va n + w) % 2 ^ (16 * n)) (old va)) ∧
    atom 4 (fun i va w =>
      (val va n = h.gr i.rd % 2 ^ (16 * n) → stores (.acas t a) i va n w (old va)) ∧
      (val va n ≠ h.gr i.rd % 2 ^ (16 * n) → s.retiresFrom (.acas t a) t i d1 (old va))) ∧
    atom 5 (fun i va w => stores (.aor t a) i va n (val va n ||| w) (old va)) ∧
    atom 6 (fun i va w => stores (.aand t a) i va n (val va n &&& w) (old va))

/-- The cache operations by name. On a strand engine, whose storage is not cacheable, DCLEAN, DFLUSH, DINV and ICINV do nothing; the handle core's
leave no dirty copy of the line (DCLEAN), no copy in any L1D and L2 (DFLUSH, DINV), none in any L1I and fetch buffer (ICINV), and zeros throughout
the line (DZERO). With no store buffered anywhere, TLBI.VA, TLBI.ASID and TLBI.ALL leave no core a translation they name; off a stake core
TLBI.LOCAL, L1DINV.ALL, L2CLEAN.ALL and L2FLUSH.ALL do nothing, on one they leave it no translation, no L1D line, no dirty line and no line of its
cluster's L2 (R281, R288, R291, Table 12-7). -/
def Sys2Proof.Claims.CacheRows : Prop :=
  ∀ (s : State) (t : ThreadId) (a : PReg) (d1 : Dev), s.dev.awake = true →
    let h := d1.th (tid t)
    let at_ := fun (op : Nat) => (ofCache a op).ea h 1
    let cx := fun (op : Nat) => (s.dev.entering t (ofCache a op).env).2
    let may := fun (op : Nat) => s.dev.poised t (ofCache a op) d1 ∧ at_ op < 2 ^ (kindOf t).eaw ∧ (cx op).user = false
    let does := fun (c : Instr) (op : Nat) => s.retiresFrom c t (ofCache a op) d1 id
    (kindOf t = .engine →
      ∀ x ∈ ([(.dclean t a, 0), (.dflush t a, 1), (.dinv t a, 2), (.icinv t a, 3)] : List (Instr × Nat)), may x.2 → does x.1 x.2) ∧
    (kindOf t ≠ .stake →
      ∀ x ∈ ([(.tlbiLocal t a, 11), (.l1dinvAll t a, 16), (.l2cleanAll t a, 17), (.l2flushAll t a, 18)] : List (Instr × Nat)),
        may x.2 → does x.1 x.2) ∧
    (t = .handle →
      let leaves := fun (c : Instr) (op : Nat) (P : Nat → Dev → Prop) => may op → isControl (at_ op) = false →
        ∃ u, s.retiresFrom c t (ofCache a op) u id ∧ P (at_ op / 32) u
      let gone := fun (ln : Nat) (u : Dev) =>
        (∀ l, Tab.find d1.mem.l2 ln = some l → l.holders ≠ [] → (∀ x ∈ l.holders, x.1 < 12) → Tab.find u.mem.l2 ln = none) ∧
        ∀ c, c < 48 → Tab.find u.mem.l1d (l1Key c ln) = none
      leaves (.dclean t a) 0 (fun ln u => ∀ l, Tab.find u.mem.l2 ln = some l → l.dirty = false) ∧
      leaves (.dflush t a) 1 gone ∧ leaves (.dinv t a) 2 gone ∧
      leaves (.icinv t a) 3 (fun ln u => ∀ c, c < 48 → Tab.find u.mem.l1i (l1Key c ln) = none ∧ ∀ x ∈ Tab.get [] u.mem.fbuf c, x.1 ≠ ln) ∧
      (let base := at_ 4 / 32 * 32;
        may 4 → inControl base 32 = false → d1.hpuStops 2 base 32 = false → base + 32 ≤ d1.dramTop → d1.memOk .handle base 32 true = true →
        (∀ l, Tab.find d1.mem.l2 (at_ 4 / 32) = some l → l.data.length = 64) →
        ∃ u, s.retiresFrom (.dzero t a) t (ofCache a 4) u id ∧ ∀ j, j < 64 → u.memByte (64 * (at_ 4 / 32) + j) = 0)) ∧
    (d1.mem.buf = [] →
      let leaves := fun (c : Instr) (op : Nat) (P : Tab (List TlbEnt) → Prop) => may op →
        s.completes c (fun d => (h.advance h.pc (ofCache a op).len .next).goesTo (d.th (tid t)) ∧ d1.threadOnly d (tid t) ∧ P d.mem.tlb)
      let noneIs := fun (test : TlbEnt → Bool) (tab : Tab (List TlbEnt)) => ∀ x ∈ tab, x.1 < 48 → ∀ y ∈ x.2, test y = false
      leaves (.tlbiVa t a) 8 (noneIs (fun y => y.covers (at_ 8) (ctlGet (cx 8).ctl 0x102))) ∧
      leaves (.tlbiAsid t a) 9 (noneIs (fun y => y.asid == at_ 9 % 65536 && !bit y.pte 6)) ∧
      leaves (.tlbiAll t a) 10 (noneIs (fun _ => true)) ∧
      (∀ c : Fin 48, t = .stake c →
        leaves (.tlbiLocal t a) 11 (fun tab => ∀ x ∈ tab, x.1 ≠ c) ∧
        (let goes := fun (i : Instr) (op : Nat) (P : Dev → Prop) => may op → ∃ u, s.retiresFrom i t (ofCache a op) u id ∧ P u;
          let held := fun (l : L2Line) => l.holders.any (fun x => x.1 == c.val / 4);
          goes (.l1dinvAll t a) 16 (fun u => ∀ x ∈ u.mem.l1d, x.1 / 2 ^ 40 ≠ c) ∧
          goes (.l2cleanAll t a) 17 (fun u => ∀ ln l, Tab.find u.mem.l2 ln = some l → held l = true → l.dirty = false) ∧
          goes (.l2flushAll t a) 18 (fun u => ∀ ln l, Tab.find u.mem.l2 ln = some l → held l = false))))

/-- Loads, stores, bits, atomics and cache operations of Plait (R225, R237, R240, R242, R243, R281, R288, R291). -/
def Obligations.PlaitMemory : Prop := Claims.PlaitMemory ∧ Claims.MemoryRows ∧ Claims.CacheRows

/-- One element of each long instruction by name, where a strand engine runs its stock program and the element's words lie in its space: BMOVE, BMOVED,
BFILL, BCMP, SIGDI, SIGDH, DADDM, DSUBM (R241, Table 10-10). -/
def Sys2Proof.Claims.LongRows : Prop :=
  ∀ (s : State) (e : Fin 512) (x : Fin 4) (p : PReg) (op : Nat) (d1 : Dev), s.dev.awake = true → op < 8 →
    let t := ThreadId.engine e x
    let i := ofReg p 11 (p.sub.toNat * 8 + op)
    s.dev.poised t i d1 → d1.invOf t = none →
    let h := d1.th (tid t)
    let a := h.gr i.rd
    let b := h.gr i.ra
    let top := bit (h.gr i.rb) 63
    let v := d1.engWord e a
    let w := d1.engWord e b
    h.gr i.rb % 2 ^ 32 ≠ 0 → a < 2 ^ 24 → (b < 2 ^ 24 ∨ op = 2) →
    let ended := fun (h : Thr) => let y : Thr := if op = 3 then h.setP (i.fn / 8) true else h
      { y with inLong := false, mulq := h.mulq ++ (h.acc.map (fun m => [(4, m)])).getD [], acc := none }
    let after := fun (c : Instr) (d : Dev) (f : Thr → Thr) =>
      ((f (d.th (tid t))).gr i.rb % 2 ^ 32 = 0 → s.retiresFrom c t i d (fun h => ended (f h))) ∧
      ((f (d.th (tid t))).gr i.rb % 2 ^ 32 ≠ 0 →
        s.completes c (fun x => ({ f (d.th (tid t)) with inLong := true } : Thr).goesTo (x.th (tid t)) ∧ d.threadOnly x (tid t)))
    let stores := fun (c : Instr) (w : Nat) (f : Thr → Thr) => ∃ u, d1.wroteWords u (tid t) e a 1 w ∧ after c u f
    let sums := fun (c : Instr) (x : Int) => ∃ fv, after c d1 (fun h =>
      { h.elemDone i 1 1 top with acc := some (fv, wrapI 64 ((h.acc.getD (0, h.ml)).2 + x)) })
    let digits := badDigits 4 v = false ∧ badDigits 4 w = false
    (op = 0 → stores (.bmove t p) w (fun h => h.elemDone i 1 1 top)) ∧
    (op = 1 → stores (.bmoved t p) w (fun h => h.elemDone i (2 ^ 64 - 1) (2 ^ 64 - 1) top)) ∧
    (op = 2 → stores (.bfill t p) b (fun h => h.elemDone i 1 0 top)) ∧
    (op = 3 → (v = w → after (.bcmp t p) d1 (fun h => h.elemDone i 1 1 top)) ∧
      (v ≠ w → s.retiresFrom (.bcmp t p) t i d1 (fun h => { h.setP (i.fn / 8) false with inLong := false }))) ∧
    (op = 4 → sums (.sigdi t p) (dotWord v w)) ∧
    (op = 5 → sums (.sigdh t p) (popc 16 (v ^^^ w) : Nat)) ∧
    (op = 6 → digits → let r := digAdd 4 v w (b2n top);
      stores (.daddm t p) r.1 (fun h => h.elemDone i 1 1 r.2)) ∧
    (op = 7 → digits → let r := digSub 4 v w (b2n top);
      stores (.dsubm t p) r.1 (fun h => h.elemDone i 1 1 r.2))

/-- The long instructions of Plait (R241). -/
def Obligations.PlaitLong : Prop := Claims.PlaitLong ∧ Claims.LongRows

/-- BR and JR by name: wherever one is about to execute it makes its target the NPC behind its slot (R233). -/
def Sys2Proof.Claims.BranchRows : Prop :=
  ∀ (s : State) (t : ThreadId) (a : PReg) (b : PArg) (d1 : Dev), s.dev.awake = true →
    let h := d1.th (tid t)
    let jumps := fun (c : Instr) (i : PIns) (target : Nat) => s.dev.poised t i d1 →
      s.completes c (fun d => (h.advance h.pc i.len (.branch true target i.x i.rd)).goesTo (d.th (tid t)) ∧ d1.threadOnly d (tid t))
    jumps (.br t b) (ofArg b 9) (wadd 64 h.pc (ofArg b 9).disp) ∧ jumps (.jr t a) (ofReg a 10 0) (h.gr a.ra.toNat)

/-- Branches and the guard of Plait (R232, R233, R235). -/
def Obligations.PlaitBranches : Prop := Claims.PlaitBranches ∧ Claims.BranchRows

/-- The system instructions by name: NOP, BARP, FENCE.L and FLUSHP; SYNC; FENCE.S, FENCE and FENCE.IO; MFC and MTC of a register that may be read or
written; HOLD, RELEASE, WAIT, RETE; TRAP at level 0; BRK with BRKHALT and, at level 0, without (R228, R249, R257, R262, R263, R264, R267, R293). -/
def Sys2Proof.Claims.SystemRows : Prop :=
  ∀ (s : State) (t : ThreadId) (a : PArg) (d1 : Dev), s.dev.awake = true →
    let h := d1.th (tid t)
    let sys := fun (c : Instr) (sub : Nat) (f : Thr → Thr) => s.dev.poised t (ofSys a sub) d1 → s.retiresFrom c t (ofSys a sub) d1 f
    let fence := fun (c : Instr) (n : Nat) => let i : PIns := { ofSys a 3 with ra := n, rb := 0, fn := 0 }; s.dev.poised t i d1 → s.retiresFrom c t i (if kindOf t = .stake ∧ n ≠ 0 then
        d1.drainAll (s.dev.entering t i.env).2.core (s.dev.entering t i.env).2.env else d1) id
    let user := (s.dev.entering t (ofSys a 0).env).2.user
    let cx := (s.dev.entering t (ofSys a 0).env).2
    let arg := (ofSys a 0).arg
    let n := arg % 1024
    let reg := ctlReg (kindOf t) h.lvl (bit (h.cr 0x320) 1) n
    let enters := fun (c : Instr) (sub code info : Nat) (pair : Nat × Nat) => s.dev.poised t (ofSys a sub) d1 → kindOf t ≠ .engine → h.pend = [] →
      h.lvl = 0 → s.completes c (fun d => h.entered (d.th (tid t)) 1 code 0 info pair ∧ ∀ j, j ≠ tid t → d.th j = d1.th j)
    sys (.nop t a) 0 id ∧ sys (.barp t a) 7 id ∧ sys (.sync t a) 2 Thr.sync ∧ (user = false → sys (.flushp t a) 6 id) ∧
    fence (.fenceL t a) 0 ∧ fence (.fenceS t a) 1 ∧ fence (.fence t a) 2 ∧ fence (.fenceIo t a) 3 ∧
    (∀ r, reg = some r → (user = false ∨ r.ur = true) → s.dev.poised t (ofSys a 4) d1 →
      s.retiresFrom (.mfc t a) t (ofSys a 4) (d1.mfcVal cx n).1 (fun h => h.setG (arg / 1024) (d1.mfcVal cx n).2)) ∧
    (∀ r, reg = some r → r.wr = true → (user = false ∨ r.uw = true) → s.dev.poised t (ofSys a 5) d1 →
      s.retiresFrom (.mtc t a) t (ofSys a 5) (d1.mtcDo cx n (h.gr (arg / 1024)) r.sync) id) ∧
    (user = false →
      sys (.hold t a) 8 (fun h => { h.setCr 0 (h.cr 0 ||| 32) with hold := if h.held then min h.hold arg else arg }) ∧
      sys (.release t a) 9 (fun h => if h.lvl = 1 then h.setCr 0 (h.cr 0 ||| 16) else h) ∧
      sys (.wait t a) 11 (fun h => { h.setCr 0 (h.cr 0 - (if h.held then 32 else 0)) with hold := 0, waiting := true }) ∧
      (∀ x, h.rete = some x → kindOf t ≠ .engine → s.dev.poised t (ofSys a 10) d1 →
        s.completes (.rete t a) (fun d => x.goesTo (d.th (tid t)) ∧ d1.threadOnly d (tid t)))) ∧
    enters (.trap t a) 1 0x03 arg (wadd 64 h.pc 2, wadd 64 (wadd 64 h.pc 2) (d1.peekLen cx (wadd 64 h.pc 2))) ∧
    (kindOf t ≠ .engine →
      (d1.get (DBG_CORE_CTL_BRKHALT (dbgCore t)) = 1 → sys (.brk t a) 12 (fun h => { h with haltReq := some (h.haltReq.getD (3, 0)) })) ∧
      (d1.get (DBG_CORE_CTL_BRKHALT (dbgCore t)) = 0 →
        enters (.brk t a) 12 0x04 (arg % 4096) (h.pc, h.npc.getD (wadd 64 h.pc (ofSys a 12).len)))) ∧
    (∀ e x, t = .engine e x → d1.get (DBG_ENG_CTL_BRKHALT e) = 1 → s.dev.poised t (ofSys a 12) d1 →
      s.completes (.brk t a) (fun d => d.get (DBG_ENG_STAT_HALTED e) = 1 ∧ d.get (DBG_ENG_STAT_CAUSE e) = 3 ∧
        (d.th (tid t)).pc = (h.advance h.pc (ofSys a 12).len .next).pc))

/-- The system instructions of Plait (R228, R249, R263, R264, R267, R293). -/
def Obligations.PlaitSystem : Prop := Claims.PlaitSystem ∧ Claims.SystemRows

/-! ### Chapters 11 and 12: stake cores, clusters and DRAM -/

/-- Asynchronous requests of a running stake core, with no marked write waiting and no STEP in progress, are taken at the boundary in the order
machine check, FP trap, halt, interrupt: a machine check at level 0 or after RELEASE enters level 1, else from level 1 level 2; an FP trap and
the lowest-numbered enabled interrupt enter level 1 outside a HOLD window, the interrupt with IE set; the pair saved is the boundary's. With
nothing pending they do nothing. A HOLD window that expires clears STATUS.HOLD and is counted (R261, R262, R267, R268, R269). -/
def Sys2Proof.Claims.CoreRequests : Prop :=
  ∀ (s : State) (c : Core), s.dev.awake = true → s.dev.coreUp c = true →
    let d := s.dev
    let k := 4096 + c.val
    let x := d.ctxFor io (.stake c) false {}
    let b := x.1.boundary x.2
    let h := b.1.th k
    let low := h.lvl = 0 ∨ h.lvl = 1 ∧ h.rel = true
    let takes := fun (i : Instr) (l code addr info : Nat) (P : Thr → Prop) => s.completes i (fun t =>
      h.entered (t.th k) l code addr info b.2 ∧ P (t.th k) ∧ t.get (STK_CNT_COUNT c (l - 1)) = satw 48 (d.get (STK_CNT_COUNT c (l - 1)) + 1) ∧
      (∀ j, j ≠ k → t.th j = d.th j) ∧ (∀ a, t.memByte a = d.memByte a) ∧
      d.onlyRegs t [STK_CNT_COUNT c 0, STK_CNT_COUNT c 1, STK_CNT_COUNT c 3])
    ((d.th k).held = true → s.becomes (.holdWindowExpire c)
      ((d.updThr k (fun t => { t.setCr 0 (t.cr 0 - 32) with hold := 0, fpt := t.fpt.map (fun x => (x.1, x.2.1, 256)) })).inc
        (STK_CNT_COUNT c 2))) ∧
    ((d.th k).held = false → s.becomes (.holdWindowExpire c) d) ∧
    ((d.th k).pend = [] → h.stepping = 0 →
      (∀ r v a, h.mc = some (r, v, a) →
        (low → takes (.machineCheckTake c) 1 0x1C (a % 2 ^ 64) (r + v * 65536) (fun y => y.mc = none)) ∧
        (h.lvl = 1 → h.rel = false → takes (.machineCheckTake c) 2 0x1C (a % 2 ^ 64) (r + v * 65536) (fun y => y.mc = none)) ∧
        (low → s.becomes (.fpTrapTake c) d ∧ s.becomes (.interruptTake c) d)) ∧
      (h.mc = none → s.becomes (.machineCheckTake c) d ∧
        (∀ pc u n, h.fpt = some (pc, u, n) → low → h.held = false →
          takes (.fpTrapTake c) 1 0x10 (pc % 2 ^ 64) u (fun y => y.fpt = none) ∧ s.becomes (.interruptTake c) d) ∧
        (h.fpt = none → s.becomes (.fpTrapTake c) d ∧
          (∀ n, h.haltReq = none → h.irqNow = some n → low → h.held = false → bit (h.cr 0) 1 = true →
            takes (.interruptTake c) 1 0x18 0 n (fun y => y.cr 0x203 = h.cr 0x203)) ∧
          (h.irqNow = none → s.becomes (.interruptTake c) d))))

/-- Control of stake cores: RESET begins a core reset with REASON 3 and its record (R265); its end drains the core's stores, puts every
register at its reset value and leaves STATE 0; START, and AUTO after a reset, begin the core at its vector (R266), halted where a HALT is
pending (R368); a busy core, one not in reset, and one whose cluster is not in service refuse or ignore them (R271); STK_SWI raises sources 48 to
55 (R269); a store that gets no response is lost with a machine check pending (R295). -/
def Sys2Proof.Claims.CoreControl : Prop :=
  ∀ (s : State) (r : Requester) (c : Core), s.dev.awake = true →
    let d := s.dev
    let k := 4096 + c.val
    let starts := (d.updThr k (fun t => { t with pc := d.get (STK_RVEC_ADDR c), npc := none, autoDue := false })).put (STK_CORE_CTL_STATE c) 1
    let others := fun (t : Dev) => ∀ j, j ≠ k → t.th j = d.th j
    (d.coreDead c = true → s.becomes (.stakeReset c) d ∧
      s.becomes (.stakeStart r c) (d.raiseErr 0xD c 0x0003 3 (coreCtlOff c) (srcOf r)) ∧ s.becomes (.coreAutoStart c) d ∧
      ∀ v, s.becomes (.stkSwiWrite c v) d) ∧
    (d.coreDead c = (d.get (STK_CLU_SVC_STATE (c / 4)) != 2 || d.get (STK_CORE_CTL_STATE c) == 3)) ∧
    (d.coreDead c = false →
      (∀ v : BitVec 8, s.completes (.stkSwiWrite c v) (fun t => (t.th k).cr 0x203 = (d.th k).cr 0x203 ||| v.toNat * 2 ^ 48 ∧
        (∀ n, n ≠ 0x203 → (t.th k).cr n = (d.th k).cr n) ∧ { t.th k with ctl := [] } = { d.th k with ctl := [] } ∧ others t ∧
        d.onlyRegs t [])) ∧
      (d.get (STK_CORE_CTL_BUSY c) = 1 → s.becomes (.stakeReset c) (d.raiseErr 0xD c 0x0002 3 (coreCtlOff c) 0) ∧
        s.becomes (.stakeStart r c) (d.raiseErr 0xD c 0x0002 3 (coreCtlOff c) 0)) ∧
      (d.get (STK_CORE_CTL_BUSY c) = 0 →
        s.completes (.stakeReset c) (fun t => t.get (STK_CORE_CTL_BUSY c) = 1 ∧ t.get (STK_RST_INFO_REASON c) = 3 ∧
          t.get (STK_RST_INFO_CODE c) = 0 ∧ t.get (STK_RST_PC_PC c 0) = (d.th k).pc % 2 ^ 64 ∧ t.get (STK_RST_TIME_TIME c) = d.now % 2 ^ 64 ∧
          t.get (STK_RST_INFO_COUNT c) = satw 16 (d.get (STK_RST_INFO_COUNT c) + 1) ∧ t.thr = d.thr) ∧
        (d.get (STK_CORE_CTL_STATE c) ≠ 0 → s.becomes (.stakeStart r c) (d.raiseErr 0xD c 0x0003 3 (coreCtlOff c) (srcOf r))) ∧
        (d.get (STK_CORE_CTL_STATE c) = 0 → d.get (DBG_CORE_STAT_HALTPEND c) = 0 → s.becomes (.stakeStart r c) starts ∧
          (d.get (STK_CORE_CFG_AUTO c) = 1 → (d.th k).autoDue = true → s.becomes (.coreAutoStart c) starts)) ∧
        (d.get (STK_CORE_CFG_AUTO c) = 0 ∨ (d.th k).autoDue = false → s.becomes (.coreAutoStart c) d) ∧
        (d.get (STK_CORE_CTL_STATE c) = 0 → d.get (DBG_CORE_STAT_HALTPEND c) = 1 → (d.th k).link = none → (d.th k).annul = false →
          s.completes (.stakeStart r c) (fun t => t.get (DBG_CORE_STAT_HALTED c) = 1 ∧ t.get (DBG_CORE_STAT_HALTPEND c) = 0 ∧
            t.get (DBG_CORE_STAT_CAUSE c) = 6 ∧ t.get (STK_CORE_CTL_STATE c) = 2 ∧ (t.th k).cr 0x300 = d.get (STK_RVEC_ADDR c) ∧ others t)))) ∧
    (d.get (STK_CORE_CTL_BUSY c) = 1 → s.completes (.coreReset c) (fun t => t.th k = { autoDue := true } ∧ t.get (STK_CORE_CTL_BUSY c) = 0 ∧
      t.get (STK_CORE_CTL_STATE c) = 0 ∧ t.get (DBG_CORE_STAT_HALTED c) = 0 ∧ t.bufOf c 0 = [] ∧ t.bufOf c 1 = [] ∧
      (d.bufOf c 0 = [] → d.bufOf c 1 = [] → others t ∧ ∀ a, t.memByte a = d.memByte a))) ∧
    (d.get (STK_CORE_CTL_BUSY c) = 0 → s.becomes (.coreReset c) d) ∧
    (∀ (m : Bool) (i : BitVec 8) (e : BufEnt), (d.bufOf c (b2n m))[i.toNat]? = some e →
      s.completes (.lostStore c m i) (fun t => t.bufOf c (b2n m) = (d.bufOf c (b2n m)).eraseIdx i.toNat ∧
        (t.th k).mc = some (0x0011, 2, 0) ∧ bit ((t.th k).cr 0x1C4) 0 = true ∧ others t ∧ ∀ a, t.memByte a = d.memByte a))

/-- Clusters and the memory controllers. IN and its end bring a cluster back into service, its cores in reset; OUT resets its cores with REASON 4,
and its end writes its dirty lines back and takes it out; PARK is for one out of service (R271). TRAIN, then ECC_INIT, make DRAM ready, all zero
(R297, R302). A scrubber pass takes checked operands, checks a line at a time and ends with its summary (R301). -/
def Obligations.ClustersAndMemory : Prop :=
  ∀ (s : State) (r : Requester) (k : Cluster), s.dev.awake = true →
    let d := s.dev
    let st := d.get (STK_CLU_SVC_STATE k)
    let busy := d.raiseErr 0xD k 0x0002 3 (cluSvcOff k) 0
    let mbusy := d.raiseErr 0xE 0 0x0002 3 0x2B004 0
    (d.get (STK_CLU_SVC_BUSY k) = 1 → s.becomes (.clusterOut k) busy ∧ s.becomes (.clusterPark r k) busy ∧
      s.becomes (.clusterIn k) busy ∧
      (st = 1 → s.completes (.clusterInComplete k) (fun t => t.get (STK_CLU_SVC_STATE k) = 2 ∧
        t.get (STK_CLU_SVC_BUSY k) = 0 ∧ ∀ j, j < 4 → t.get (STK_CORE_CTL_STATE (4 * k + j)) = 0 ∧
          t.th (4096 + 4 * k + j) = { d.th (4096 + 4 * k + j) with autoDue := true })) ∧
      (st = 2 → s.completes (.clusterOutComplete k) (fun t => t.get (STK_CLU_SVC_STATE k) = 0 ∧ t.get (STK_CLU_SVC_BUSY k) = 0 ∧
        ∀ ln l, Tab.find d.mem.l2 ln = some l → l.holders.any (fun h => h.1 == k.val) = true →
          ∀ m, Tab.find t.mem.l2 ln = some m → m.holders.any (fun h => h.1 == k.val) = false))) ∧
    (d.get (STK_CLU_SVC_BUSY k) = 0 →
      (st = 2 → s.becomes (.clusterIn k) d ∧ s.becomes (.clusterPark r k) (d.raiseErr 0xD k 0x0003 3 (cluSvcOff k) (srcOf r)) ∧
        s.completes (.clusterOut k) (fun t => t.get (STK_CLU_SVC_BUSY k) = 1 ∧ t.get (STK_CLU_SVC_STATE k) = 2 ∧
          ∀ j, j < 4 → t.get (STK_RST_INFO_REASON (4 * k + j)) = 4 ∧
            t.get (STK_CORE_CTL_STATE (4 * k + j)) = 3 ∧ t.th (4096 + (4 * k + j)) = { autoDue := true })) ∧
      (st = 0 → s.becomes (.clusterOut k) d ∧ s.completes (.clusterPark r k) (fun t => t.get (STK_CLU_SVC_STATE k) = 3 ∧ t.thr = d.thr)) ∧
      (st = 0 ∨ st = 3 → s.completes (.clusterIn k) (fun t => t.get (STK_CLU_SVC_STATE k) = 1 ∧ t.get (STK_CLU_SVC_BUSY k) = 1 ∧ t.thr = d.thr))) ∧
    (d.get MEM_INIT_BUSY = 1 → s.becomes .train mbusy ∧ s.becomes .eccInit mbusy ∧
      (∀ (f : BitVec 8) (p : BitVec 3), d.mem.initOp = 1 →
        s.completes (.trainComplete f p) (fun t => t.get MEM_INIT_BUSY = 0 ∧ t.get MEM_INIT_FAILCH = f.toNat ∧
          (f = 0 → t.get MEM_INIT_RESULT = 0 ∧ t.get MEM_STATUS_TRAINED = 1 ∧ t.get MEM_STATUS_SIZE = d.get MEM_CFG_DPC % 4) ∧
          (f ≠ 0 → t.get MEM_INIT_RESULT = 1 ∧ t.get MEM_INIT_STEP = p.toNat ∧ t.get MEM_STATUS_SIZE = 0))) ∧
      (d.mem.initOp = 2 → s.completes .eccInitComplete (fun t => t.get MEM_INIT_BUSY = 0 ∧ t.get MEM_INIT_RESULT = 0 ∧
        t.get MEM_STATUS_READY = 1 ∧ t.mem.dram = [] ∧ t.mem.poison = []))) ∧
    (d.get MEM_INIT_BUSY = 0 →
      s.completes .train (fun t => t.get MEM_INIT_BUSY = 1 ∧ t.get MEM_STATUS_READY = 0 ∧ t.get MEM_STATUS_TRAINED = 0 ∧ t.mem.initOp = 1) ∧
      (d.get MEM_STATUS_TRAINED = 0 → s.becomes .eccInit (d.put MEM_INIT_RESULT 2)) ∧
      (d.get MEM_STATUS_TRAINED = 1 → s.completes .eccInit (fun t => t.get MEM_INIT_BUSY = 1 ∧ t.mem.initOp = 2))) ∧
    (let a := d.get SCR_START_ADDR
      let b := d.get SCR_END_ADDR
      let p := d.get SCR_DEST_ADDR
      (d.get SCR_CMD_BUSY = 1 → s.becomes .scrubStart (d.raiseErr 0xF 0 0x0002 3 0x3070E 0)) ∧
      (d.get SCR_CMD_BUSY = 0 → (d.get MEM_STATUS_READY = 0 → s.becomes .scrubStart (d.put SCR_CMD_RESULT 1)) ∧
        (d.get MEM_STATUS_READY = 1 → let range := a % 32 = 0 ∧ b % 32 = 0 ∧ a < b ∧ b ≤ d.dramTop
          (¬ range → s.becomes .scrubStart (d.put SCR_CMD_RESULT 2)) ∧
          (range → let dest := p % 4 = 0 ∧ p + 128 ≤ d.dramTop ∧ ∀ e ∈ d.mem.prot, p + 128 ≤ e.2.1 ∨ e.2.2 ≤ p
            (¬ dest → s.becomes .scrubStart (d.put SCR_CMD_RESULT 3)) ∧
            (dest → s.completes .scrubStart (fun t => t.get SCR_CMD_BUSY = 1 ∧ t.get SCR_PROG_NEXT = a % 2 ^ 44 ∧
              t.mem.scrub = some { start := a, stop := b, dest := p, tstart := d.now, next := a, last := d.now })))))) ∧
    (∀ e, d.mem.scrub = none → s.becomes (.scrubLine e) d ∧ s.becomes .abort d ∧ s.becomes .scrubComplete d) ∧
    (∀ (y : Scrub) (e : DramEnv), d.mem.scrub = some y →
      s.becomes .abort { d with mem := { d.mem with scrub := some { y with abort := true } } } ∧
      (y.next < y.stop → y.abort = false → s.becomes .scrubComplete d ∧
        s.completes (.scrubLine e) (fun t => ∃ z, t.mem.scrub = some z ∧ z.next = y.next + 32 ∧ z.abort = false ∧
          z.cwcorr = y.cwcorr + (d.burstShows (y.next / 32) e).1.length ∧ z.unc = y.unc + (d.burstShows (y.next / 32) e).2.length ∧
          t.get SCR_PROG_NEXT = (y.next + 32) % 2 ^ 44 ∧
          ((d.burst (y.next / 32) e).data = d.dramLine (y.next / 32) → ∀ x, t.memByte x = d.memByte x))) ∧
      (y.stop ≤ y.next ∨ y.abort = true → s.becomes (.scrubLine e) d ∧
        s.completes .scrubComplete (fun t => t.mem.scrub = none ∧ t.get SCR_CMD_BUSY = 0 ∧
          t.get SCR_CMD_RESULT = (if y.next < y.stop then 4 else 0) ∧
          ((∀ x ∈ d.mem.l2, x.2.data.length = 64) →
            ∀ i, i < 256 → t.memByte (2 * y.dest + i) = (y.quads.flatMap (leBytes 8)).getD i 0))))

/-- Stake cores: the requests they take between instructions, and their control (R261–R271). -/
def Obligations.StakeCores : Prop := Claims.CoreRequests ∧ Claims.CoreControl


/-! ### Chapter 13: the time base, channels, timers and watchdogs -/

/-- A tick advances the time base by 10 ns and the carry of the fraction, with a pending step applied once, holds the highest value taken, and
makes due the slot and management boundaries passed beyond it (R306–R308); a step waits for the next tick, a second one replaces the first; a
due slot boundary is acted on with the slots it passed over counted. -/
def Sys2Proof.Claims.TimeBase : Prop :=
  ∀ (s : State), s.dev.onAir = true →
    let d := s.dev
    let frac : Int := d.get TB_FRAC_FRAC + sgn 32 (d.get TB_RATE_RATE)
    let step : Int := if d.get TB_STATUS_STEPPEND = 1 then sgn 64 (d.get TB_STEP_STEP) else 0
    let ns := ((d.now + 10 + frac / 2 ^ 32 + step) % 2 ^ 64).toNat
    let hwm := d.get TB_HWM_HWM
    s.completes .tick (fun t => t.get TB_NS_NS = ns ∧ t.get TB_FRAC_FRAC = (frac % 2 ^ 32).toNat ∧ t.get TB_HWM_HWM = max hwm ns % 2 ^ 64 ∧
      t.get TB_STATUS_STEPPEND = 0 ∧ t.get TB_STATUS_SUPPRESS = b2n (decide (ns < hwm)) ∧
      t.tb.slotDue = d.tb.slotDue + min 1 (ns / 1000000 - hwm / 1000000) ∧
      t.tb.mgmtDue = d.tb.mgmtDue + min 1 (ns / 40000000 - hwm / 40000000) ∧ t.get TB_RATE_RATE = d.get TB_RATE_RATE ∧
      t.get TB_STEP_STEP = d.get TB_STEP_STEP ∧ (d.get TB_STATUS_STEPPEND = 1 → t.get (TB_CNT_COUNT 2) = satw 48 (d.get (TB_CNT_COUNT 2) + 1) ∨ d.get CNT_CTL_CLR = 1 ∧ t.get (TB_CNT_COUNT 2) = 1) ∧
      ∀ a, t.memByte a = d.memByte a) ∧
    (∀ v : BitVec 64, d.awake = true → s.becomes (.tbStepWrite v) ((d.put TB_STEP_STEP v.toNat).put TB_STATUS_STEPPEND 1)) ∧
    (d.tb.slotDue = 0 → s.becomes .slotBoundary d) ∧
    (d.tb.slotDue ≠ 0 → s.becomes .slotBoundary ({ d with tb := { d.tb with slotDue := d.tb.slotDue - 1, slotPassed := 0 } }.put (TB_CNT_COUNT 3)
      (satw 48 (d.get (TB_CNT_COUNT 3) + d.tb.slotPassed))))

/-- Compare channels and interval timers. At a tick an armed channel whose VALUE the time base has reached fires: FIRED, MISS where it was still
set, LATE where VALUE was reached before the tick, STEP where the tick applied a step, its target issued, then disarmed or VALUE moved on by
RELOAD; the command is the tick at which its channel fires (R311; log entry 90). A target raises an interrupt source of a core that can receive it, acts on a timer at
the next tick, or is discarded and counted (R313). START, STOP and RESTART (R314); a timer whose event ends its period, or whose PERIOD was put
below its COUNT, has its period event; PERIOD 0 is reserved (R315). A timer counts its clock's events while it runs and its master's gate is
open, its master's period events among them, and starts over with its master's period event where RSTM says so (R314, R315). -/
def Sys2Proof.Claims.ChannelsAndTimers : Prop :=
  (∀ (d : Dev) (n told : Nat) (stepped : Bool), n < 32 →
    let v := d.get (TB_CMP_VAL_VALUE n)
    let late := decide (v ≤ told)
    let fires := (((if d.get (TB_CMP_STAT_FIRED n) = 1 then d.put (TB_CMP_STAT_MISS n) 1 else d).put (TB_CMP_STAT_FIRED n) 1).put
      (TB_CMP_STAT_LATE n) (b2n late)).put (TB_CMP_STAT_STEP n) (b2n stepped)
    let issued := fires.issueTgt n (d.get (TB_CMP_CFG_TGT n)) (d.get (TB_CMP_CFG_ARG n)) late
    (d.get (TB_CMP_CFG_ARM n) = 1 → v ≤ d.now → d.compareChan n told stepped =
      if d.get (TB_CMP_RLD_RELOAD n) = 0 then issued.put (TB_CMP_CFG_ARM n) 0
        else issued.put (TB_CMP_VAL_VALUE n) (v + d.get (TB_CMP_RLD_RELOAD n))) ∧
    (d.get (TB_CMP_CFG_ARM n) = 0 ∨ d.now < v → d.compareChan n told stepped = d)) ∧
  (∀ (s : State) (n : Fin 32), s.dev.onAir = true →
    let d := s.dev
    (d.get (TB_CMP_CFG_ARM n) = 1 → d.get (TB_CMP_VAL_VALUE n) ≤ d.tbNext.1 → s.becomes (.compareChannelFire n) d.tick) ∧
    (d.get (TB_CMP_CFG_ARM n) = 0 ∨ d.tbNext.1 < d.get (TB_CMP_VAL_VALUE n) → s.becomes (.compareChannelFire n) d)) ∧
  (∀ (d : Dev) (n arg : Nat) (l : Bool),
    (d.coreHears (arg % 64) = true → d.asleep = false → n < 58 → let t := d.issueTgt n 1 arg l
      (t.th (4096 + arg % 64)).cr 0x203 = (d.th (4096 + arg % 64)).cr 0x203 ||| 2 ^ n ∧ t.tb = d.tb ∧
        ∀ j, j ≠ 4096 + arg % 64 → t.th j = d.th j) ∧
    (d.coreHears (arg % 64) = false ∨ d.asleep = true → let t := d.issueTgt n 1 arg l
      t.get (TB_CNT_COUNT 0) = satw 48 (d.get (TB_CNT_COUNT 0) + 1) ∧ t.tb.disc = d.tb.disc + 1 ∧ t.thr = d.thr) ∧
    d.issueTgt n 4 arg l = { d with tb := { d.tb with acts := d.tb.acts ++ [(arg % 16, arg / 16 % 4)] } }) ∧
  (∀ (s : State) (k : Fin 16), s.dev.onAir = true →
    let d := s.dev
    (d.awake = true →
      s.becomes (.timerStart k) (d.put (TB_TMR_CTL_RUN k) 1) ∧ s.becomes (.timerStop k) (d.put (TB_TMR_CTL_RUN k) 0) ∧
      s.becomes (.timerRestart k) ((d.put (TB_TMR_COUNT_COUNT k) 0).put (TB_TMR_CTL_RUN k) 1) ∧
      s.becomes (.timerPeriodWrite k 0) (d.raiseErr 0x10 0 0x0001 3 (0x2EB04 + 8 * k) 0) ∧
      ∀ v : BitVec 32, v ≠ 0 → s.becomes (.timerPeriodWrite k v) (d.put (TB_TMR_PERIOD_PERIOD k) v.toNat)) ∧
    let periods := (d.tickTo.1.timers d.tickTo.2).2
    (periods.getD k false = true → s.becomes (.timerPeriodEvent k) d.tick) ∧
    (periods.getD k false = false → s.becomes (.timerPeriodEvent k) d)) ∧
  (∀ (x : TickIn) (d : Dev) (l : List Bool) (k : Nat),
    let c := d.get (TB_TMR_COUNT_COUNT k)
    let p := d.get (TB_TMR_PERIOD_PERIOD k)
    let m := d.get (TB_TMR_CFG_MASTER k)
    let event := fun (d : Dev) =>
      let e := ((d.put (TB_TMR_COUNT_COUNT k) 0).put (TB_TMR_CTL_PEV k) 1).issueTgt (32 + k) (d.get (TB_TMR_TGT_TGT k)) (d.get (TB_TMR_TGT_ARG k)) false
      if e.get (TB_TMR_CFG_ONESHOT k) = 1 then e.put (TB_TMR_CTL_RUN k) 0 else e
    let cut := d.get (TB_TMR_CFG_RSTM k) = 1 ∧ l.getD m false = true
    let counts := d.get (TB_TMR_CTL_RUN k) = 1 ∧ (d.get (TB_TMR_CFG_GATEM k) = 1 → x.run.getD m false = true) ∧
      (d.get (TB_TMR_CFG_CLK k) = 0 ∨ d.get (TB_TMR_CFG_CLK k) = 1 ∧ x.slot = true ∨ d.get (TB_TMR_CFG_CLK k) = 2 ∧ x.mgmt = true ∨
        d.get (TB_TMR_CFG_CLK k) = 3 ∧ l.getD m false = true)
    (d.timerFrozen k = true → timerEval x (d, l) k = (d, l ++ [false])) ∧
    (d.timerFrozen k = false →
      (p < c → timerEval x (d, l) k = (event (d.put (TB_TMR_CTL_SHORT k) 1), l ++ [true])) ∧
      (c ≤ p → cut → timerEval x (d, l) k = (d.put (TB_TMR_COUNT_COUNT k) 0, l ++ [false])) ∧
      (c ≤ p → ¬ cut → counts → c + 1 < p → timerEval x (d, l) k = (d.put (TB_TMR_COUNT_COUNT k) (c + 1), l ++ [false])) ∧
      (c ≤ p → ¬ cut → counts → p ≤ c + 1 → timerEval x (d, l) k = (event d, l ++ [true])) ∧
      (c ≤ p → ¬ cut → ¬ counts → d.get (TB_TMR_CFG_CLK k) < 4 → timerEval x (d, l) k = (d, l ++ [false]))))

/-- Watchdogs. A kick with the key reloads the watchdog it names; one without it, of a hoop, of class 2, or of class 3 by another than the handle
core is refused (R317). At its last tick a running watchdog expires: EXPIRED, counted, reloaded, and its action: core reset with REASON 2, hoop
reset with CAUSE 2, the trial's end, a fatal record (R316); after a trial's end the handle core acts, with a device reset where the loader was
on trial, and 10 ms later the device resets (R316, R331). -/
def Sys2Proof.Claims.Watchdogs : Prop :=
  ∀ (s : State), s.dev.onAir = true →
    let d := s.dev
    (d.awake = true → ∀ (r : Requester) (k : BitVec 2) (u : BitVec 6) (key : BitVec 16),
      let ok := key = 0xA55A ∧ (k = 0 ∧ u.toNat < 48 ∨ k = 3 ∧ r = .handle)
      (ok → s.completes (.watchdogKick r k u key) (fun t => let n := if k = 0 then u.toNat else 0
        t.wdLeft k.toNat n = d.get (wdTmo k.toNat n) * 100000 ∧ (∀ c v, v < 64 → 64 * c + v ≠ 64 * k.toNat + n → t.wdLeft c v = d.wdLeft c v) ∧
        d.onlyRegs t [])) ∧
      (¬ ok → s.becomes (.watchdogKick r k u key) (d.raiseErr 0x10 0 0x0007 3 0x2E824 (srcOf r)))) ∧
    (∀ w : Watchdog, let c := w.cls
      let u := w.unit
      let due := d.wdRuns c u = true ∧ d.wdFrozen c u = false ∧ d.wdLeft c u ≤ 1
      (¬ due → s.becomes (.watchdogExpire w) d) ∧
      (due → s.completes (.watchdogExpire w) (fun t => t.get (wdExp c u) = 1 ∧
        t.get (TB_CNT_COUNT 4) = satw 48 (d.get (TB_CNT_COUNT 4) + 1) ∧ Tab.find t.tb.wd (64 * c + u) = some (d.get (wdTmo c u) * 100000) ∧
        (c = 0 → t.get (STK_CORE_CTL_BUSY u) = 1 ∧ t.get (STK_RST_INFO_REASON u) = 2) ∧
        (c = 1 → t.get (HOOP_SVC_STATE u) = 0 ∧ t.get (HOOP_SVC_CAUSE u) = 2) ∧
        (c = 2 → t.tb.trialDue = true ∧ t.tb.trial10 = 1) ∧ (c = 3 → t.err.fatal = true)))) ∧
    (d.tb.trialDue = false → s.becomes .trialWatchdogExpire d) ∧
    (d.tb.trialDue = true →
      (d.onTrial 3 = true → s.completes .trialWatchdogExpire (fun t => t.get ERR_STATUS_LASTRST = 7 ∧ t.get BOOT_STATUS_STAGE = 0 ∧
        t.get BOOT_STATUS_TRIAL = 0)) ∧
      (d.onTrial 3 = false → s.completes .trialWatchdogExpire (fun t => t.tb.trialDue = false ∧ t.onTrial 4 = false ∧ t.onTrial 5 = false))) ∧
    (d.tb.warmDue = false → s.becomes .trialWatchdogReset d) ∧
    (d.tb.warmDue = true → s.completes .trialWatchdogReset (fun t => t.get ERR_STATUS_LASTRST = 4 ∧ t.get BOOT_STATUS_STAGE = 0 ∧
      t.get TB_NS_NS = 0 ∧ t.err.log = d.err.log ∧ ∀ a, Tab.get 0xFF t.boot.flash a = Tab.get 0xFF d.flashLost.boot.flash a))

/-- What the tick of a due channel or timer leaves: an armed channel whose VALUE the tick reaches is FIRED, with LATE where VALUE was reached before
it, STEP where the tick applied a step and MISS where it was still FIRED, and is disarmed or has VALUE moved on by RELOAD (R311); a timer
whose period the tick ends starts over from 0 with its period event shown, and a one-shot timer stops (R314). -/
def Sys2Proof.Claims.TickResults : Prop :=
  ∀ (s : State), s.dev.onAir = true →
    let d := s.dev
    (∀ n : Fin 32, let v := d.get (TB_CMP_VAL_VALUE n)
      d.get (TB_CMP_CFG_ARM n) = 1 → v ≤ d.tbNext.1 → s.completes (.compareChannelFire n) (fun t =>
        t.get TB_NS_NS = d.tbNext.1 ∧ t.get (TB_CMP_STAT_FIRED n) = 1 ∧ t.get (TB_CMP_STAT_LATE n) = b2n (decide (v ≤ d.now)) ∧
        t.get (TB_CMP_STAT_STEP n) = b2n (decide (d.get TB_STATUS_STEPPEND = 1)) ∧
        (d.get (TB_CMP_STAT_FIRED n) = 1 → t.get (TB_CMP_STAT_MISS n) = 1) ∧
        (d.get (TB_CMP_RLD_RELOAD n) = 0 → t.get (TB_CMP_CFG_ARM n) = 0 ∧ t.get (TB_CMP_VAL_VALUE n) = v) ∧
        (d.get (TB_CMP_RLD_RELOAD n) ≠ 0 → t.get (TB_CMP_CFG_ARM n) = 1 ∧
          t.get (TB_CMP_VAL_VALUE n) = (v + d.get (TB_CMP_RLD_RELOAD n)) % 2 ^ 64))) ∧
    (∀ k : Fin 16, (d.tickTo.1.timers d.tickTo.2).2.getD k false = true → s.completes (.timerPeriodEvent k) (fun t =>
      t.get TB_NS_NS = d.tbNext.1 ∧ t.get (TB_TMR_CTL_PEV k) = 1 ∧ t.get (TB_TMR_COUNT_COUNT k) = 0 ∧
      (d.get (TB_TMR_CFG_ONESHOT k) = 1 → t.get (TB_TMR_CTL_RUN k) = 0)))

/-- Compare channels, interval timers and watchdogs (R311–R317, R331). -/
def Obligations.TimersAndWatchdogs : Prop := Claims.ChannelsAndTimers ∧ Claims.Watchdogs ∧ Claims.TickResults


/-! ### Chapter 14: boot, images and recovery -/

/-- An image passes the check of its kind exactly when its magic, format, kind, reserved fields and length are right, its key's digest is the
trusted one, its signature verifies over the header, its security version is not below the fuses' and its body has the header's digest
(R325, R332); a measurement register is extended to the digest of its value and the new one (R335), MR8 to MR15 by EXTEND (R337). -/
def Sys2Proof.Claims.ImagesAndMeasurements : Prop :=
  (∀ (d : Dev) (kind : Nat) (b : List Byte),
    let h := slice b 0 512
    let body := slice b 512 (hdrBodyLen h)
    let sound := leAt h 0 4 = 0x4D495A56 ∧ byteAt h 4 = 1 ∧ byteAt h 5 = kind ∧ hdrReserved h kind = false ∧
      hdrBodyLen h ≠ 0 ∧ hdrBodyLen h % 2 = 0 ∧ hdrBodyLen h ≤ imgLimit kind
    let signed := beNat (sha384 (slice h 80 96)) = d.keyOf kind ∧ ecdsaVerify (slice h 80 96) (sha384 (slice h 0 416)) (slice h 416 96) = true
    let fresh := kind ≤ 4 → d.fuse.svn kind ≤ byteAt h 6
    (d.checkImg kind b = .ok (mkImg h body) ↔ sound ∧ signed ∧ fresh ∧ sha384 body = slice h 32 48) ∧
    (∀ r, d.checkImg kind b = .error r → 1 ≤ r ∧ r ≤ 7) ∧
    (sound → signed → fresh → sha384 body ≠ slice h 32 48 → d.checkImg kind b = .error 7) ∧
    (sound → signed → ¬ fresh → d.checkImg kind b = .error 6)) ∧
  (∀ (s : State) (r : Requester) (i : BitVec 4), s.dev.awake = true →
    let d := s.dev
    let v := (List.range 6).flatMap (fun k => leBytes 8 (d.get (BOOT_MEAS_DATA_VALUE k)))
    (i.toNat < 8 → s.becomes (.measExtend r i) (d.raiseErr 0x11 0 0x0003 3 0x3051C (srcOf r))) ∧
    (8 ≤ i.toNat → s.completes (.measExtend r i) (fun t =>
      Tab.get 0 t.boot.mr i.toNat = beNat (sha384 (beBytes 48 (Tab.get 0 d.boot.mr i.toNat) ++ v)) ∧
      (∀ j, j ≠ i.toNat → Tab.get 0 t.boot.mr j = Tab.get 0 d.boot.mr j) ∧ d.onlyRegs t [BOOT_MEAS_CMD_INDEX])))

/-- The boot stages in order. Each runs only when STAGE shows it (R327); stages 0 and 1 take the slot that ACT names, else the other with a
fallback, else recovery (R328, R333); stage 2 trains and fills DRAM and locks it, or stays where training fails (R297); stages 3 and 4 choose
between the slots of kinds 4 and 3 that pass and are not excluded (R329), and set up hoops, region 3 and the locks; an image whose slot is not
confirmed while the other could run is on trial, its TRIED bit set, from STAGE 5 on (R329, R330); stage 5 starts stake core 0 once (R327). -/
def Sys2Proof.Claims.BootStages : Prop :=
  ∀ (s : State) (ok : Bool), s.dev.awake = true →
    let d := s.dev
    let st := d.get BOOT_STATUS_STAGE
    let priv := fun (c : Instr) (kind act : Nat) (fb : Fld) =>
      (∀ m, d.checkSlot kind act ok = .ok m → s.completes c (fun t => t.get BOOT_STATUS_STAGE = kind ∧
        t.get (BOOT_VER_VERSION (kind - 1)) = hdrVersion m.hdr ∧ Tab.find t.boot.run kind = some m ∧
        bit (t.get BOOT_STATUS_SLOT) (kind - 1) = (act == 1) ∧ t.get fb = d.get fb)) ∧
      (∀ r m, d.checkSlot kind act ok = .error r → d.checkSlot kind (1 - act) ok = .ok m →
        s.completes c (fun t => t.get BOOT_STATUS_STAGE = kind ∧ t.get (BOOT_VER_VERSION (kind - 1)) = hdrVersion m.hdr ∧
          Tab.find t.boot.run kind = some m ∧ bit (t.get BOOT_STATUS_SLOT) (kind - 1) = (act == 0) ∧ t.get fb = 1 ∧
          t.get BOOT_STATUS_REASON = r)) ∧
      (∀ r q, d.checkSlot kind act ok = .error r → d.checkSlot kind (1 - act) ok = .error q →
        s.completes c (fun t => t.get BOOT_STATUS_STAGE = 13 + kind ∧ t.get BOOT_STATUS_REASON = q ∧ t.boot.left = kind - 1 ∧
          t.boot.mbox = { st := 1, level := kind - 1, need := kind }))
    let chosen := fun (kind slot : Nat) (m : Img) =>
      let o := d.slotShows kind (1 - slot) ok
      d.slotShows kind slot ok = .ok m ∧ sha384 m.code = slice m.hdr 32 48 ∧ slot < 2 ∧
        ∀ n, o = .ok n → sha384 n.code = slice n.hdr 32 48 → (slot = 0 → preferA m n = true) ∧ (slot = 1 → preferA n m = false)
    let none := fun (kind : Nat) => ∀ slot, slot < 2 → ∀ m, d.slotShows kind slot ok = .ok m → sha384 m.code ≠ slice m.hdr 32 48
    (st ≠ 0 → s.becomes (.bootRomStage ok) d) ∧ (st ≠ 1 → s.becomes (.bootHandleStage ok) d) ∧
    (st ≠ 3 → s.becomes (.bootDramStage ok) d) ∧ (st ≠ 4 → s.becomes (.bootHoopsStage ok) d) ∧
    (st ≠ 5 ∨ d.boot.ran = true → s.becomes .bootRunStage d) ∧
    (st = 0 → priv (.bootRomStage ok) 1 (b2n (d.readRecord.recBit 0)) BOOT_STATUS_FALLBACK_H) ∧
    (st = 1 → priv (.bootHandleStage ok) 2 (b2n (d.recBit 1)) BOOT_STATUS_FALLBACK_S) ∧
    (∀ (dpc rate : BitVec 2) (f : BitVec 8) (p : BitVec 3),
      (st ≠ 2 → s.becomes (.bootHostStage dpc rate f p) d) ∧
      (st = 2 → d.get MEM_INIT_BUSY = 0 →
        (f = 0 → s.completes (.bootHostStage dpc rate f p) (fun t => t.get BOOT_STATUS_STAGE = 3 ∧ t.get MEM_STATUS_READY = 1 ∧
          t.get MEM_STATUS_TRAINED = 1 ∧ t.get MEM_CFG_DPC = dpc.toNat ∧ t.get MEM_STATUS_SIZE = dpc.toNat ∧ t.get MEM_LOCK_LOCK = 1 ∧
          t.mem.dram = [])) ∧
        (f ≠ 0 → s.completes (.bootHostStage dpc rate f p) (fun t => t.get BOOT_STATUS_STAGE = 2 ∧ t.get MEM_STATUS_TRAINED = 0 ∧
          t.get MEM_STATUS_READY = 0 ∧ t.get MEM_INIT_FAILCH = f.toNat ∧ t.get MEM_INIT_RESULT = 1)))) ∧
    (st = 3 →
      (∀ slot m, chosen 4 slot m → s.completes (.bootDramStage ok) (fun t => t.get BOOT_STATUS_STAGE = 4 ∧ t.boot.stock = m.code ∧
        t.get (BOOT_VER_VERSION 3) = hdrVersion m.hdr ∧ Tab.find t.boot.run 4 = some m ∧
        (∀ h, h < 32 → d.get (HOOP_SVC_STATE h) = 0 → d.get (HOOP_SVC_BUSY h) = 0 → t.get (HOOP_SVC_STATE h) = 2) ∧
        (2 ^ 27 ≤ d.dramTop → (∀ e ∈ d.mem.prot, e.2.2 ≤ (d.bootRegion 7).1) → ∀ i, 3 ≤ i → i ≤ 7 → Tab.find t.mem.prot i = some (d.bootRegion i)))) ∧
      (none 4 → s.completes (.bootDramStage ok) (fun t => t.get BOOT_STATUS_STAGE = 15 ∧ t.boot.left = 3 ∧
        t.boot.mbox = { st := 1, level := 1, need := 8 }))) ∧
    (st = 4 →
      (∀ slot m, chosen 3 slot m → s.completes (.bootHoopsStage ok) (fun t => t.get BOOT_STATUS_STAGE = 5 ∧ t.get TB_LOCK_LOCK = 1 ∧
        t.get (STK_RVEC_ADDR 0) = ((d.bootRegion 3).1 + leAt m.hdr 20 4) % 2 ^ 44 ∧ t.get (BOOT_VER_VERSION 2) = hdrVersion m.hdr ∧
        Tab.find t.boot.run 3 = some m ∧ t.onTrial 3 = d.onTrial 3 ∧
        (d.recBit (confBit 3 slot) = false → ∀ n, preferA m n = true → slot = 0 → d.slotShows 3 1 ok = .ok n →
          t.recBit (triedBit 3 slot) = true ∧ bit t.boot.trials 0 = true))) ∧
      (none 3 → s.completes (.bootHoopsStage ok) (fun t => t.get BOOT_STATUS_STAGE = 15 ∧ t.boot.left = 4 ∧
        t.boot.mbox = { st := 1, level := 1, need := 4 }))) ∧
    (st = 5 → d.boot.ran = false → s.completes .bootRunStage (fun t => t.boot.ran = true ∧ t.get BOOT_STATUS_STAGE = 5 ∧
      t.get BOOT_TIME_US = d.now / 1000 % 2 ^ 32 ∧ t.get BOOT_STATUS_TRIAL = d.boot.trials % 8 ∧
      (d.boot.trials % 8 ≠ 0 → t.get TB_WD_TRIAL_EN = 1) ∧
      (d.get (STK_CLU_SVC_STATE 0) = 2 → d.get (STK_CORE_CTL_BUSY 0) = 0 → d.get (STK_CORE_CTL_STATE 0) = 0 →
        d.get (DBG_CORE_STAT_HALTPEND 0) = 0 → t.get (STK_CORE_CTL_STATE 0) = 1 ∧ (t.th 4096).pc = d.get (STK_RVEC_ADDR 0))))

/-- Recovery, trials and updates: GO on a mailbox that waits refuses an operand it cannot take or an image that fails, and otherwise runs or
programs the image (R333); BOOT_CONFIRM closes a trial with its key and sets CONF (R330, Table 14-9); the BOOT_IMG_CMD operations take their
operands once, answer 1 or 8 where they cannot run, and end with their RESULT: a slot programmed, the other slot made active, a tenant staged
on trial, confirmed or removed (R334). -/
def Obligations.RecoveryAndUpdates : Prop :=
  ∀ (s : State) (r : Requester), s.dev.awake = true →
    let d := s.dev
    let st := d.get BOOT_STATUS_STAGE
    let m := d.boot.mbox
    let waits := (st = 14 ∨ st = 15) ∧ m.go = 1 ∧ (m.st = 1 ∨ m.st = 3)
    let taken := bit m.need (m.kind - 1) = true ∧ 1 ≤ m.kind ∧ m.kind ≤ 4 ∧ 1 ≤ m.op ∧ m.op ≤ 3 ∧ m.slot ≤ 1
    let b := d.stagAt (min m.len (512 + imgLimit m.kind))
    let cmds : List (Instr × Nat) := [(.flashWrite, 1), (.activate, 2), (.stageTenant, 3), (.confirmTenant, 4), (.removeTenant, 5)]
    let addr := d.get BOOT_IMG_ADDR_ADDR
    let len := d.get BOOT_IMG_ARG_LEN
    let kind := d.get BOOT_IMG_ARG_KIND
    let func := d.get BOOT_IMG_ARG_FUNC
    let ends := fun (c : Instr) (res rsn : Nat) (P : Dev → Prop) => s.completes c (fun t => t.get BOOT_IMG_CMD_BUSY = 0 ∧
      t.get BOOT_IMG_CMD_RESULT = res ∧ t.get BOOT_IMG_CMD_REASON = rsn ∧ t.boot.cmd = none ∧ P t)
    let same := fun (t : Dev) => t.boot.parts = d.boot.parts ∧ t.get BOOT_STATUS_TRIAL = d.get BOOT_STATUS_TRIAL ∧
      ∀ a, Tab.get 0xFF t.boot.flash a = Tab.get 0xFF d.boot.flash a
    (¬ waits → s.becomes .recoveryGo d) ∧
    (waits →
      (¬ taken → s.completes .recoveryGo (fun t => t.boot.mbox = { m with go := 0, st := 3, reason := 2 } ∧ t.get BOOT_STATUS_REASON = 2 ∧
        t.get BOOT_STATUS_STAGE = st ∧ same t)) ∧
      (∀ e, taken → d.checkImg m.kind b = .error e → s.completes .recoveryGo (fun t =>
        t.boot.mbox = { m with go := 0, st := 3, reason := e } ∧ t.get BOOT_STATUS_REASON = e ∧ t.get BOOT_STATUS_STAGE = st ∧ same t)) ∧
      (∀ g, taken → d.checkImg m.kind b = .ok g → s.completes .recoveryGo (fun t =>
        t.boot.mbox = { m with go := 0, st := 4, reason := 0 } ∧
        (m.op = 3 → t.get BOOT_STATUS_STAGE = d.boot.left % 16) ∧
        (m.op ≠ 3 → t.get BOOT_STATUS_STAGE = (match m.kind with | 1 => 1 | 2 => 2 | 4 => 4 | _ => 5) ∧ Tab.find t.boot.run m.kind = some g) ∧
        (m.op ≠ 1 → t.flashAt (slotOff m.kind m.slot) b.length = b) ∧ (m.op = 1 → 3 ≤ m.kind → t.boot.brec = d.boot.brec)))) ∧
    (∀ (k : BitVec 3) (key : BitVec 16), let ok := key = 0xC0F1 ∧ d.onTrial k.toNat = true ∧ d.tb.trialDue = false
      (k ≠ 3 → k ≠ 4 → s.becomes (.bootConfirm r k key) (d.raiseErr 0x11 0 0x0001 3 0x30502 0)) ∧
      (k = 3 ∨ k = 4 →
        (¬ ok → s.becomes (.bootConfirm r k key) (d.raiseErr 0x11 0 0x0003 3 0x30502 (srcOf r))) ∧
        (ok → s.completes (.bootConfirm r k key) (fun t => t.onTrial k.toNat = false ∧ (∀ j, j ≠ k.toNat → 3 ≤ j → j ≤ 5 → t.onTrial j = d.onTrial j) ∧
          t.recBit (confBit k.toNat (d.runSlot k.toNat)) = true ∧ t.boot.bseq = (d.boot.bseq + 1) % 2 ^ 32)))) ∧
    (∀ c ∈ cmds,
      (d.get BOOT_IMG_CMD_BUSY = 1 → s.becomes c.1 (d.raiseErr 0x11 0 0x0002 3 0x30504 0)) ∧
      (d.get BOOT_IMG_CMD_BUSY = 0 →
        (14 ≤ st → ends c.1 8 0 same) ∧
        (st < 14 → d.imgBad c.2 addr len kind func = true → ends c.1 1 0 same) ∧
        (st < 14 → d.imgBad c.2 addr len kind func = false → (let x := (d.toRegion 7 0 (d.bytesAt (2 * addr) (imgLen c.2 len))).put BOOT_IMG_CMD_BUSY 1
          s.becomes c.1 { x with boot := { x.boot with
            cmd := some ⟨c.2, addr, kind, d.get BOOT_IMG_ARG_SLOT, func, d.get BOOT_IMG_ARG_PART, d.bytesAt (2 * addr) (imgLen c.2 len)⟩ } })))) ∧
    (∀ ok, d.boot.cmd = none → s.becomes (.bootImgComplete ok) d) ∧
    (∀ (x : ImgCmd) (ok : Bool), d.boot.cmd = some x →
      let c := Instr.bootImgComplete ok
      let act := b2n (d.recBit (x.kind - 1))
      let p := d.part x.part
      let q := d.part d.boot.trialPart
      (x.op = 1 → (x.kind ≤ 2 → x.slot = act → ends c 3 0 same) ∧
        (2 < x.kind ∨ x.slot ≠ act →
          (∀ e, d.checkImg x.kind x.bytes = .error e → ends c 2 e same) ∧
          (∀ g, d.checkImg x.kind x.bytes = .ok g → (ok = false → ends c 6 0 (fun t => t.boot.parts = d.boot.parts ∧
              (3 ≤ x.kind → t.recBit (confBit x.kind x.slot) = false ∧ t.recBit (triedBit x.kind x.slot) = false))) ∧
            (ok = true → ends c 0 0 (fun t => t.flashAt (slotOff x.kind x.slot) x.bytes.length = x.bytes ∧
              (3 ≤ x.kind → t.recBit (confBit x.kind x.slot) = false ∧ t.recBit (triedBit x.kind x.slot) = false)))))) ∧
      (x.op = 2 → (ok = false → ends c 6 0 same) ∧
        (∀ e, ok = true → d.checkSlot x.kind (1 - act) true = .error e → ends c 2 e same) ∧
        (∀ g, ok = true → d.checkSlot x.kind (1 - act) true = .ok g → ends c 0 0 (fun t => t.recBit (x.kind - 1) = (act == 0)))) ∧
      (x.op = 3 → (d.get BOOT_STATUS_TRIAL ≠ 0 → ends c 4 0 same) ∧
        (d.get BOOT_STATUS_TRIAL = 0 → (p.owner ≠ 0 → p.owner ≠ x.func → ends c 7 0 same) ∧
          (p.owner = 0 ∨ p.owner = x.func →
            (∀ e, d.checkImg 5 x.bytes = .error e → ends c 2 e same) ∧
            (∀ g, d.checkImg 5 x.bytes = .ok g →
              (g.func ≠ x.func ∨ byteAt g.hdr 25 ≠ x.part → ends c 2 10 same) ∧
              (g.func = x.func → byteAt g.hdr 25 = x.part → ends c 0 0 (fun t =>
                t.part x.part = { cur := some g, prev := p.cur, disabled := false, owner := x.func } ∧ t.onTrial 5 = true ∧
                t.boot.trialPart = x.part ∧ t.get TB_WD_TRIAL_EN = 1 ∧ t.get TB_WD_TRIAL_TIMEOUT = satw 24 (hdrTrialMs g.hdr))))))) ∧
      (x.op = 4 → let good := fun g => d.onTrial 5 = true ∧ d.tb.trialDue = false ∧ x.bytes = slice g.hdr 32 16 ∧ x.func = g.func ∧
          x.part = d.boot.trialPart
        (q.cur = none → ends c 5 0 same) ∧
        (∀ g, q.cur = some g → (¬ good g → ends c 5 0 same) ∧
          (good g → ends c 0 0 (fun t => t.onTrial 5 = false ∧ t.part d.boot.trialPart = { q with prev := none })))) ∧
      (x.op = 5 → (p.owner ≠ x.func → ends c 7 0 same) ∧
        (p.owner = x.func → ends c 0 0 (fun t => t.part x.part = { owner := p.owner } ∧
          (d.boot.trialPart = x.part → t.onTrial 5 = false)))))

/-- Images, measurements and the boot stages (R325–R337). -/
def Obligations.BootAndMeasurement : Prop := Claims.ImagesAndMeasurements ∧ Claims.BootStages


/-! ### Chapter 15: power, clocks, supplies and wake -/

/-- DVFS and the regulators, with no other request in progress: a request is refused while BUSY, only stored while the cluster is not active, and
otherwise switches at once to a slower step, or first raises the voltage when it must; without a regulator it fails with RESULT 3 (R342, R344). It
completes with RESULT 0 once its divider has switched and its voltage is there; a NACK or a fault ends it with RESULT 2, a timeout with 1, with
VDD_STK then counted as the lower voltage (R343). A regulator's entry is stored, but refused when not in linear mode (R342). -/
def Sys2Proof.Claims.Regulators : Prop :=
  ∀ (s : State) (k : Cluster), s.dev.awake = true →
    let d := s.dev
    let cur := d.get (PWR_DVFS_CUR k)
    (∀ x : BitVec 2,
      (d.get (PWR_DVFS_BUSY k) = 1 → s.becomes (.dvfsRequest k x) (d.raiseErr 0x12 k 0x0002 3 (0x30320 + 2 * k) 0)) ∧
      (d.get (PWR_DVFS_BUSY k) = 0 →
        (d.cluActive k = false → s.becomes (.dvfsRequest k x) (d.put (PWR_DVFS_STEP k) x.toNat)) ∧
        (d.cluActive k = true → d.pwr.dvfs = [] → d.pwr.pmb = none → d.pwr.sw = [] →
          let q : Dvfs := ⟨cur, x.toNat, false⟩
          let e : Dev := (d.put (PWR_DVFS_STEP k) x.toNat).put (PWR_DVFS_BUSY k) 1
          let e1 : Dev := { e with pwr := { d.pwr with dvfs := [(k.val, q)] } }
          let e2 : Dev := { e.put (PWR_DVFS_CUR k) x.toNat with pwr := { d.pwr with dvfs := [(k.val, { q with switched := true })] } }
          let commanded := fun (e : Dev) (r : Nat) =>
            ({ (if e.get (PWR_REG_PAGE r) = 255 then e else e.emit (.pmbus (e.get (PWR_REG_ADDR r)) 0x00 (e.get (PWR_REG_PAGE r)))).emit
              (.pmbus (e.get (PWR_REG_ADDR r)) 0x21 (ulinear (sgn 5 (Tab.get 0 d.pwr.vexp r)) e.needV)) with pwr := { e.pwr with pmb := some ⟨r, d.pwr.vdd, e.needV, k⟩ } } : Dev)
          (x.toNat ≤ cur → e1.needV ≤ d.pwr.vdd → s.becomes (.dvfsRequest k x) e1) ∧
          (x.toNat ≤ cur → d.pwr.vdd < e1.needV → (∀ r, d.stkReg = some r → s.becomes (.dvfsRequest k x) (commanded e1 r)) ∧
            (d.stkReg = none → s.completes (.dvfsRequest k x) (fun t => t.get (PWR_DVFS_BUSY k) = 0 ∧ t.get (PWR_DVFS_RESULT k) = 3 ∧
              t.get (PWR_DVFS_CUR k) = cur))) ∧
          (cur < x.toNat → d.pwr.vdd ≤ e2.needV → s.becomes (.dvfsRequest k x) e2) ∧
          (cur < x.toNat → e2.needV < d.pwr.vdd → (∀ r, d.stkReg = some r → s.becomes (.dvfsRequest k x) (commanded e2 r)) ∧
            (d.stkReg = none → s.completes (.dvfsRequest k x) (fun t => t.get (PWR_DVFS_BUSY k) = 0 ∧ t.get (PWR_DVFS_RESULT k) = 3 ∧
              t.get (PWR_DVFS_CUR k) = x.toNat)))))) ∧
    (d.dvfs k = none → s.becomes (.dvfsComplete k) d) ∧
    (∀ r, d.dvfs k = some r →
      let waits := d.pwr.sw.contains k.val = true ∨ d.pwr.pmb.any (fun q => q.cluster == k.val) = true ∨
        r.switched = false ∧ d.pwr.vdd < d.vstep r.new
      (waits → s.becomes (.dvfsComplete k) d) ∧
      (¬ waits → s.completes (.dvfsComplete k) (fun t => t.get (PWR_DVFS_BUSY k) = 0 ∧ t.get (PWR_DVFS_RESULT k) = 0 ∧
        (r.switched = false → t.get (PWR_DVFS_CUR k) = r.new % 4) ∧ t.dvfs k = none ∧
        t.get (PWR_CNT_COUNT 3) = satw 48 (d.get (PWR_CNT_COUNT 3) + 1)))) ∧
    (∀ (st v : BitVec 16) (n : Bool),
      (d.pwr.pmb = none → s.becomes (.pmbusAcknowledge st v n) d ∧ s.becomes .pmbusTimeout d) ∧
      (∀ q, d.pwr.pmb = some q → q.cluster < 12 → q.reg < 8 →
        let near := ulinearNear (sgn 5 (Tab.get 0 d.pwr.vexp q.reg)) v.toNat q.cmd (d.get (PWR_REG_TOL q.reg)) = true
        let fails := fun (c : Instr) (res : Nat) => s.completes c (fun t => t.get (PWR_DVFS_BUSY q.cluster) = 0 ∧
          t.get (PWR_DVFS_RESULT q.cluster) = res ∧ t.pwr.vdd = min q.old q.cmd ∧
          t.get (PWR_CNT_COUNT 4) = satw 48 (d.get (PWR_CNT_COUNT 4) + 1))
        fails .pmbusTimeout 1 ∧ (n = true → fails (.pmbusAcknowledge st v n) 2) ∧
        (n = false → d.get (PWR_REG_MODE q.reg) = 1 ∨ near → statusFault st.toNat = true → fails (.pmbusAcknowledge st v n) 2) ∧
        (n = false → ¬ near → d.get (PWR_REG_MODE q.reg) = 0 ∨ statusFault st.toNat = false → s.becomes (.pmbusAcknowledge st v n) d) ∧
        (n = false → near → statusFault st.toNat = false → s.completes (.pmbusAcknowledge st v n) (fun t => t.pwr.vdd = q.cmd ∧
          t.get (PWR_REG_VOUT q.reg) = q.cmd % 2 ^ 16)))) ∧
    (∀ (i : Fin 8) (v : BitVec 64) (m : BitVec 8), let w := v.toNat
      (d.get PWR_LOCK_LOCK = 1 → s.becomes (.regulatorValidWrite i v m) d) ∧
      (d.get PWR_LOCK_LOCK = 0 → (bits w 31 24 = 0 ∨ bits w 39 32 = 0 →
          s.becomes (.regulatorValidWrite i v m) (d.raiseErr 0x12 0 0x0001 3 (0x30340 + 4 * i) 0)) ∧
        (bits w 31 24 ≠ 0 → bits w 39 32 ≠ 0 →
          let refused := d.get (PWR_REG_VALID i) ≠ 1 ∧ w.testBit 7 = true ∧ 32 ≤ m.toNat
          s.completes (.regulatorValidWrite i v m) (fun t => t.get (PWR_REG_ADDR i) = w % 128 ∧ t.get (PWR_REG_PAGE i) = bits w 15 8 ∧
            t.get (PWR_REG_RAIL i) = bits w 18 16 ∧ t.get (PWR_REG_MODE i) = bits w 19 19 ∧ t.get (PWR_REG_TOL i) = bits w 31 24 ∧
            t.get (PWR_REG_POLL i) = bits w 39 32 ∧ (refused → t.get (PWR_REG_VALID i) = 0) ∧
            (¬ refused → t.get (PWR_REG_VALID i) = bits w 7 7) ∧
            (d.get (PWR_REG_VALID i) ≠ 1 → w.testBit 7 = true → Tab.get 0 t.pwr.vexp i = m.toNat % 32))))) ∧
    (∀ (n : Int) (v mv tol : Nat), (ulinearNear n v mv tol = true ↔
      (n < 0 → absDiff (v * 1000) (mv * 2 ^ (-n).toNat) ≤ tol * 2 ^ (-n).toNat) ∧
      (0 ≤ n → absDiff (v * 2 ^ n.toNat * 1000) mv ≤ tol)))

/-- Supplies, sensors and clocks: a warning marks its rail BELOW, on rails 0 to 2 halves clocks, on the others counts; a recovery of every
rail that asked for it ends the halving (R345); a sweep measures the sensors it names, sets and clears their ALARM about TWARN (R346, R347);
a thermal trip drives THERMTRIP_N and powers all but the always-on domain down (R347); loss of the reference resets the device when lock
returns (R340). -/
def Sys2Proof.Claims.SuppliesAndSensors : Prop :=
  ∀ (s : State), s.dev.onAir = true →
    let d := s.dev
    (∀ x : Fin 8, (bit (d.get PWR_STATUS_BELOW) x = true → s.becomes (.supplyWarning x) d) ∧
      (bit (d.get PWR_STATUS_BELOW) x = false → s.completes (.supplyWarning x) (fun t => bit (t.get PWR_STATUS_BELOW) x = true ∧
        (∀ y, y < 8 → y ≠ x.val → bit (t.get PWR_STATUS_BELOW) y = bit (d.get PWR_STATUS_BELOW) y) ∧ t.thr = (d.handleInt 2).thr ∧
        (x.val < 3 → t.pwr.halve = d.pwr.halve ||| 2 ^ x.val ∧
          t.get PWR_STATUS_HALVED_STK = b2n (bit t.pwr.halve 0 || bit t.pwr.halve 2) ∧
          t.get PWR_STATUS_HALVED_HOOP = b2n (bit t.pwr.halve 1 || bit t.pwr.halve 2) ∧
          (d.pwr.halve = 0 → t.get (PWR_CNT_COUNT 1) = satw 48 (d.get (PWR_CNT_COUNT 1) + 1) ∧ t.pwr.halvedAt = d.now)) ∧
        (3 ≤ x.val → t.get (PWR_CNT_COUNT 2) = satw 48 (d.get (PWR_CNT_COUNT 2) + 1) ∧ t.pwr = d.pwr)))) ∧
    (∀ m : BitVec 8, s.completes (.supplyRecovery m) (fun t =>
      (∀ y, y < 8 → bit (t.get PWR_STATUS_BELOW) y = (bit (d.get PWR_STATUS_BELOW) y && !m.getLsbD y)) ∧
      (d.pwr.halve ≠ 0 → d.pwr.halve &&& m.toNat = d.pwr.halve → t.pwr.halve = 0 ∧ t.get PWR_STATUS_HALVED_STK = 0 ∧
        t.get PWR_STATUS_HALVED_HOOP = 0 ∧ t.get (PWR_CNT_COUNT 0) = satw 48 (d.get (PWR_CNT_COUNT 0) + 1)) ∧
      (d.pwr.halve = 0 ∨ d.pwr.halve &&& m.toNat ≠ d.pwr.halve → t.pwr = d.pwr ∧
        t.get PWR_STATUS_HALVED_STK = d.get PWR_STATUS_HALVED_STK))) ∧
    (d.awake = true → d.asleep = false → d.pwr.smbWait = none → ∀ v : List (BitVec 12),
      let swept := fun (t : Dev) (m : Nat) =>
        (∀ i, i < 12 → bit m i = true → let x := (v.getD i 0).toNat
          let w : Int := d.get PWR_THERM_TWARN
          t.get (PWR_TEMP_T i) = x ∧ t.get (PWR_TEMP_VALID i) = 1 ∧
          (4 * w ≤ sgn 12 x → t.get (PWR_TEMP_ALARM i) = 1) ∧ (sgn 12 x ≤ 4 * (w - 5) → t.get (PWR_TEMP_ALARM i) = 0) ∧
          (sgn 12 x < 4 * w → 4 * (w - 5) < sgn 12 x → t.get (PWR_TEMP_ALARM i) = d.get (PWR_TEMP_ALARM i))) ∧
        (∀ i, i < 8 → bit m (12 + i) = true → t.get (PWR_VOLT_MV i) = (v.getD (12 + i) 0).toNat ∧ t.get (PWR_VOLT_VALID i) = 1) ∧
        (∀ i, i < 12 → bit m i = false → t.get (PWR_TEMP_T i) = d.get (PWR_TEMP_T i) ∧ t.get (PWR_TEMP_ALARM i) = d.get (PWR_TEMP_ALARM i))
      (d.get PWR_MON_AUTO = 1 → s.completes (.monitorSweep true v) (fun t => swept t (2 ^ 20 - 1) ∧ t.pwr = d.pwr)) ∧
      (d.get PWR_MON_AUTO = 0 → s.becomes (.monitorSweep true v) d) ∧
      (d.pwr.mon = none → s.becomes (.monitorSweep false v) d) ∧
      (∀ m, d.pwr.mon = some m → s.completes (.monitorSweep false v) (fun t => swept t m ∧ t.pwr.mon = d.pwr.monWait ∧ t.pwr.monWait = none))) ∧
    (∀ x : Fin 12, (d.pwr.tripped = true → s.becomes (.thermalTrip x) d) ∧
      (d.pwr.tripped = false → s.completes (.thermalTrip x) (fun t => t.pwr.tripped = true ∧ Out.thermtrip ∈ t.out ∧ t.awake = false ∧
        t.thr = {} ∧ t.mem = {} ∧ t.mle = {} ∧ t.fp = {} ∧ t.get TB_NS_NS = d.get TB_NS_NS ∧ t.get BOOT_STATUS_STAGE = 0 ∧
        t.fuse = d.fuse ∧ t.onAir = true ∧ ∀ a, Tab.get 0xFF t.boot.flash a = Tab.get 0xFF d.flashLost.boot.flash a))) ∧
    s.completes .referenceLoss (fun t => t.pwr = { d.pwr with pllLost := true } ∧ t.err.fatal = d.err.fatal ∧
      t.get (ERR_CNT_COUNT 3) = satw 48 (d.get (ERR_CNT_COUNT 3) + 1)) ∧
    (d.pwr.pllLost = false → s.becomes .pllLockReturn d) ∧
    (d.pwr.pllLost = true → s.completes .pllLockReturn (fun t => t.pwr = { tripped := d.pwr.tripped } ∧ t.get ERR_STATUS_LASTRST = 6 ∧ t.get TB_NS_NS = 0 ∧
      t.err.log = d.err.log))

/-- Hush, wake, Doze and the SMBus target: HUSH is refused by others than the PF and the handle core, and with its RESULT unless every port is
parked, hoops, clusters and links are out, a wake source is armed and no work is in progress (R350); Table 15-8 ends in Hush, a wake source
starts the wake and is recorded, Table 15-9 ends in Run with the sensors invalid (R350–R352); a hoop with nothing to do dozes (R349); the
SMBus commands answer in Run, and wake the device in Hush (R353). -/
def Obligations.HushAndWake : Prop :=
  ∀ (s : State), s.dev.onAir = true →
    let d := s.dev
    let st := d.get PWR_STATUS_STATE
    let outOf := fun (f : Nat → Fld) (n : Nat) => ∀ i, i < n → d.get (f i) = 0 ∨ d.get (f i) = 3
    let quiet := outOf HOOP_SVC_STATE 32 ∧ outOf STK_CLU_SVC_STATE 12 ∧ outOf RIM_SVC_STATE 2
    let ports := ∀ p, p < 4 → d.get (FP_SVC_STATE p) = 3
    let armed := (∃ p, p < 4 ∧ d.get (FP_WAKE_MODE p) ≠ 0) ∨ d.get PWR_CTL_SMBWAKE = 1
    let idle := d.get BOOT_STATUS_TRIAL = 0 ∧ d.mem.scrub = none ∧ ∀ k, k < 12 → d.get (PWR_DVFS_BUSY k) ≠ 1
    let asks := fun (c : Instr) (src : Nat) =>
      (st ≠ 0 → s.becomes c d) ∧
      (st = 0 → ¬ (quiet ∧ ports ∧ armed ∧ idle) → s.becomes c
        ((d.put PWR_STATUS_RESULT d.hushResult).raiseErr 0x12 0 0x0003 3 0x30302 src)) ∧
      (st = 0 → quiet → ports → armed → idle → s.completes c (fun t => t.get PWR_STATUS_STATE = 1 ∧ t.get PWR_STATUS_RESULT = 0 ∧
        t.pwr.emul = (d.get DBG_STATUS_ATTACHED == 1) ∧ t.get (PWR_CNT_COUNT 5) = satw 48 (d.get (PWR_CNT_COUNT 5) + 1) ∧ t.hif = d.hif ∧
        ∀ a, t.memByte a = d.memByte a))
    (quiet → ports → armed → idle → d.hushResult = 0) ∧ (¬ quiet → d.hushResult = 1) ∧ (quiet → ¬ ports → d.hushResult = 2) ∧
    (quiet → ports → ¬ armed → d.hushResult = 3) ∧ (quiet → ports → armed → ¬ idle → d.hushResult = 4) ∧
    (d.awake = true → ∀ r : Requester, (r = .pf ∨ r = .handle → asks (.hush r) (srcOf r)) ∧
      (r ≠ .pf → r ≠ .handle → s.becomes (.hush r) (d.raiseErr 0x12 0 0x0003 3 0x30302 (srcOf r)))) ∧
    (d.pwr.tripped = true → s.becomes .hushEntered d ∧ s.becomes .wakeComplete d) ∧
    (st ≠ 1 → s.becomes .hushEntered d) ∧
    (st = 1 → d.pwr.tripped = false → s.completes .hushEntered (fun t => t.get PWR_STATUS_STATE = 2 ∧ (d.pwr.emul = false → t.get MEM_STATUS_READY = 0 ∧
      t.get HIF_STATUS_LINK_UP ≠ 1 ∧ t.awake = false) ∧
      (d.get HIF_STATUS_LINK_UP = 1 → t.get HIF_STATUS_ISLAND = 1 ∧ t.get HIF_STATUS_VFE = 0))) ∧
    (∀ (sig pat : BitVec 4) (smb : Bool) (g : Fin 4), let p := d.wakePorts sig.toNat pat.toNat
      let wakes := d.pwr.tripped = false ∧ (st = 1 ∨ st = 2) ∧ (p ≠ 0 ∨ smb = true ∧ d.get PWR_CTL_SMBWAKE = 1)
      let cause := if bit p 0 then 4 else if bit p 1 then 5 else if bit p 2 then 6 else if bit p 3 then 7 else 1
      (¬ wakes → s.becomes (.hushWake sig pat smb g) d) ∧
      (wakes → s.completes (.hushWake sig pat smb g) (fun t => t.get PWR_STATUS_STATE = 3 ∧ t.get PWR_STATUS_WCAUSE = cause ∧ t.pwr.wakeFp = p)) ∧
      (wakes → st = 2 → s.becomes (.hushWake sig pat smb g)
        ((({ d with pwr := { d.pwr with wakeFp := p } } : Dev).put PWR_STATUS_STATE 3).put PWR_STATUS_WCAUSE cause))) ∧
    (st ≠ 3 → s.becomes .wakeComplete d) ∧
    (st = 3 → d.pwr.tripped = false → d.pwr.smbWait ≠ some 0x41 → s.completes .wakeComplete (fun t => t.get PWR_STATUS_STATE = 0 ∧ t.get MEM_STATUS_READY = 1 ∧
      t.pwr.emul = false ∧ t.pwr.wakeFp = 0 ∧ (∀ i, i < 12 → t.get (PWR_TEMP_VALID i) = 0) ∧ (∀ i, i < 8 → t.get (PWR_VOLT_VALID i) = 0) ∧
      ∀ p, p < 4 → bit d.pwr.wakeFp p = true → t.get (FP_WAKE_CAUSE p) = d.get (FP_WAKE_MODE p) % 4)) ∧
    (d.awake = true → ∀ h : Hoop, let rests := d.hoopUp h = true ∧ d.get PWR_ADOZE_HOOP = 1 ∧ d.hoopQueues h = [] ∧
        (∀ c ∈ d.hoop.ctxs, c.hoop ≠ h.val) ∧ ∀ r ∈ d.hoop.running, r.eng / 16 ≠ h.val
      (¬ rests → s.becomes (.hoopDoze h) d) ∧
      (rests → s.becomes (.hoopDoze h) ({ d with hoop := { d.hoop with doze := Tab.set false d.hoop.doze h true } }.wdKick 1 h))) ∧
    let cmds : List Instr := [.smbReadState, .smbReadHighestTemp, .smbReadBelow, .smbWake, .smbHush 0x48] ++
        (List.finRange 12).map .smbReadTemp ++ (List.finRange 8).map .smbReadVolt
    (d.get PWR_SMB_EN = 0 ∨ d.pwr.tripped = true ∧ st ≠ 0 → ∀ c ∈ cmds, s.becomes c d) ∧
    (d.pwr.tripped = true → ∀ v, s.becomes (.smbHush v) d) ∧
    (d.get PWR_SMB_EN = 1 → st = 0 →
        s.becomes .smbReadState (d.emit (.smb (leBytes 1 (d.get PWR_STATUS_WCAUSE * 16)))) ∧
        s.becomes .smbReadBelow (d.emit (.smb (leBytes 1 (d.get PWR_STATUS_BELOW)))) ∧
        (∀ i : Fin 12, s.becomes (.smbReadTemp i) (d.emit (.smb (leBytes 2
          (d.get (PWR_TEMP_T i) + d.get (PWR_TEMP_VALID i) * 2 ^ 12 + d.get (PWR_TEMP_ALARM i) * 2 ^ 13))))) ∧
        (∀ i : Fin 8, s.becomes (.smbReadVolt i) (d.emit (.smb (leBytes 2 (d.get (PWR_VOLT_MV i) + d.get (PWR_VOLT_VALID i) * 2 ^ 12))))) ∧
        (∀ m : Int, (∃ i, i < 12 ∧ d.get (PWR_TEMP_VALID i) = 1 ∧ sgn 12 (d.get (PWR_TEMP_T i)) = m) →
          (∀ i, i < 12 → d.get (PWR_TEMP_VALID i) = 1 → sgn 12 (d.get (PWR_TEMP_T i)) ≤ m) →
          s.becomes .smbReadHighestTemp (d.emit (.smb (leBytes 2 (wrapI 16 m))))) ∧
        s.becomes .smbWake d ∧ (d.pwr.tripped = false → asks (.smbHush 0x48) 0) ∧ ∀ v : BitVec 8, v ≠ 0x48 → s.becomes (.smbHush v) d) ∧
    (d.get PWR_SMB_EN = 1 → d.pwr.tripped = false → st = 2 → d.get PWR_CTL_SMBWAKE = 1 →
        ∀ c ∈ cmds, s.completes c (fun t => t.get PWR_STATUS_STATE = 3 ∧ t.get PWR_STATUS_WCAUSE = 1 ∧ t.pwr.smbWait ≠ none)) ∧
    (d.get PWR_SMB_EN = 1 → d.pwr.tripped = false → st ≠ 0 → d.get PWR_CTL_SMBWAKE = 0 → ∀ c ∈ cmds, s.becomes c d)

/-- Regulators, supplies and sensors (R340–R347). -/
def Obligations.RegulatorsAndSensors : Prop := Claims.Regulators ∧ Claims.SuppliesAndSensors


/-! ### Chapter 16: debug, trace and performance counters -/

/-- Grants: REQUEST is refused while locked out or above DBGCAP, takes effect at once at or below the level held, and else makes a challenge valid;
RESPOND answers it once, raising the level only for the owner's key and signature, else locking requests out for 1 s; DROP, the challenge's end and
Test-Logic-Reset end what they name (R360, R361); the 1149.1 port takes an instruction it is authorised for (R403). -/
def Sys2Proof.Claims.Grants : Prop :=
  ∀ (s : State) (t : Fin 2),
    let d := s.dev
    let res := bank DBG_AUTH_STATUS_RESULT t
    let l := Tab.get 0 d.dbg.req t
    let r := d.authBytes DBG_AUTH_RESP_BYTES t 24
    let msg := d.authBytes DBG_AUTH_CHAL_BYTES t 4 ++ leBytes 8 d.fuse.serial ++ leBytes 1 l ++ leBytes 1 t
    let valid := d.get (bank DBG_AUTH_STATUS_CHALV t) = 1
    let owner := beNat (sha384 (slice r 0 96)) = d.token
    let signed := ecdsaVerify (slice r 0 96) (sha384 msg) (slice r 96 96) = true
    let tapped := fun (c : Instr) (n : Nat) => s.completes c (fun x => x.dbg.ir = n ∧
      (boardTest d.dbg.ir = true → d.dbg.ir ≠ n → x.get ERR_STATUS_LASTRST = 5 ∧ x.boot.held = d.boot.held ∧ x.get BOOT_STATUS_STAGE = 0))
    (d.awake = true →
      (∀ (e : Bool), s.becomes (.authRequest t 3 e) (d.raiseErr 0x13 0 0x0001 3 0x20002 0)) ∧
      (∀ (n : BitVec 2) (e : Bool), n ≠ 3 →
        (d.now < Tab.get 0 d.dbg.lock t → s.becomes (.authRequest t n e) (d.put res 5)) ∧
        (Tab.get 0 d.dbg.lock t ≤ d.now →
          (d.get DBG_STATUS_CAP < n.toNat → s.becomes (.authRequest t n e) (d.put res 1)) ∧
          (n.toNat ≤ d.get DBG_STATUS_CAP →
            (n.toNat ≤ d.level t → s.completes (.authRequest t n e) (fun x => x.level t = n.toNat ∧ x.get res = 0 ∧
              x.get (bank DBG_AUTH_STATUS_EMU t) = b2n e)) ∧
            (d.level t < n.toNat → s.completes (.authRequest t n e) (fun x => x.level t = d.level t ∧ x.get res = 0 ∧
              x.get (bank DBG_AUTH_STATUS_CHALV t) = 1 ∧ Tab.get 0 x.dbg.req t = n.toNat ∧ x.get (bank DBG_AUTH_STATUS_EMU t) = b2n e))))) ∧
      (d.respondResult t = 0 ↔ valid ∧ owner ∧ signed) ∧
      (¬ valid → d.respondResult t = 2) ∧ (valid → ¬ owner → d.respondResult t = 3) ∧ (valid → owner → ¬ signed → d.respondResult t = 4) ∧
      (d.respondResult t = 0 → s.completes (.authRespond t) (fun x => x.level t = l % 4 ∧ x.get res = 0 ∧
        x.get (bank DBG_AUTH_STATUS_CHALV t) = 0)) ∧
      (d.respondResult t ≠ 0 → s.completes (.authRespond t) (fun x => x.level t = d.level t ∧ x.get res = d.respondResult t ∧
        x.get (bank DBG_AUTH_STATUS_CHALV t) = 0 ∧ Tab.get 0 x.dbg.lock t = d.now + 1000000000)) ∧
      s.completes (.authDrop t) (fun x => x.level t = 0 ∧ (d.fullHeld = true → x.fullHeld = false → ∀ c, c < 49 → x.get (DBG_CORE_STAT_HALTED c) ≠ 1)) ∧
      s.becomes (.challengeExpire t) (d.put (bank DBG_AUTH_STATUS_CHALV t) 0)) ∧
    s.completes .testLogicReset (fun x => x.level 0 = 0 ∧ x.captureDr = some 0x16400B87) ∧ tapped .testLogicReset 2 ∧
    (∀ c : BitVec 8, let n := c.toNat
      (boardTest n = true → d.level 0 = 2 → tapped (.tapInstructionLoad c) n) ∧
      (boardTest n = true → d.level 0 ≠ 2 → tapped (.tapInstructionLoad c) 0xFF) ∧
      (n = 1 ∨ n = 2 ∨ n = 0x10 → tapped (.tapInstructionLoad c) n) ∧
      (boardTest n = false → n ≠ 1 → n ≠ 2 → n ≠ 0x10 → tapped (.tapInstructionLoad c) 0xFF))

/-- Accesses by the transports: DBGDR acts while DBG_ACCESS is selected, its read giving data and its write acting where Table 16-1 permits, else
with ERR (R358, R359); the access engine refuses a level too low, a misaligned address and a PEEK write, and otherwise reads or writes DRAM
coherently, answering 3 in a protected region (R364). -/
def Sys2Proof.Claims.DebugAccess : Prop :=
  ∀ (s : State),
    let d := s.dev
    (∀ (off : BitVec 20) (w p : Bool) (v : BitVec 32), let c := Instr.dbgdrUpdate off w p v
      let off := off.toNat
      let e : Dev := { d with dbg := { d.dbg with derr := false } }
      let dark := d.asleep = true ∨ d.pwr.tripped = true ∨ d.boot.held = true
      (d.dbg.ir ≠ 0x10 → s.becomes c d) ∧
      (d.dbg.ir = 0x10 → d.dbg.done = false → s.becomes c { d with dbg := { d.dbg with derr := true } }) ∧
      (d.dbg.ir = 0x10 → d.dbg.done = true →
        (w = false → dark ∨ d.dbg0Reads off = false → s.becomes c { d with dbg := { d.dbg with derr := true, ddata := 0 } }) ∧
        (w = false → ¬ dark → d.dbg0Reads off = true → let x := e.ctlRead .dbg0 off 4 (p || d.level 0 == 1)
          s.becomes c { x.1 with dbg := { x.1.dbg with ddata := x.2 } }) ∧
        (w = true → dark ∨ p = true ∨ d.dbg0Writes off = false → s.becomes c { d with dbg := { d.dbg with derr := true } }) ∧
        (w = true → ¬ dark → p = false → d.dbg0Writes off = true → s.becomes c (e.ctlWrite io .dbg0 off 4 v.toNat)))) ∧
    (d.awake = true → ∀ (t : Fin 2) (size : Fin 3) (e : DramEnv) (p : Bool),
      let rd := Instr.dbgAccRead t ⟨size, e⟩ p
      let wr := Instr.dbgAccWrite t size p
      let who : Requester := if t = 0 then .dbg0 else .pf
      let n := 2 ^ size.val
      let pa := d.get DBG_ACC_ADDR_ADDR
      let ends := fun (r : Nat) => (d.put DBG_ACC_CMD_BUSY 0).put DBG_ACC_CMD_RESULT r
      (d.get DBG_ACC_CMD_BUSY = 1 → s.becomes rd (d.raiseErr 0x13 0 0x0002 3 0x2008C 0) ∧ s.becomes wr (d.raiseErr 0x13 0 0x0002 3 0x2008C 0)) ∧
      (d.get DBG_ACC_CMD_BUSY = 0 →
        (d.level t < 1 → s.becomes rd ((ends 1).notAuth who 0x2008C)) ∧ (d.level t < 2 → s.becomes wr ((ends 1).notAuth who 0x2008C)) ∧
        (2 ≤ d.level t → p = true → s.becomes wr (ends 5)) ∧
        (1 ≤ d.level t → pa % n ≠ 0 → s.becomes rd (ends 4)) ∧ (2 ≤ d.level t → p = false → pa % n ≠ 0 → s.becomes wr (ends 4)) ∧
        (pa % n = 0 → isControl pa = false →
          (1 ≤ d.level t → d.memOk .dbg pa n false = true →
            let x := d.readCoherent (pa / 32) e 0x66
            (x.2 = false → s.becomes rd (((x.1.put DBG_ACC_DATA_DATA (x.1.wordsAt pa n)).put DBG_ACC_CMD_BUSY 0).put DBG_ACC_CMD_RESULT 0)) ∧
            (x.2 = true → s.becomes rd ((x.1.put DBG_ACC_CMD_BUSY 0).put DBG_ACC_CMD_RESULT 2)) ∧
            ((Tab.find d.mem.l2 (pa / 32)).isSome ∨ e = [] ∧ Tab.get false d.mem.poison (pa / 32) = false → x.1 = d)) ∧
          (1 ≤ d.level t → d.memOk .dbg pa n false = false → s.completes rd (fun x => x.get DBG_ACC_CMD_BUSY = 0 ∧
            (x.get DBG_ACC_CMD_RESULT = 2 ∨ x.get DBG_ACC_CMD_RESULT = 3) ∧ x.get DBG_ACC_DATA_DATA = d.get DBG_ACC_DATA_DATA)) ∧
          (2 ≤ d.level t → p = false → d.memOk .dbg pa n true = true → (∀ e ∈ d.mem.l2, e.2.data.length = 64) →
            s.completes wr (fun x => x.get DBG_ACC_CMD_BUSY = 0 ∧ x.get DBG_ACC_CMD_RESULT = 0 ∧
              (∀ i, i < 2 * n → x.memByte (2 * pa + i) = (leBytes (2 * n) (d.get DBG_ACC_DATA_DATA % 65536 ^ n)).getD i 0) ∧
              ∀ a, a < 2 * pa ∨ 2 * pa + 2 * n ≤ a → x.memByte a = d.memByte a))) ∧
        (pa % n = 0 → isControl pa = true → ∀ o, o = locate (pa - 0x0F0000000000) →
          (1 ≤ d.level t → ∀ y, o = some y → y.part = 0 → n = y.reg.words → p = true ∨ d.level t = 1 →
            s.becomes rd (((d.put DBG_ACC_DATA_DATA (d.regVal (.accEngine t) y)).put DBG_ACC_CMD_BUSY 0).put DBG_ACC_CMD_RESULT 0)))))

/-- Run control: HALT asks for a halt, or waits for the start of a core in reset; a halt is taken at a boundary outside a HOLD window, after a machine
check and an FP trap, with the pair and STATUS saved; RESUME and STEP go on from what was saved; EXEC runs one instruction without moving the
thread; the same for strand engines, whose halt ends their contexts' reservations (R243, R365–R368, R372). Without permission nothing changes but ERR or a record (R359). -/
def Sys2Proof.Claims.RunControl : Prop :=
  ∀ (s : State) (r : Requester) (c : Fin 49), s.dev.awake = true →
    let d := s.dev
    let k := tid (dbgThread c)
    let h := d.th k
    let denied := d.notAuth r (coreDbgOff c)
    let refused := d.raiseErr 0x13 c 0x0003 3 (coreDbgOff c) (srcOf r)
    let halted := d.get (DBG_CORE_STAT_HALTED c) = 1
    let resumes := fun (i : Instr) (n : Nat) => s.completes i (fun t => t.get (DBG_CORE_STAT_HALTED c) = 0 ∧
      (c.val < 48 → t.get (STK_CORE_CTL_STATE c) = 1) ∧
      (h.pend = [] → (t.th k).pc = h.cr 0x300 ∧ (t.th k).npc = some (h.cr 0x301) ∧ (t.th k).cr 0 = (h.cr 0x302 - (if bit (h.cr 0x302) 5 then 32 else 0)) % 64 ∧
        (n ≠ 0 → (t.th k).stepping = n) ∧ (∀ j, j < 28 → (t.th k).gr j = h.gr j) ∧ (t.th k).f = h.f) ∧
      ∀ j, j ≠ k → t.th j = d.th j)
    (d.mayRun r c = false → (∀ i ∈ ([.halt r c, .debugResume r c, .debugStep r c] : List Instr), s.becomes i denied) ∧ ∀ e, s.becomes (.debugExec r c e) denied) ∧
    (d.mayRun r c = true →
      (halted → s.becomes (.halt r c) refused) ∧
      (¬ halted → s.becomes (.debugResume r c) refused ∧ s.becomes (.debugStep r c) refused ∧ (∀ e, s.becomes (.debugExec r c e) refused) ∧
        (d.coreInReset c = true → s.becomes (.halt r c) (d.put (DBG_CORE_STAT_HALTPEND c) 1)) ∧
        (d.coreInReset c = false → s.becomes (.halt r c) (d.updThr k (fun t => { t with haltReq := some (1, 0) })))) ∧
      (halted → resumes (.debugResume r c) 0 ∧ resumes (.debugStep r c) (if d.get (DBG_CORE_CTL_STEPINT c) = 1 then 1 else 2) ∧
        ∀ env : MemEnv, let i := { rawIns (d.get (DBG_INSN_INSN c)) with env := env }
          let x := d.ctxFor io (dbgThread c) true env
          (∀ d2 code a b l, x.1.attempt x.2 i = .bad d2 (.exc code a b l) → s.completes (.debugExec r c env) (fun t =>
            t.get (DBG_CORE_STAT_EXCFAULT c) = 1 ∧ t.get (DBG_CORE_STAT_ECODE c) = code % 256)) ∧
          (∀ d2, x.1.attempt x.2 i = .ok d2 .next → s.becomes (.debugExec r c env)
            (d2.updThr k (fun h => { h.drainMul with inLong := false, link := none })))) ) ∧
    (∀ e : Fin 512,
      let off := engDbgOff e
      let cmds : List Instr := [.engineHalt r e, .engineResume r e] ++ (List.finRange 4).map (.engineStep r e)
      let no := d.raiseErr 0x13 e 0x0003 3 off (srcOf r)
      let eh := d.get (DBG_ENG_STAT_HALTED e) = 1
      (d.mayDebug r 2 = false → ∀ i ∈ cmds, s.becomes i (d.notAuth r off)) ∧
      (d.mayDebug r 2 = true →
        (eh → s.becomes (.engineHalt r e) no ∧ s.completes (.engineResume r e) (fun t => t.get (DBG_ENG_STAT_HALTED e) = 0 ∧
            (∀ x : Fin 4, t.th (4 * e + x) = { d.th (4 * e + x) with stepping := 0 }) ∧ (∀ j, j / 4 ≠ e → t.th j = d.th j) ∧
            d.onlyRegs t [DBG_ENG_STAT_HALTED e]) ∧
          ∀ x : Fin 4, s.becomes (.engineStep r e x) ((d.put (DBG_ENG_CTL_CTX e) x).updThr (4 * e + x) (fun t => { t with stepping := 1 }))) ∧
        (¬ eh → s.completes (.engineHalt r e) (fun t => t.get (DBG_ENG_STAT_HALTED e) = 1 ∧ t.get (DBG_ENG_STAT_CAUSE e) = 1 ∧
            (∀ x : Fin 4, t.th (4 * e + x) = { d.th (4 * e + x) with resv := none }) ∧
            d.onlyRegs t [DBG_ENG_STAT_HALTED e, DBG_ENG_STAT_CAUSE e]) ∧ s.becomes (.engineResume r e) no ∧
          ∀ x : Fin 4, s.becomes (.engineStep r e x) no))) ∧
    (∀ e x, s.becomes (.debugHaltTake (.engine e x)) d) ∧
    (h.pend = [] → h.lvl ≠ 3 → (if c.val < 48 then d.coreUp c = true ∧ h.mcLevel = none ∧ h.fptNow = false else ¬ halted) →
      let x := d.ctxFor io (dbgThread c) false {}
      let b := x.1.boundary x.2
      (h.haltReq = none ∨ h.held = true → s.becomes (.debugHaltTake (dbgThread c)) d) ∧
      (∀ a u, h.haltReq = some (a, u) → h.held = false → s.completes (.debugHaltTake (dbgThread c)) (fun t =>
        t.get (DBG_CORE_STAT_HALTED c) = 1 ∧ t.get (DBG_CORE_STAT_HALTPEND c) = 0 ∧ t.get (DBG_CORE_STAT_CAUSE c) = a % 2 ^ (DBG_CORE_STAT_CAUSE c).w ∧
        (c.val < 48 → t.get (STK_CORE_CTL_STATE c) = 2) ∧ (t.th k).pc = b.2.1 ∧ (t.th k).npc = some b.2.2 ∧ (t.th k).cr 0x300 = b.2.1 ∧
        (t.th k).cr 0x301 = b.2.2 ∧ (t.th k).cr 0x302 = h.cr 0 ∧ (t.th k).cr 0x303 = a ∧ (t.th k).lvl = 3 ∧ (t.th k).haltReq = none ∧
        (t.th k).resv = none ∧ ∀ j, j ≠ k → t.th j = d.th j)))

/-- Register selection of a halted thread: READ gives the register's value with RESULT 0, WRITE stores DATA in it; 1 for a number that names none,
2 while it is not halted, nothing without permission (R359, R370, R372). General registers of a core and of an engine context are numbers
0x00 to 0x1B, with g0 always 0. -/
def Sys2Proof.Claims.DebugRegisters : Prop :=
  ∀ (s : State) (r : Requester) (tg : DbgTarget) (n : BitVec 11), s.dev.awake = true →
    let d := s.dev
    let rd := Instr.dbgRegselRead r tg n
    let wr := Instr.dbgRegselWrite r tg n
    let may := match tg with | .core c => d.mayRun r c | .engine _ _ => d.mayDebug r 2
    let off := match tg with | .core c => coreDbgOff c + 4 | .engine e _ => engDbgOff e + 4
    let x := match tg with | .core c => d.coreSel c | .engine e y => d.engSel e y
    let d0 := match tg with | .core _ => d | .engine e y => d.put (DBG_ENG_REGSEL_CTX e) y
    let h := d.th (tid x.t)
    (may = false → s.becomes rd (d.notAuth r off) ∧ s.becomes wr (d.notAuth r off)) ∧
    (may = true →
      (x.halted = false → s.becomes rd ((d0.put x.num n.toNat).put x.result 2) ∧ s.becomes wr ((d0.put x.num n.toNat).put x.result 2)) ∧
      (x.halted = true → h.pend = [] →
        (n.toNat < 0x1C → s.becomes rd (((d0.put x.num n.toNat).put x.data (h.gr n.toNat)).put x.result 0) ∧
          s.becomes wr (((d0.put x.num n.toNat).updThr (tid x.t) (fun h => h.setG n.toNat (d.get x.data))).put x.result 0)) ∧
        (0x20 ≤ n.toNat → n.toNat < 0x40 → s.becomes rd (((d0.put x.num n.toNat).put x.data (h.fr (n.toNat - 0x20))).put x.result 0) ∧
          s.becomes wr (((d0.put x.num n.toNat).updThr (tid x.t) (fun h => h.setF (n.toNat - 0x20) (d.get x.data))).put x.result 0)) ∧
        (n.toNat = 0x41 → s.becomes rd (((d0.put x.num n.toNat).put x.data h.mh).put x.result 0)) ∧
        (n.toNat = 0x42 → s.becomes rd (((d0.put x.num n.toNat).put x.data h.ml).put x.result 0)) ∧
        (0x64 ≤ n.toNat → n.toNat < 0x400 → s.becomes rd ((d0.put x.num n.toNat).put x.result 1) ∧
          s.becomes wr ((d0.put x.num n.toNat).put x.result 1)) ∧
        (0x400 ≤ n.toNat → ctlReg (kindOf x.t) 3 false (n.toNat - 0x400) = none → s.becomes rd ((d0.put x.num n.toNat).put x.result 1))))

/-- Virtual terminal, trace and counters: a read of a terminal's word empties it, a write fills it (R373); an enabled source's transaction becomes a
packet, taken by the funnel or refused and counted (R376–R378); the sink takes 64-byte units and stops where it cannot (R380); TRC_BUFDATA
steps through the on-die buffer; a due latch takes every counter at once and its dump reports it (R381, R382). -/
def Obligations.TraceAndCounters : Prop :=
  ∀ (s : State) (r : Requester) (c : Core), s.dev.awake = true →
    let d := s.dev
    let tx := 0x20F00 + 4 * c.val
    let rx := 0x20F02 + 4 * c.val
    let k := 4096 + c.val
    (d.mayDebug r 2 = false → (∀ p, s.becomes (.dbgVtTxRead r c p) ((d.notAuth r tx).emit (.readData tx 0))) ∧
      ∀ v, s.becomes (.dbgVtRxWrite r c v) (d.notAuth r rx)) ∧
    (d.mayDebug r 2 = true →
      (∀ p, p = true ∨ d.get (DBG_CORE_STAT_TXFULL c) = 0 → s.becomes (.dbgVtTxRead r c p) (d.emit (.readData tx (d.get (DBG_VT_TX_DATA c))))) ∧
      (d.get (DBG_CORE_STAT_TXFULL c) = 1 → let e := d.put (DBG_CORE_STAT_TXFULL c) 0
        s.becomes (.dbgVtTxRead r c false) ((if bit ((d.th k).cr 0x312) 3 then e.irq c 57 else e).emit (.readData tx (d.get (DBG_VT_TX_DATA c))))) ∧
      (∀ v : BitVec 32, (d.get (DBG_CORE_STAT_RXFULL c) = 1 → s.becomes (.dbgVtRxWrite r c v) (d.raiseErr 0x13 c 0x0003 3 rx (srcOf r))) ∧
        (d.get (DBG_CORE_STAT_RXFULL c) = 0 → let e := (d.put (DBG_VT_RX_DATA c) v.toNat).put (DBG_CORE_STAT_RXFULL c) 1
          s.becomes (.dbgVtRxWrite r c v) (if bit ((d.th k).cr 0x312) 4 then e.irq c 57 else e)))) ∧
    (∀ (src : BitVec 7) (vc : Fin 3) (kind : Fin 8) (size : Fin 4) (a : PAddr),
      let i := Instr.tracePacketAccept src vc kind size a
      let n := src.toNat
      let rg := d.get (TRC_SRC_RANGE n)
      let takes := d.get TRC_CTL_EN = 1 ∧ n < 0x67 ∧ d.get (TRC_SRC_EN n) = 1 ∧ bit (d.get (TRC_SRC_VCMASK n)) vc = true ∧
        bit (d.get (TRC_SRC_KINDMASK n)) kind = true ∧
        (rg = 0 ∨ 4 < rg ∨ d.get (TRC_ADDR_LO_ADDR (rg - 1)) ≤ a.toNat ∧ a.toNat ≤ d.get (TRC_ADDR_HI_ADDR (rg - 1))) ∧
        d.trcFrozen = false ∧ d.asleep = false
      let p := d.encodePkt n vc kind size a.toNat
      let full := bit (d.get TRC_STATUS_REFUSING) (d.get (TRC_SRC_PRIO n)) = true ∨ 65536 < d.trc.fill + p.1.length + 256
      (¬ takes → s.becomes i d) ∧
      (takes → full → s.completes i (fun t => t.trc.fifo = d.trc.fifo ∧ t.get (TRC_CNT_COUNT 2) = satw 48 (d.get (TRC_CNT_COUNT 2) + 1) ∧
        (t.tsrc n).fresh = true)) ∧
      (takes → ¬ full → d.trc.lost.all (fun x => x == 0) = true → s.completes i (fun t => t.trc.fifo = d.trc.fifo ++ [p.1] ∧
        t.tsrc n = (d.tsrc n).sent p.2 d.now a.toNat ∧ t.get (TRC_CNT_COUNT 0) = satw 48 (d.get (TRC_CNT_COUNT 0) + 1))) ∧
      ((d.tsrc n).fresh = true → p = (pktHead 1 kind n vc size 0 ++ leBytes 6 a.toNat ++ leBytes 2 (d.tsrc n).sseq ++ leBytes 8 d.now, true))) ∧
    (let mode := d.get TRC_SINK_CFG_MODE
     let w := d.get TRC_SINK_WPTR_OFFSET
     let runs := d.asleep = false ∧ d.get TRC_STATUS_STOPPED ≠ 1 ∧ d.trcFrozen = false
     (mode = 0 ∨ ¬ runs ∨ d.trc.fill = 0 → ∀ f, s.becomes (.traceSinkWrite f) d) ∧
     (mode = 1 → runs → 64 ≤ d.trc.fill →
       s.completes (.traceSinkWrite true) (fun t => t.get TRC_STATUS_STOPPED = 1 ∧ t.get TRC_CTL_EN = 0 ∧ t.trc.buf = Tab.canon 0 d.trc.buf) ∧
       (w + 128 ≤ 2 ^ 20 → s.completes (.traceSinkWrite false) (fun t => t.get TRC_SINK_WPTR_OFFSET = w + 64 ∧
         t.trc.fifo = (takeBytes d.trc.fifo 64).2 ∧ t.get (TRC_CNT_COUNT 1) = satw 48 (d.get (TRC_CNT_COUNT 1) + 64) ∧
         (∀ j, j < 64 → Tab.get 0 t.trc.buf (w + j) = (takeBytes d.trc.fifo 64).1.getD j 0) ∧
         ∀ a, a < w ∨ w + 64 ≤ a → Tab.get 0 t.trc.buf a = Tab.get 0 d.trc.buf a)))) ∧
    (let a := d.get TRC_BUFADDR_ADDR
     let v := leNat ((List.range 8).map (fun i => Tab.get 0 d.trc.buf (8 * a + i)))
     s.becomes (.trcBufdataRead true) (d.emit (.readData 0x2F018 v)) ∧
     s.becomes (.trcBufdataRead false) ((d.put TRC_BUFADDR_ADDR (a + 1)).emit (.readData 0x2F018 v))) ∧
    (let due := (d.cnt.due = true ∨ d.cnt.snap = true) ∧ d.cnt.dump = none ∧ ¬ (d.get DBG_FRZ_CNT = 1 ∧ d.anyHalted = true) ∧ d.asleep = false ∧
       d.pwr.tripped = false
     let t := d.latchTake
     (¬ due → t = d) ∧
     (due → t.cnt.due = false ∧ t.cnt.snap = false ∧ t.cnt.n = d.cnt.n + 1 ∧
       (∃ x, t.cnt.dump = some x ∧ x.n = d.cnt.n ∧ x.time = d.now ∧ x.snap = d.cnt.snap ∧ x.opened = false ∧
         x.vals = cntOrder.map (fun e => if d.blkUp e.2 then (d.cntVal e.1, true) else (0, false))) ∧
       (d.get CNT_CTL_CLR = 1 → ∀ f b, (CntSrc.reg f, b) ∈ cntOrder → d.blkUp b = true → t.get f = 0) ∧
       (d.get CNT_CTL_CLR = 0 → t.regs = d.regs)) ∧
     (let g := if d.tick.cnt.n = d.cnt.n then d else d.tick
      (g.cnt.dump = none → s.becomes .counterLatch g) ∧
      ∀ x, g.cnt.dump = some x → (x.opened = true → s.becomes .counterLatch g) ∧
        s.completes .counterLatch (fun t => t.cnt = { g.cnt with dump := some { x with opened := true } } ∧ t.tb = g.tb ∧ t.thr = g.thr))) ∧
    (d.get CNT_CMD_BUSY = 1 → s.becomes (.snap r) (d.raiseErr 0x15 0 0x0003 3 0x30802 (srcOf r))) ∧
    (d.get CNT_CMD_BUSY = 0 → s.becomes (.snap r) { d.put CNT_CMD_BUSY 1 with cnt := { d.cnt with snap := true } }) ∧
    (∀ f, d.cnt.dump = none → s.becomes (.counterDumpComplete f) d) ∧
    (∀ x, d.cnt.dump = some x →
      (d.get DBG_FRZ_CNT = 1 → d.anyHalted = true → ∀ f, s.becomes (.counterDumpComplete f) d) ∧
      (d.get DBG_FRZ_CNT = 0 ∨ d.anyHalted = false →
        s.completes (.counterDumpComplete true) (fun t => t.cnt.dump = none ∧ t.get CNT_CMD_BUSY = b2n d.cnt.snap ∧ t.get CNT_STATUS_FAIL = 1) ∧
        (d.memOk .counter (d.dumpAddr x.slot) (cdiv x.bytes.length 2) true = true → s.completes (.counterDumpComplete false) (fun t =>
          t.cnt.dump = none ∧ t.get CNT_CMD_BUSY = b2n d.cnt.snap ∧ t.get CNT_STATUS_SEQ = x.n % 2 ^ 32 ∧ t.get CNT_STATUS_SLOT = x.slot % 2 ^ (CNT_STATUS_SLOT).w))))

/-- Debug grants and what they allow (R360–R366). -/
def Obligations.GrantsAndAccess : Prop := Claims.Grants ∧ Claims.DebugAccess

/-- Run control and the registers of a halted thread (R367–R372). -/
def Obligations.HaltedThreads : Prop := Claims.RunControl ∧ Claims.DebugRegisters


/-! ### Chapters 0 and 17: resets, error records and control space -/

/-- Resets of the device. A power-on reset, and a rail below its reset level, reset everything but flash and fuses and wait for RESET_N, whose
release only starts the boot ROM (R402, R345); a device warm reset keeps the sticky log, USED and LOST and says its cause in LASTRST (R23, R394);
a fatal record resets the device (R395); ERR_RST resets the device or one port, hoop, link or cluster for the PF and the handle core with its
KEY, CLEAR empties the log for them, and others are refused (R394, R396). -/
def Obligations.Resets : Prop :=
  ∀ (s : State),
    let d := s.dev
    let fresh := fun (t : Dev) => (∀ q, t.queue q = Queue.reset q) ∧ t.thr = {} ∧ t.mem = {} ∧ t.mle = {} ∧ t.fp = {} ∧ t.hoop = {} ∧ t.rfx = {} ∧
      t.ord = {} ∧ t.ldg = {} ∧ t.rim = {} ∧ t.hif = {} ∧ t.tb = {} ∧ t.fuse = d.fuse ∧
      ∀ a, Tab.get 0xFF t.boot.flash a = Tab.get 0xFF d.flashLost.boot.flash a
    let powers := fun (c : Instr) => s.completes c (fun t => fresh t ∧ t.boot.held = true ∧ t.err = {} ∧ t.pwr = {} ∧ ∀ f : Fld, t.get f = f.rst)
    let warms := fun (c : Instr) (n : Nat) => s.completes c (fun t => fresh t ∧ t.boot.held = d.boot.held ∧ t.err.log = d.err.log ∧
      t.get ERR_STATUS_LASTRST = n ∧ t.get ERR_STATUS_LOST = d.get ERR_STATUS_LOST % 2 ^ 16 ∧ t.pwr = { tripped := d.pwr.tripped } ∧
      ∀ f : Fld, f.key ∉ [ERR_STATUS_LASTRST.key, ERR_STATUS_LOST.key, ERR_STATUS_USED.key] → t.get f = f.rst)
    powers .powerOnReset ∧ powers .supplyResetLevel ∧ s.becomes .resetRelease { d with boot := { d.boot with held := false } } ∧
    (d.onAir = true →
      warms .deviceWarmReset 7 ∧ (d.err.fatal = true → d.pwr.pllLost = false → warms .fatalReset 3) ∧
      (d.err.fatal = false ∨ d.pwr.pllLost = true → s.becomes .fatalReset d)) ∧
    (d.awake = true → ∀ (r : Requester) (key : BitVec 16) (b i : BitVec 5),
      let may := (r = .pf ∨ r = .handle) ∧ key = 0x7A3C
      let refused := d.raiseErr 0x16 0 0x0003 3 0x2FC08 (srcOf r)
      let k := i.toNat
      let blk := Instr.errRstBlock r b i key
      (¬ may → s.becomes (.errRstDevice r key) refused ∧ s.becomes blk refused) ∧
      (may → warms (.errRstDevice r key) 1 ∧
        (rstBlock b.toNat k = none → s.becomes blk (d.raiseErr 0x16 0 0x0001 3 0x2FC08 0)) ∧
        (b = 3 → k < 4 → s.completes blk (fun t => t.fport k = {} ∧ (∀ p, p ≠ k → t.fport p = d.fport p) ∧
          ∀ f : Fld, notFill f.key → t.get f = (if 64 * fpOff k 0 ≤ f.key ∧ f.key < 64 * fpOff k 0x400 then f.rst else d.get f))) ∧
        (b = 0xC → k < 2 → s.completes blk (fun t => t.rlink k = {} ∧ (∀ p, p ≠ k → t.rlink p = d.rlink p) ∧
          ∀ f : Fld, notFill f.key → t.get f = (if 64 * rimOff k 0 ≤ f.key ∧ f.key < 64 * rimOff k 0x80 then f.rst else d.get f))) ∧
        (b = 7 → (d.get (HOOP_SVC_STATE k) = 1 ∨ d.get (HOOP_SVC_STATE k) = 2) → s.completes blk (fun t =>
          t.get (HOOP_SVC_STATE k) = 0 ∧ t.get (HOOP_SVC_CAUSE k) = 1 ∧ ∀ c ∈ t.hoop.ctxs, c.hoop ≠ k)) ∧
        (b = 0xD → k < 12 → (d.get (STK_CLU_SVC_STATE k) = 1 ∨ d.get (STK_CLU_SVC_STATE k) = 2) → s.completes blk (fun t =>
          t.get (STK_CLU_SVC_BUSY k) = 1 ∧ ∀ j, j < 4 → t.get (STK_CORE_CTL_STATE (4 * k + j)) = 3)))) ∧
    (d.awake = true → ∀ r : Requester,
      (r = .pf ∨ r = .handle → s.completes (.logClear r) (fun t => t.err = { d.err with log := [] } ∧ t.get ERR_STATUS_USED = 0 ∧
        t.get ERR_STATUS_LOST = 0 ∧ d.onlyRegs t [ERR_STATUS_LOST, ERR_STATUS_USED])) ∧
      (r ≠ .pf → r ≠ .handle → s.becomes (.logClear r) (d.raiseErr 0x16 0 0x0003 3 0x2FC06 (srcOf r))))

/-- A management tick that is due is taken once: the counts of the tick start again, folded records and the discarded targets are reported (R290,
R299, R308, R313, R393); asleep, only the boundary is taken. -/
def Sys2Proof.Claims.ManagementTick : Prop :=
  ∀ (s : State), s.dev.onAir = true →
    let d := s.dev
    let e : Dev := { d with tb := { d.tb with mgmtDue := d.tb.mgmtDue - 1 } }
    (d.tb.mgmtDue = 0 → s.becomes .managementTick d) ∧
    (d.tb.mgmtDue ≠ 0 → (d.asleep = true → s.becomes .managementTick e) ∧
      (d.asleep = false → s.completes .managementTick (fun t => t.tb = { e.tb with disc := 0, discFirst := 0 } ∧ t.mem.wayErr = [] ∧
        t.mem.symTick = [] ∧ t.err.coal = [] ∧ t.err.lostRose = false ∧ t.get TB_NS_NS = d.get TB_NS_NS ∧ t.boot.held = d.boot.held ∧
        ∀ a, t.memByte a = d.memByte a)))

/-- Accesses to control space by a stake core or the access engine: an unmapped offset and an access that is not a whole register are discarded with
their record; a whole one reads or writes the register (R5, R389). A write sets RW fields, sets or clears W1S and W1C ones, RWL ones while
unlocked, and leaves the others; a read gives the value and clears RC fields unless it carries PEEK (R6–R8). A 32-bit path splits a 64-bit
register over its latches (R309, R310). A reserved encoding leaves the register and is recorded, READ and WRITE set together among them (R9, R406).
A block's LOCK goes to 1 (R7). -/
def Sys2Proof.Claims.ControlSpace : Prop :=
  (∀ x ∈ regMap, x.fields.Pairwise (fun a b => a.lo ≠ b.lo)) ∧
  (∀ (d : Dev) (r : Requester) (l : Loc) (v : Nat) (x : FieldDesc), l.reg.fields.Pairwise (fun a b => a.lo ≠ b.lo) → x ∈ l.reg.fields →
    (∀ f, lockAt l.base = some f → ∀ y ∈ l.reg.fields, (l.fld r y).key ≠ f.key) →
    let f := l.fld r x
    let a := 2 ^ alignOf l.reg.name
    let w := bits (v / a * a) (x.lo + x.w - 1) x.lo
    let t := d.putFields r l v
    (x.ty = .rw → t.get f = w % 2 ^ x.w) ∧ (x.ty = .rwl → t.get f = if d.locked l.base then d.get f else w % 2 ^ x.w) ∧
    (x.ty = .w1s → t.get f = (d.get f ||| w) % 2 ^ x.w) ∧ (x.ty = .w1c → t.get f = (d.get f - (d.get f &&& w)) % 2 ^ x.w) ∧
    (x.ty = .ro ∨ x.ty = .rc ∨ x.ty = .wo → t.get f = d.get f) ∧
    let u := d.clearRc r l
    (x.ty = .rc → u.get f = 0) ∧ (x.ty ≠ .rc → u.get f = d.get f)) ∧
  (∀ (s : State) (r : Requester) (off : BitVec 23) (bytes : Fin 16) (v : BitVec 64), s.dev.awake = true →
    (∃ c, r = .stake c) ∨ (∃ t, r = .accEngine t) →
    let d := s.dev
    let n := off.toNat
    let wr := Instr.registerWrite r off bytes v
    let rd := fun p => Instr.rcFieldRead r off bytes p
    let unmapped := d.raiseErr (blockOfUnmapped n) 0 0x0004 3 n (srcOf r)
    (locate n = none → s.becomes wr unmapped ∧ ∀ p, s.becomes (rd p) (unmapped.emit (.readData n 0))) ∧
    (∀ l, locate n = some l →
      let whole := l.part = 0 ∧ bytes.val = 2 * l.reg.words
      let bad := d.raiseErr (blockAt n) l.inst 0x0005 3 n (srcOf r + bytes * 256)
      (¬ whole → s.becomes wr bad ∧ ∀ p, s.becomes (rd p) (bad.emit (.readData n 0))) ∧
      (whole → s.becomes wr (d.regWrite io r l (v.toNat % 2 ^ (8 * bytes.val))) ∧
        (d.reserved l (v.toNat % 2 ^ (8 * bytes.val)) = true → s.becomes wr (d.errReserved (blockAt l.base) l.inst l.base)) ∧
        (l.reg.name ∈ [.MLE_GW_CMD, .FP_NH_CMD, .BSK_SHARDQ, .HOOP_SHARD, .RIM_BSET] → v.toNat.testBit 30 = true → v.toNat.testBit 31 = true →
          s.becomes wr (d.errReserved (blockAt l.base) l.inst l.base)) ∧
        (l.reg.name ≠ .FP_TXTS_INFO → l.reg.name ≠ .TRC_BUFDATA → l.reg.name ≠ .DBG_VT_TX →
          (∀ t, r = .accEngine t → s.becomes (rd true) (d.emit (.readData n (d.regVal r l)))) ∧
          s.becomes (rd false) ((d.clearRc r l).emit (.readData n (d.regVal r l))))))) ∧
  (∀ (s : State) (off : BitVec 20) (v : BitVec 32) (l : Loc), s.dev.awake = true → locate off.toNat = some l → l.part = 0 → l.reg.quad = true →
    let d := s.dev
    let lo := v.toNat
    let drop : Dev := { d with dbg := { d.dbg with wlatch := Tab.del d.dbg.wlatch 0 } }
    s.becomes (.splitLowPairRead true off false) (let x := d.regRead .handle l false
      (x.1.setRlatch 0 l.base (x.2 / 2 ^ 32)).emit (.readData off.toNat (x.2 % 2 ^ 32))) ∧
    s.becomes (.splitLowPairWrite true off v) (d.setWlatch 0 l.base lo) ∧
    (∀ w h, locate (off.toNat + 2) = some { l with part := 2 } →
      (Tab.find d.dbg.wlatch 0 = some (l.base, w) → h = v.toNat →
        s.becomes (.splitHighPairWrite true off v) (drop.regWrite io .handle { l with part := 2 } (w + h * 2 ^ 32))) ∧
      ((∀ u, Tab.find d.dbg.wlatch 0 ≠ some (l.base, u)) →
        s.becomes (.splitHighPairWrite true off v) (d.raiseErr (blockAt l.base) l.inst 0x0006 3 l.base (srcOf .handle)))) ∧
    (d.asleep = false → d.level 0 = 2 →
      s.becomes (.splitLowPairWrite false off v) (d.setWlatch 1 l.base lo) ∧
      s.becomes (.splitLowPairRead false off true) (let x := d.regRead .dbg0 l true
        (x.1.setRlatch 1 l.base (x.2 / 2 ^ 32)).emit (.readData off.toNat (x.2 % 2 ^ 32)))) ∧
    (d.level 0 = 0 → l.reg.name.banked = false → s.becomes (.splitLowPairWrite false off v) { d with dbg := { d.dbg with derr := true } })) ∧
  (∀ (s : State) (r : Requester) (k : Fin 8), s.dev.awake = true → (∃ c, r = .stake c) ∨ r = .handle →
    let d := s.dev
    let lock := [BSK_LOCK_LOCK, HOOP_LOCK_LOCK, LDG_LOCK_LOCK, RIM_LOCK_LOCK, HIF_LOCK_LOCK, MEM_LOCK_LOCK, TB_LOCK_LOCK, PWR_LOCK_LOCK].getD k MEM_LOCK_LOCK
    let region := if k = 1 then (d.get HOOP_LS_BASE_ADDR, d.get HOOP_LS_BASE_ADDR + 160 * 2 ^ 20)
      else (d.get LDG_BASE_ADDR, d.get LDG_BASE_ADDR + 16 * 2 ^ 20)
    s.completes (.blockLockSet r k) (fun t => t.get lock = 1 ∧
      (k = 1 ∨ k = 2 → d.get lock ≠ 1 → d.protFree region.1 region.2 = true → Tab.find t.mem.prot k = some region)))

/-- The time base and the management tick (R306–R308). -/
def Obligations.TimeBaseAndTick : Prop := Claims.TimeBase ∧ Claims.ManagementTick


/-- Requester r's access of `bytes` bytes at word offset off is the whole of register l, over a path that is open to it (R5, R186, R187, R309,
R358): a stake core and the access engine reach control space at the register's size, the handle core and transport 0 32-bit registers, the PF what
BAR0 maps, a function its own page. -/
def Sys2Proof.Machine.Dev.reaches (d : Dev) (r : Requester) (off bytes : Nat) (l : Loc) : Prop :=
  l.part = 0 ∧
  match r with
  | .stake _ => locate off = some l ∧ bytes = 2 * l.reg.words
  | .accEngine _ => locate off = some l ∧ bytes = 2 * l.reg.words
  | .handle => locate off = some l ∧ bytes = 4 ∧ l.reg.quad = false
  | .dbg0 => locate off = some l ∧ bytes = 4 ∧ l.reg.quad = false ∧ d.asleep = false ∧ d.level 0 = 2
  | .pf => locate off = some l ∧ bytes = 2 * l.reg.words ∧ off < 0x100000 ∧ d.barOpen 0 = true ∧ d.inFlr 0 = false ∧ d.barMaps off = true ∧
    (debugOnly l.base = true → d.mayDebug .pf 2 = true)
  | .fnPage f => off < 0x80 ∧ locate (pageOff f off) = some l ∧ bytes = 2 * l.reg.words ∧ d.barOpen f = true ∧ d.inFlr f = false ∧
    (f = 0 → d.barMaps (0x780000 + off) = true)

/-- Registers whose write does more than set their fields: it starts a command, moves a table entry or a service state, or is refused by another
state. -/
def Sys2Proof.actingWrites : List RegName :=
  [.DBG_AUTH_CMD, .DBG_ACC_CMD, .DBG_CORE_CTL, .DBG_REGSEL, .DBG_VT_RX, .DBG_ENG_CTL, .DBG_ENG_REGSEL, .TRC_CTL, .TRC_SINK_CFG, .TRC_SRC, .CNT_CMD,
   .CNT_DUMP_BASE] ++
  [.RING_CTRL, .RING_BASE, .RING_DB_ADDR, .RING_ERR, .RING_ST_ADDR] ++
  [.MLE_INV_CMD, .MLE_KEY_CMD, .MLE_GW_CMD, .FP_CFG, .RIM_CFG, .FP_SVC, .FP_NH_CMD, .BSK_LOCK, .HOOP_LOCK, .LDG_LOCK, .BSK_Q_CMD, .BSK_SHARDQ,
   .BSK_QA_CMD, .HOOP_SHARD, .HOOP_MIG_CMD, .HOOP_SVC, .RFX_TBL_CMD, .RFX_CRV_CMD, .ORD_CFG, .ORD_TBL_CMD, .LDG_TBL_CMD, .RIM_BSET, .RIM_SVC,
   .HIF_CFG, .HIF_BAR2_BASE, .STK_CLU_SVC, .STK_CORE_CTL, .STK_SWI, .MEM_INIT, .SCR_CMD] ++
  [.TB_STEP, .TB_WD_KICK, .TB_WD_TRIAL, .TB_WD_HANDLE, .TB_WD_CORE, .TB_WD_HOOP, .TB_TMR_PERIOD, .TB_TMR_CTL, .BOOT_CONFIRM, .BOOT_IMG_CMD,
   .BOOT_MEAS_CMD, .PWR_CTL, .PWR_DVFS, .PWR_REG, .ERR_LOG_CMD, .ERR_RST]

/-- Registers whose read does more than clear their RC fields (R81, R373, R381), and those that show a state of the block beside their fields. -/
def Sys2Proof.actingReads : List RegName := [.FP_TXTS_INFO, .TRC_BUFDATA, .DBG_VT_TX]
def Sys2Proof.views : List RegName :=
  [.HIF_FN_ID, .HIF_FN_USE, .BSK_FN_USE, .HIF_FN_QUOTA, .HIF_FN_WEIGHT, .HOOP_SVC, .BSK_LT_FREE, .STK_SWI, .MEM_PROT_VIEW0, .MEM_PROT_VIEW1] ++
  [.TB_WD_VIEW, .TB_WD_CORE, .TB_WD_HOOP, .TB_WD_TRIAL, .TB_WD_HANDLE, .WV_CRED_VIEW, .BOOT_MEAS, .ERR_LOG]

/-- A write of v set the fields of register l as their types state (R6), and no other field. -/
def Sys2Proof.Machine.Dev.tookWrite (d t : Dev) (r : Requester) (l : Loc) (v : Nat) : Prop :=
  let u := v / 2 ^ alignOf l.reg.name * 2 ^ alignOf l.reg.name
  (∀ x ∈ l.reg.fields,
    let f := l.fld r x
    let w := bits u (x.lo + x.w - 1) x.lo
    notFill f.key →
      (x.ty = .rw → t.get f = w % 2 ^ x.w) ∧
      (x.ty = .rwl → (∀ g, lockAt l.base = some g → ∀ y ∈ l.reg.fields, (l.fld r y).key ≠ g.key) →
        t.get f = if d.locked l.base then d.get f else w % 2 ^ x.w) ∧
      (x.ty = .w1s → t.get f = (d.get f ||| w) % 2 ^ x.w) ∧ (x.ty = .w1c → t.get f = (d.get f - (d.get f &&& w)) % 2 ^ x.w) ∧
      (x.ty = .ro ∨ x.ty = .rc ∨ x.ty = .wo → t.get f = d.get f)) ∧
  d.onlyRegs t (l.reg.fields.map (l.fld r))

/-- A read of register l answered v at offset off: each field in its place, and it cleared the register's RC fields, unless it carried PEEK, and
changed no other field (R6, R8). -/
def Sys2Proof.Machine.Dev.gaveRead (d t : Dev) (r : Requester) (l : Loc) (off v : Nat) (peek : Bool) : Prop :=
  t.out = .readData off v :: d.out ∧
  (peek = false → ∀ x ∈ l.reg.fields, x.ty = .rc → t.get (l.fld r x) = 0) ∧
  d.onlyRegs t (if peek then [] else (l.reg.fields.filter (fun x => x.ty == .rc)).map (l.fld r))

/-- Register accesses by every requester. A write that reaches a register whose write only sets fields, with no reserved encoding, sets them as their
types state; a read that reaches a register answers its value, which holds each field in its place, and clears its RC fields unless it carries PEEK.
Update-DR of DBGDR, with DBG_ACCESS selected, does the same for transport 0. On the 32-bit paths a low-pair read answers the low half and latches the high half of the same instant, a low-pair write only fills the write latch,
and the high-pair write commits both (R5–R8, R309, R310, R358, R363, R389). -/
def Sys2Proof.Claims.RegisterAccess : Prop :=
  ∀ (s : State), s.dev.awake = true →
    let d := s.dev
    (∀ (r : Requester) (off : BitVec 23) (bytes : Fin 16) (v : BitVec 64) (l : Loc), d.reaches r off.toNat bytes l →
      let u := v.toNat % 2 ^ (8 * bytes.val)
      l.reg.name ∉ actingWrites → d.reserved l u = false → d.regDead l.base = false →
      ((∃ f, r = .fnPage f) ∨ l.base < 0x10000 ∨ 0x20000 ≤ l.base) →
      s.completes (.registerWrite r off bytes v) (fun t => d.tookWrite t r l u ∧ t.out = d.out)) ∧
    (∀ (r : Requester) (off : BitVec 23) (bytes : Fin 16) (p : Bool) (l : Loc), d.reaches r off.toNat bytes l → l.reg.name ∉ actingReads →
      (p = true → ∃ t, r = .accEngine t ∨ r = .dbg0) →
      s.completes (.rcFieldRead r off bytes p) (fun t => d.gaveRead t r l off.toNat (d.regVal r l) p)) ∧
    (∀ (r : Requester) (l : Loc), l.reg ∈ regMap → l.reg.name ∉ actingReads ++ views →
      (∀ x ∈ l.reg.fields, d.get (l.fld r x) < 2 ^ x.w) →
      ∀ x ∈ l.reg.fields, x.ty ≠ .wo → d.regVal r l / 2 ^ x.lo % 2 ^ x.w = d.get (l.fld r x)) ∧
    (∀ (hd : Bool) (off : BitVec 20) (l : Loc),
      let r := if hd then Requester.handle else .dbg0
      let k := if hd then 0 else 1
      locate off.toNat = some l → l.part = 0 → l.reg.quad = true → (hd = false → d.asleep = false ∧ d.level 0 = 2) →
      (∀ p, l.reg.name ∉ actingReads → (p = true → hd = false) →
        s.completes (.splitLowPairRead hd off p) (fun t => d.gaveRead t r l off.toNat (d.regVal r l % 2 ^ 32) p ∧
          Tab.find t.dbg.rlatch k = some (l.base, d.regVal r l / 2 ^ 32))) ∧
      (∀ v : BitVec 32,
        s.completes (.splitLowPairWrite hd off v) (fun t => Tab.find t.dbg.wlatch k = some (l.base, v.toNat) ∧ t.out = d.out ∧ d.onlyRegs t []) ∧
        (∀ w, Tab.find d.dbg.wlatch k = some (l.base, w) → locate (off.toNat + 2) = some { l with part := 2 } →
          let u := w + v.toNat * 2 ^ 32
          l.reg.name ∉ actingWrites → d.reserved l u = false → d.regDead l.base = false → l.base < 0x10000 ∨ 0x20000 ≤ l.base →
          s.completes (.splitHighPairWrite hd off v) (fun t => d.tookWrite t r l u ∧ Tab.find t.dbg.wlatch k = none ∧ t.out = d.out)))) ∧
    (∀ (off : BitVec 20) (p : Bool) (v : BitVec 32) (l : Loc), d.dbg.ir = 0x10 → d.dbg.done = true → d.reaches .dbg0 off.toNat 4 l →
      (l.reg.name ∉ actingReads → s.completes (.dbgdrUpdate off false p v) (fun t =>
        t.dbg.ddata = d.regVal .dbg0 l ∧ t.dbg.derr = false ∧ (p = false → ∀ x ∈ l.reg.fields, x.ty = .rc → t.get (l.fld .dbg0 x) = 0) ∧
        d.onlyRegs t (if p then [] else (l.reg.fields.filter (fun x => x.ty == .rc)).map (l.fld .dbg0)))) ∧
      (l.reg.name ∉ actingWrites → d.reserved l v.toNat = false → d.regDead l.base = false → l.base < 0x10000 ∨ 0x20000 ≤ l.base →
        s.completes (.dbgdrUpdate off true false v) (fun t => d.tookWrite t .dbg0 l v.toNat ∧ t.dbg.derr = false))) ∧
    (∀ (r : Requester) (k : Fin 8),
      let lock := [BSK_LOCK_LOCK, HOOP_LOCK_LOCK, LDG_LOCK_LOCK, RIM_LOCK_LOCK, HIF_LOCK_LOCK, MEM_LOCK_LOCK, TB_LOCK_LOCK, PWR_LOCK_LOCK].getD k
        MEM_LOCK_LOCK
      (∃ l, d.reaches r (lockOff k) 4 l) → (∀ f, r ≠ .fnPage f) →
      s.completes (.blockLockSet r k) (fun t => t.get lock = 1))

/-- Control space: its registers, the paths to them, and the locks (R5–R9, R309, R310, R358, R389). -/
def Obligations.ControlSpace : Prop := Claims.ControlSpace ∧ Claims.RegisterAccess
end

