-- ==== Sys2Proof/Laws/Tab.lean ====
section
/-!
SUPPORT. What a read of a sparse table finds after a write, and that every operation of it keeps the canonical form.
-/
namespace Sys2Proof.Machine

variable {α : Type}

@[simp] theorem Tab.find_ins_same (t : Tab α) (k : Nat) (v : α) : Tab.find (Tab.ins t k v) k = some v := by
  induction t with
  | nil => simp [Tab.ins, Tab.find]
  | cons e t ih =>
    obtain ⟨j, w⟩ := e
    unfold Tab.ins
    split
    · simp [Tab.find]
    · split
      · simp [Tab.find]
      · rename_i h1 h2
        simp only [Tab.find]
        rw [if_neg (fun h => h2 h.symm)]
        exact ih

theorem Tab.find_ins_ne (t : Tab α) {k j : Nat} (v : α) (h : j ≠ k) : Tab.find (Tab.ins t k v) j = Tab.find t j := by
  induction t with
  | nil => simp [Tab.ins, Tab.find, Ne.symm h]
  | cons e t ih =>
    obtain ⟨i, w⟩ := e
    unfold Tab.ins
    split
    · simp [Tab.find, Ne.symm h]
    · split
      · rename_i h2
        subst h2
        simp [Tab.find, Ne.symm h]
      · simp only [Tab.find]
        split
        · rfl
        · exact ih

theorem Tab.find_del (t : Tab α) (k j : Nat) : Tab.find (Tab.del t k) j = if j = k then none else Tab.find t j := by
  induction t with
  | nil => simp [Tab.del, Tab.find]
  | cons e t ih =>
    obtain ⟨i, w⟩ := e
    by_cases hik : i = k
    · rw [show Tab.del ((i, w) :: t) k = Tab.del t k by simp [Tab.del, hik], ih]
      by_cases hj : j = k
      · simp [hj]
      · simp [Tab.find, hj, hik, Ne.symm hj]
    · rw [show Tab.del ((i, w) :: t) k = (i, w) :: Tab.del t k by simp [Tab.del, hik]]
      simp only [Tab.find, ih]
      by_cases hj : i = j
      · simp [← hj, hik]
      · simp [hj]

@[simp] theorem Tab.get_set_same [DecidableEq α] (d : α) (t : Tab α) (k : Nat) (v : α) : Tab.get d (Tab.set d t k v) k = v := by
  unfold Tab.get Tab.set
  split
  · next h => simp [Tab.find_del, h]
  · simp

theorem Tab.get_set_ne [DecidableEq α] (d d' : α) (t : Tab α) {k j : Nat} (v : α) (h : j ≠ k) :
    Tab.get d (Tab.set d' t k v) j = Tab.get d t j := by
  unfold Tab.get Tab.set
  split
  · simp [Tab.find_del, h]
  · simp [Tab.find_ins_ne _ _ h]

/-- Reads of keys other than those of a folded insertion. -/
theorem Tab.find_foldr_ins (t : Tab α) (k : Nat) : Tab.find (t.foldr (fun e a => Tab.ins a e.1 e.2) []) k = Tab.find t k := by
  induction t with
  | nil => rfl
  | cons e t ih =>
    obtain ⟨j, w⟩ := e
    simp only [List.foldr_cons, Tab.find]
    by_cases h : j = k
    · subst h; simp
    · rw [Tab.find_ins_ne _ _ (Ne.symm h), ih, if_neg h]

@[simp] theorem Tab.get_tidy (d : α) (t : Tab α) (k : Nat) : Tab.get d (Tab.tidy t) k = Tab.get d t k := by
  unfold Tab.tidy Tab.get
  split
  · rfl
  · rw [Tab.find_foldr_ins]

theorem Tab.get_foldr_set [DecidableEq α] (d : α) (t : Tab α) (k : Nat) :
    Tab.get d (t.foldr (fun e a => Tab.set d a e.1 e.2) []) k = Tab.get d t k := by
  induction t with
  | nil => rfl
  | cons e t ih =>
    obtain ⟨j, w⟩ := e
    simp only [List.foldr_cons]
    by_cases h : j = k
    · subst h; rw [Tab.get_set_same]; simp [Tab.get, Tab.find]
    · rw [Tab.get_set_ne _ _ _ _ (Ne.symm h), ih]
      simp [Tab.get, Tab.find, h]

@[simp] theorem Tab.get_canon [DecidableEq α] (d : α) (t : Tab α) (k : Nat) : Tab.get d (Tab.canon d t) k = Tab.get d t k := by
  unfold Tab.canon
  split
  · rfl
  · exact Tab.get_foldr_set d t k

/-! ### The canonical form -/

/-- Every key of a table lies above k. -/
def Tab.above (k : Nat) (t : Tab α) : Prop := ∀ e ∈ t, k < e.1

theorem Tab.sorted_cons (j : Nat) (v : α) (t : Tab α) : Tab.sorted ((j, v) :: t) = true ↔ Tab.above j t ∧ Tab.sorted t = true := by
  induction t generalizing j v with
  | nil => simp [Tab.sorted, Tab.above]
  | cons e t ih =>
    obtain ⟨k, w⟩ := e
    simp only [Tab.sorted, Bool.and_eq_true, decide_eq_true_eq]
    constructor
    · rintro ⟨h, hs⟩
      refine ⟨?_, hs⟩
      have := (ih k w).1 hs
      intro x hx
      rcases List.mem_cons.1 hx with rfl | hx
      · exact h
      · exact Nat.lt_trans h (this.1 x hx)
    · rintro ⟨h, hs⟩
      exact ⟨h (k, w) (by simp), hs⟩

theorem Tab.mem_ins {t : Tab α} {k : Nat} {v : α} {e : Nat × α} (h : e ∈ Tab.ins t k v) : e = (k, v) ∨ e ∈ t := by
  induction t with
  | nil => simpa [Tab.ins] using h
  | cons x t ih =>
    obtain ⟨j, w⟩ := x
    unfold Tab.ins at h
    split at h
    · simpa using h
    · split at h
      · rcases List.mem_cons.1 h with h | h
        · exact .inl h
        · exact .inr (List.mem_cons_of_mem _ h)
      · rcases List.mem_cons.1 h with h | h
        · exact .inr (by simp [h])
        · rcases ih h with h | h
          · exact .inl h
          · exact .inr (List.mem_cons_of_mem _ h)

theorem Tab.sorted_ins {t : Tab α} (k : Nat) (v : α) (h : Tab.sorted t = true) : Tab.sorted (Tab.ins t k v) = true := by
  induction t with
  | nil => simp [Tab.ins, Tab.sorted]
  | cons x t ih =>
    obtain ⟨j, w⟩ := x
    have hc := (Tab.sorted_cons j w t).1 h
    unfold Tab.ins
    split
    · next hk =>
      refine (Tab.sorted_cons _ _ _).2 ⟨?_, h⟩
      intro e he
      rcases List.mem_cons.1 he with rfl | he
      · exact hk
      · exact Nat.lt_trans hk (hc.1 e he)
    · split
      · next hk =>
        subst hk
        exact (Tab.sorted_cons _ _ _).2 hc
      · next h1 h2 =>
        refine (Tab.sorted_cons _ _ _).2 ⟨?_, ih hc.2⟩
        intro e he
        rcases Tab.mem_ins he with rfl | he
        · show j < k
          omega
        · exact hc.1 e he

theorem Tab.sorted_filter {t : Tab α} (p : Nat × α → Bool) (h : Tab.sorted t = true) : Tab.sorted (t.filter p) = true := by
  induction t with
  | nil => rfl
  | cons x t ih =>
    obtain ⟨j, w⟩ := x
    have hc := (Tab.sorted_cons j w t).1 h
    simp only [List.filter]
    split
    · exact (Tab.sorted_cons _ _ _).2 ⟨fun e he => hc.1 e (List.mem_filter.1 he).1, ih hc.2⟩
    · exact ih hc.2

theorem Tab.sorted_del {t : Tab α} (k : Nat) (h : Tab.sorted t = true) : Tab.sorted (Tab.del t k) = true := Tab.sorted_filter _ h

theorem Tab.sorted_delRange {t : Tab α} (lo hi : Nat) (h : Tab.sorted t = true) : Tab.sorted (Tab.delRange t lo hi) = true :=
  Tab.sorted_filter _ h

theorem Tab.sorted_set [DecidableEq α] {d : α} {t : Tab α} (k : Nat) (v : α) (h : Tab.sorted t = true) :
    Tab.sorted (Tab.set d t k v) = true := by
  unfold Tab.set
  split
  · exact Tab.sorted_del k h
  · exact Tab.sorted_ins k v h

@[simp] theorem Tab.sorted_tidy (t : Tab α) : Tab.sorted (Tab.tidy t) = true := by
  have : ∀ l : Tab α, Tab.sorted (l.foldr (fun e a => Tab.ins a e.1 e.2) []) = true := by
    intro l
    induction l with
    | nil => rfl
    | cons e l ih => exact Tab.sorted_ins _ _ ih
  unfold Tab.tidy
  split
  · assumption
  · exact this t

/-- A write keeps the canonical form. -/
theorem Tab.wf_set [DecidableEq α] {d : α} {t : Tab α} (k : Nat) (v : α) (h : Tab.wf d t = true) : Tab.wf d (Tab.set d t k v) = true := by
  simp only [Tab.wf, Bool.and_eq_true] at h ⊢
  refine ⟨Tab.sorted_set k v h.1, ?_⟩
  simp only [Tab.noDefault, List.all_eq_true, decide_eq_true_eq] at h ⊢
  intro e he
  unfold Tab.set at he
  split at he
  · exact h.2 e (List.mem_filter.1 he).1
  · next hv =>
    rcases Tab.mem_ins he with rfl | he
    · exact hv
    · exact h.2 e he

theorem Tab.wf_delRange [DecidableEq α] {d : α} {t : Tab α} (lo hi : Nat) (h : Tab.wf d t = true) :
    Tab.wf d (Tab.delRange t lo hi) = true := by
  simp only [Tab.wf, Bool.and_eq_true] at h ⊢
  refine ⟨Tab.sorted_delRange lo hi h.1, ?_⟩
  simp only [Tab.noDefault, List.all_eq_true, decide_eq_true_eq] at h ⊢
  exact fun e he => h.2 e (List.mem_filter.1 he).1

@[simp] theorem Tab.wf_canon [DecidableEq α] (d : α) (t : Tab α) : Tab.wf d (Tab.canon d t) = true := by
  unfold Tab.canon
  split
  · assumption
  · have : ∀ l : Tab α, Tab.wf d (l.foldr (fun e a => Tab.set d a e.1 e.2) []) = true := by
      intro l
      induction l with
      | nil => rfl
      | cons e l ih => exact Tab.wf_set _ _ ih
    exact this t

end Sys2Proof.Machine
end

