-- ==== Sys2Proof/Laws/State.lean ====
section
/-!
SUPPORT. Reads of the block's state after its updates: a register field after a write of a field, the other parts of the state after a
register write, an output, a drawn free value, and after what every command ends with.
-/
namespace Sys2Proof.Machine

/-! ### Register fields -/

@[simp] theorem Dev.get_put_same (d : Dev) (f : Fld) (v : Nat) : (d.put f v).get f = v % 2 ^ f.w := Tab.get_set_same _ _ _ _

/-- A field of a device given by its parts is read from the part that is the register file. -/
@[simp] theorem Dev.get_mk (f : Fld) (r a b c d e g h i j k l m n o p q s t u v w) :
    Dev.get ⟨r, a, b, c, d, e, g, h, i, j, k, l, m, n, o, p, q, s, t, u, v, w⟩ f = Tab.get f.rst r f.key := rfl

@[simp] theorem Dev.get_regs (d : Dev) (f : Fld) : Tab.get f.rst d.regs f.key = d.get f := rfl

theorem Dev.get_put_ne (d : Dev) {f g : Fld} (v : Nat) (h : g.key ≠ f.key) : (d.put f v).get g = d.get g := Tab.get_set_ne _ _ _ _ h

@[simp] theorem Dev.put_out (d : Dev) (f : Fld) (v : Nat) : (d.put f v).out = d.out := rfl
@[simp] theorem Dev.put_freeCtr (d : Dev) (f : Fld) (v : Nat) : (d.put f v).freeCtr = d.freeCtr := rfl
@[simp] theorem Dev.put_mle (d : Dev) (f : Fld) (v : Nat) : (d.put f v).mle = d.mle := rfl
@[simp] theorem Dev.put_fp (d : Dev) (f : Fld) (v : Nat) : (d.put f v).fp = d.fp := rfl
@[simp] theorem Dev.put_bsk (d : Dev) (f : Fld) (v : Nat) : (d.put f v).bsk = d.bsk := rfl
@[simp] theorem Dev.put_hoop (d : Dev) (f : Fld) (v : Nat) : (d.put f v).hoop = d.hoop := rfl
@[simp] theorem Dev.put_rfx (d : Dev) (f : Fld) (v : Nat) : (d.put f v).rfx = d.rfx := rfl
@[simp] theorem Dev.put_ord (d : Dev) (f : Fld) (v : Nat) : (d.put f v).ord = d.ord := rfl
@[simp] theorem Dev.put_ldg (d : Dev) (f : Fld) (v : Nat) : (d.put f v).ldg = d.ldg := rfl
@[simp] theorem Dev.put_rim (d : Dev) (f : Fld) (v : Nat) : (d.put f v).rim = d.rim := rfl
@[simp] theorem Dev.put_hif (d : Dev) (f : Fld) (v : Nat) : (d.put f v).hif = d.hif := rfl
@[simp] theorem Dev.put_thr (d : Dev) (f : Fld) (v : Nat) : (d.put f v).thr = d.thr := rfl
@[simp] theorem Dev.put_mem (d : Dev) (f : Fld) (v : Nat) : (d.put f v).mem = d.mem := rfl
@[simp] theorem Dev.put_boot (d : Dev) (f : Fld) (v : Nat) : (d.put f v).boot = d.boot := rfl
@[simp] theorem Dev.put_fuse (d : Dev) (f : Fld) (v : Nat) : (d.put f v).fuse = d.fuse := rfl
@[simp] theorem Dev.put_err (d : Dev) (f : Fld) (v : Nat) : (d.put f v).err = d.err := rfl
@[simp] theorem Dev.put_tb (d : Dev) (f : Fld) (v : Nat) : (d.put f v).tb = d.tb := rfl
@[simp] theorem Dev.put_pwr (d : Dev) (f : Fld) (v : Nat) : (d.put f v).pwr = d.pwr := rfl
@[simp] theorem Dev.put_dbg (d : Dev) (f : Fld) (v : Nat) : (d.put f v).dbg = d.dbg := rfl
@[simp] theorem Dev.put_trc (d : Dev) (f : Fld) (v : Nat) : (d.put f v).trc = d.trc := rfl
@[simp] theorem Dev.put_cnt (d : Dev) (f : Fld) (v : Nat) : (d.put f v).cnt = d.cnt := rfl

/-! ### Outputs and free values -/

@[simp] theorem Dev.emit_freeCtr (d : Dev) (o : Out) : (d.emit o).freeCtr = d.freeCtr := rfl
@[simp] theorem Dev.emit_mle (d : Dev) (o : Out) : (d.emit o).mle = d.mle := rfl
@[simp] theorem Dev.emit_fp (d : Dev) (o : Out) : (d.emit o).fp = d.fp := rfl
@[simp] theorem Dev.emit_bsk (d : Dev) (o : Out) : (d.emit o).bsk = d.bsk := rfl
@[simp] theorem Dev.emit_hoop (d : Dev) (o : Out) : (d.emit o).hoop = d.hoop := rfl
@[simp] theorem Dev.emit_rfx (d : Dev) (o : Out) : (d.emit o).rfx = d.rfx := rfl
@[simp] theorem Dev.emit_ord (d : Dev) (o : Out) : (d.emit o).ord = d.ord := rfl
@[simp] theorem Dev.emit_ldg (d : Dev) (o : Out) : (d.emit o).ldg = d.ldg := rfl
@[simp] theorem Dev.emit_rim (d : Dev) (o : Out) : (d.emit o).rim = d.rim := rfl
@[simp] theorem Dev.emit_hif (d : Dev) (o : Out) : (d.emit o).hif = d.hif := rfl
@[simp] theorem Dev.emit_thr (d : Dev) (o : Out) : (d.emit o).thr = d.thr := rfl
@[simp] theorem Dev.emit_mem (d : Dev) (o : Out) : (d.emit o).mem = d.mem := rfl
@[simp] theorem Dev.emit_boot (d : Dev) (o : Out) : (d.emit o).boot = d.boot := rfl
@[simp] theorem Dev.emit_fuse (d : Dev) (o : Out) : (d.emit o).fuse = d.fuse := rfl
@[simp] theorem Dev.emit_err (d : Dev) (o : Out) : (d.emit o).err = d.err := rfl
@[simp] theorem Dev.emit_tb (d : Dev) (o : Out) : (d.emit o).tb = d.tb := rfl
@[simp] theorem Dev.emit_pwr (d : Dev) (o : Out) : (d.emit o).pwr = d.pwr := rfl
@[simp] theorem Dev.emit_dbg (d : Dev) (o : Out) : (d.emit o).dbg = d.dbg := rfl
@[simp] theorem Dev.emit_trc (d : Dev) (o : Out) : (d.emit o).trc = d.trc := rfl
@[simp] theorem Dev.emit_cnt (d : Dev) (o : Out) : (d.emit o).cnt = d.cnt := rfl
@[simp] theorem Dev.emit_out (d : Dev) (o : Out) : (d.emit o).out = o :: d.out := rfl
@[simp] theorem Dev.emit_get (d : Dev) (o : Out) (f : Fld) : (d.emit o).get f = d.get f := rfl

@[simp] theorem Dev.drawn_out (d : Dev) : d.drawn.out = d.out := rfl
@[simp] theorem Dev.drawn_mle (d : Dev) : d.drawn.mle = d.mle := rfl
@[simp] theorem Dev.drawn_fp (d : Dev) : d.drawn.fp = d.fp := rfl
@[simp] theorem Dev.drawn_bsk (d : Dev) : d.drawn.bsk = d.bsk := rfl
@[simp] theorem Dev.drawn_hoop (d : Dev) : d.drawn.hoop = d.hoop := rfl
@[simp] theorem Dev.drawn_rfx (d : Dev) : d.drawn.rfx = d.rfx := rfl
@[simp] theorem Dev.drawn_ord (d : Dev) : d.drawn.ord = d.ord := rfl
@[simp] theorem Dev.drawn_ldg (d : Dev) : d.drawn.ldg = d.ldg := rfl
@[simp] theorem Dev.drawn_rim (d : Dev) : d.drawn.rim = d.rim := rfl
@[simp] theorem Dev.drawn_hif (d : Dev) : d.drawn.hif = d.hif := rfl
@[simp] theorem Dev.drawn_thr (d : Dev) : d.drawn.thr = d.thr := rfl
@[simp] theorem Dev.drawn_mem (d : Dev) : d.drawn.mem = d.mem := rfl
@[simp] theorem Dev.drawn_boot (d : Dev) : d.drawn.boot = d.boot := rfl
@[simp] theorem Dev.drawn_fuse (d : Dev) : d.drawn.fuse = d.fuse := rfl
@[simp] theorem Dev.drawn_err (d : Dev) : d.drawn.err = d.err := rfl
@[simp] theorem Dev.drawn_tb (d : Dev) : d.drawn.tb = d.tb := rfl
@[simp] theorem Dev.drawn_pwr (d : Dev) : d.drawn.pwr = d.pwr := rfl
@[simp] theorem Dev.drawn_dbg (d : Dev) : d.drawn.dbg = d.dbg := rfl
@[simp] theorem Dev.drawn_trc (d : Dev) : d.drawn.trc = d.trc := rfl
@[simp] theorem Dev.drawn_cnt (d : Dev) : d.drawn.cnt = d.cnt := rfl
@[simp] theorem Dev.drawn_freeCtr (d : Dev) : d.drawn.freeCtr = d.freeCtr + 1 := rfl
@[simp] theorem Dev.drawn_get (d : Dev) (f : Fld) : d.drawn.get f = d.get f := rfl

/-! ### Repetition -/

theorem forN_zero (f : Nat → Dev → Dev) (d : Dev) : forN 0 f d = d := rfl

theorem forN_succ (n : Nat) (f : Nat → Dev → Dev) (d : Dev) : forN (n + 1) f d = f n (forN n f d) := by
  simp [forN, List.range_succ]

/-- What each round of a repetition keeps, the repetition keeps. -/
theorem forN_keeps {β : Type} (g : Dev → β) (n : Nat) (f : Nat → Dev → Dev) (d : Dev) (h : ∀ i d, i < n → g (f i d) = g d) :
    g (forN n f d) = g d := by
  induction n with
  | zero => rfl
  | succ n ih => rw [forN_succ, h n _ (Nat.lt_succ_self n), ih (fun i d hi => h i d (Nat.lt_succ_of_lt hi))]

/-- What only round i changes is after the repetition as round i leaves it. -/
theorem forN_at {β : Type} (g : Dev → β) (n i : Nat) (f : Nat → Dev → Dev) (d : Dev) (hi : i < n)
    (hk : ∀ j e, j < n → j ≠ i → g (f j e) = g e) : g (forN n f d) = g (f i (forN i f d)) := by
  induction n with
  | zero => exact absurd hi (Nat.not_lt_zero i)
  | succ n ih =>
    rw [forN_succ]
    by_cases h : n = i
    · subst h; rfl
    · rw [hk n _ (Nat.lt_succ_self n) h]
      exact ih (by omega) (fun j e hj => hk j e (Nat.lt_succ_of_lt hj))

/-- What changes the register file only, changes it only when repeated. -/
theorem forN_regs (n : Nat) (f : Nat → Dev → Dev) (d : Dev) (h : ∀ i e, f i e = { e with regs := (f i e).regs }) :
    forN n f d = { d with regs := (forN n f d).regs } := by
  induction n with
  | zero => rfl
  | succ n ih =>
    have hs := h n (forN n f d)
    rw [← forN_succ n f d] at hs
    calc forN (n + 1) f d = { forN n f d with regs := (forN (n + 1) f d).regs } := hs
      _ = { d with regs := (forN (n + 1) f d).regs } := by rw [ih]

/-! ### What every command ends with (`settle`) -/

/-- The phase of a move is a register's field. -/
theorem Dev.migPhase_eq (d : Dev) : d.migPhase = { d with regs := d.migPhase.regs } := by
  unfold Dev.migPhase
  split
  · split <;> rfl
  · rfl

/-- The fills change the register file only. -/
theorem Dev.fills_eq (d : Dev) : d.fills = { d with regs := d.fills.regs } := by
  have h4 := forN_regs 4 (fun p d => d.fpFill p) d (fun _ _ => rfl)
  have h64 := forN_regs 64 (fun f d => d.fnFill f) (forN 4 (fun p d => d.fpFill p) d) (fun _ _ => rfl)
  have hm := Dev.migPhase_eq (forN 64 (fun f d => d.fnFill f) (forN 4 (fun p d => d.fpFill p) d))
  unfold Dev.fills
  generalize Dev.migPhase (forN 64 (fun f d => d.fnFill f) (forN 4 (fun p d => d.fpFill p) d)) = m at hm
  generalize forN 64 (fun f d => d.fnFill f) (forN 4 (fun p d => d.fpFill p) d) = e at h64 hm
  generalize forN 4 (fun p d => d.fpFill p) d = c at h4 h64
  rw [hm, h64, h4]
  rfl


@[simp] theorem Dev.fills_out (d : Dev) : d.fills.out = d.out :=
  (congrArg Dev.out d.fills_eq).trans rfl
@[simp] theorem Dev.fills_freeCtr (d : Dev) : d.fills.freeCtr = d.freeCtr :=
  (congrArg Dev.freeCtr d.fills_eq).trans rfl
@[simp] theorem Dev.fills_mle (d : Dev) : d.fills.mle = d.mle :=
  (congrArg Dev.mle d.fills_eq).trans rfl
@[simp] theorem Dev.fills_fp (d : Dev) : d.fills.fp = d.fp :=
  (congrArg Dev.fp d.fills_eq).trans rfl
@[simp] theorem Dev.fills_bsk (d : Dev) : d.fills.bsk = d.bsk :=
  (congrArg Dev.bsk d.fills_eq).trans rfl
@[simp] theorem Dev.fills_hoop (d : Dev) : d.fills.hoop = d.hoop :=
  (congrArg Dev.hoop d.fills_eq).trans rfl
@[simp] theorem Dev.fills_rfx (d : Dev) : d.fills.rfx = d.rfx :=
  (congrArg Dev.rfx d.fills_eq).trans rfl
@[simp] theorem Dev.fills_ord (d : Dev) : d.fills.ord = d.ord :=
  (congrArg Dev.ord d.fills_eq).trans rfl
@[simp] theorem Dev.fills_ldg (d : Dev) : d.fills.ldg = d.ldg :=
  (congrArg Dev.ldg d.fills_eq).trans rfl
@[simp] theorem Dev.fills_rim (d : Dev) : d.fills.rim = d.rim :=
  (congrArg Dev.rim d.fills_eq).trans rfl
@[simp] theorem Dev.fills_hif (d : Dev) : d.fills.hif = d.hif :=
  (congrArg Dev.hif d.fills_eq).trans rfl
@[simp] theorem Dev.fills_thr (d : Dev) : d.fills.thr = d.thr :=
  (congrArg Dev.thr d.fills_eq).trans rfl
@[simp] theorem Dev.fills_mem (d : Dev) : d.fills.mem = d.mem :=
  (congrArg Dev.mem d.fills_eq).trans rfl
@[simp] theorem Dev.fills_boot (d : Dev) : d.fills.boot = d.boot :=
  (congrArg Dev.boot d.fills_eq).trans rfl
@[simp] theorem Dev.fills_fuse (d : Dev) : d.fills.fuse = d.fuse :=
  (congrArg Dev.fuse d.fills_eq).trans rfl
@[simp] theorem Dev.fills_err (d : Dev) : d.fills.err = d.err :=
  (congrArg Dev.err d.fills_eq).trans rfl
@[simp] theorem Dev.fills_tb (d : Dev) : d.fills.tb = d.tb :=
  (congrArg Dev.tb d.fills_eq).trans rfl
@[simp] theorem Dev.fills_pwr (d : Dev) : d.fills.pwr = d.pwr :=
  (congrArg Dev.pwr d.fills_eq).trans rfl
@[simp] theorem Dev.fills_dbg (d : Dev) : d.fills.dbg = d.dbg :=
  (congrArg Dev.dbg d.fills_eq).trans rfl
@[simp] theorem Dev.fills_trc (d : Dev) : d.fills.trc = d.trc :=
  (congrArg Dev.trc d.fills_eq).trans rfl
@[simp] theorem Dev.fills_cnt (d : Dev) : d.fills.cnt = d.cnt :=
  (congrArg Dev.cnt d.fills_eq).trans rfl

@[simp] theorem Dev.tidy_out (d : Dev) : d.tidy.out = d.out := rfl
@[simp] theorem Dev.tidy_freeCtr (d : Dev) : d.tidy.freeCtr = d.freeCtr := rfl
@[simp] theorem Dev.tidy_mle (d : Dev) : d.tidy.mle = d.mle := rfl
@[simp] theorem Dev.tidy_fp (d : Dev) : d.tidy.fp = d.fp := rfl
@[simp] theorem Dev.tidy_bsk (d : Dev) : d.tidy.bsk = d.bsk := rfl
@[simp] theorem Dev.tidy_hoop (d : Dev) : d.tidy.hoop = d.hoop := rfl
@[simp] theorem Dev.tidy_rfx (d : Dev) : d.tidy.rfx = d.rfx := rfl
@[simp] theorem Dev.tidy_ord (d : Dev) : d.tidy.ord = d.ord := rfl
@[simp] theorem Dev.tidy_ldg (d : Dev) : d.tidy.ldg = d.ldg := rfl
@[simp] theorem Dev.tidy_rim (d : Dev) : d.tidy.rim = d.rim := rfl
@[simp] theorem Dev.tidy_hif (d : Dev) : d.tidy.hif = d.hif := rfl
@[simp] theorem Dev.tidy_thr (d : Dev) : d.tidy.thr = d.thr := rfl
@[simp] theorem Dev.tidy_fuse (d : Dev) : d.tidy.fuse = d.fuse := rfl
@[simp] theorem Dev.tidy_err (d : Dev) : d.tidy.err = d.err := rfl
@[simp] theorem Dev.tidy_tb (d : Dev) : d.tidy.tb = d.tb := rfl
@[simp] theorem Dev.tidy_pwr (d : Dev) : d.tidy.pwr = d.pwr := rfl
@[simp] theorem Dev.tidy_dbg (d : Dev) : d.tidy.dbg = d.dbg := rfl
@[simp] theorem Dev.tidy_cnt (d : Dev) : d.tidy.cnt = d.cnt := rfl
@[simp] theorem Dev.tidy_regs (d : Dev) : d.tidy.regs = Tab.tidy d.regs := rfl
@[simp] theorem Dev.tidy_mem (d : Dev) : d.tidy.mem = { d.mem with dram := Tab.canon 0 d.mem.dram } := rfl
@[simp] theorem Dev.tidy_boot (d : Dev) :
    d.tidy.boot = { d.boot with flash := Tab.canon 0xFF d.boot.flash, stag := Tab.canon 0 d.boot.stag } := rfl
@[simp] theorem Dev.tidy_trc (d : Dev) : d.tidy.trc = { d.trc with buf := Tab.canon 0 d.trc.buf } := rfl

@[simp] theorem Dev.settle_out (d : Dev) : d.settle.out = d.out := by rw [Dev.settle, Dev.tidy_out, Dev.fills_out]
@[simp] theorem Dev.settle_freeCtr (d : Dev) : d.settle.freeCtr = d.freeCtr := by rw [Dev.settle, Dev.tidy_freeCtr, Dev.fills_freeCtr]
@[simp] theorem Dev.settle_mle (d : Dev) : d.settle.mle = d.mle := by rw [Dev.settle, Dev.tidy_mle, Dev.fills_mle]
@[simp] theorem Dev.settle_fp (d : Dev) : d.settle.fp = d.fp := by rw [Dev.settle, Dev.tidy_fp, Dev.fills_fp]
@[simp] theorem Dev.settle_bsk (d : Dev) : d.settle.bsk = d.bsk := by rw [Dev.settle, Dev.tidy_bsk, Dev.fills_bsk]
@[simp] theorem Dev.settle_hoop (d : Dev) : d.settle.hoop = d.hoop := by rw [Dev.settle, Dev.tidy_hoop, Dev.fills_hoop]
@[simp] theorem Dev.settle_rfx (d : Dev) : d.settle.rfx = d.rfx := by rw [Dev.settle, Dev.tidy_rfx, Dev.fills_rfx]
@[simp] theorem Dev.settle_ord (d : Dev) : d.settle.ord = d.ord := by rw [Dev.settle, Dev.tidy_ord, Dev.fills_ord]
@[simp] theorem Dev.settle_ldg (d : Dev) : d.settle.ldg = d.ldg := by rw [Dev.settle, Dev.tidy_ldg, Dev.fills_ldg]
@[simp] theorem Dev.settle_rim (d : Dev) : d.settle.rim = d.rim := by rw [Dev.settle, Dev.tidy_rim, Dev.fills_rim]
@[simp] theorem Dev.settle_hif (d : Dev) : d.settle.hif = d.hif := by rw [Dev.settle, Dev.tidy_hif, Dev.fills_hif]
@[simp] theorem Dev.settle_thr (d : Dev) : d.settle.thr = d.thr := by rw [Dev.settle, Dev.tidy_thr, Dev.fills_thr]
@[simp] theorem Dev.settle_fuse (d : Dev) : d.settle.fuse = d.fuse := by rw [Dev.settle, Dev.tidy_fuse, Dev.fills_fuse]
@[simp] theorem Dev.settle_err (d : Dev) : d.settle.err = d.err := by rw [Dev.settle, Dev.tidy_err, Dev.fills_err]
@[simp] theorem Dev.settle_tb (d : Dev) : d.settle.tb = d.tb := by rw [Dev.settle, Dev.tidy_tb, Dev.fills_tb]
@[simp] theorem Dev.settle_pwr (d : Dev) : d.settle.pwr = d.pwr := by rw [Dev.settle, Dev.tidy_pwr, Dev.fills_pwr]
@[simp] theorem Dev.settle_dbg (d : Dev) : d.settle.dbg = d.dbg := by rw [Dev.settle, Dev.tidy_dbg, Dev.fills_dbg]
@[simp] theorem Dev.settle_cnt (d : Dev) : d.settle.cnt = d.cnt := by rw [Dev.settle, Dev.tidy_cnt, Dev.fills_cnt]
@[simp] theorem Dev.settle_mem (d : Dev) : d.settle.mem = { d.mem with dram := Tab.canon 0 d.mem.dram } := by
  rw [Dev.settle, Dev.tidy_mem, Dev.fills_mem]
@[simp] theorem Dev.settle_boot (d : Dev) :
    d.settle.boot = { d.boot with flash := Tab.canon 0xFF d.boot.flash, stag := Tab.canon 0 d.boot.stag } := by
  rw [Dev.settle, Dev.tidy_boot, Dev.fills_boot]
@[simp] theorem Dev.settle_trc (d : Dev) : d.settle.trc = { d.trc with buf := Tab.canon 0 d.trc.buf } := by
  rw [Dev.settle, Dev.tidy_trc, Dev.fills_trc]

theorem Dev.get_tidy (d : Dev) (g : Fld) : d.tidy.get g = d.get g := Tab.get_tidy _ _ _

theorem Dev.get_fpFill_ne (d : Dev) (p : Nat) (g : Fld) (h : g.key ≠ (FP_STATUS_LEVEL p).key ∧ g.key ≠ (FP_STATUS_HIWAT p).key) :
    (d.fpFill p).get g = d.get g := by
  simp only [Dev.fpFill, Dev.putB]
  rw [Dev.get_put_ne _ _ h.2, Dev.get_put_ne _ _ h.1]

theorem Dev.get_fnFill_ne (d : Dev) (f : Nat) (g : Fld) (h : g.key ≠ (HIF_FN_STATUS_READS f).key ∧ g.key ≠ (HIF_FN_STATUS_KEPT f).key) :
    (d.fnFill f).get g = d.get g := by
  simp only [Dev.fnFill]
  rw [Dev.get_put_ne _ _ h.2, Dev.get_put_ne _ _ h.1]

theorem Dev.get_migPhase_ne (d : Dev) (g : Fld) (h : g.key ≠ HOOP_MIG_STATUS_PHASE.key) : d.migPhase.get g = d.get g := by
  unfold Dev.migPhase
  split
  · split
    · rfl
    · exact Dev.get_put_ne _ _ h
  · rfl

/-- Whether a move has drained depends on the shard map, the hoops and the drain marks alone. -/
theorem Dev.migDrained_congr {a b : Dev} (hb : a.bsk = b.bsk) (hh : a.hoop = b.hoop)
    (hm : a.get HOOP_MIG_STATUS_MARKS = b.get HOOP_MIG_STATUS_MARKS) (m : Mig) : a.migDrained m = b.migDrained m := by
  have hs : a.shardHeld = b.shardHeld := funext fun s => by simp only [Dev.shardHeld, hh]
  simp only [Dev.migDrained, Dev.shardsOf, Dev.shardQueue, hs, hb, hm]

/-- `settle` seen from a register: four fields written over what the ports' and functions' fields and PHASE have become. -/
theorem Dev.settle_over (d : Dev) : ∃ e : Dev, e = (forN 64 (fun f d => d.fnFill f) (forN 4 (fun p d => d.fpFill p) d)).migPhase ∧
    e.bsk = d.bsk ∧ e.ord = d.ord ∧ e.err = d.err ∧ e.trc = d.trc ∧
    ∀ g, d.settle.get g = ((((e.put BSK_FREE_CELLS e.freeCells).put RIM_CTAB_USED e.ord.remote.length).put ERR_STATUS_USED
      e.err.log.length).put TRC_STATUS_FILL (e.trc.fill / 4096)).get g := by
  have h (β : Type) (x : Dev → β) (hx : ∀ (e : Dev) (f : Fld) (v : Nat), x (e.put f v) = x e) :
      x (forN 64 (fun f d => d.fnFill f) (forN 4 (fun p d => d.fpFill p) d)) = x d :=
    (forN_keeps x 64 (fun f d => d.fnFill f) _ (fun i e _ => (hx _ _ _).trans (hx _ _ _))).trans
      (forN_keeps x 4 (fun p d => d.fpFill p) d (fun i e _ => (hx _ _ _).trans (hx _ _ _)))
  have m (β : Type) (x : Dev → β) (hx : ∀ (e : Dev) (f : Fld) (v : Nat), x (e.put f v) = x e) (e : Dev) : x e.migPhase = x e := by
    unfold Dev.migPhase
    split
    · split
      · rfl
      · exact hx _ _ _
    · rfl
  exact ⟨_, rfl, (m _ Dev.bsk (fun _ _ _ => rfl) _).trans (h _ Dev.bsk (fun _ _ _ => rfl)),
    (m _ Dev.ord (fun _ _ _ => rfl) _).trans (h _ Dev.ord (fun _ _ _ => rfl)),
    (m _ Dev.err (fun _ _ _ => rfl) _).trans (h _ Dev.err (fun _ _ _ => rfl)),
    (m _ Dev.trc (fun _ _ _ => rfl) _).trans (h _ Dev.trc (fun _ _ _ => rfl)), fun g => by rw [Dev.settle, Dev.get_tidy, Dev.fills, Dev.put_err, Dev.put_err, Dev.put_trc, Dev.put_trc]⟩

/-- A register field that reports no fill reads after `settle` as before. -/
theorem Dev.get_settle (d : Dev) (g : Fld) (h : notFill g.key) : d.settle.get g = d.get g := by
  obtain ⟨hp, hf, h0, h1, h2, h3, h4⟩ := h
  obtain ⟨e, he, -, -, -, -, hg⟩ := d.settle_over
  rw [hg, Dev.get_put_ne _ _ h4, Dev.get_put_ne _ _ h3, Dev.get_put_ne _ _ h2, Dev.get_put_ne _ _ h1, he, Dev.get_migPhase_ne _ _ h0]
  rw [forN_keeps (fun e => e.get g) 64 _ _ (fun i e hi => e.get_fnFill_ne i g (hf i hi))]
  exact forN_keeps (fun e => e.get g) 4 _ _ (fun i e hi => e.get_fpFill_ne i g (hp i hi))

/-- `settle` leaves a sound register file and memories. -/
theorem Dev.settle_canonical (d : Dev) : d.settle.canonical = true := by
  simp [Dev.canonical, Memory.wf, Dev.settle]


theorem Dev.get_fills (d : Dev) (g : Fld)
    (h : g.key ≠ HOOP_MIG_STATUS_PHASE.key ∧ g.key ≠ BSK_FREE_CELLS.key ∧ g.key ≠ RIM_CTAB_USED.key ∧ g.key ≠ ERR_STATUS_USED.key ∧
      g.key ≠ TRC_STATUS_FILL.key) :
    d.settle.get g = (forN 64 (fun f d => d.fnFill f) (forN 4 (fun p d => d.fpFill p) d)).get g := by
  obtain ⟨e, he, -, -, -, -, hg⟩ := d.settle_over
  rw [hg, Dev.get_put_ne _ _ h.2.2.2.2, Dev.get_put_ne _ _ h.2.2.2.1, Dev.get_put_ne _ _ h.2.2.1, Dev.get_put_ne _ _ h.2.1, he,
    Dev.get_migPhase_ne _ _ h.1]

/-- Every fill field reports after `settle` what it stands for. -/
theorem Dev.settle_fpReports (d : Dev) (p : Nat) (hp : p < 4) : d.settle.fpReports p := by
  have hfp : ∀ n, (forN n (fun p d => d.fpFill p) d).fp = d.fp := fun n => forN_keeps Dev.fp n _ d (fun _ _ _ => rfl)
  have key : ∀ g : Fld, g.key = (FP_STATUS_LEVEL p).key ∨ g.key = (FP_STATUS_HIWAT p).key →
      d.settle.get g = ((forN p (fun p d => d.fpFill p) d).fpFill p).get g := by
    intro g hg
    have hn : (FP_STATUS_LEVEL p).key = 10486036 + 65536 * p ∧ (FP_STATUS_HIWAT p).key = 10486032 + 65536 * p := ⟨rfl, rfl⟩
    rw [Dev.get_fills d g (by simp only [HOOP_MIG_STATUS_PHASE, BSK_FREE_CELLS, RIM_CTAB_USED, ERR_STATUS_USED, TRC_STATUS_FILL]; omega)]
    rw [forN_keeps (fun e => e.get g) 64 _ _ (fun i e hi => e.get_fnFill_ne i g
      (by simp only [HIF_FN_STATUS_READS, HIF_FN_STATUS_KEPT]; omega))]
    exact forN_at (fun e => e.get g) 4 p _ d hp (fun j e hj hne => e.get_fpFill_ne j g
      (by simp only [FP_STATUS_LEVEL, FP_STATUS_HIWAT] at *; omega))
  have hb : (forN p (fun p d => d.fpFill p) d).get (FP_BUF_HIWAT p) = d.get (FP_BUF_HIWAT p) :=
    forN_keeps (fun e => e.get (FP_BUF_HIWAT p)) p _ d (fun i e hi => e.get_fpFill_ne i _
        (by simp only [FP_STATUS_LEVEL, FP_STATUS_HIWAT, FP_BUF_HIWAT]; omega))
  have hs : d.settle.get (FP_BUF_HIWAT p) = d.get (FP_BUF_HIWAT p) := by
    refine Dev.get_settle d _ ?_
    simp only [notFill, FP_STATUS_LEVEL, FP_STATUS_HIWAT, FP_BUF_HIWAT, HIF_FN_STATUS_READS, HIF_FN_STATUS_KEPT, BSK_FREE_CELLS,
        RIM_CTAB_USED, ERR_STATUS_USED, TRC_STATUS_FILL, HOOP_MIG_STATUS_PHASE]
    refine ⟨fun q hq => ?_, fun q hq => ?_, ?_⟩ <;> omega
  have hf := hfp p
  unfold Dev.fpReports
  rw [key _ (.inl rfl), key _ (.inr rfl), hs]
  generalize forN p (fun p d => d.fpFill p) d = e at hb hf
  have h1 : e.fport p = d.fport p := by simp only [Dev.fport, hf]
  have h2 : d.settle.fport p = d.fport p := by simp only [Dev.fport, Dev.settle_fp]
  simp only [Dev.fpFill, Dev.putB]
  rw [Dev.get_put_ne _ _ (by simp only [FP_STATUS_LEVEL, FP_STATUS_HIWAT]; omega), Dev.get_put_same, Dev.get_put_same, h1, h2, hb]
  refine ⟨rfl, ?_⟩
  simp only [b2n]
  split <;> rfl

theorem Dev.settle_fnReports (d : Dev) (f : Nat) (hf : f < 64) : d.settle.fnReports f := by
  have hh : ∀ n e, (forN n (fun f d => d.fnFill f) e).hif = e.hif := fun n e => forN_keeps Dev.hif n _ e (fun _ _ _ => rfl)
  have h4 : (forN 4 (fun p d => d.fpFill p) d).hif = d.hif := forN_keeps Dev.hif 4 _ d (fun _ _ _ => rfl)
  have key : ∀ g : Fld, g.key = (HIF_FN_STATUS_READS f).key ∨ g.key = (HIF_FN_STATUS_KEPT f).key →
      d.settle.get g = ((forN f (fun f d => d.fnFill f) (forN 4 (fun p d => d.fpFill p) d)).fnFill f).get g := by
    intro g hg
    have hn : (HIF_FN_STATUS_READS f).key = 4194448 + 8192 * f ∧ (HIF_FN_STATUS_KEPT f).key = 4194455 + 8192 * f := ⟨rfl, rfl⟩
    rw [Dev.get_fills d g (by simp only [HOOP_MIG_STATUS_PHASE, BSK_FREE_CELLS, RIM_CTAB_USED, ERR_STATUS_USED, TRC_STATUS_FILL]; omega)]
    exact forN_at (fun e => e.get g) 64 f _ _ hf (fun j e hj hne => e.get_fnFill_ne j g
      (by simp only [HIF_FN_STATUS_READS, HIF_FN_STATUS_KEPT] at *; omega))
  have hf : (forN f (fun f d => d.fnFill f) (forN 4 (fun p d => d.fpFill p) d)).hif = d.hif := (hh f _).trans h4
  unfold Dev.fnReports
  rw [key _ (.inl rfl), key _ (.inr rfl)]
  generalize forN f (fun f d => d.fnFill f) (forN 4 (fun p d => d.fpFill p) d) = e at hf
  have h1 : e.fnS f = d.fnS f := by simp only [Dev.fnS, hf]
  have h2 : d.settle.fnS f = d.fnS f := by simp only [Dev.fnS, Dev.settle_hif]
  simp only [Dev.fnFill]
  rw [Dev.get_put_ne _ _ (by simp only [HIF_FN_STATUS_READS, HIF_FN_STATUS_KEPT]; omega), Dev.get_put_same, Dev.get_put_same, h1, h2]
  exact ⟨rfl, rfl⟩

theorem Dev.settle_reports (d : Dev) : d.settle.reports := by
  obtain ⟨e, hx, hb, ho, he, ht, hg⟩ := d.settle_over
  have hc : ∀ c : Dev, c.bsk = d.bsk → c.freeCells = d.freeCells := fun c h => by simp only [Dev.freeCells, Dev.cellsOf, h]
  refine ⟨d.settle_fpReports, d.settle_fnReports, fun m hm hp => ?_, ?_, ?_, ?_, ?_⟩
  · have hm' : d.hoop.mig = some m := by rw [← hm, d.settle_hoop]
    have hk : d.settle.get HOOP_MIG_STATUS_MARKS = (forN 64 (fun f d => d.fnFill f) (forN 4 (fun p d => d.fpFill p) d)).get
        HOOP_MIG_STATUS_MARKS := Dev.get_fills d _ (by decide)
    rw [hg, Dev.get_put_ne _ _ (by decide), Dev.get_put_ne _ _ (by decide), Dev.get_put_ne _ _ (by decide), Dev.get_put_ne _ _ (by decide), hx]
    have hh : (forN 64 (fun f d => d.fnFill f) (forN 4 (fun p d => d.fpFill p) d)).hoop = d.hoop :=
      (forN_keeps Dev.hoop 64 (fun f d => d.fnFill f) _ (fun _ _ _ => rfl)).trans (forN_keeps Dev.hoop 4 (fun p d => d.fpFill p) d (fun _ _ _ => rfl))
    have hq : (forN 64 (fun f d => d.fnFill f) (forN 4 (fun p d => d.fpFill p) d)).bsk = d.bsk :=
      (forN_keeps Dev.bsk 64 (fun f d => d.fnFill f) _ (fun _ _ _ => rfl)).trans (forN_keeps Dev.bsk 4 (fun p d => d.fpFill p) d (fun _ _ _ => rfl))
    generalize forN 64 (fun f d => d.fnFill f) (forN 4 (fun p d => d.fpFill p) d) = c at hk hh hq
    rw [Dev.migDrained_congr (d.settle_bsk.trans hq.symm) (d.settle_hoop.trans hh.symm) hk]
    simp only [Dev.migPhase, hh, hm', hp]
    cases c.migDrained m <;> simp [HOOP_MIG_STATUS_PHASE]
  · rw [hg, hc _ d.settle_bsk, hc _ hb]
    rw [Dev.get_put_ne _ _ (by decide), Dev.get_put_ne _ _ (by decide), Dev.get_put_ne _ _ (by decide), Dev.get_put_same]
    refine Nat.mod_eq_of_lt ?_
    simp only [Dev.freeCells, BSK_FREE_CELLS]
    omega
  · rw [hg, d.settle_ord, ho]
    rw [Dev.get_put_ne _ _ (by decide), Dev.get_put_ne _ _ (by decide), Dev.get_put_same]
    rfl
  · rw [hg, d.settle_err, he]
    rw [Dev.get_put_ne _ _ (by decide), Dev.get_put_same]
    rfl
  · rw [hg, d.settle_trc, ht, Dev.get_put_same]
    rfl

/-! ### When a command acts -/

/-- A command of the core domain completes on a device that runs, with what its effect leaves after `settle`. -/
theorem State.completes_run {s : State} {i : Instr} {f : Dev → Dev} {P : Dev → Prop} (he : exec i s = s.run f) (h : s.dev.awake = true)
    (hP : P (f s.dev).settle) : s.completes i P :=
  ⟨{ s with dev := (f s.dev).settle }, by rw [he, State.run, if_pos h]; rfl, rfl, hP⟩

/-- A command of the always-on domain completes while RESET_N is high. -/
theorem State.completes_runAon {s : State} {i : Instr} {f : Dev → Dev} {P : Dev → Prop} (he : exec i s = s.runAon f)
    (h : s.dev.onAir = true) (hP : P (f s.dev).settle) : s.completes i P :=
  ⟨{ s with dev := (f s.dev).settle }, by rw [he, State.runAon, if_pos h]; rfl, rfl, hP⟩

/-- A command that acts even while RESET_N is low completes. -/
theorem State.completes_runAll {s : State} {i : Instr} {f : Dev → Dev} {P : Dev → Prop} (he : exec i s = s.runAll f)
    (hP : P (f s.dev).settle) : s.completes i P := ⟨{ s with dev := (f s.dev).settle }, he, rfl, hP⟩

/-- A command of the core domain makes, while the device runs, what its effect makes. -/
theorem State.becomes_run {s : State} {i : Instr} {f : Dev → Dev} {d : Dev} (he : exec i s = s.run f) (h : s.dev.awake = true)
    (hd : f s.dev = d) : s.becomes i d := by rw [State.becomes, he, State.run, if_pos h, hd]; rfl

/-- A command of the always-on domain makes, while RESET_N is high, what its effect makes. -/
theorem State.becomes_runAon {s : State} {i : Instr} {f : Dev → Dev} {d : Dev} (he : exec i s = s.runAon f) (h : s.dev.onAir = true)
    (hd : f s.dev = d) : s.becomes i d := by rw [State.becomes, he, State.runAon, if_pos h, hd]; rfl

/-- A command that acts even while RESET_N is low makes what its effect makes. -/
theorem State.becomes_runAll {s : State} {i : Instr} {f : Dev → Dev} {d : Dev} (he : exec i s = s.runAll f) (hd : f s.dev = d) :
    s.becomes i d := by rw [State.becomes, he, State.runAll, hd]; rfl

/-- What a command makes, it completes with. -/
theorem State.becomes.completes {s : State} {i : Instr} {d : Dev} {P : Dev → Prop} (h : s.becomes i d) (hP : P d.settle) : s.completes i P :=
  ⟨{ s with dev := d.settle }, h, rfl, hP⟩

end Sys2Proof.Machine
end

