-- ==== Sys2Proof/Laws/Events.lean ====
section
/-!
SUPPORT. What committing an entry to a queue and raising an event change: the Basket's queues and the Basket's counters, nothing else.
-/
namespace Sys2Proof.Machine

theorem BskS.queuesOnly_trans {a b c : BskS} (h : a.queuesOnly b) (k : b.queuesOnly c) : a.queuesOnly c := by
  unfold BskS.queuesOnly at *
  rw [k, h]

theorem Dev.bskOnly_refl (d : Dev) : d.bskOnly d := ⟨rfl, rfl, fun _ _ => rfl⟩

theorem Dev.bskOnly_trans {a b c : Dev} (h : a.bskOnly b) (k : b.bskOnly c) : a.bskOnly c := by
  obtain ⟨h1, h3, h2⟩ := h
  obtain ⟨k1, k3, k2⟩ := k
  refine ⟨?_, BskS.queuesOnly_trans h3 k3, fun g x => (k2 g x).trans (h2 g x)⟩
  rw [k1, h1]

theorem Dev.bskOnly_bsk (d : Dev) {b : BskS} (h : d.bsk.queuesOnly b) : d.bskOnly { d with bsk := b } := ⟨rfl, h, fun _ _ => rfl⟩

theorem Dev.bskOnly_notes (d : Dev) (l : List Note) : d.bskOnly { d with bsk := { d.bsk with notes := l } } := d.bskOnly_bsk rfl

theorem Dev.bskOnly_setQueue (d : Dev) (n : Nat) (q : Queue) : d.bskOnly (d.setQueue n q) := d.bskOnly_bsk rfl

theorem Dev.bskOnly_cnt (d : Dev) (i n : Nat) (hi : i < 16) : d.bskOnly (d.addCnt (BSK_CNT_COUNT i) n) :=
  ⟨rfl, rfl, fun _ h => Dev.get_put_ne _ _ (h i hi).1⟩

theorem Dev.bskOnly_drop (d : Dev) (i n : Nat) (hi : i < 16) : d.bskOnly (d.addCnt (BSK_DROP_CNT_COUNT i) n) :=
  ⟨rfl, rfl, fun _ h => Dev.get_put_ne _ _ (h i hi).2⟩

theorem Dev.bskOnly_note (d : Dev) (f c : Nat) (p : List (Nat × Nat)) : d.bskOnly (d.note f c p) := d.bskOnly_bsk rfl

theorem Dev.bskOnly_noteBoth (d : Dev) (f c : Nat) (p : List (Nat × Nat)) : d.bskOnly (d.noteBoth f c p) := by
  unfold Dev.noteBoth
  simp only
  split
  · exact d.bskOnly_note _ _ _
  · exact Dev.bskOnly_trans (d.bskOnly_note _ _ _) (Dev.bskOnly_note _ _ _ _)

theorem Dev.bskOnly_countDrop (d : Dev) (qn r n : Nat) (hr : r < 16) : d.bskOnly (d.countDrop qn r n) := by
  unfold Dev.countDrop
  split
  · exact d.bskOnly_refl
  · exact Dev.bskOnly_trans (d.bskOnly_setQueue _ _) (Dev.bskOnly_drop _ _ _ hr)

theorem Dev.bskOnly_ite {c : Prop} [Decidable c] {d x y : Dev} (hx : d.bskOnly x) (hy : d.bskOnly y) : d.bskOnly (if c then x else y) := by
  split
  · exact hx
  · exact hy

theorem Dev.bskOnly_mark (d : Dev) (f c : Nat) (p : List (Nat × Nat)) (x : Bool) :
    d.bskOnly { d.note f c p with bsk := { (d.note f c p).bsk with lowEvent := x } } := d.bskOnly_bsk rfl

theorem Dev.bskOnly_allocate (d : Dev) (n : Nat) : d.bskOnly (d.allocate n).1 := d.bskOnly_bsk rfl

theorem Dev.bskOnly_tierFull (d : Dev) (qn : Nat) : d.bskOnly (d.tierFull qn) := by
  unfold Dev.tierFull
  exact Dev.bskOnly_ite (Dev.bskOnly_trans (d.bskOnly_setQueue _ _) (Dev.bskOnly_note _ _ _ _)) d.bskOnly_refl

theorem Dev.bskOnly_spillBlock (d : Dev) (qn : Nat) : d.bskOnly (d.spillBlock qn) := by
  unfold Dev.spillBlock
  exact Dev.bskOnly_trans (d.bskOnly_setQueue _ _) (Dev.bskOnly_ite (Dev.bskOnly_mark _ _ _ _ _) (Dev.bskOnly_refl _))

theorem Dev.bskOnly_spillAll (k : Nat) (d : Dev) (qn : Nat) : d.bskOnly (Dev.spillAll k d qn) := by
  induction k generalizing d with
  | zero => exact d.bskOnly_refl
  | succ k ih =>
    unfold Dev.spillAll
    split
    · exact Dev.bskOnly_trans (d.bskOnly_spillBlock _) (ih _)
    · exact d.bskOnly_tierFull _

theorem Dev.bskOnly_joinQueue (d : Dev) (qn : Nat) : d.bskOnly (d.joinQueue qn) := by
  unfold Dev.joinQueue
  simp only
  split
  · exact d.bskOnly_setQueue _ _
  · exact d.bskOnly_refl

theorem Dev.bskOnly_enqLoop (k : Nat) (d : Dev) (qn : Nat) (e : Entry) : d.bskOnly (Dev.enqLoop k d qn e).1 := by
  induction k generalizing d with
  | zero => exact d.bskOnly_refl
  | succ k ih =>
    unfold Dev.enqLoop
    simp only
    split
    · exact Dev.bskOnly_trans (d.bskOnly_allocate _) (Dev.bskOnly_setQueue _ _ _)
    · have h : ∀ (b : Bool) (x y : Dev), d.bskOnly x → d.bskOnly y → d.bskOnly (if b then x else y) := by
        intro b x y hx hy
        cases b
        · exact hy
        · exact hx
      generalize hd : (if (!(d.queue qn).spilled && decide (0 < d.ltSize) && decide (0 < (d.queue qn).ltq)) = true then
          (if (d.queue qn).spillEvent = true then d
            else d.noteBoth (d.queue qn).owner 0x0401 [(2, qn), (1, (d.queue qn).owner)]).setQueue qn
            { d.queue qn with spilled := true, spillEvent := true } else d) = d1
      have h1 : d.bskOnly d1 := by
        rw [← hd]
        refine h _ _ _ (Dev.bskOnly_trans (h _ _ _ d.bskOnly_refl (d.bskOnly_noteBoth _ _ _)) (Dev.bskOnly_setQueue _ _ _)) d.bskOnly_refl
      split
      · exact Dev.bskOnly_trans h1 (Dev.bskOnly_trans (Dev.bskOnly_trans (Dev.bskOnly_allocate _ _) (Dev.bskOnly_setQueue _ _ _))
          (Dev.bskOnly_tierFull _ _))
      · split
        · exact h1
        · split
          · exact h1
          · exact Dev.bskOnly_trans h1 (Dev.bskOnly_trans (Dev.bskOnly_trans (Dev.bskOnly_trans (Dev.bskOnly_trans
              (Dev.bskOnly_setQueue _ _ _) (Dev.bskOnly_countDrop _ _ _ _ (by decide))) (Dev.bskOnly_spillAll _ _ _)) (Dev.bskOnly_joinQueue _ _)) (ih _))

/-- The reasons for which the placement loop refuses an entry. -/
theorem Dev.enqLoop_refused (k : Nat) (d : Dev) (qn : Nat) (e : Entry) (r : Nat) (h : (Dev.enqLoop k d qn e).2 = .refused r) : r < 16 := by
  induction k generalizing d with
  | zero => cases h; decide
  | succ k ih =>
    unfold Dev.enqLoop at h
    simp only at h
    split at h
    · cases h
    · generalize (if (!(d.queue qn).spilled && decide (0 < d.ltSize) && decide (0 < (d.queue qn).ltq)) = true then
          (if (d.queue qn).spillEvent = true then d
            else d.noteBoth (d.queue qn).owner 0x0401 [(2, qn), (1, (d.queue qn).owner)]).setQueue qn
            { d.queue qn with spilled := true, spillEvent := true } else d) = d1 at h
      split at h
      · cases h
      · split at h
        · cases h
        · split at h
          · simp only [Verdict.refused.injEq] at h
            rw [← h]
            split <;> decide
          · exact ih _ h

/-- Committing an entry changes the Basket alone. -/
theorem Dev.bskOnly_enq (d : Dev) (qn : Nat) (e : Entry) : d.bskOnly (d.enq qn e).1 := by
  unfold Dev.enq
  simp only
  generalize hp : (if (!(d.queue qn).enable) = true then (d, Verdict.refused 4)
    else if (d.queue qn).odq < e.cells then (d, Verdict.refused 3)
    else Dev.enqLoop ((d.queue qn).es.length + 2) d qn e) = p
  have hp1 : d.bskOnly p.1 := by
    rw [← hp]
    split
    · exact d.bskOnly_refl
    · split
      · exact d.bskOnly_refl
      · exact d.bskOnly_enqLoop _ _ _
  have hp2 : ∀ r, p.2 = Verdict.refused r → r < 16 := by
    intro r hr
    rw [← hp] at hr
    split at hr
    · cases hr; decide
    · split at hr
      · cases hr; decide
      · exact Dev.enqLoop_refused _ _ _ _ _ hr
  split
  · exact Dev.bskOnly_trans hp1 (Dev.bskOnly_trans (Dev.bskOnly_setQueue _ _ _) (Dev.bskOnly_cnt _ _ _ (by decide)))
  · exact Dev.bskOnly_trans hp1 (Dev.bskOnly_cnt _ _ _ (by decide))
  · exact Dev.bskOnly_trans hp1 (show p.1.bskOnly (p.1.countDrop qn _ 1) from Dev.bskOnly_countDrop _ _ _ _ (hp2 _ (by assumption)))

theorem Dev.bskOnly_eventBytes (d : Dev) (f c : Nat) (p : List Byte) : d.bskOnly (d.eventBytes f c p) := by
  unfold Dev.eventBytes
  simp only
  have h := d.bskOnly_enq (0x1402 + 6 * f) (eventEntry c (decide (f ≠ 0)) (Tab.get 0 d.bsk.eseq f) d.now p)
  split
  · next d' he => rw [he] at h; exact Dev.bskOnly_trans h (Dev.bskOnly_bsk _ rfl)
  · next d' v _ he => rw [he] at h; exact h

theorem Dev.bskOnly_flushNotes (k : Nat) (d : Dev) : d.bskOnly (Dev.flushNotes k d) := by
  induction k generalizing d with
  | zero => exact d.bskOnly_bsk rfl
  | succ k ih =>
    unfold Dev.flushNotes
    split
    · exact d.bskOnly_refl
    · exact Dev.bskOnly_trans (Dev.bskOnly_trans (d.bskOnly_notes _) (Dev.bskOnly_eventBytes _ _ _ _)) (ih _)

/-- Raising an event changes the Basket alone. -/
theorem Dev.bskOnly_event (d : Dev) (f c : Nat) (p : List (Nat × Nat)) : d.bskOnly (d.event f c p) :=
  Dev.bskOnly_trans (d.bskOnly_eventBytes _ _ _) (Dev.bskOnly_flushNotes _ _)

theorem Dev.bskOnly_pfEvent (d : Dev) (c : Nat) (p : List (Nat × Nat)) : d.bskOnly (d.pfEvent c p) := d.bskOnly_event _ _ _

theorem Dev.bskOnly_bothEvent (d : Dev) (f c : Nat) (p : List (Nat × Nat)) : d.bskOnly (d.bothEvent f c p) := by
  unfold Dev.bothEvent
  simp only
  split
  · exact d.bskOnly_event _ _ _
  · exact Dev.bskOnly_trans (d.bskOnly_event _ _ _) (Dev.bskOnly_event _ _ _ _)

theorem Dev.bskOnly_bothBytes (d : Dev) (f c : Nat) (p : List Byte) : d.bskOnly (d.bothBytes f c p) := by
  unfold Dev.bothBytes
  simp only
  have h := Dev.bskOnly_trans (d.bskOnly_eventBytes 0 c p) (Dev.bskOnly_flushNotes 64 _)
  split
  · exact h
  · exact Dev.bskOnly_trans h (Dev.bskOnly_trans (Dev.bskOnly_eventBytes _ _ _ _) (Dev.bskOnly_flushNotes _ _))

/-- Committing an entry and raising what the Basket notes about it change the Basket alone. -/
theorem Dev.bskOnly_enqueue (d : Dev) (qn : Nat) (e : Entry) : d.bskOnly (d.enqueue qn e).1 :=
  Dev.bskOnly_trans (d.bskOnly_enq qn e) (Dev.bskOnly_flushNotes _ _)

theorem Dev.bskOnly_send (d : Dev) (qn : Nat) (e : Entry) : d.bskOnly (d.send qn e) := d.bskOnly_enqueue qn e

theorem Dev.bskOnly_deq (d : Dev) (qn : Nat) : d.bskOnly (d.deq qn).1 := by
  unfold Dev.deq
  simp only
  split
  · exact d.bskOnly_refl
  · split
    · exact Dev.bskOnly_trans (d.bskOnly_setQueue _ _) (Dev.bskOnly_cnt _ _ _ (by decide))
    · split <;> exact d.bskOnly_refl

theorem Dev.bskOnly_take (d : Dev) (qn : Nat) : d.bskOnly (d.take qn).1 := by
  unfold Dev.take
  split
  · exact d.bskOnly_bsk rfl
  · exact d.bskOnly_deq _

/-- A hardware consumer's taking of an entry changes the Basket alone. -/
theorem Dev.bskOnly_takeHw (k : Nat) (d : Dev) (qn : Nat) : d.bskOnly (Dev.takeHw k d qn).1 := by
  induction k generalizing d with
  | zero => exact d.bskOnly_refl
  | succ k ih =>
    unfold Dev.takeHw
    have h := d.bskOnly_take qn
    split
    · next d' e he =>
      rw [he] at h
      split
      · exact Dev.bskOnly_trans h (Dev.bskOnly_trans (Dev.bskOnly_countDrop _ _ _ _ (by decide)) (ih _))
      · exact h
    · exact h

theorem Dev.bskOnly_takeFor (d : Dev) (qn : Nat) : d.bskOnly (d.takeFor qn).1 := Dev.bskOnly_takeHw _ _ _

/-! ### What follows for the other parts of the state -/

theorem Dev.bskOnly.shard {d t : Dev} (h : d.bskOnly t) : t.bsk.shard = d.bsk.shard := by rw [h.2.1]
theorem Dev.bskOnly.held {d t : Dev} (h : d.bskOnly t) : t.bsk.held = d.bsk.held := by rw [h.2.1]
theorem Dev.bskOnly.qa {d t : Dev} (h : d.bskOnly t) : t.bsk.qa = d.bsk.qa := by rw [h.2.1]
theorem Dev.bskOnly.mle {d t : Dev} (h : d.bskOnly t) : t.mle = d.mle := by rw [h.1]
theorem Dev.bskOnly.fp {d t : Dev} (h : d.bskOnly t) : t.fp = d.fp := by rw [h.1]
theorem Dev.bskOnly.hoop {d t : Dev} (h : d.bskOnly t) : t.hoop = d.hoop := by rw [h.1]
theorem Dev.bskOnly.rfx {d t : Dev} (h : d.bskOnly t) : t.rfx = d.rfx := by rw [h.1]
theorem Dev.bskOnly.ord {d t : Dev} (h : d.bskOnly t) : t.ord = d.ord := by rw [h.1]
theorem Dev.bskOnly.ldg {d t : Dev} (h : d.bskOnly t) : t.ldg = d.ldg := by rw [h.1]
theorem Dev.bskOnly.rim {d t : Dev} (h : d.bskOnly t) : t.rim = d.rim := by rw [h.1]
theorem Dev.bskOnly.hif {d t : Dev} (h : d.bskOnly t) : t.hif = d.hif := by rw [h.1]
theorem Dev.bskOnly.thr {d t : Dev} (h : d.bskOnly t) : t.thr = d.thr := by rw [h.1]
theorem Dev.bskOnly.mem {d t : Dev} (h : d.bskOnly t) : t.mem = d.mem := by rw [h.1]
theorem Dev.bskOnly.boot {d t : Dev} (h : d.bskOnly t) : t.boot = d.boot := by rw [h.1]
theorem Dev.bskOnly.err {d t : Dev} (h : d.bskOnly t) : t.err = d.err := by rw [h.1]
theorem Dev.bskOnly.tb {d t : Dev} (h : d.bskOnly t) : t.tb = d.tb := by rw [h.1]
theorem Dev.bskOnly.pwr {d t : Dev} (h : d.bskOnly t) : t.pwr = d.pwr := by rw [h.1]
theorem Dev.bskOnly.dbg {d t : Dev} (h : d.bskOnly t) : t.dbg = d.dbg := by rw [h.1]
theorem Dev.bskOnly.trc {d t : Dev} (h : d.bskOnly t) : t.trc = d.trc := by rw [h.1]
theorem Dev.bskOnly.cnt {d t : Dev} (h : d.bskOnly t) : t.cnt = d.cnt := by rw [h.1]
theorem Dev.bskOnly.out {d t : Dev} (h : d.bskOnly t) : t.out = d.out := by rw [h.1]

/-! ### Error records -/

theorem Dev.errOnly_refl (d : Dev) : d.errOnly d := ⟨rfl, rfl, fun _ _ _ _ => rfl⟩

theorem Dev.errOnly_trans {a b c : Dev} (h : a.errOnly b) (k : b.errOnly c) : a.errOnly c := by
  obtain ⟨h1, h3, h2⟩ := h
  obtain ⟨k1, k3, k2⟩ := k
  refine ⟨?_, BskS.queuesOnly_trans h3 k3, fun g x y z => (k2 g x y z).trans (h2 g x y z)⟩
  rw [k1, h1]

theorem Dev.bskOnly.errOnly {d t : Dev} (h : d.bskOnly t) : d.errOnly t := by
  refine ⟨?_, h.2.1, fun g x _ _ => h.2.2 g x⟩
  rw [h.err, h.hif]
  exact h.1

theorem Dev.errOnly_err (d : Dev) (e : ErrS) : d.errOnly { d with err := e } := ⟨rfl, rfl, fun _ _ _ _ => rfl⟩

theorem Dev.errOnly_cnt (d : Dev) (i n : Nat) (hi : i < 8) : d.errOnly (d.addCnt (ERR_CNT_COUNT i) n) :=
  ⟨rfl, rfl, fun _ _ h _ => Dev.get_put_ne _ _ (h i hi)⟩

theorem Dev.errOnly_lost (d : Dev) (n : Nat) : d.errOnly (d.put ERR_STATUS_LOST n) := ⟨rfl, rfl, fun _ _ _ h => Dev.get_put_ne _ _ h⟩

theorem Dev.errOnly_ite {c : Prop} [Decidable c] {d x y : Dev} (hx : d.errOnly x) (hy : d.errOnly y) : d.errOnly (if c then x else y) := by
  split
  · exact hx
  · exact hy

theorem Dev.errOnly_logErr (d : Dev) (r : ErrRec) : d.errOnly (d.logErr r) := by
  unfold Dev.logErr
  refine Dev.errOnly_ite (Dev.errOnly_ite (Dev.errOnly_err _ _) ?_) d.errOnly_refl
  have h := Dev.errOnly_trans (Dev.errOnly_trans (d.errOnly_lost (satw 16 (d.get ERR_STATUS_LOST + 1))) (Dev.errOnly_cnt _ 5 1 (by decide)))
    (Dev.errOnly_err _ { ((d.put ERR_STATUS_LOST (satw 16 (d.get ERR_STATUS_LOST + 1))).inc (ERR_CNT_COUNT 5)).err with lostRose := true })
  simp only
  split
  · exact Dev.errOnly_trans h (Dev.errOnly_err _ _)
  · exact h

theorem Dev.errOnly_commitErr (d : Dev) (r : ErrRec) (hr : r.sev < 8) : d.errOnly (d.commitErr r) := by
  unfold Dev.commitErr
  have h := Dev.errOnly_trans (d.errOnly_err { d.err with rseq := (d.err.rseq + 1) % 2 ^ 32 }) (Dev.errOnly_cnt _ r.sev 1 hr)
  have h2 := Dev.errOnly_trans h (Dev.errOnly_logErr _ { r with rseq := d.err.rseq })
  have h3 : ∀ (a : Dev) (u : Nat) (e : ErrS), a.errOnly { a with hif := { a.hif with aerU := u }, err := e } :=
    fun a u e => ⟨rfl, rfl, fun _ _ _ _ => rfl⟩
  refine Dev.errOnly_trans (Dev.errOnly_trans h2 (Dev.errOnly_ite (h3 _ _ _) (Dev.errOnly_refl _)))
    (Dev.errOnly_ite (Dev.bskOnly.errOnly (Dev.bskOnly_trans (Dev.bskOnly_eventBytes _ _ _ _) (Dev.bskOnly_flushNotes _ _)))
      (Dev.errOnly_refl _))

/-- Raising an error record changes the error block, the AER bit and the Basket alone. -/
theorem Dev.errOnly_raiseErr (d : Dev) (b i r a x y : Nat) : d.errOnly (d.raiseErr b i r a x y) := by
  have hs : errSeverity r < 8 := by
    unfold errSeverity
    split
    · decide
    · split
      · decide
      · split <;> decide
  unfold Dev.raiseErr
  exact Dev.errOnly_ite (Dev.errOnly_ite (Dev.errOnly_trans (d.errOnly_err _) (Dev.errOnly_cnt _ _ _ (by decide)))
    (Dev.errOnly_trans (d.errOnly_err _) (Dev.errOnly_commitErr _ _ hs))) (d.errOnly_commitErr _ hs)

theorem Dev.errOnly.mle {d t : Dev} (h : d.errOnly t) : t.mle = d.mle := by rw [h.1]
theorem Dev.errOnly.fp {d t : Dev} (h : d.errOnly t) : t.fp = d.fp := by rw [h.1]
theorem Dev.errOnly.hoop {d t : Dev} (h : d.errOnly t) : t.hoop = d.hoop := by rw [h.1]
theorem Dev.errOnly.rfx {d t : Dev} (h : d.errOnly t) : t.rfx = d.rfx := by rw [h.1]
theorem Dev.errOnly.ord {d t : Dev} (h : d.errOnly t) : t.ord = d.ord := by rw [h.1]
theorem Dev.errOnly.ldg {d t : Dev} (h : d.errOnly t) : t.ldg = d.ldg := by rw [h.1]
theorem Dev.errOnly.rim {d t : Dev} (h : d.errOnly t) : t.rim = d.rim := by rw [h.1]
theorem Dev.errOnly.thr {d t : Dev} (h : d.errOnly t) : t.thr = d.thr := by rw [h.1]
theorem Dev.errOnly.mem {d t : Dev} (h : d.errOnly t) : t.mem = d.mem := by rw [h.1]
theorem Dev.errOnly.boot {d t : Dev} (h : d.errOnly t) : t.boot = d.boot := by rw [h.1]
theorem Dev.errOnly.tb {d t : Dev} (h : d.errOnly t) : t.tb = d.tb := by rw [h.1]
theorem Dev.errOnly.pwr {d t : Dev} (h : d.errOnly t) : t.pwr = d.pwr := by rw [h.1]
theorem Dev.errOnly.dbg {d t : Dev} (h : d.errOnly t) : t.dbg = d.dbg := by rw [h.1]
theorem Dev.errOnly.trc {d t : Dev} (h : d.errOnly t) : t.trc = d.trc := by rw [h.1]
theorem Dev.errOnly.cnt {d t : Dev} (h : d.errOnly t) : t.cnt = d.cnt := by rw [h.1]
theorem Dev.errOnly.out {d t : Dev} (h : d.errOnly t) : t.out = d.out := by rw [h.1]

end Sys2Proof.Machine
end

