-- ==== Sys2Proof/Tests/Slice0.lean ====
section
/-!
SUPPORT. The model's own tests: figures of the spec's worked examples, a command for each check of well-formedness that fails it, and for
every statement with hypotheses the states and operands that meet them.
-/
open Sys2Proof Sys2Proof.Machine
set_option maxRecDepth 20000
set_option Elab.async false
set_option linter.unusedVariables false

namespace Sys2Proof.Tests

/-! ### Figures of the spec's worked examples -/

/-- Table 10-13: DCHK p2, g6. -/
theorem test_encoding_dchk : (let i := rawIns 0x48060180; (i.l, i.cls, i.ra, i.fn)) = (false, 0xC, 6, 0x12) := by decide
/-- Table 10-13: (!p2) BR.A bad, with its displacement. -/
theorem test_encoding_br : (let i := rawIns 0x0018812A; (i.gp, i.gs, i.cls, i.x, i.arg)) = (2, true, 9, true, 0x18) := by decide
/-- Table 10-13: ADD g7, g0, 0x614, of three words. -/
theorem test_encoding_add : (let i := rawIns 0x061400001C10; (i.l, i.cls, i.rd, i.imm, i.len)) = (true, 0, 7, 0x614, 3) := by decide
/-- Table 10-13: (p3) TRAP 0x615. -/
theorem test_encoding_trap : (let i := rawIns 0x061505E3; (i.gp, i.cls, i.rd, i.arg)) = (3, 15, 1, 0x615) := by decide
/-- The example of chapter 10: DADD writes g5 and clears p3. -/
theorem test_decimal_sum : digAdd 16 0x0000003188204415 4 0 = (0x0000003188204419, false) := by decide
/-- Table 2-23: the nonce of the message. -/
theorem test_nonce : mlpNonce 0 17 0x00032A1C = 0x000000000000001100032A1C := by decide
/-- The example of chapter 17: word offset 0x2_8804 is FP_STATUS of FP2. -/
theorem test_register_place : (locate 0x28804).map (fun l => (l.reg.name, l.i, l.part)) = some (.FP_STATUS, 2, 0) := by decide +kernel
/-- R340: a release of RESET_N lets the device out of reset; the command leaves the queue. -/
theorem test_reset_release : (match step { State.reset with pending := [.resetRelease, .tick] } with
    | .next s => (s.dev.boot.held, s.pending)
    | _ => (true, [])) = (false, [.tick]) := by decide +kernel

/-! ### Commands that are not well-formed -/

theorem test_wf_registerWrite : (Instr.registerWrite .pf 0 0 0).wf = false ∧ (Instr.registerWrite .pf 0 9 0).wf = false ∧
    (Instr.registerWrite .pf 0 1 256).wf = false ∧ (Instr.registerWrite .pf 0 1 255).wf = true := by decide
theorem test_wf_rcFieldRead : (Instr.rcFieldRead .pf 0 0 false).wf = false ∧ (Instr.rcFieldRead .pf 0 9 false).wf = false := by decide
theorem test_wf_frames : (Instr.fpFrameReceive 0 0 [] 0 0 true).wf = false ∧ (Instr.rimFrameReceive 0 [] ⟨0, false⟩).wf = false := by decide
theorem test_wf_enqueue : (Instr.bskEnqueue 0 []).wf = false ∧ (Instr.bskEnqueue 0 (List.replicate 2049 0)).wf = false := by decide +kernel
theorem test_wf_dram : (Instr.refillArrive 0 [⟨0, 0, 0⟩] true).wf = false ∧ (Instr.queueAccessComplete 0 .good [(1, []), (0, [])]).wf = false ∧
    (Instr.scrubLine [⟨1, 3, 1⟩, ⟨1, 0, 1⟩]).wf = false ∧ (Instr.debugExec .pf 0 { dram := [(0, [⟨0, 0, 0⟩])] }).wf = false ∧
    (Instr.scrubLine [⟨1, 0, 1⟩, ⟨1, 3, 1⟩]).wf = true := by decide
theorem test_wf_link : (Instr.hostLinkUp 0 1).wf = false ∧ (Instr.hostLinkUp 6 1).wf = false ∧ (Instr.linkSpeedChange 1 3).wf = false := by decide
theorem test_wf_rings : (Instr.doorbellReturn 0 []).wf = false ∧ (Instr.commandFetch 0 [1]).wf = false ∧ (Instr.bulkOutFetch 0 [] [] none).wf = false := by
  decide
theorem test_wf_bar : (Instr.bar2Access 0 0 none []).wf = false ∧ (Instr.bar2Access 0 2 (some [1]) []).wf = false ∧
    (Instr.bar2Access 0 1 none [(0, [⟨0, 0, 0⟩])]).wf = false := by decide
theorem test_wf_plait : (Instr.add .handle ⟨0, false, false, 0, false, 0, 0, 0, 1, {}⟩).wf = false ∧
    (Instr.add .handle ⟨0, false, false, 0, false, 0, 0, 1, 0, {}⟩).wf = false ∧ (Instr.br .handle ⟨0, false, false, 0, false, 0, 1, {}⟩).wf = false ∧
    (Instr.ld .handle ⟨0, false, false, 0, false, 0, 0, 4, 0, {}⟩).wf = false ∧
    (Instr.ld .handle ⟨0, false, false, 0, false, 0, 0, 0, 0, { dram := [(0, [⟨0, 0, 0⟩])] }⟩).wf = false := by decide
theorem test_wf_others : (Instr.lostStore 0 false 32).wf = false ∧ (Instr.monitorSweep true []).wf = false := by decide

/-! ### States and operands for the witnesses -/

/-- A device as reset leaves it, but out of reset. -/
def tDev : Dev := { State.reset.dev with boot := { State.reset.dev.boot with held := false } }
/-- A state of a device, with no command waiting. -/
def tS (d : Dev) : State := { dev := d, pending := [] }
/-- An MLP message of lantern 7: first byte, type, payload length, SEQ, then payload and tag. -/
def tMsg (b0 ty plen seq : Nat) (body : List Byte) : List Byte :=
  beBytes 1 b0 ++ beBytes 1 ty ++ beBytes 2 plen ++ beBytes 8 7 ++ beBytes 4 seq ++ body
/-- Messages of lantern 7 of type 0x31 sealed under key 0, epoch 0, SEQ 1: payloads of 7 and of 8 zero bytes. -/
def tSeal7 : List Byte := beBytes 39 0x303100070000000000000007000000016e01d930078872e8ceafe41828ea0a67d88532a2b3b711
def tSeal8 : List Byte := beBytes 40 0x303100080000000000000007000000016e01d930078872bdd5b6489f94db2a7acf8d04e5ba3024ef
def tSealA : List Byte := beBytes 44 0x3011000c0000000000000007000000016e01d930078872bd5b32ec94a1a948b9e57ad5d97c7da07c74a48e3f
/-- Bytes of 0. -/
def tZeros (n : Nat) : List Byte := List.replicate n 0
/-- A lantern of UID 7 with a current key in slot 0. -/
def tLan : Lantern := { uid := 7, slot0 := { st := .current } }
/-- A frame that carries an MLP datagram of 32 B: from :: to ::, to UDP port 0. -/
def tEth : List Byte :=
  let udp (c : Nat) := beBytes 2 0 ++ beBytes 2 0 ++ beBytes 2 40 ++ beBytes 2 c ++ tZeros 32
  let b := tZeros 12 ++ beBytes 2 0x86DD ++ beBytes 4 0x60000000 ++ beBytes 2 40 ++ beBytes 1 17 ++ beBytes 1 64 ++ tZeros 32 ++
    udp (udpSum (tZeros 16) (tZeros 16) (udp 0))
  b ++ beBytes 4 0xcdcc7b69
/-- An admitted message of lantern 0: the prefix, then header and plaintext. -/
def tEnt (ty : Nat) (pl : List Byte) : Entry := { words := List.replicate 8 0 ++ packWords (tMsg 0x30 ty pl.length 1 pl) }
/-- A host command: its opcode, and bytes of its descriptor by place. -/
def tCmd (op : Nat) (l : List (Nat × Nat)) : Entry :=
  { words := packWords (l.foldl (fun b x => b.set x.1 (BitVec.ofNat 8 x.2)) (leBytes 2 op ++ tZeros 62)) }
/-- The clauses of quiet as one test. -/
def tQuiet (d : Dev) (t : ThreadId) : Bool :=
  let h := d.th (tid t)
  d.runnable t && decide (h.link = none) && !h.waiting && h.stepping == 0 && decide (h.haltReq = none) && decide (h.mc = none) &&
  decide (h.fpt = none) && (decide (kindOf t = .engine) || decide (h.irqNow = none)) &&
  (match t with | .engine e c => !d.engineBreak e.val c.val h.pc | _ => true)
theorem tQuiet_spec {d : Dev} {t : ThreadId} (h : tQuiet d t = true) : d.quiet t := by
  simp only [tQuiet, Bool.and_eq_true, Bool.or_eq_true, decide_eq_true_eq, Bool.not_eq_true', beq_iff_eq] at h
  obtain ⟨⟨⟨⟨⟨⟨⟨⟨a, b⟩, c⟩, e⟩, f⟩, g⟩, i⟩, j⟩, k⟩ := h
  refine ⟨a, b, c, e, f, g, i, j, ?_⟩
  intro x y hx
  subst hx
  simpa using k
/-- The device and value of a result. -/
def tRes {α : Type} (r : Res α) : Option (Dev × α) := match r with | .ok d a => some (d, a) | .bad _ _ => none
theorem tRes_spec {α : Type} {r : Res α} {d : Dev} {a : α} (h : tRes r = some (d, a)) : r = .ok d a := by
  cases r with
  | ok x y => simp only [tRes, Option.some.injEq, Prod.mk.injEq] at h; rw [h.1, h.2]
  | bad x y => cases h
/-- The device of a result. -/
def tDevOf {α : Type} (r : Res α) : Dev := match r with | .ok d _ => d | .bad d _ => d
/-- What the fetch of an instruction does. -/
def tFetch (d : Dev) (t : ThreadId) (i : PIns) : Res Unit :=
  let x := d.entering t i.env
  let h := d.th (tid t)
  if kindOf t = .stake then
    ((if !h.inLong && !h.annul then x.1.units x.2 [1] x.2.pc 1 false else .ok x.1 ()).bind fun d _ => d.fetchIns x.2 i.len)
  else if h.pc < 2 ^ (kindOf t).eaw ∧ i.env.hoopStore = false ∧ (kindOf t = .handle → x.1.hpuStops 0 x.2.pc i.len = false) then .ok x.1 () else .bad x.1 (.exc 0 0 0 false)
/-- The clauses of fetched as one test. -/
def tFetched (d : Dev) (t : ThreadId) (i : PIns) (d1 : Dev) : Bool := decide (tRes (tFetch d t i) = some (d1, ()))
theorem tFetched_spec {d : Dev} {t : ThreadId} {i : PIns} {d1 : Dev} (h : tFetched d t i d1 = true) : d.fetched t i d1 := by
  have h := tRes_spec (of_decide_eq_true h)
  unfold tFetch at h
  unfold Dev.fetched
  simp only [] at h ⊢
  split at h
  · rw [if_pos (by assumption)]; exact h
  · rw [if_neg (by assumption)]
    split at h
    · rename_i g
      cases h; exact ⟨g.1, g.2.1, g.2.2, rfl⟩
    · cases h
/-- The clauses of placed as one test. -/
def tPlaced (d : Dev) (t : ThreadId) (i : PIns) : Bool :=
  !i.noSlot || (!(d.th (tid t)).slot && decide ((d.th (tid t)).npc = none ∨ (d.th (tid t)).npc = some (wadd 64 (d.th (tid t)).pc i.len)))
theorem tPlaced_spec {d : Dev} {t : ThreadId} {i : PIns} (h : tPlaced d t i = true) : d.placed t i := by
  intro hn
  simpa [tPlaced, hn] using h
/-- The clauses of poised as one test. -/
def tPoised (d : Dev) (t : ThreadId) (i : PIns) (d1 : Dev) : Bool :=
  tQuiet d t && tFetched d t i d1 && i.legal (kindOf t) && tPlaced d t i && !(d.th (tid t)).annul && i.guard (d.th (tid t))
theorem tPoised_spec {d : Dev} {t : ThreadId} {i : PIns} {d1 : Dev} (h : tPoised d t i d1 = true) : d.poised t i d1 := by
  simp only [tPoised, Bool.and_eq_true, Bool.not_eq_true'] at h
  obtain ⟨⟨⟨⟨⟨a, b⟩, c⟩, e⟩, f⟩, g⟩ := h
  exact ⟨tQuiet_spec a, tFetched_spec b, c, tPlaced_spec e, f, g⟩
/-- Operands of zeros. -/
def tReg : PReg := { gp := 0, gs := false, l := false, rd := 0, x := false, ra := 0, rb := 0, sub := 0, imm := 0 }
/-- Operands of zeros. -/
def tArg : PArg := { gp := 0, gs := false, l := false, rd := 0, x := false, arg := 0, imm := 0 }
/-- The digest of the key that signed the images below. -/
def tKeyHash : Nat := 0x7f914e0f028586962de8f0e06a3e4fa817ec23cfabc908678f4438f6687511ca2af019428ebf70970c7a10bbd3bc0655
/-- A signed image of kind 3 with a body of two zero bytes, in order of address. -/
def tImg3 : List Byte := beBytes 514 0x565a494d010300000000000000000000020000000000000000000000000000001dd6f7b457ad880d840d41c961283bab688e94e4b59359ea45686581e90feccea3c624b1226113f824f315eb60ae0a7ce86b995e350e4d312a95a6b7d5d8cdcdb4682f588800a1cd6c972e1dcb2a5ac38d90046951b03ccb3b179a89fda88b1b485b9f2c1f44b0dd41ce6e3c3a690bbfaabec1e1ff4aefb2461fdda6629becbd43cf74c13d8c1a1625612243f0046148000000000000000000000000000000000000000000000000000000000000000000000000000000000000000000000000000000000000000000000000000000000000000000000000000000000000000000000000000000000000000000000000000000000000000000000000000000000000000000000000000000000000000000000000000000000000000000000000000000000000000000000000000000000000000000000000000000000000000000000000000000000000000000000000000000000000000000000000000000000000000000000000000000000000000000000000000000000000000000000000c47dbedb35d7b9d9ab39d55b46a6eb869d68d3485dd77ee0d0cf23ca92b6e7f9c3f302554d0f1ef57b4acc4f51c643f83869d216d3ad7e1ac3fa7c5bd0c41301a4a8c5575db0eb3eeb61921ae924eee48a61ab83c8e220e38d159ef560a676a30000
/-- A signed image of kind 4 with a body of two zero bytes, in order of address. -/
def tImg4 : List Byte := beBytes 514 0x565a494d010400000000000000000000020000000000000000000000000000001dd6f7b457ad880d840d41c961283bab688e94e4b59359ea45686581e90feccea3c624b1226113f824f315eb60ae0a7ce86b995e350e4d312a95a6b7d5d8cdcdb4682f588800a1cd6c972e1dcb2a5ac38d90046951b03ccb3b179a89fda88b1b485b9f2c1f44b0dd41ce6e3c3a690bbfaabec1e1ff4aefb2461fdda6629becbd43cf74c13d8c1a1625612243f0046148000000000000000000000000000000000000000000000000000000000000000000000000000000000000000000000000000000000000000000000000000000000000000000000000000000000000000000000000000000000000000000000000000000000000000000000000000000000000000000000000000000000000000000000000000000000000000000000000000000000000000000000000000000000000000000000000000000000000000000000000000000000000000000000000000000000000000000000000000000000000000000000000000000000000000000000000000000000000000000000000437c86b80aeb96f16db8c4217e935cf514b578647dd9329357b73757ec65d7f80459be8ced5ee9356068268dca474c66252081d48e0eb2f595d81137524da215d3987402a24a3b1c6fab145dfdedcfbebc2ec4f67d855895171f6617bdf1bb550000
/-- A signed image of kind 5 with a body of two zero bytes, in order of address. -/
def tImg5 : List Byte := beBytes 514 0x565a494d010500000000000000000000020000000000000001020000000000001dd6f7b457ad880d840d41c961283bab688e94e4b59359ea45686581e90feccea3c624b1226113f824f315eb60ae0a7ce86b995e350e4d312a95a6b7d5d8cdcdb4682f588800a1cd6c972e1dcb2a5ac38d90046951b03ccb3b179a89fda88b1b485b9f2c1f44b0dd41ce6e3c3a690bbfaabec1e1ff4aefb2461fdda6629becbd43cf74c13d8c1a1625612243f0046148000000000000000000000000000000000000000000000000000000000000000000000000000000000000000000000000000000000000000000000000000000000000000000000000000000000000000000000000000000000000000000000000000000000000000000000000000000000000000000000000000000000000000000000000000000000000000000000000000000000000000000000000000000000000000000000000000000000000000000000000000000000000000000000000000000000000000000000000000000000000000000000000000000000000000000000000000000000000000000000000b6f286ce9ed9cfe217134b63b99233886fcbaffdd471fe7e54b2c2f58686afc8c91ec46ec710ad136773f90dde6e7f01556e6f3f9e59c9a47e5ed02474e927fda47c54ca2d7732cbf20c2779e21c9cc06a830ff9b9f26d0aefbe3bad8967863f0000
/-- A response in the order of its registers: the key, then its signature of a challenge of zeros at level 0 of transport 0. -/
def tResp : List Byte := beBytes 192 0xe86b995e350e4d312a95a6b7d5d8cdcdb4682f588800a1cd6c972e1dcb2a5ac38d90046951b03ccb3b179a89fda88b1b485b9f2c1f44b0dd41ce6e3c3a690bbfaabec1e1ff4aefb2461fdda6629becbd43cf74c13d8c1a1625612243f004614863110061e15a51190cef8c3d91f0d705e8a3015d93ba0d39a29cf53272ef075aa258c6a1784f7f42f377dd785ac4ce37c655dbe57e7f787863acf497335ec6c9afdf148e1cf366775b2fe8e8db617bbf61ed80f0b24168d62c2b3ca8490c7d58
/-- The device and the failure of a result. -/
def tBad {α : Type} (r : Res α) : Option (Dev × Fail) := match r with | .ok _ _ => none | .bad d f => some (d, f)
theorem tBad_spec {α : Type} {r : Res α} {d : Dev} {f : Fail} (h : tBad r = some (d, f)) : r = .bad d f := by
  cases r with
  | ok x y => cases h
  | bad x y => simp only [tBad, Option.some.injEq, Prod.mk.injEq] at h; rw [h.1, h.2]
/-- The image that a check answers. -/
def tImg (r : Except Nat Img) : Option Img := match r with | .ok m => some m | .error _ => none
theorem tImg_spec {r : Except Nat Img} {m : Img} (h : tImg r = some m) : r = .ok m := by
  cases r with
  | ok x => simp only [tImg, Option.some.injEq] at h; rw [h]
  | error x => cases h
/-- The reason that a check answers. -/
def tErr (r : Except Nat Img) : Option Nat := match r with | .ok _ => none | .error e => some e
theorem tErr_spec {r : Except Nat Img} {e : Nat} (h : tErr r = some e) : r = .error e := by
  cases r with
  | ok x => cases h
  | error x => simp only [tErr, Option.some.injEq] at h; rw [h]
/-- The register at a word offset. -/
def tLoc (n : Nat) : Loc := (locate n).getD ⟨⟨.MLE_CTRL, 0, 0, 0, 0, 0, 0, 0, false, []⟩, 0, 0, 0, 0⟩
/-- The first field of a register. -/
def tFirst (l : Loc) : FieldDesc := l.reg.fields.head?.getD ⟨0, 0, .rw, 0, []⟩
theorem tNoLock {l : Loc} {r : Requester} (h : lockAt l.base = none) : ∀ f, lockAt l.base = some f → ∀ y ∈ l.reg.fields, (l.fld r y).key ≠ f.key := by
  intro f hf
  rw [h] at hf
  cases hf
theorem tLock {l : Loc} {r : Requester} {g : Fld} (h : lockAt l.base = some g) (k : ∀ y ∈ l.reg.fields, (l.fld r y).key ≠ g.key) :
    ∀ f, lockAt l.base = some f → ∀ y ∈ l.reg.fields, (l.fld r y).key ≠ f.key := by
  intro f hf
  rw [h] at hf
  cases hf
  exact k
theorem tNoFind {α : Type} {o : Option (Nat × α)} {b : Nat} (h : o = none) : ∀ u, o ≠ some (b, u) := by
  intro u
  rw [h]
  exact nofun
/-- The fuses of the key of the images. -/
def tFuse : FuseS := { kh0 := tKeyHash }
/-- The image that bytes stand for. -/
def tMk (b : List Byte) : Img := mkImg (slice b 0 512) (slice b 512 2)
theorem tHdr_fuse {d e : Dev} {k : Nat} {b : List Byte} (h : d.fuse = e.fuse) : d.checkHdr k b = e.checkHdr k b := by
  have x : ∀ d : Dev, d.checkHdr k b = ({ tDev with fuse := d.fuse } : Dev).checkHdr k b := fun _ => rfl
  rw [x d, x e, h]
theorem tHdr4 : ({ tDev with fuse := tFuse } : Dev).checkHdr 4 (slice tImg4 0 512) = 0 := by decide +kernel
theorem tHdr5 : ({ tDev with fuse := tFuse } : Dev).checkHdr 5 (slice tImg5 0 512) = 0 := by decide +kernel
theorem tHdr3 : ({ tDev with fuse := tFuse } : Dev).checkHdr 3 (slice tImg3 0 512) = 0 := by decide +kernel
theorem tImage {d : Dev} {k : Nat} {b : List Byte} (h : d.fuse = tFuse) (g : ({ tDev with fuse := tFuse } : Dev).checkHdr k (slice b 0 512) = 0)
    (n : hdrBodyLen (slice b 0 512) = 2) (o : bodyOk (slice b 0 512) (slice b 512 2) = true) : d.checkImg k b = .ok (tMk b) := by
  have g := (tHdr_fuse (d := d) (e := { tDev with fuse := tFuse }) h).trans g
  simp only [Dev.checkImg, g, n, o, if_true, tMk]
theorem tImage4 {d : Dev} (h : d.fuse = tFuse) : d.checkImg 4 tImg4 = .ok (tMk tImg4) := tImage h tHdr4 (by decide +kernel) (by decide +kernel)
theorem tImage5 {d : Dev} (h : d.fuse = tFuse) : d.checkImg 5 tImg5 = .ok (tMk tImg5) := tImage h tHdr5 (by decide +kernel) (by decide +kernel)
theorem tSlotAt {d : Dev} {k sl : Nat} {b : List Byte} (h : d.fuse = tFuse) (g : ({ tDev with fuse := tFuse } : Dev).checkHdr k (slice b 0 512) = 0)
    (n : hdrBodyLen (slice b 0 512) = 2) (o : bodyOk (slice b 0 512) (slice b 512 2) = true) (f : d.flashAt (slotOff k sl) 512 = slice b 0 512)
    (f2 : d.flashAt (slotOff k sl + 512) 2 = slice b 512 2) : d.checkSlotHdr k sl true = .ok (tMk b) ∧ d.checkSlot k sl true = .ok (tMk b) := by
  have g := (tHdr_fuse (d := d) (e := { tDev with fuse := tFuse }) h).trans g
  have x : d.checkSlotHdr k sl true = .ok (tMk b) := by
    simp only [Dev.checkSlotHdr, f, g, n, f2, tMk, Bool.not_true, Bool.false_eq_true, if_false]
  have y : bodyOk (tMk b).hdr (tMk b).code = true := by
    simpa only [tMk, mkImg] using o
  refine ⟨x, ?_⟩
  unfold Dev.checkSlot
  rw [x]
  simp only [y, if_true]
/-- Bytes from address a on. -/
def tAt : Nat → List Byte → Tab Byte
  | _, [] => []
  | a, b :: l => (a, b) :: tAt (a + 1) l
theorem tAt_find (l : List Byte) (a i : Nat) : Tab.find (tAt a l) (a + i) = l[i]? := by
  induction l generalizing a i with
  | nil => simp [tAt, Tab.find]
  | cons b l ih =>
    cases i with
    | zero => simp [tAt, Tab.find]
    | succ i =>
      have h := ih (a + 1) i
      rw [show a + 1 + i = a + (i + 1) by omega] at h
      simp only [tAt, Tab.find, List.getElem?_cons_succ]
      rw [if_neg (by omega), h]
theorem tAt_read (x : Byte) (l : List Byte) (a o n : Nat) (h : o + n ≤ l.length) :
    (List.range n).map (fun i => Tab.get x (tAt a l) (a + o + i)) = slice l o n := by
  apply List.ext_getElem
  · simp only [List.length_map, List.length_range, slice, List.length_append, List.length_take, List.length_drop, List.length_replicate]
    omega
  · intro i h1 h2
    have h1 : i < n := by simpa using h1
    have h3 : o + i < l.length := by omega
    have h4 : slice l o n = (l.drop o).take n := by
      simp only [slice]
      rw [show n - ((l.drop o).take n).length = 0 by rw [List.length_take, List.length_drop]; omega]
      simp
    simp only [h4]
    simp [Tab.get, Nat.add_assoc, tAt_find, List.getElem?_eq_getElem h3]
/-- A device whose flash holds an image in slot 0 of a kind, with the key of the images. -/
def tFlash (k : Nat) (b : List Byte) (d : Dev) : Dev := { d with fuse := tFuse, boot := { d.boot with flash := tAt (slotOff k 0) b } }
theorem tSlot {d : Dev} {k : Nat} {b : List Byte} (g : ({ tDev with fuse := tFuse } : Dev).checkHdr k (slice b 0 512) = 0)
    (n : hdrBodyLen (slice b 0 512) = 2) (o : bodyOk (slice b 0 512) (slice b 512 2) = true) (l : 514 ≤ b.length) :
    (tFlash k b d).checkSlotHdr k 0 true = .ok (tMk b) ∧ (tFlash k b d).checkSlot k 0 true = .ok (tMk b) :=
  tSlotAt (d := tFlash k b d) (by rfl) g n o (by exact tAt_read 0xFF b (slotOff k 0) 0 512 (by omega)) (by exact tAt_read 0xFF b (slotOff k 0) 512 2 l)
theorem tSigned : ecdsaVerify (slice (slice tImg4 0 512) 80 96) (sha384 (slice (slice tImg4 0 512) 0 416)) (slice (slice tImg4 0 512) 416 96) = true := by
  have x : ∀ (d : Dev) k b, d.checkHdr k b = 0 → ecdsaVerify (slice b 80 96) (sha384 (slice b 0 416)) (slice b 416 96) = true := by
    intro d k b h
    unfold Dev.checkHdr at h
    simp only [] at h
    iterate 4 (split at h; · cases h)
    split at h
    · cases h
    · rename_i g
      simpa using g
  exact x _ _ _ tHdr4
theorem tStaged {d : Dev} (h : d.fuse = tFuse) (p : d.stagBase = none) (e : d.boot.stag = tAt 0 tImg4) : d.checkImg 4 (d.stagAt 514) = .ok (tMk tImg4) := by
  have x : d.stagAt 514 = slice tImg4 0 514 := by
    unfold Dev.stagAt
    rw [e, p]
    simpa using tAt_read 0 tImg4 0 0 514 (by decide +kernel)
  rw [x, show slice tImg4 0 514 = tImg4 by decide +kernel]
  exact tImage4 h
theorem tShows {d : Dev} {k sl : Nat} {r : Except Nat Img} (a : (d.recBit (triedBit k sl) && !d.recBit (confBit k sl)) = false)
    (b : d.checkSlotHdr k sl true = r ∧ d.checkSlot k sl true = r) : d.slotShows k sl true = r := by
  unfold Dev.slotShows
  rw [if_neg (by rw [a]; exact Bool.false_ne_true)]
  split
  · exact b.2
  · exact b.1
theorem tChosen {d : Dev} {k : Nat} {m : Img} (a : d.slotShows k 0 true = .ok m) (s : sha384 m.code = slice m.hdr 32 48)
    (b : tImg (d.slotShows k 1 true) = none) :
    d.slotShows k 0 true = .ok m ∧ sha384 m.code = slice m.hdr 32 48 ∧ 0 < 2 ∧
      ∀ n, d.slotShows k (1 - 0) true = .ok n → sha384 n.code = slice n.hdr 32 48 → (0 = 0 → preferA m n = true) ∧ (0 = 1 → preferA n m = false) := by
  refine ⟨a, s, by decide, fun n h => ?_⟩
  rw [h] at b
  cases b
theorem tSlot4 {d : Dev} : (tFlash 4 tImg4 d).checkSlotHdr 4 0 true = .ok (tMk tImg4) ∧ (tFlash 4 tImg4 d).checkSlot 4 0 true = .ok (tMk tImg4) :=
  tSlot tHdr4 (by decide +kernel) (by decide +kernel) (by decide +kernel)
theorem tSlot3 {d : Dev} : (tFlash 3 tImg3 d).checkSlotHdr 3 0 true = .ok (tMk tImg3) ∧ (tFlash 3 tImg3 d).checkSlot 3 0 true = .ok (tMk tImg3) :=
  tSlot tHdr3 (by decide +kernel) (by decide +kernel) (by decide +kernel)
/-- The clauses of hasRoom as one test. -/
def tRoom (d : Dev) (n : Nat) (e : Entry) : Bool :=
  let q := d.queue n
  decide (q.enable = true ∧ e.cells ≤ q.odq ∧ q.spilled = false ∧ q.head + e.cells ≤ q.odq ∧ d.room q e.cells = true ∧ d.bsk.notes = [])
theorem tRoom_spec {d : Dev} {n : Nat} {e : Entry} (h : tRoom d n e = true) : d.hasRoom n e := by
  unfold tRoom at h
  have h := of_decide_eq_true h
  exact h
/-- The clauses of reaches as one test. -/
def tReaches (d : Dev) (r : Requester) (off bytes : Nat) (l : Loc) : Bool :=
  l.part == 0 &&
  match r with
  | .stake _ => decide (locate off = some l ∧ bytes = 2 * l.reg.words)
  | .accEngine _ => decide (locate off = some l ∧ bytes = 2 * l.reg.words)
  | .handle => decide (locate off = some l ∧ bytes = 4 ∧ l.reg.quad = false)
  | .dbg0 => decide (locate off = some l ∧ bytes = 4 ∧ l.reg.quad = false ∧ d.asleep = false ∧ d.level 0 = 2)
  | _ => false
theorem tReaches_spec {d : Dev} {r : Requester} {off bytes : Nat} {l : Loc} (h : tReaches d r off bytes l = true) : d.reaches r off bytes l := by
  unfold tReaches at h
  unfold Dev.reaches
  simp only [Bool.and_eq_true, beq_iff_eq] at h
  refine ⟨h.1, ?_⟩
  replace h := h.2
  cases r <;> first | exact of_decide_eq_true h | cases h
theorem tNoSome {α : Type} {o : Option α} {P : α → Prop} (h : o = none) : ∀ l, o = some l → P l := by
  intro l g
  rw [h] at g
  cases g
/-- A frame of 60 zero bytes with its FCS. -/
def tSlow : List Byte := tZeros 60 ++ fcs (tZeros 60)
theorem tFull {used : List Nat} {b : Nat} (h : ∀ k, k < 12288 → b + 32 * k ∈ used) : ∀ n k, freeIn used b n k = none := by
  intro n
  induction n with
  | zero => intro k; rfl
  | succ n ih =>
    intro k
    unfold freeIn
    split
    · rfl
    · rw [if_pos (by simpa using h k (by omega))]
      exact ih _
theorem tNextBank {used : List Nat} (h : ∀ k, k < 12288 → 0 + 32 * k ∈ used) (g : 1 ∉ used) : freeFrom used 32 0 = some 1 := by
  unfold freeFrom
  rw [tFull h]
  simp only []
  unfold freeFrom
  have x : freeIn used ((0 + 1) % 32) (used.length + 1) 0 = some 1 := by
    unfold freeIn
    rw [if_neg (by decide), if_neg (by simpa using g)]
  rw [x]
theorem tNone {d : Dev} {k : Nat} {ok : Bool} (a : tImg (d.slotShows k 0 ok) = none) (b : tImg (d.slotShows k 1 ok) = none) :
    ∀ slot, slot < 2 → ∀ m, d.slotShows k slot ok = .ok m → sha384 m.code ≠ slice m.hdr 32 48 := by
  intro slot h m hm
  have x : slot = 0 ∨ slot = 1 := by omega
  rcases x with rfl | rfl
  · rw [hm] at a; cases a
  · rw [hm] at b; cases b

/-! ### Witnesses: what meets the hypotheses of each statement, clause by clause -/

theorem wit_IdleOnEmptyQueue :
    let s : State := tS tDev; s.pending = [] := by decide +kernel

theorem wit_InventoryCommandsStart :
    (let s : State := (tS (tDev |>.put MLE_INV_STATUS_BUSY 0 )); let i : Instr := .register; let op : Nat := 1;
     s.dev.awake = true ∧ (i, op) ∈ invOps ∧ s.dev.get MLE_INV_STATUS_BUSY = 0) ∧
    (let s : State := (tS (tDev |>.put MLE_INV_STATUS_BUSY 1 )); let i : Instr := .register; let op : Nat := 1;
     s.dev.awake = true ∧ (i, op) ∈ invOps ∧ s.dev.get MLE_INV_STATUS_BUSY = 1) :=
  by refine ⟨?_, ?_⟩ <;> decide +kernel

theorem wit_KeyCommandsStart :
    (let s : State := (tS (tDev |>.put MLE_KEY_STATUS_BUSY 0 )); let lix : Lix := 0x3FFFF; let i : Instr := .loadCurrent lix; let op : Nat := 1;
     s.dev.awake = true ∧ (i, op) ∈ keyOps lix ∧ s.dev.get MLE_KEY_STATUS_BUSY = 0) ∧
    (let s : State := (tS (tDev |>.put MLE_KEY_STATUS_BUSY 1 )); let lix : Lix := 0x3FFFF; let i : Instr := .loadCurrent lix; let op : Nat := 1;
     s.dev.awake = true ∧ (i, op) ∈ keyOps lix ∧ s.dev.get MLE_KEY_STATUS_BUSY = 1) :=
  by refine ⟨?_, ?_⟩ <;> decide +kernel

theorem wit_InventoryCommandsEnd :
    (let c : InvCmd := ⟨1, 0, 0, 0, 0⟩; let s : State := (tS (tDev |> fun d => { d with mle := { d.mle with invPend := some c } }));
     s.dev.awake = true ∧ s.dev.mle.invPend = some c ∧ c.op = 1 ∧ c.uid = 0) ∧
    (let c : InvCmd := ⟨1, 7, 0, 0, 0⟩;
     let s : State := (tS (tDev |> fun d => { d with mle := { d.mle with invPend := some c } } |>.setLantern 5 tLan));
     s.dev.awake = true ∧ s.dev.mle.invPend = some c ∧ c.op = 1 ∧ c.uid ≠ 0 ∧ (s.dev.byUid c.uid).isSome) ∧
    (let c : InvCmd := ⟨2, 7, 0, 0, 0⟩; let s : State := (tS (tDev |> fun d => { d with mle := { d.mle with invPend := some c } }));
     s.dev.awake = true ∧ s.dev.mle.invPend = some c ∧ c.op ≠ 1 ∧ s.dev.byUid c.uid = none) :=
  by refine ⟨?_, ?_, ?_⟩ <;> decide +kernel

theorem wit_KeyCommandsEnd :
    let c : KeyCmd := ⟨1, 0, 0, [], []⟩; let s : State := (tS (tDev |> fun d => { d with mle := { d.mle with keyPend := some c } }));
    s.dev.awake = true ∧ s.dev.mle.keyPend = some c ∧ s.dev.lantern c.lix = none := by decide +kernel

theorem wit_GatewayTable :
    let s : State := tS tDev; let j : Nat := 0; let k := 1; s.dev.awake = true ∧ k ≠ j := by decide +kernel

theorem wit_RekeyTimers :
    (let r : Rekey := { sends := 1 }; let l : Lantern := { rekey := some r }; let lix : Lix := 0;
     let s : State := (tS (tDev |>.setLantern lix.toNat l |>.put MLE_REKEY_TRIES 2));
     s.dev.awake = true ∧ s.dev.lantern lix.toNat = some l ∧ l.rekey = some r ∧ r.due = false ∧ 1 ≤ r.sends ∧
         r.sends < s.dev.get MLE_REKEY_TRIES) ∧
    (let r : Rekey := { sends := 1 }; let l : Lantern := { rekey := some r }; let lix : Lix := 0;
     let s : State := (tS (tDev |>.setLantern lix.toNat l |>.put MLE_REKEY_TRIES 1));
     s.dev.awake = true ∧ s.dev.lantern lix.toNat = some l ∧ l.rekey = some r ∧ r.due = false ∧ s.dev.get MLE_REKEY_TRIES ≤ r.sends) ∧
    (let l : Lantern := { slot1 := { st := .old } }; let lix : Lix := 0; let s : State := (tS (tDev |>.setLantern lix.toNat l)); let p := 1;
     s.dev.awake = true ∧ s.dev.lantern lix.toNat = some l ∧ l.parOf .old = some p) :=
  by refine ⟨?_, ?_, ?_⟩ <;> decide +kernel

theorem wit_ReplayWindow :
    let k : KeySlot := { h := 64 }; let seq : Nat := 65; let q := 2; k.replay seq = 0 ∧ 0 < q ∧ q ≠ seq ∧ (k.accept seq).h < q + 64 := by decide +kernel

theorem wit_DatagramChecks :
    (let p : Nat := 0; let g : Dgram := { bytes := tZeros 31, src := 0 }; let r : List Dgram := [];
     let s : State := (tS (tDev |>.put MLE_CTRL_ENABLE 1 |>.setFport p { buf := g :: r } |>.setLantern 5 tLan)); let b := g.bytes;
     s.dev.awake = true ∧ s.dev.get MLE_CTRL_ENABLE = 1 ∧ s.dev.portTurn = some p ∧ (s.dev.fport p).buf = g :: r ∧ b.length < 32) ∧
    (let p : Nat := 0; let g : Dgram := { bytes := tZeros 32, src := 0 }; let r : List Dgram := [];
     let s : State := (tS (tDev |>.put MLE_CTRL_ENABLE 1 |>.setFport p { buf := g :: r } |>.setLantern 5 tLan)); let b := g.bytes;
     s.dev.awake = true ∧ s.dev.get MLE_CTRL_ENABLE = 1 ∧ s.dev.portTurn = some p ∧ (s.dev.fport p).buf = g :: r ∧ 32 ≤ b.length ∧
         byteAt b 0 / 16 ≠ 3) ∧
    (let p : Nat := 0; let g : Dgram := { bytes := tMsg 0x30 0x3F 0 1 (tZeros 16), src := 0 }; let r : List Dgram := [];
     let s : State := (tS (tDev |>.put MLE_CTRL_ENABLE 1 |>.setFport p { buf := g :: r } |>.setLantern 5 tLan)); let b := g.bytes;
     let ty := byteAt b 1; let sane := 32 ≤ b.length ∧ byteAt b 0 / 16 = 3;
     s.dev.awake = true ∧ s.dev.get MLE_CTRL_ENABLE = 1 ∧ s.dev.portTurn = some p ∧ (s.dev.fport p).buf = g :: r ∧ sane ∧ ty = 0x3F) ∧
    (let p : Nat := 0; let g : Dgram := { bytes := tMsg 0x30 1 1201 1 (tZeros 1217), src := 0 }; let r : List Dgram := [];
     let s : State := (tS (tDev |>.put MLE_CTRL_ENABLE 1 |>.setFport p { buf := g :: r } |>.setLantern 5 tLan)); let b := g.bytes;
     let plen := beAt b 2 2; let ty := byteAt b 1; let sane := 32 ≤ b.length ∧ byteAt b 0 / 16 = 3;
     s.dev.awake = true ∧ s.dev.get MLE_CTRL_ENABLE = 1 ∧ s.dev.portTurn = some p ∧ (s.dev.fport p).buf = g :: r ∧ sane ∧ ty ≠ 0x3F ∧
         (1200 < plen ∨ plen + 32 ≠ b.length)) ∧
    (let p : Nat := 0; let g : Dgram := { bytes := tMsg 0x38 1 1200 1 (tZeros 1216), src := 0 }; let r : List Dgram := [];
     let s : State := (tS (tDev |>.put MLE_CTRL_ENABLE 1 |>.setFport p { buf := g :: r } |>.setLantern 5 tLan)); let b := g.bytes;
     let plen := beAt b 2 2; let ty := byteAt b 1; let sane := 32 ≤ b.length ∧ byteAt b 0 / 16 = 3;
     let sized := sane ∧ ty ≠ 0x3F ∧ plen ≤ 1200 ∧ plen + 32 = b.length;
     s.dev.awake = true ∧ s.dev.get MLE_CTRL_ENABLE = 1 ∧ s.dev.portTurn = some p ∧ (s.dev.fport p).buf = g :: r ∧ sized ∧
         (byteAt b 0).testBit 3 = true) ∧
    (let p : Nat := 0; let g : Dgram := { bytes := tMsg 0x30 6 0 1 (tZeros 16), src := 0 }; let r : List Dgram := [];
     let s : State := (tS (tDev |>.put MLE_CTRL_ENABLE 1 |>.setFport p { buf := g :: r } |>.setLantern 5 tLan)); let b := g.bytes;
     let plen := beAt b 2 2; let ty := byteAt b 1; let sane := 32 ≤ b.length ∧ byteAt b 0 / 16 = 3;
     let sized := sane ∧ ty ≠ 0x3F ∧ plen ≤ 1200 ∧ plen + 32 = b.length;
     s.dev.awake = true ∧ s.dev.get MLE_CTRL_ENABLE = 1 ∧ s.dev.portTurn = some p ∧ (s.dev.fport p).buf = g :: r ∧ sized ∧
         (byteAt b 0).testBit 3 = false ∧ ty ∉ [1, 2, 3, 4, 5, 0x11, 0x21, 0x31]) ∧
    (let p : Nat := 0; let g : Dgram := { bytes := tMsg 0x30 1 0 1 (tZeros 16), src := 0 }; let r : List Dgram := [];
     let s : State := (tS (tDev |>.put MLE_CTRL_ENABLE 1 |>.setFport p { buf := g :: r } |>.setLantern 5 tLan
         |> fun d => { d with mle := { d.mle with inv := [] } }));
     let b := g.bytes; let uid := beAt b 4 8; let plen := beAt b 2 2; let ty := byteAt b 1; let sane := 32 ≤ b.length ∧ byteAt b 0 / 16 = 3;
     let sized := sane ∧ ty ≠ 0x3F ∧ plen ≤ 1200 ∧ plen + 32 = b.length;
     let typed := sized ∧ (byteAt b 0).testBit 3 = false ∧ ty ∈ [1, 2, 3, 4, 5, 0x11, 0x21, 0x31];
     s.dev.awake = true ∧ s.dev.get MLE_CTRL_ENABLE = 1 ∧ s.dev.portTurn = some p ∧ (s.dev.fport p).buf = g :: r ∧ typed ∧
         s.dev.byUid uid = none) ∧
    (let l : Lantern := { tLan with suspended := true }; let p : Nat := 0; let g : Dgram := { bytes := tMsg 0x30 1 0 1 (tZeros 16), src := 0 };
     let r : List Dgram := [];
     let s : State := (tS (tDev |>.put MLE_CTRL_ENABLE 1 |>.setFport p { buf := g :: r } |>.setLantern 5 tLan |>.setLantern 5 l));
     let b := g.bytes; let uid := beAt b 4 8; let plen := beAt b 2 2; let ty := byteAt b 1; let sane := 32 ≤ b.length ∧ byteAt b 0 / 16 = 3;
     let sized := sane ∧ ty ≠ 0x3F ∧ plen ≤ 1200 ∧ plen + 32 = b.length;
     let typed := sized ∧ (byteAt b 0).testBit 3 = false ∧ ty ∈ [1, 2, 3, 4, 5, 0x11, 0x21, 0x31]; let lix : Nat := 5;
     s.dev.awake = true ∧ s.dev.get MLE_CTRL_ENABLE = 1 ∧ s.dev.portTurn = some p ∧ (s.dev.fport p).buf = g :: r ∧ typed ∧
         s.dev.byUid uid = some (lix, l) ∧ l.suspended = true) ∧
    (let p : Nat := 0; let g : Dgram := { bytes := tMsg 0x34 1 0 1 (tZeros 16), src := 0 }; let r : List Dgram := [];
     let s : State := (tS (tDev |>.put MLE_CTRL_ENABLE 1 |>.setFport p { buf := g :: r } |>.setLantern 5 tLan)); let b := g.bytes;
     let uid := beAt b 4 8; let plen := beAt b 2 2; let ty := byteAt b 1; let sane := 32 ≤ b.length ∧ byteAt b 0 / 16 = 3;
     let sized := sane ∧ ty ≠ 0x3F ∧ plen ≤ 1200 ∧ plen + 32 = b.length;
     let typed := sized ∧ (byteAt b 0).testBit 3 = false ∧ ty ∈ [1, 2, 3, 4, 5, 0x11, 0x21, 0x31]; let lix : Nat := 5;
     let l : Lantern := tLan; let ep := byteAt b 0 / 4 % 2; let k := l.slot ep;
     s.dev.awake = true ∧ s.dev.get MLE_CTRL_ENABLE = 1 ∧ s.dev.portTurn = some p ∧ (s.dev.fport p).buf = g :: r ∧ typed ∧
         s.dev.byUid uid = some (lix, l) ∧ l.suspended = false ∧ k.st = .empty) ∧
    (let l : Lantern := { uid := 7, slot0 := { st := .retired } }; let p : Nat := 0;
     let g : Dgram := { bytes := tMsg 0x30 1 0 1 (tZeros 16), src := 0 }; let r : List Dgram := [];
     let s : State := (tS (tDev |>.put MLE_CTRL_ENABLE 1 |>.setFport p { buf := g :: r } |>.setLantern 5 tLan |>.setLantern 5 l));
     let b := g.bytes; let uid := beAt b 4 8; let plen := beAt b 2 2; let ty := byteAt b 1; let sane := 32 ≤ b.length ∧ byteAt b 0 / 16 = 3;
     let sized := sane ∧ ty ≠ 0x3F ∧ plen ≤ 1200 ∧ plen + 32 = b.length;
     let typed := sized ∧ (byteAt b 0).testBit 3 = false ∧ ty ∈ [1, 2, 3, 4, 5, 0x11, 0x21, 0x31]; let lix : Nat := 5;
     let ep := byteAt b 0 / 4 % 2; let k := l.slot ep;
     s.dev.awake = true ∧ s.dev.get MLE_CTRL_ENABLE = 1 ∧ s.dev.portTurn = some p ∧ (s.dev.fport p).buf = g :: r ∧ typed ∧
         s.dev.byUid uid = some (lix, l) ∧ l.suspended = false ∧ k.st = .retired) ∧
    (let p : Nat := 0; let g : Dgram := { bytes := tMsg 0x30 1 0 0 (tZeros 16), src := 0 }; let r : List Dgram := [];
     let s : State := (tS (tDev |>.put MLE_CTRL_ENABLE 1 |>.setFport p { buf := g :: r } |>.setLantern 5 tLan)); let b := g.bytes;
     let uid := beAt b 4 8; let plen := beAt b 2 2; let ty := byteAt b 1; let sane := 32 ≤ b.length ∧ byteAt b 0 / 16 = 3;
     let sized := sane ∧ ty ≠ 0x3F ∧ plen ≤ 1200 ∧ plen + 32 = b.length;
     let typed := sized ∧ (byteAt b 0).testBit 3 = false ∧ ty ∈ [1, 2, 3, 4, 5, 0x11, 0x21, 0x31]; let lix : Nat := 5;
     let l : Lantern := tLan; let ep := byteAt b 0 / 4 % 2; let k := l.slot ep; let seq := beAt b 12 4;
     s.dev.awake = true ∧ s.dev.get MLE_CTRL_ENABLE = 1 ∧ s.dev.portTurn = some p ∧ (s.dev.fport p).buf = g :: r ∧ typed ∧
         s.dev.byUid uid = some (lix, l) ∧ l.suspended = false ∧ k.st ≠ .empty ∧ k.st ≠ .retired ∧ k.replay seq ≠ 0) ∧
    (let p : Nat := 0; let g : Dgram := { bytes := tMsg 0x30 1 0 1 (tZeros 16), src := 0 }; let r : List Dgram := [];
     let s : State := (tS (tDev |>.put MLE_CTRL_ENABLE 1 |>.setFport p { buf := g :: r } |>.setLantern 5 tLan)); let b := g.bytes;
     let uid := beAt b 4 8; let plen := beAt b 2 2; let ty := byteAt b 1; let sane := 32 ≤ b.length ∧ byteAt b 0 / 16 = 3;
     let sized := sane ∧ ty ≠ 0x3F ∧ plen ≤ 1200 ∧ plen + 32 = b.length;
     let typed := sized ∧ (byteAt b 0).testBit 3 = false ∧ ty ∈ [1, 2, 3, 4, 5, 0x11, 0x21, 0x31]; let lix : Nat := 5;
     let l : Lantern := tLan; let ep := byteAt b 0 / 4 % 2; let k := l.slot ep; let seq := beAt b 12 4;
     let opened := gcmOpen k.key (mlpNonce 0 k.epoch seq) (b.take 16) ((b.drop 16).take (b.length - 32)) (b.drop (b.length - 16));
     s.dev.awake = true ∧ s.dev.get MLE_CTRL_ENABLE = 1 ∧ s.dev.portTurn = some p ∧ (s.dev.fport p).buf = g :: r ∧ typed ∧
         s.dev.byUid uid = some (lix, l) ∧ l.suspended = false ∧ k.st ≠ .empty ∧ k.st ≠ .retired ∧ k.replay seq = 0 ∧ opened = none) ∧
    (let p : Nat := 0; let g : Dgram := { bytes := tSeal7, src := 0 }; let r : List Dgram := [];
     let s : State := (tS (tDev |>.put MLE_CTRL_ENABLE 1 |>.setFport p { buf := g :: r } |>.setLantern 5 tLan
         |>.put MLE_SEQ_WARN_THRESHOLD 2));
     let b := g.bytes; let uid := beAt b 4 8; let plen := beAt b 2 2; let ty := byteAt b 1; let sane := 32 ≤ b.length ∧ byteAt b 0 / 16 = 3;
     let sized := sane ∧ ty ≠ 0x3F ∧ plen ≤ 1200 ∧ plen + 32 = b.length;
     let typed := sized ∧ (byteAt b 0).testBit 3 = false ∧ ty ∈ [1, 2, 3, 4, 5, 0x11, 0x21, 0x31]; let lix : Nat := 5;
     let l : Lantern := tLan; let ep := byteAt b 0 / 4 % 2; let k := l.slot ep; let seq := beAt b 12 4;
     let opened := gcmOpen k.key (mlpNonce 0 k.epoch seq) (b.take 16) ((b.drop 16).take (b.length - 32)) (b.drop (b.length - 16));
     let pl : List Byte := tZeros 7;
     s.dev.awake = true ∧ s.dev.get MLE_CTRL_ENABLE = 1 ∧ s.dev.portTurn = some p ∧ (s.dev.fport p).buf = g :: r ∧ typed ∧
         s.dev.byUid uid = some (lix, l) ∧ l.suspended = false ∧ k.st = .current ∧ k.replay seq = 0 ∧
         seq < s.dev.get MLE_SEQ_WARN_THRESHOLD ∧ opened = some pl ∧ payloadOk ty pl = false) ∧
    (let p : Nat := 0; let g : Dgram := { bytes := tSeal8, src := 0 }; let r : List Dgram := [];
     let s : State := (tS (tDev |>.put MLE_CTRL_ENABLE 1 |>.setFport p { buf := g :: r } |>.setLantern 5 tLan
         |>.put MLE_SEQ_WARN_THRESHOLD 2));
     let b := g.bytes; let uid := beAt b 4 8; let plen := beAt b 2 2; let ty := byteAt b 1; let sane := 32 ≤ b.length ∧ byteAt b 0 / 16 = 3;
     let sized := sane ∧ ty ≠ 0x3F ∧ plen ≤ 1200 ∧ plen + 32 = b.length;
     let typed := sized ∧ (byteAt b 0).testBit 3 = false ∧ ty ∈ [1, 2, 3, 4, 5, 0x11, 0x21, 0x31]; let lix : Nat := 5;
     let l : Lantern := tLan; let ep := byteAt b 0 / 4 % 2; let k := l.slot ep; let seq := beAt b 12 4;
     let opened := gcmOpen k.key (mlpNonce 0 k.epoch seq) (b.take 16) ((b.drop 16).take (b.length - 32)) (b.drop (b.length - 16));
     let pl : List Byte := tZeros 8;
     s.dev.awake = true ∧ s.dev.get MLE_CTRL_ENABLE = 1 ∧ s.dev.portTurn = some p ∧ (s.dev.fport p).buf = g :: r ∧ typed ∧
         s.dev.byUid uid = some (lix, l) ∧ l.suspended = false ∧ k.st = .current ∧ k.replay seq = 0 ∧
         seq < s.dev.get MLE_SEQ_WARN_THRESHOLD ∧ opened = some pl ∧ payloadOk ty pl = true) :=
  by refine ⟨?_, ?_, ?_, ?_, ?_, ?_, ?_, ?_, ?_, ?_, ?_, ?_, ?_, ?_⟩ <;> decide +kernel

theorem wit_EgressOrder :
    (let k : Rekey := {}; let l : Lantern := { rekey := some k }; let lix : Nat := 0; let r : List Nat := [];
     let s : State := (tS (tDev |>.put MLE_CTRL_ENABLE 0 |>.setLantern lix l |> fun d => { d with mle := { d.mle with due := lix :: r } }));
     s.dev.awake = true ∧ s.dev.ord.todo = [] ∧ s.dev.mle.due = lix :: r ∧ s.dev.lantern lix = some l ∧ l.rekey = some k ∧
         s.dev.get MLE_CTRL_ENABLE = 0) ∧
    (let s : State := tS tDev;
     s.dev.awake = true ∧ s.dev.ord.todo = [] ∧ s.dev.mle.due = [] ∧ s.dev.taken 0x158C = [] ∧ s.dev.taken 0x158D = [] ∧
         (s.dev.queue 0x158C).es = [] ∧ (s.dev.queue 0x158D).es = []) :=
  by refine ⟨?_, ?_⟩ <;> decide +kernel

theorem wit_DatagramAdmitted :
    let p : Nat := 0; let g : Dgram := { bytes := tSealA, src := 0 }; let r : List Dgram := [];
    let s : State := (tS (tDev |>.put MLE_CTRL_ENABLE 1 |>.setFport p { buf := g :: r } |>.setLantern 5 tLan
        |> fun d => d.setQueue 0x158A { d.queue 0x158A with enable := true }));
    let lix : Nat := 5; let l : Lantern := tLan; let pl : List Byte := tZeros 12; let q : Nat := 0x158A; let b := g.bytes;
    let ty := byteAt b 1; let ep := byteAt b 0 / 4 % 2; let k := l.slot ep; let seq := beAt b 12 4;
    let e : Entry := { words := s.dev.prefixWords lix l.owner p ep ++ packWords (b.take 16 ++ pl) };
    let dest := if ty = 1 ∨ ty = 5 then s.dev.shardQueue (lix / 32) else if ty = 4 then some 0x158B else if ty = 0x11 then some 0x158A else if ty = 0x21 then some (0x15C0 + l.owner) else none;
    s.dev.awake = true ∧ s.dev.get MLE_CTRL_ENABLE = 1 ∧ s.dev.portTurn = some p ∧ (s.dev.fport p).buf = g :: r ∧ byteAt b 0 / 16 = 3 ∧
        beAt b 2 2 ≤ 1200 ∧ beAt b 2 2 + 32 = b.length ∧ (byteAt b 0).testBit 3 = false ∧ s.dev.byUid (beAt b 4 8) = some (lix, l) ∧
        l.suspended = false ∧ k.st = .current ∧ k.replay seq = 0 ∧ seq < s.dev.get MLE_SEQ_WARN_THRESHOLD ∧
        gcmOpen k.key (mlpNonce 0 k.epoch seq) (b.take 16) ((b.drop 16).take (b.length - 32)) (b.drop (b.length - 16)) = some pl ∧
        payloadOk ty pl = true ∧ dest = some q ∧ s.dev.hasRoom q e := ⟨by decide +kernel, by decide +kernel, by decide +kernel, by decide +kernel, by decide +kernel, by decide +kernel, by decide +kernel, by decide +kernel, by decide +kernel, by decide +kernel, by decide +kernel, by decide +kernel, by decide +kernel, by decide +kernel, by decide +kernel, by decide +kernel, tRoom_spec (by decide +kernel)⟩

theorem wit_MessageSent :
    let l : Lantern := { slot0 := { st := .current } };
    let e : Entry := ({ words := (List.replicate 8 (0 : Word)).set 5 0x1000 |>.set 6 16 } : Entry); let r : List Entry := [];
    let s : State := (tS (tDev |> fun d => { d with bsk := { d.bsk with taken := [(0x158C, e :: r)] } } |>.put MLE_CTRL_ENABLE 1
        |>.setLantern 0 l |>.put (FP_SVC_STATE 0) 2 |>.put (FP_STATUS_LINK_UP 0) 1 |>.setGateway 0 { cfg := 0x40000 }
        |> fun d => { d with fp := { d.fp with nh := [(0, 2 ^ 50)] } }));
    let par : Nat := 0; let link : Nat := 0; let w := fun i => (e.words.getD i 0).toNat; let ty := w 5 / 256;
    let lix := w 4 + w 5 % 4 * 65536; let uid := wordsNat (e.words.take 4); let seq := l.txSeq + 1; let g := s.dev.gateway l.gw;
    let p := bits g.cfg 17 16; let nh := Tab.get 0 s.dev.fp.nh l.gw;
    s.dev.awake = true ∧ s.dev.ord.todo = [] ∧ s.dev.mle.due = [] ∧ s.dev.get MLE_CTRL_ENABLE = 1 ∧ s.dev.taken 0x158C = e :: r ∧
        e.poison = false ∧ egressFits ty (w 6) = true ∧ s.dev.lantern lix = some l ∧ l.uid = uid ∧ l.suspended = false ∧
        l.parOf .current = some par ∧ seq < 0xFFFFFF00 ∧ seq < s.dev.get MLE_SEQ_WARN_THRESHOLD ∧ g.valid = true ∧ s.dev.fpOpen p = true ∧
        nh.testBit 50 = true ∧ s.dev.fpTxLink p (bits nh 49 48) = some link := by decide +kernel

theorem wit_RekeyEnds :
    let r : Rekey := { sends := 15 }; let l : Lantern := { rekey := some r }; let lix : Lix := 0;
    let s : State := (tS (tDev |>.setLantern lix.toNat l));
    s.dev.awake = true ∧ s.dev.lantern lix.toNat = some l ∧ l.rekey = some r ∧ r.due = false ∧ s.dev.get MLE_REKEY_TRIES ≤ r.sends := by decide +kernel

theorem wit_PortServiceCommands :
    (let p : Port := 0; let s : State := (tS (tDev |>.put (FP_SVC_BUSY p) 0 |>.put (FP_SVC_STATE p) 0 )); let st := s.dev.get (FP_SVC_STATE p);
     s.dev.awake = true ∧ s.dev.get (FP_SVC_BUSY p) = 0 ∧ st = 0) ∧
    (let p : Port := 0; let s : State := (tS (tDev |>.put (FP_SVC_BUSY p) 0 |>.put (FP_SVC_STATE p) 1 )); let st := s.dev.get (FP_SVC_STATE p);
     s.dev.awake = true ∧ s.dev.get (FP_SVC_BUSY p) = 0 ∧ st = 1) ∧
    (let p : Port := 0; let s : State := (tS (tDev |>.put (FP_SVC_BUSY p) 0 |>.put (FP_SVC_STATE p) 2 )); let st := s.dev.get (FP_SVC_STATE p);
     s.dev.awake = true ∧ s.dev.get (FP_SVC_BUSY p) = 0 ∧ st = 2) ∧
    (let p : Port := 0; let s : State := (tS (tDev |>.put (FP_SVC_BUSY p) 0 |>.put (FP_SVC_STATE p) 3 )); let st := s.dev.get (FP_SVC_STATE p);
     s.dev.awake = true ∧ s.dev.get (FP_SVC_BUSY p) = 0 ∧ st = 3) ∧
    (let p : Port := 0; let s : State := (tS (tDev |>.put (FP_SVC_BUSY p) 1 ));
     s.dev.awake = true ∧ s.dev.get (FP_SVC_BUSY p) = 1 ∧ (s.dev.fport p).buf = []) :=
  by refine ⟨?_, ?_, ?_, ?_, ?_⟩ <;> decide +kernel

theorem wit_LinkBringUp :
    (let p : Port := 0; let s : State := (tS (tDev |>.put (FP_SVC_STATE p) 1 |>.setFport p { lanesOn := true })); let l : Fin 4 := 0;
     let st : LinkStage := .signal; let k := s.dev.fpLink p l; let f := s.dev.fport p;
     s.dev.awake = true ∧ f.lanesOn = true ∧ s.dev.get (FP_SVC_STATE p) = 1 ∧ (s.dev.get (FP_STATUS_FEC_LOCK p)).testBit k = false ∧
         st ≠ .fec) ∧
    (let p : Port := 0; let s : State := (tS (tDev |>.put (FP_SVC_STATE p) 1 |>.setFport p { holdoff := 1 })); let l : Fin 4 := 0;
     let k := s.dev.fpLink p l; let f := s.dev.fport p;
     s.dev.awake = true ∧ f.holdoff.testBit k = true ∧ f.lost.testBit k = false ∧ s.dev.get (FP_SVC_STATE p) = 1) ∧
    (let p : Port := 0; let s : State := (tS (tDev |>.put (FP_STATUS_LINK_UP p) 1)); let l : Fin 4 := 0; let k := s.dev.fpLink p l;
     s.dev.awake = true ∧ (s.dev.get (FP_STATUS_LINK_UP p)).testBit k = true) :=
  by refine ⟨?_, ?_, ?_⟩ <;> decide +kernel

theorem wit_PortWake :
    (let p : Port := 0; let s : State := (tS (tDev |>.put PWR_STATUS_STATE 0 |>.put (FP_SVC_STATE p) 3 |>.put (FP_WAKE_MODE p) 1 ));
     s.dev.onAir = true ∧ s.dev.get PWR_STATUS_STATE = 0 ∧ s.dev.get (FP_SVC_STATE p) = 3 ∧ s.dev.get (FP_WAKE_MODE p) = 1) ∧
    (let p : Port := 0; let s : State := (tS (tDev |>.put PWR_STATUS_STATE 0 |>.put (FP_SVC_STATE p) 3 |>.put (FP_WAKE_MODE p) 2 ));
     s.dev.onAir = true ∧ s.dev.get PWR_STATUS_STATE = 0 ∧ s.dev.get (FP_SVC_STATE p) = 3 ∧ s.dev.get (FP_WAKE_MODE p) = 2) ∧
    (let p : Port := 0; let s : State := (tS (tDev |>.put PWR_STATUS_STATE 0 |>.put (FP_SVC_STATE p) 3 |>.put (FP_WAKE_MODE p) 0 ));
     s.dev.onAir = true ∧ s.dev.get PWR_STATUS_STATE = 0 ∧ s.dev.get (FP_SVC_STATE p) = 3 ∧ s.dev.get (FP_WAKE_MODE p) = 0) :=
  by refine ⟨?_, ?_, ?_⟩ <;> decide +kernel

theorem wit_FrameReception :
    (let s : State := tS tDev; let p : Port := 0; let l : Fin 4 := 0; let f : List Byte := tZeros 63; let begun : Bool := false;
     let k := s.dev.fpLink p l; let r := 0x0E; s.dev.awake = true ∧ s.dev.classify p k f begun = .drop r) ∧
    (let p : Port := 0;
     let s : State := (tS (tDev |>.put (FP_SVC_STATE p) 2 |>.put (FP_STATUS_LINK_UP p) 1 |>.put (FP_BUF_HIWAT p) 1
         |>.put MLE_CTRL_UDP_PORT 0));
     let l : Fin 4 := 0; let f : List Byte := tEth; let begun : Bool := false; let k := s.dev.fpLink p l; let b : List Byte := tZeros 32;
     let src : Nat := 0;
     s.dev.awake = true ∧ s.dev.classify p k f begun = .mlp b src ∧ (s.dev.fport p).occ < s.dev.get (FP_BUF_HIWAT p) * 65536 ∧
         (s.dev.fport p).occ + b.length + 8 < s.dev.get (FP_BUF_HIWAT p) * 65536 ∧ s.dev.get (FP_BUF_HIWAT p) ≤ 16) ∧
    (let p : Port := 0; let s : State := (tS (tDev |>.put (FP_SLRATE_RATE p) 1 |>.put (FP_SVC_STATE p) 2 |>.put (FP_STATUS_LINK_UP p) 1));
     let l : Fin 4 := 0; let f : List Byte := tSlow; let begun : Bool := false; let k := s.dev.fpLink p l; let tag : Bool := false;
     let body := f.take (f.length - 4);
     s.dev.awake = true ∧ s.dev.classify p k f begun = .slow tag ∧ s.dev.get (FP_SLRATE_RATE p) ≠ 0 ∧
         (s.dev.fport p).slUsed + 1000000 ≤ s.dev.get (FP_SLRATE_BURST p) * 1000000 ∧ (s.dev.fport p).slowOcc + body.length ≤ 65536) ∧
    (let p : Port := 0;
     let s : State := (tS (tDev |>.put (FP_SLRATE_RATE p) 1 |>.put (FP_SVC_STATE p) 2 |>.put (FP_STATUS_LINK_UP p) 1
         |>.setFport p { slow := List.replicate 45 ⟨0, false, 0, 0, tZeros 1500⟩ }));
     let l : Fin 4 := 0; let f : List Byte := tSlow; let begun : Bool := false; let k := s.dev.fpLink p l; let tag : Bool := false;
     let body := f.take (f.length - 4);
     s.dev.awake = true ∧ s.dev.classify p k f begun = .slow tag ∧ s.dev.get (FP_SLRATE_RATE p) ≠ 0 ∧
         (s.dev.fport p).slUsed + 1000000 ≤ s.dev.get (FP_SLRATE_BURST p) * 1000000 ∧ 65536 < (s.dev.fport p).slowOcc + body.length) :=
  by refine ⟨?_, ?_, ?_, ?_⟩ <;> decide +kernel

theorem wit_FrameDrops :
    (let p : Nat := 0; let d : Dev := (tDev |>.put (FP_SVC_STATE p) 0 ); d.get (FP_SVC_STATE p) ≠ 2) ∧
    (let p : Nat := 0; let d : Dev := (tDev |>.put (FP_SVC_STATE p) 2 |>.put (FP_STATUS_LINK_UP p) 1); let l : Nat := 0;
     let f : List Byte := tZeros 63; d.fpOpen p = true ∧ (d.get (FP_STATUS_LINK_UP p)).testBit (d.fpLink p l) = true ∧ f.length < 64) ∧
    (let p : Nat := 0; let d : Dev := (tDev |>.put (FP_SVC_STATE p) 2 |>.put (FP_STATUS_LINK_UP p) 1); let l : Nat := 0;
     let f : List Byte := tZeros 64;
     d.fpOpen p = true ∧ (d.get (FP_STATUS_LINK_UP p)).testBit (d.fpLink p l) = true ∧ 64 ≤ f.length ∧
         fcs (f.take (f.length - 4)) ≠ f.drop (f.length - 4)) :=
  by refine ⟨?_, ?_, ?_⟩ <;> decide +kernel

theorem wit_PortConfiguration :
    (let s : State := tS tDev; let p : Port := 0; let v : BitVec 32 := 0xFFE2; let n := v.toNat;
     let vidBad := n.testBit 1 = true ∧ (n / 16 % 4096 = 0 ∨ n / 16 % 4096 = 4095);
     s.dev.awake = true ∧ ¬ vidBad ∧ (n % 2 = s.dev.get (FP_CFG_MODE p) ∨ s.dev.get (FP_SVC_STATE p) = 0)) ∧
    (let p : Port := 0; let s : State := (tS (tDev |>.put (FP_SVC_STATE p) 1)); let v : BitVec 32 := 1; let n := v.toNat;
     let vidBad := n.testBit 1 = true ∧ (n / 16 % 4096 = 0 ∨ n / 16 % 4096 = 4095);
     s.dev.awake = true ∧ ¬ vidBad ∧ n % 2 ≠ s.dev.get (FP_CFG_MODE p) ∧ s.dev.get (FP_SVC_STATE p) ≠ 0) ∧
    (let s : State := tS tDev; let v : BitVec 32 := 0xFFF2; let n := v.toNat;
     let vidBad := n.testBit 1 = true ∧ (n / 16 % 4096 = 0 ∨ n / 16 % 4096 = 4095); s.dev.awake = true ∧ vidBad) :=
  by refine ⟨?_, ?_, ?_⟩ <;> decide +kernel

theorem wit_NextHopTable :
    let s : State := tS tDev; s.dev.awake = true := by decide +kernel

theorem wit_PortTransmission :
    (let p : Port := 0; let x : TxFrame := ⟨0, [], false⟩; let r : List TxFrame := [];
     let s : State := (tS (tDev |>.setFport p { txq := x :: r }));
     s.dev.awake = true ∧ (s.dev.fport p).txq = x :: r ∧ s.dev.slowNext p = none) ∧
    (let p : Port := 0; let s : State := (tS (tDev |>.put (FP_BUF_SLSHARE p) 0 |>.setFport p { txq := [⟨0, [], false⟩] }));
     s.dev.awake = true ∧ (s.dev.fport p).txq ≠ [] ∧ s.dev.get (FP_BUF_SLSHARE p) = 0) ∧
    (let s : State := tS tDev; let p : Port := 0; s.dev.awake = true ∧ (s.dev.fport p).txq = [] ∧ s.dev.slowNext p = none) ∧
    (let p : Port := 0; let e : Entry := ({ words := leWords 2 1518 } : Entry);
     let s : State := (tS (tDev |>.put (FP_SVC_STATE p) 2 |>.put (FP_STATUS_LINK_UP p) 1
         |> fun d => { d with bsk := { d.bsk with taken := [(0x1584, [e])] } }));
     let r : List Entry := []; let l : Nat := 0; let w := fun i => (e.words.getD i 0).toNat;
     s.dev.awake = true ∧ s.dev.taken (0x1584 + p) = e :: r ∧ e.poison = false ∧ s.dev.fpOpen p = true ∧ (s.dev.fport p).txq = [] ∧
         60 ≤ w 0 ∧ w 0 ≤ 1518 ∧ w 1 / 8 % 2 = 0 ∧ w 1 / 4 % 2 = 0 ∧ usableFrom (s.dev.get (FP_STATUS_LINK_UP p)) 4 0 = some l) ∧
    (let p : Port := 0; let x : TxStamp := ⟨0, 0, 0, 0⟩; let r : List TxStamp := [];
     let s : State := (tS (tDev |>.setFport p { fifo := x :: r })); s.dev.awake = true ∧ (s.dev.fport p).fifo = x :: r) ∧
    (let s : State := tS tDev; let p : Port := 0; s.dev.awake = true ∧ (s.dev.fport p).fifo = []) :=
  by refine ⟨?_, ?_, ?_, ?_, ?_, ?_⟩ <;> decide +kernel

theorem wit_PortResults :
    (let p : Port := 0; let s : State := (tS (tDev |>.put (FP_SVC_BUSY p) 0 |>.put (FP_SVC_STATE p) 1 )); let d := s.dev;
     let st := d.get (FP_SVC_STATE p); s.dev.awake = true ∧ d.get (FP_SVC_BUSY p) = 0 ∧ st = 1) ∧
    (let p : Port := 0; let s : State := (tS (tDev |>.put (FP_SVC_BUSY p) 0 |>.put (FP_SVC_STATE p) 2 )); let d := s.dev;
     let st := d.get (FP_SVC_STATE p); s.dev.awake = true ∧ d.get (FP_SVC_BUSY p) = 0 ∧ st = 2) ∧
    (let p : Port := 0; let s : State := (tS (tDev |>.put (FP_SVC_BUSY p) 0 |>.put (FP_SVC_STATE p) 0 )); let d := s.dev;
     let st := d.get (FP_SVC_STATE p); s.dev.awake = true ∧ d.get (FP_SVC_BUSY p) = 0 ∧ st = 0) ∧
    (let p : Port := 0; let s : State := (tS (tDev |>.put (FP_SVC_BUSY p) 0 |>.put (FP_SVC_STATE p) 3 )); let d := s.dev;
     let st := d.get (FP_SVC_STATE p); s.dev.awake = true ∧ d.get (FP_SVC_BUSY p) = 0 ∧ st = 3) ∧
    (let p : Port := 0; let s : State := (tS (tDev |>.put (FP_SVC_BUSY p) 1 )); let d := s.dev; let f := d.fport p;
     s.dev.awake = true ∧ d.get (FP_SVC_BUSY p) = 1 ∧ f.buf = []) ∧
    (let p : Port := 0; let s : State := (tS (tDev |>.put PWR_STATUS_STATE 0 |>.put (FP_WAKE_MODE p) 1 |>.put (FP_SVC_STATE p) 3));
     let d := s.dev; let st := d.get (FP_SVC_STATE p); let pattern := true;
     s.dev.awake = true ∧ st = 3 ∧ d.get PWR_STATUS_STATE = 0 ∧ (d.get (FP_WAKE_MODE p) = 1 ∨ d.get (FP_WAKE_MODE p) = 2 ∧ pattern = true)) ∧
    (let p : Port := 0; let s : State := (tS (tDev |>.put (FP_SVC_STATE p) 1 |>.setFport p { lanesOn := true })); let d := s.dev;
     let f := d.fport p; let st := d.get (FP_SVC_STATE p); let l : Fin 4 := 0; let k := d.fpLink p l;
     s.dev.awake = true ∧ f.lanesOn = true ∧ (st = 1 ∨ st = 2) ∧ (d.get (FP_STATUS_FEC_LOCK p)).testBit k = false) ∧
    (let p : Port := 0; let s : State := (tS (tDev |>.setFport p { holdoff := 1 })); let d := s.dev; let f := d.fport p; let l : Fin 4 := 0;
     let k := d.fpLink p l; s.dev.awake = true ∧ f.holdoff.testBit k = true) ∧
    (let p : Port := 0; let x : TxFrame := ⟨0, [], false⟩; let q : List TxFrame := [];
     let s : State := (tS (tDev |>.setFport p { txq := x :: q })); let d := s.dev; let f := d.fport p;
     s.dev.awake = true ∧ f.txq = x :: q ∧ d.slowNext p = none) ∧
    (let p : Port := 0; let e : Entry := ({ words := leWords 2 1518 } : Entry);
     let s : State := (tS (tDev |>.put (FP_SVC_STATE p) 2 |>.put (FP_STATUS_LINK_UP p) 1
         |> fun d => { d with bsk := { d.bsk with taken := [(0x1584, [e])] } }));
     let d := s.dev; let f := d.fport p; let q : List Entry := []; let l : Nat := 0; let w := fun i => (e.words.getD i 0).toNat;
     let c := (.slowLaneSend p : Instr);
     s.dev.awake = true ∧ d.taken (0x1584 + p) = e :: q ∧ e.live = true ∧ e.poison = false ∧ d.fpOpen p = true ∧ f.txq = [] ∧ 60 ≤ w 0 ∧
         w 0 ≤ 1518 ∧ w 1 / 8 % 2 = 0 ∧ w 1 / 4 % 2 = 0 ∧ usableFrom (d.get (FP_STATUS_LINK_UP p)) 4 0 = some l ∧
         c ∈ [Instr.slowLaneSend p, .fpFrameTransmit p]) :=
  by refine ⟨?_, ?_, ?_, ?_, ?_, ?_, ?_, ?_, ?_, ?_⟩ <;> decide +kernel

theorem wit_PortConfigured :
    let s : State := tS tDev; let p : Port := 0; let v : BitVec 32 := 0; let n := v.toNat;
    s.dev.awake = true ∧ (¬ (n.testBit 1 = true ∧ (n / 16 % 4096 = 0 ∨ n / 16 % 4096 = 4095))) ∧
        (n % 2 = s.dev.get (FP_CFG_MODE p) ∨ s.dev.get (FP_SVC_STATE p) = 0) := by decide +kernel

theorem wit_EntryPlacement :
    (let d : Dev := (tDev ); let n : Nat := 0; let e : Entry := {}; let q := d.queue n; let m := 1;
     q.enable = true ∧ e.cells ≤ q.odq ∧ q.spilled = false ∧ q.head + e.cells ≤ q.odq ∧ d.room q e.cells = true ∧ m ≠ n) ∧
    (let n : Nat := 0; let d : Dev := (tDev |>.setQueue n { Queue.reset n with enable := false }); let q := d.queue n; q.enable = false) ∧
    (let d : Dev := (tDev ); let n : Nat := 0; let e : Entry := { words := List.replicate 8193 0 }; let q := d.queue n;
     q.enable = true ∧ q.odq < e.cells) :=
  by refine ⟨?_, ?_, ?_⟩ <;> decide +kernel

theorem wit_CellAllocation :
    let used : List Nat := (List.range 12288).map (32 * ·); let b : Nat := 0; let c : Nat := 1; let k := 0; let x := 0;
    b < 32 ∧ freeFrom used 32 b = some c ∧ k < (c + 32 - b) % 32 ∧ x < 393216 ∧ x % 32 = (b + k) % 32 := ⟨by decide, tNextBank (fun k h => List.mem_map.mpr ⟨k, List.mem_range.mpr h, by omega⟩) (by simp <;> omega), by decide, by decide, by decide⟩

theorem wit_DequeueOrder :
    let e : Entry := {}; let q : QNum := 0; let r : List Entry := [];
    let s : State := (tS (tDev |>.setQueue q.toNat { Queue.reset q.toNat with es := e :: r, head := 1 })); let n := q.toNat;
    let x := s.dev.queue n;
    s.dev.awake = true ∧ (¬ (0x1400 ≤ n ∧ n < 0x1580 ∧ (n - 0x1400) % 6 = 4)) ∧ x.es = e :: r ∧ e.live = true ∧
        e.cells ≤ x.head - 16 * x.refillFly := by decide +kernel

theorem wit_EnqueueCommands :
    (let s : State := tS tDev; let q : QNum := 0x13FF; let n := q.toNat; let ws : List Word := [];
     s.dev.awake = true ∧ n < 0x1400 ∧ byteAt (msgBytes { words := ws }) 1 ≠ 1) ∧
    (let s : State := tS tDev; let q : QNum := 0x1580; let n := q.toNat; s.dev.awake = true ∧ 0x1580 ≤ n ∧ (n < 0x15A0 ∨ 0x15C0 ≤ n)) ∧
    (let s : State := tS tDev; let q : QNum := 0x15BF; let n := q.toNat; s.dev.awake = true ∧ 0x15A0 ≤ n ∧ n < 0x15C0) ∧
    (let s : State := tS tDev; let q : QNum := 0x157E; let n := q.toNat; let k := (n - 0x1400) % 6;
     s.dev.awake = true ∧ 0x1400 ≤ n ∧ n < 0x1580 ∧ (k = 0 ∨ k = 4)) ∧
    (let s : State := tS tDev; let q : QNum := 0x1401; let n := q.toNat; let k := (n - 0x1400) % 6;
     s.dev.awake = true ∧ 0x1400 ≤ n ∧ n < 0x1580 ∧ k = 1) ∧
    (let s : State := tS tDev; let q : QNum := 0x157C; let n := q.toNat; let f := (n - 0x1400) / 6; let k := (n - 0x1400) % 6;
     let ws : List Word := []; let e := ({ words := ws } : Entry).numbered 2 (Tab.get 0 s.dev.bsk.eseq f);
     s.dev.awake = true ∧ 0x1400 ≤ n ∧ n < 0x1580 ∧ k = 2 ∧ (s.dev.enqueue n e).2 = .placed) ∧
    (let s : State := tS tDev; let q : QNum := 0; let n := q.toNat; s.dev.awake = true ∧ s.dev.bsk.held.find? (fun h => h.q == n) = none) ∧
    (let h : Held := ⟨0, {}⟩;
     let s : State := (tS (tDev |>.setQueue 0 { Queue.reset 0 with policy := 2, head := 64 }
         |> fun d => { d with bsk := { d.bsk with held := [h] } }));
     let q : QNum := 0; let n := q.toNat;
     s.dev.awake = true ∧ s.dev.bsk.held.find? (fun h => h.q == n) = some h ∧ (s.dev.enqueue n h.e).2 = .held) ∧
    (let h : Held := ⟨0x1404, {}⟩; let s : State := (tS (tDev |> fun d => { d with bsk := { d.bsk with held := [h] } })); let q : QNum := 0x1404;
     let n := q.toNat;
     s.dev.awake = true ∧ s.dev.bsk.held.find? (fun h => h.q == n) = some h ∧ (s.dev.enqueue n h.e).2 = .placed ∧ (n - 0x1400) % 6 = 4) :=
  by refine ⟨?_, ?_, ?_, ?_, ?_, ?_, ?_, ?_, ?_⟩ <;> decide +kernel

theorem wit_SpillRefillJoin :
    (let q : QNum := 0;
     let s : State := (tS (tDev |>.put BSK_LT_CFG_SIZE 1 |>.put (HIF_QOS_LT_MIB 0) 1
         |>.setQueue q.toNat { Queue.reset q.toNat with spilled := true, ltq := 1, tail := 16 }));
     let n := q.toNat; let x := s.dev.queue n;
     let d := s.dev.setQueue n { x with tail := x.tail - 16, low := x.low + 1, spillFly := x.spillFly + 1 };
     s.dev.awake = true ∧ s.dev.spillOk x = true ∧ s.dev.bsk.notes = [] ∧ d.ltSize * 262144 ≤ d.ltFree * 10) ∧
    (let q : QNum := 0; let s : State := (tS (tDev |>.setQueue q.toNat { Queue.reset q.toNat with spillFly := 1 })); let n := q.toNat;
     let x := s.dev.queue n; s.dev.awake = true ∧ 0 < x.spillFly) ∧
    (let q : QNum := 0; let s : State := (tS (tDev |>.setQueue q.toNat { Queue.reset q.toNat with spilled := true, low := 1, odq := 16 }));
     let n := q.toNat; let x := s.dev.queue n;
     s.dev.awake = true ∧ x.spilled = true ∧ x.spillFly < x.low ∧ x.head + 16 ≤ x.odq ∧ 16 ≤ s.dev.freeCells) ∧
    (let q : QNum := 0; let s : State := (tS (tDev |>.setQueue q.toNat { Queue.reset q.toNat with refillFly := 1 })); let n := q.toNat;
     let x := s.dev.queue n; s.dev.awake = true ∧ 0 < x.refillFly ∧ x.es.all Entry.live = true) ∧
    (let q : QNum := 0; let s : State := (tS (tDev |>.setQueue q.toNat { Queue.reset q.toNat with spilled := true, head := 60, tail := 4 }));
     let n := q.toNat; let x := s.dev.queue n;
     s.dev.awake = true ∧ x.spilled = true ∧ x.low = 0 ∧ x.spillFly = 0 ∧ x.refillFly = 0 ∧ x.head + x.tail ≤ x.odq) :=
  by refine ⟨?_, ?_, ?_, ?_, ?_⟩ <;> decide +kernel

theorem wit_QueueCommands :
    (let s : State := (tS (tDev |>.put BSK_Q_CMD_BUSY 0 |>.put BSK_Q_SEL_QUEUE 0x1600)); let n := s.dev.get BSK_Q_SEL_QUEUE; let i := .counts;
     s.dev.awake = true ∧ s.dev.get BSK_Q_CMD_BUSY = 0 ∧ queueReserved n = true ∧
         i ∈ [Instr.bskQRead, .bskQWrite, .flush, .counts, .countsAndClear]) ∧
    (let s : State := (tS (tDev |>.put BSK_Q_CMD_BUSY 0 |>.put BSK_Q_CFG_POLICY 2 )); let n := s.dev.get BSK_Q_SEL_QUEUE;
     s.dev.awake = true ∧ s.dev.get BSK_Q_CMD_BUSY = 0 ∧ queueReserved n = false ∧ s.dev.get BSK_Q_CFG_POLICY = 2 ∧ queueHoldOk n = false) ∧
    (let s : State := (tS (tDev |>.put BSK_Q_CMD_BUSY 0 |>.put BSK_Q_CFG_POLICY 0 |>.put BSK_Q_CFG_LTQ 1 |>.put BSK_Q_CFG_ODQ 63));
     let n := s.dev.get BSK_Q_SEL_QUEUE;
     s.dev.awake = true ∧ s.dev.get BSK_Q_CMD_BUSY = 0 ∧ queueReserved n = false ∧ s.dev.get BSK_Q_CFG_POLICY ≠ 2 ∧
         0 < s.dev.get BSK_Q_CFG_LTQ ∧ s.dev.get BSK_Q_CFG_ODQ < 64) ∧
    (let s : State := (tS (tDev |>.put BSK_Q_CMD_BUSY 0 |>.put BSK_Q_CFG_POLICY 0 |>.put BSK_Q_CFG_LTQ 0 |>.put BSK_Q_SEL_QUEUE 0x1800
         |>.put BSK_Q_CFG_OWNER 1 |>.setQueue 0x1800 { Queue.reset 0x1800 with es := [{}], owner := 0 }));
     let n := s.dev.get BSK_Q_SEL_QUEUE; let q := s.dev.queue n;
     s.dev.awake = true ∧ s.dev.get BSK_Q_CMD_BUSY = 0 ∧ queueReserved n = false ∧ s.dev.get BSK_Q_CFG_POLICY ≠ 2 ∧
         s.dev.get BSK_Q_CFG_LTQ = 0 ∧ queueSoftware n = true ∧ s.dev.get BSK_Q_CFG_OWNER ≠ q.owner ∧ q.noEntry = false) ∧
    (let s : State := (tS (tDev |>.put BSK_Q_CMD_BUSY 0 )); let n := s.dev.get BSK_Q_SEL_QUEUE; let q := s.dev.queue n;
     s.dev.awake = true ∧ s.dev.get BSK_Q_CMD_BUSY = 0 ∧ queueReserved n = false ∧ (s.dev.get BSK_Q_CFG_POLICY ≠ 2 ∨ queueHoldOk n = true) ∧
         (s.dev.get BSK_Q_CFG_LTQ = 0 ∨ 64 ≤ s.dev.get BSK_Q_CFG_ODQ) ∧
         (queueSoftware n = false ∨ s.dev.get BSK_Q_CFG_OWNER = q.owner ∨ q.noEntry = true)) ∧
    (let s : State := (tS (tDev |>.put BSK_Q_CMD_BUSY 0 )); let n := s.dev.get BSK_Q_SEL_QUEUE; let i := .counts;
     s.dev.awake = true ∧ s.dev.get BSK_Q_CMD_BUSY = 0 ∧ queueReserved n = false ∧ i ∈ [Instr.counts, .countsAndClear]) :=
  by refine ⟨?_, ?_, ?_, ?_, ?_, ?_⟩ <;> decide +kernel

theorem wit_QueueFlush :
    (let s : State := (tS (tDev |>.put BSK_Q_CMD_BUSY 0 )); let n := s.dev.get BSK_Q_SEL_QUEUE; let q := s.dev.queue n;
     s.dev.awake = true ∧ s.dev.get BSK_Q_CMD_BUSY = 0 ∧ queueReserved n = false ∧ q.dropped < 2 ^ 48 ∧ q.spillFly = 0 ∧ q.refillFly = 0 ∧
         q.low = 0) ∧
    (let s : State := (tS (tDev |>.put BSK_Q_CMD_BUSY 0 |>.setQueue 0 { Queue.reset 0 with spillFly := 1 })); let n := s.dev.get BSK_Q_SEL_QUEUE;
     let q := s.dev.queue n;
     s.dev.awake = true ∧ s.dev.get BSK_Q_CMD_BUSY = 0 ∧ queueReserved n = false ∧ q.dropped < 2 ^ 48 ∧ q.spillFly ≠ 0) ∧
    (let n : Nat := 5; let q : Queue := { Queue.reset 5 with flush := some 0 }; let s : State := (tS (tDev |>.setQueue n q));
     s.dev.awake = true ∧ s.dev.bsk.q.find? (fun e => e.2.flush.isSome) = some (n, q) ∧ q.spillFly = 0 ∧ q.refillFly = 0) :=
  by refine ⟨?_, ?_, ?_⟩ <;> decide +kernel

theorem wit_ShardMap :
    (let s : State := tS tDev; let q : QNum := 0x13FF; s.dev.awake = true ∧ q.toNat < 0x1400 ∧ s.dev.hoop.mig = none) ∧
    (let s : State := tS tDev; let q : QNum := 0x1400; s.dev.awake = true ∧ 0x1400 ≤ q.toNat) :=
  by refine ⟨?_, ?_⟩ <;> decide +kernel

theorem wit_QueueAccess :
    (let c : Core := 0; let s : State := (tS (tDev |>.put (BSK_QA_STATUS_BUSY c) 0 )); let q : QNum := 0; let len : BitVec 12 := 2048;
     let x := (.deq c q len, 2);
     s.dev.awake = true ∧ s.dev.get (BSK_QA_STATUS_BUSY c) = 0 ∧ 1 ≤ len.toNat ∧ len.toNat ≤ 2048 ∧
         x ∈ [(Instr.enq c q len, 1), (Instr.deq c q len, 2)]) ∧
    (let c : Core := 0; let s : State := (tS (tDev |>.put (BSK_QA_STATUS_BUSY c) 1 )); let q : QNum := 0; let len : BitVec 12 := 0;
     let i := .enq c q len; s.dev.awake = true ∧ s.dev.get (BSK_QA_STATUS_BUSY c) = 1 ∧ i ∈ [Instr.enq c q len, .deq c q len]) ∧
    (let x : QaCmd := ⟨0, 1, 0x15C0, 1, 0⟩; let s : State := (tS (tDev |> fun d => { d with bsk := { d.bsk with qa := [x] } }));
     let c : Core := 0; let q : QNum := 0;
     s.dev.awake = true ∧ s.dev.bsk.qa.find? (fun x => x.core == c.val) = some x ∧ x.op = 1 ∧ queueCoreEnq x.q = false) ∧
    (let x : QaCmd := ⟨0, 2, 0, 1, 0⟩; let s : State := (tS (tDev |> fun d => { d with bsk := { d.bsk with qa := [x] } })); let c : Core := 0;
     let q : QNum := 0; s.dev.awake = true ∧ s.dev.bsk.qa.find? (fun x => x.core == c.val) = some x ∧ x.op = 2 ∧ queueCoreDeq x.q = false) ∧
    (let x : QaCmd := ⟨0, 2, 0x1800, 1, 0⟩; let s : State := (tS (tDev |> fun d => { d with bsk := { d.bsk with qa := [x] } }));
     let c : Core := 0; let q : QNum := 0;
     s.dev.awake = true ∧ s.dev.bsk.qa.find? (fun x => x.core == c.val) = some x ∧ x.op = 2 ∧ queueCoreDeq x.q = true ∧
         queueSoftware x.q = true ∧ s.dev.canTake x.q = false) ∧
    (let e := ({ words := [0] } : Entry); let x : QaCmd := ⟨47, 2, 0x1800, 1, 0⟩; let r := [];
     let s : State := (tS (tDev |> fun d => { d with bsk := { d.bsk with qa := [x] } }
         |> fun d => { d with bsk := { d.bsk with taken := [(0x1800, e :: r)] } } |>.put MEM_STATUS_READY 1 |>.put MEM_STATUS_SIZE 1));
     let c : Core := 47; let q : QNum := 0; let len : BitVec 12 := 0;
     s.dev.awake = true ∧ s.dev.bsk.qa.find? (fun x => x.core == c.val) = some x ∧ x.op = 2 ∧ queueSoftware x.q = true ∧
         s.dev.taken x.q = e :: r ∧ e.poison = false ∧ e.words.length ≤ x.len ∧ s.dev.memOk .qa x.addr e.words.length true = true) ∧
    (let s : State := tS tDev; let res : Nat := 0; let n : Nat := 0; s.dev.awake = true ∧ n < 2 ^ 12 ∧ res < 16) :=
  by refine ⟨?_, ?_, ?_, ?_, ?_, ?_, ?_⟩ <;> decide +kernel

theorem wit_BasketScrub :
    (let s : State := (tS (tDev |>.put BSK_SCRUB_EN 0 )); s.dev.awake = true ∧ s.dev.get BSK_SCRUB_EN = 0) ∧
    (let s : State := (tS (tDev |>.put BSK_SCRUB_EN 1 |> fun d => { d with bsk := { d.bsk with scrub := 393215 } }));
     s.dev.awake = true ∧ s.dev.get BSK_SCRUB_EN = 1 ∧ (s.dev.bsk.scrub + 1) % 393216 = 0) ∧
    (let s : State := (tS (tDev |>.setQueue 0 { Queue.reset 0 with es := [{}], head := 1, cells := [0] } |>.put BSK_SCRUB_EN 1));
     let q : Nat := 0; let i : Nat := 0;
     s.dev.awake = true ∧ s.dev.get BSK_SCRUB_EN = 1 ∧ (s.dev.bsk.scrub + 1) % 393216 ≠ 0 ∧ s.dev.cellOwner s.dev.bsk.scrub = some (q, i) ∧
         i < ((s.dev.queue q).es.filter Entry.live).length) :=
  by refine ⟨?_, ?_, ?_⟩ <;> decide +kernel

theorem wit_BasketResults :
    (let s : State := tS tDev; let q : QNum := 0; let ws : List Word := [];
     s.dev.awake = true ∧ s.dev.hasRoom q.toNat (s.dev.entryFor q.toNat ws)) ∧
    (let h : Held := ⟨0, {}⟩; let s : State := (tS (tDev |> fun d => { d with bsk := { d.bsk with held := [h] } })); let q : QNum := 0;
     s.dev.awake = true ∧ s.dev.bsk.held.find? (fun h => h.q == q.toNat) = some h ∧ s.dev.hasRoom q.toNat h.e) ∧
    (let n : Nat := 0; let q : Queue := { Queue.reset 0 with flush := some 0 }; let s : State := (tS (tDev |>.setQueue n q));
     s.dev.awake = true ∧ s.dev.bsk.q.find? (fun e => e.2.flush.isSome) = some (n, q) ∧ s.dev.queue n = q ∧ q.spillFly = 0 ∧
         q.refillFly = 0 ∧ q.dropped < 2 ^ 48) ∧
    (let x : QaCmd := ⟨0, 1, 0x1800, 1, 0⟩;
     let s : State := (tS (tDev |> fun d => { d with bsk := { d.bsk with qa := [x] } } |>.put MEM_STATUS_READY 1 |>.put MEM_STATUS_SIZE 1
         |>.setQueue 0x1800 { Queue.reset 0x1800 with enable := true, odq := 64 }));
     let c : Core := 0; let env : DramEnvs := []; let r := s.dev.readSpan env 0x5C x.addr x.len;
     let ws := leWords x.len (r.1.wordsAt x.addr x.len);
     s.dev.awake = true ∧ s.dev.bsk.qa.find? (fun x => x.core == c.val) = some x ∧ x.op = 1 ∧ queueCoreEnq x.q = true ∧
         s.dev.memOk .qa x.addr x.len false = true ∧ r.1.hasRoom x.q (r.1.entryFor x.q ws)) ∧
    (let e : Entry := ({ words := [0] } : Entry); let x : QaCmd := ⟨0, 2, 0x1800, 1, 0⟩; let es : List Entry := [];
     let s : State := (tS (tDev |> fun d => { d with bsk := { d.bsk with qa := [x] } } |>.put MEM_STATUS_READY 1 |>.put MEM_STATUS_SIZE 1
         |>.setQueue 0x1800 { Queue.reset 0x1800 with es := e :: es, head := 1 }));
     let c : Core := 0; let q := s.dev.queue x.q; let n := e.words.length;
     s.dev.awake = true ∧ s.dev.bsk.qa.find? (fun x => x.core == c.val) = some x ∧ x.op = 2 ∧ queueCoreDeq x.q = true ∧
         s.dev.taken x.q = [] ∧ q.es = e :: es ∧ e.live = true ∧ e.cells ≤ q.head - 16 * q.refillFly ∧
         (0x1400 ≤ x.q → x.q < 0x1580 → e.gen = s.dev.get (HIF_FN_STATUS_GEN ((x.q - 0x1400) / 6))) ∧ e.poison = false ∧ n ≤ x.len ∧
         s.dev.memOk .qa x.addr n true = true) ∧
    (let s : State := (tS (tDev |> fun d => { d with bsk := { d.bsk with qa := [⟨0, 2, 0, 1, 0⟩] } })); let c : Core := 0;
     s.dev.awake = true ∧ s.dev.bsk.qa.any (fun x => x.core == c.val) = true) ∧
    (let s : State := (tS (tDev |>.put DBG_ACC_CMD_BUSY 1 )); s.dev.awake = true ∧ s.dev.get DBG_ACC_CMD_BUSY = 1) ∧
    (let e : BufEnt := ⟨0, true, [], []⟩; let s : State := (tS (tDev |> fun d => { d with mem := { d.mem with buf := [(0, [e])] } }));
     let c : Core := 0; let k : Bool := false; let i : Nat := 0; s.dev.awake = true ∧ (s.dev.bufOf c.val (b2n k))[i]? = some e) ∧
    (let s : State := (tS (tDev |>.put BSK_SCRUB_EN 1 )); s.dev.awake = true ∧ s.dev.get BSK_SCRUB_EN = 1) :=
  ⟨⟨by decide +kernel, tRoom_spec (by decide +kernel)⟩,
   ⟨by decide +kernel, by decide +kernel, tRoom_spec (by decide +kernel)⟩,
   by decide +kernel,
   ⟨by decide +kernel, by decide +kernel, by decide +kernel, by decide +kernel, by decide +kernel, tRoom_spec (by decide +kernel)⟩,
   by decide +kernel,
   by decide +kernel,
   by decide +kernel,
   by decide +kernel,
   by decide +kernel⟩

theorem wit_HoopDispatch :
    (let h : Hoop := 0; let s : State := (tS (tDev |>.put (HOOP_SVC_STATE h) 0 )); s.dev.awake = true ∧ s.dev.get (HOOP_SVC_STATE h) ≠ 2) ∧
    (let h : Hoop := 0; let s : State := (tS (tDev |>.put (HOOP_SVC_STATE h) 2 ));
     s.dev.awake = true ∧ s.dev.get (HOOP_SVC_STATE h) = 2 ∧ (s.dev.freeCtx h).isSome ∧
         (afterOf (s.dev.hoopQueues h) (Tab.get 0 s.dev.hoop.rr h)).find? (fun q => s.dev.takeOk h q) = none ∧
         s.dev.hoop.ctxs.any (fun c => c.hoop == h.val) = false) ∧
    (let s : State := tS tDev; let h : Hoop := 0; let d : Dev := (tDev ); let e : Entry := {}; let g := 0; let c := 0;
     s.dev.awake = true ∧ e.mark = none ∧ d.hoop.mig = none ∧ e.lost = false ∧ d.shardHoop (entryShard e) = h.val ∧
         d.freeCtx h = some (g, c)) ∧
    (let s : State := tS tDev; let h : Hoop := 31; let d : Dev := (tDev ); let e : Entry := {};
     s.dev.awake = true ∧ e.mark = none ∧ d.hoop.mig = none ∧ e.lost = false ∧ e.hand = false ∧ d.shardHoop (entryShard e) ≠ h.val) ∧
    (let h : Hoop := 0; let e : Entry := {};
     let s : State := (tS (tDev |>.put (HOOP_SVC_STATE h) 2 |>.setQueue 0 { Queue.reset 0 with es := [e], head := 1 })); let q : Nat := 0;
     let d := { s.dev with hoop := { s.dev.hoop with rr := Tab.set 0 s.dev.hoop.rr h q, doze := Tab.set false s.dev.hoop.doze h false } };
     s.dev.awake = true ∧ s.dev.get (HOOP_SVC_STATE h) = 2 ∧ (s.dev.freeCtx h).isSome ∧
         (afterOf (s.dev.hoopQueues h) (Tab.get 0 s.dev.hoop.rr h)).find? (fun q => s.dev.takeOk h q) = some q ∧ (d.takeFor q).2 = .entry e) :=
  by refine ⟨?_, ?_, ?_, ?_, ?_⟩ <;> decide +kernel

theorem wit_StockProgram :
    (let h : Hoop := 31; let c : Fin 4 := 3; let e : Fin 16 := 15;
     let x : Ctx := { hoop := h.val, eng := e.val, ctx := c.val, q := 0, shard := 0, entry := {}, phase := .pairing };
     let s : State := (tS (tDev |> fun d => { d with hoop := { d.hoop with ctxs := [x] } }));
     s.dev.awake = true ∧ s.dev.ctxOf h e c = some x ∧ x.phase ≠ .run) ∧
    (let h : Hoop := 31; let c : Fin 4 := 3; let e : Fin 16 := 15;
     let x : Ctx := { hoop := h.val, eng := e.val, ctx := c.val, q := 0, shard := 0, entry := { hand := true } };
     let s : State := (tS (tDev |> fun d => { d with hoop := { d.hoop with ctxs := [x] } }));
     s.dev.awake = true ∧ s.dev.ctxOf h e c = some x ∧ x.phase = .run ∧ x.entry.hand = true) ∧
    (let h : Hoop := 31; let c : Fin 4 := 3; let e : Fin 16 := 15;
     let x : Ctx := { hoop := h.val, eng := e.val, ctx := c.val, q := 0, shard := 0, entry := tEnt 1 (tZeros 12) };
     let s : State := (tS (tDev |> fun d => { d with hoop := { d.hoop with ctxs := [x] } })); let b := msgBytes x.entry;
     let pl := b.drop 16;
     s.dev.awake = true ∧ s.dev.ctxOf h e c = some x ∧ x.phase = .run ∧ x.entry.hand = false ∧ byteAt b 1 = 1 ∧ byteAt pl 0 % 16 ≤ x.next) ∧
    (let h : Hoop := 31; let c : Fin 4 := 3; let e : Fin 16 := 15;
     let x : Ctx := { hoop := h.val, eng := e.val, ctx := c.val, q := 0, shard := 0, entry := tEnt 1 ([1, 1] ++ tZeros 90) };
     let s : State := (tS (tDev |> fun d => { d with hoop := { d.hoop with ctxs := [x] } }
         |>.setLrec 0 { slots := [⟨0, 0, 1, 0, 0, 0, 0, 0, 0, []⟩] }
         |> fun d => { d with hoop := { d.hoop with cached := [(0, [0, 262144, 262145, 262146, 262147])] } }));
     let b := msgBytes x.entry; let pl := b.drop 16; let lix := msgLix x.entry;
     let d := ((s.dev.touchRec lix).touchSlots lix).countSites lix (detRec pl x.next);
     s.dev.awake = true ∧ s.dev.ctxOf h e c = some x ∧ x.phase = .run ∧ x.entry.hand = false ∧ byteAt b 1 = 1 ∧ x.next < byteAt pl 0 % 16 ∧
         needsPairing (detRec pl x.next) ((d.lrec lix).cands (detRec pl x.next)) = true) ∧
    (let h : Hoop := 31; let c : Fin 4 := 3; let e : Fin 16 := 15;
     let x : Ctx := { hoop := h.val, eng := e.val, ctx := c.val, q := 0, shard := 0, entry := tEnt 2 (tZeros 76) };
     let s : State := (tS (tDev |> fun d => { d with hoop := { d.hoop with ctxs := [x] } })); let b := msgBytes x.entry;
     s.dev.awake = true ∧ s.dev.ctxOf h e c = some x ∧ x.phase = .run ∧ x.entry.hand = false ∧ byteAt b 1 = 2) ∧
    (let h : Hoop := 31; let c : Fin 4 := 3; let e : Fin 16 := 15;
     let x : Ctx := { hoop := h.val, eng := e.val, ctx := c.val, q := 0, shard := 0, entry := tEnt 3 (tZeros 20) };
     let s : State := (tS (tDev |> fun d => { d with hoop := { d.hoop with ctxs := [x] } })); let b := msgBytes x.entry;
     s.dev.awake = true ∧ s.dev.ctxOf h e c = some x ∧ x.phase = .run ∧ x.entry.hand = false ∧ byteAt b 1 = 3) ∧
    (let h : Hoop := 31; let c : Fin 4 := 3; let e : Fin 16 := 15;
     let x : Ctx := { hoop := h.val, eng := e.val, ctx := c.val, q := 0, shard := 0, entry := tEnt 5 (tZeros 528) };
     let s : State := (tS (tDev |> fun d => { d with hoop := { d.hoop with ctxs := [x] } })); let b := msgBytes x.entry;
     s.dev.awake = true ∧ s.dev.ctxOf h e c = some x ∧ x.phase = .run ∧ x.entry.hand = false ∧ byteAt b 1 = 5) :=
  by refine ⟨?_, ?_, ?_, ?_, ?_, ?_, ?_⟩ <;> decide +kernel

theorem wit_ExpectationSlots :
    (let d : Dev := (tDev ); let lix : Nat := 0; (d.lrec lix).slots.length < 8) ∧
    (let lix : Nat := 0; let x : Expect := ⟨0, 0, 0, 0, 0, 0, 0, 0, 0, []⟩; let d : Dev := (tDev |>.setLrec lix { slots := List.replicate 8 x });
     (d.lrec lix).slots.length = 8) :=
  by refine ⟨?_, ?_⟩ <;> decide +kernel

theorem wit_TracksWavesPairing :
    (let t : Track := { hoop := 31, cls := [], origin := 0, otime := 0, last := 0, ltime := 0, path := [], hops := 0, spSum := 0, spN := 0, flags := 0 };
     let k : BitVec 48 := 0; let s : State := (tS (tDev |> fun d => { d with hoop := { d.hoop with tracks := [(k.toNat, t)] } }));
     s.dev.awake = true ∧ s.dev.trackExpected k.toNat = [] ∧ s.dev.trackMoving k.toNat = false ∧
         Tab.find s.dev.hoop.tracks k.toNat = some t ∧ t.away = 0 ∧ t.last / 2 ^ 18 = s.dev.get RIM_CFG_DEVNO ∧ t.hoop < 32) ∧
    (let t : Track := { hoop := 31, cls := [], origin := 0, otime := 0, last := 0, ltime := 0, path := [], hops := 0, spSum := 0, spN := 0, flags := 0, away := 1 };
     let k : BitVec 48 := 0;
     let s : State := (tS (tDev |> fun d => { d with hoop := { d.hoop with tracks := [(k.toNat, t)] } } |>.put TB_NS_NS 2));
     s.dev.awake = true ∧ s.dev.trackExpected k.toNat = [] ∧ s.dev.trackMoving k.toNat = false ∧
         Tab.find s.dev.hoop.tracks k.toNat = some t ∧ t.away ≠ 0 ∧ t.away < s.dev.now) ∧
    (let s : State := (tS (tDev |>.setQueue 0x158E { Queue.reset 0x158E with es := [{ hand := true }] })); let k : BitVec 48 := 0;
     s.dev.awake = true ∧ s.dev.trackMoving k.toNat = true) ∧
    (let k : BitVec 48 := 0; let x : Nat × Expect := (0, ⟨0, 0, 0, 0, k.toNat, 0, 0, 0, 0, []⟩);
     let s : State := (tS (tDev |>.setLrec 0 { slots := [x.2] }));
     s.dev.awake = true ∧ x ∈ s.dev.trackExpected k.toNat ∧ s.dev.now ≤ x.2.eta + x.2.win) ∧
    (let snap : BitVec 16 := 0; let lix : Lix := 0; let w : Wave := ⟨lix.toNat, snap.toNat, 0, 0, 0, []⟩;
     let s : State := (tS (tDev |> fun d => { d with hoop := { d.hoop with waves := [w] } }));
     s.dev.awake = true ∧ s.dev.hoop.waves.find? (fun w => w.lix == lix.toNat && w.snap == snap.toNat) = some w) ∧
    (let h : Hoop := 0; let c : Fin 4 := 0; let e : Fin 16 := 0;
     let x : Ctx := { hoop := h.val, eng := e.val, ctx := c.val, q := 0, shard := 0, entry := {}, phase := .wantPairing };
     let s : State := (tS (tDev |> fun d => { d with hoop := { d.hoop with ctxs := [x] } }));
     s.dev.awake = true ∧ s.dev.ctxOf h e c = some x ∧ x.phase = .wantPairing) ∧
    (let h : Hoop := 0; let c : Fin 4 := 0; let e : Fin 16 := 0;
     let x : Ctx := { hoop := h.val, eng := e.val, ctx := c.val, q := 0, shard := 0, entry := {} };
     let s : State := (tS (tDev |> fun d => { d with hoop := { d.hoop with ctxs := [x] } }));
     s.dev.awake = true ∧ s.dev.ctxOf h e c = some x ∧ x.phase ≠ .wantPairing) ∧
    (let s : State := tS tDev; let h : Hoop := 0; s.dev.awake = true ∧ s.dev.hoop.jobs.find? (fun j => j.hoop == h.val) = none) ∧
    (let h : Hoop := 0; let j : PairJob := (⟨h.val, 0, 0, [], 0, 0, []⟩ : PairJob);
     let s : State := (tS (tDev |> fun d => { d with hoop := { d.hoop with jobs := [j] } }));
     s.dev.awake = true ∧ s.dev.hoop.jobs.find? (fun j => j.hoop == h.val) = some j ∧ s.dev.ctxOf h j.eng j.ctx = none) ∧
    (let h : Hoop := 0; let j : PairJob := (⟨h.val, 0, 0, [], 0, 0, []⟩ : PairJob);
     let c : Ctx := { hoop := h.val, eng := 0, ctx := 0, q := 0, shard := 0, entry := {} };
     let s : State := (tS (tDev |> fun d => { d with hoop := { d.hoop with jobs := [j] } }
         |> fun d => { d with hoop := { d.hoop with ctxs := [c] } }));
     s.dev.awake = true ∧ s.dev.hoop.jobs.find? (fun j => j.hoop == h.val) = some j ∧ s.dev.ctxOf h j.eng j.ctx = some c) :=
  by refine ⟨?_, ?_, ?_, ?_, ?_, ?_, ?_, ?_, ?_, ?_⟩ <;> decide +kernel

theorem wit_PairingScores :
    let e : Expect := ⟨0, 0, 0, 0, 0, 0, 0, 0, 0, []⟩; let j : PairJob := ⟨0, 0, 0, [], 0, 0, [e]⟩; let i : Nat := 0; j.cands[i]? = some e := by decide +kernel

theorem wit_CustomerInvocations :
    (let h : Hoop := 0; let s : State := (tS (tDev |>.put (HOOP_SVC_STATE h) 0 )); s.dev.awake = true ∧ s.dev.get (HOOP_SVC_STATE h) ≠ 2) ∧
    (let v : Invoc := ⟨0, 0, 0, {}⟩;
     let s : State := (tS (tDev |> fun d => { d with hoop := { d.hoop with invq := [(31, [v])] } }
         |> fun d => { d with boot := { d.boot with parts := [(0, { cur := some {} })] } } |>.put (HOOP_SVC_STATE 31) 2));
     let h : Hoop := 31; let e : Fin 16 := 15; let n : BitVec 16 := 0; let g := 16 * h.val + e.val; let f : Nat := 0; let t : Tab Nat := {};
     s.dev.awake = true ∧ s.dev.get (HOOP_SVC_STATE h) = 2 ∧ s.dev.custLoaded = true ∧ s.dev.get (DBG_ENG_STAT_HALTED g) = 0 ∧
         (s.dev.invEnd g).strandPick h n.toNat = some (f, t) ∧
         (Tab.get [] s.dev.hoop.invq h).find? (fun v => v.fn == f && (s.dev.invEnd g).invFree v) = some v) ∧
    (let s : State := tS tDev; let g : Fin 512 := 0; s.dev.awake = true ∧ s.dev.runningOn g = none) ∧
    (let g : Fin 512 := 0; let r : Running := { eng := g.val, inv := ⟨0, 0, 0, {}⟩ };
     let s : State := (tS (tDev |> fun d => { d with hoop := { d.hoop with running := [r] } })); let v : BitVec 32 := 0x800001;
     let w := v.toNat; let n := w % 4096; let buf := s.dev.obufWords g;
     let d := s.dev.sendRecord r.inv.fn (w / 65536 % 256) (wordBytes (buf.take n ++ List.replicate (n - buf.length) 0));
     s.dev.awake = true ∧ s.dev.runningOn g = some r ∧ 1 ≤ n ∧ n ≤ 2048 ∧ w / 4096 % 4 = 0 ∧ 0x80 ≤ w / 65536 % 256 ∧
         Tab.get 0 d.bsk.rseq r.inv.fn ≠ Tab.get 0 s.dev.bsk.rseq r.inv.fn) ∧
    (let g : Fin 512 := 0; let r : Running := { eng := g.val, inv := ⟨0, 0, 0, {}⟩ };
     let s : State := (tS (tDev |> fun d => { d with hoop := { d.hoop with running := [r] } })); let v : BitVec 32 := 0x7F0001;
     let w := v.toNat;
     s.dev.awake = true ∧ s.dev.runningOn g = some r ∧ (w % 4096 = 0 ∨ 2048 < w % 4096 ∨ 2 ≤ w / 4096 % 4 ∨ w / 65536 % 256 < 0x80)) :=
  by refine ⟨?_, ?_, ?_, ?_, ?_⟩ <;> decide +kernel

theorem wit_ReflexTables :
    (let s : State := (tS (tDev |>.put RFX_TBL_STATUS_BUSY 1 )); let lix : Lix := 0; let i := (.rfxTblRead lix : Instr);
     s.dev.awake = true ∧ s.dev.get RFX_TBL_STATUS_BUSY = 1 ∧ i ∈ [Instr.rfxTblRead lix, .rfxTblWrite lix, .rfxTblClear lix]) ∧
    (let s : State := (tS (tDev |>.put RFX_CRV_STATUS_BUSY 1 )); let c : BitVec 8 := 0; let i := (.rfxCrvRead c : Instr);
     s.dev.awake = true ∧ s.dev.get RFX_CRV_STATUS_BUSY = 1 ∧ i ∈ [Instr.rfxCrvRead c, .rfxCrvWrite c]) ∧
    (let s : State := (tS (tDev |>.put RFX_TBL_STATUS_BUSY 0 |>.put RFX_CRV_STATUS_BUSY 0 )); let q := fun i => s.dev.get (RFX_ENT_QUAD i);
     s.dev.awake = true ∧ s.dev.get RFX_TBL_STATUS_BUSY = 0 ∧ s.dev.get RFX_CRV_STATUS_BUSY = 0 ∧ rfxEntCheck (q 0) = 0) ∧
    (let s : State := (tS (tDev |>.put RFX_TBL_STATUS_BUSY 0 |>.put RFX_CRV_STATUS_BUSY 0 |>.put (RFX_ENT_QUAD 0) 18));
     let q := fun i => s.dev.get (RFX_ENT_QUAD i);
     s.dev.awake = true ∧ s.dev.get RFX_TBL_STATUS_BUSY = 0 ∧ s.dev.get RFX_CRV_STATUS_BUSY = 0 ∧ rfxEntCheck (q 0) ≠ 0) ∧
    (let s : State := (tS (tDev |>.put RFX_TBL_STATUS_BUSY 0 |>.put RFX_CRV_STATUS_BUSY 0 ));
     let k := (List.range 5).map (fun i => s.dev.get (RFX_CRV_QUAD i));
     s.dev.awake = true ∧ s.dev.get RFX_TBL_STATUS_BUSY = 0 ∧ s.dev.get RFX_CRV_STATUS_BUSY = 0 ∧ crvCheck k ≠ 0) ∧
    (let s : State := (tS (tDev |>.put RFX_TBL_STATUS_BUSY 0 |>.put RFX_CRV_STATUS_BUSY 0
         |> fun d => (List.range 5).foldl (fun d j => d.put (RFX_CRV_QUAD j) 0) d |>.put (RFX_CRV_QUAD 0) (2 ^ 32)
         |>.put (RFX_CRV_QUAD 4) 2));
     let k := (List.range 5).map (fun i => s.dev.get (RFX_CRV_QUAD i));
     s.dev.awake = true ∧ s.dev.get RFX_TBL_STATUS_BUSY = 0 ∧ s.dev.get RFX_CRV_STATUS_BUSY = 0 ∧ crvCheck k = 0) :=
  by refine ⟨?_, ?_, ?_, ?_, ?_, ?_⟩ <;> decide +kernel

theorem wit_ReflexCurve :
    (let c : List Nat := [2 ^ 32, 0, 0, 0, 2]; let t : Nat := 0; crvCheck c = 0 ∧ t ≤ 10000 * crvT c 0) ∧
    (let c : List Nat := [2 ^ 32, 0, 0, 0, 2]; let t : Nat := 10001; crvCheck c = 0 ∧ 10000 * crvT c (crvN c - 1) < t) ∧
    (let c : List Nat := [2 ^ 32, 0, 0, 0, 2]; let t : Nat := 9999; let j := 0;
     crvCheck c = 0 ∧ j + 1 < crvN c ∧ 10000 * crvT c j ≤ t ∧ t < 10000 * crvT c (j + 1)) :=
  by refine ⟨?_, ?_, ?_⟩ <;> decide +kernel

theorem wit_ReflexRecords :
    (let s : State := tS tDev; s.dev.awake = true ∧ s.dev.rfx.inq = []) ∧
    (let m : RfxIn := ⟨0, 0, [], 0, 0⟩; let r : List RfxIn := [];
     let s : State := (tS (tDev |>.put RFX_CTRL_EN 0 |> fun d => { d with rfx := { d.rfx with inq := m :: r } }));
     s.dev.awake = true ∧ s.dev.rfx.inq = m :: r ∧ s.dev.get RFX_CTRL_EN = 0) :=
  by refine ⟨?_, ?_⟩ <;> decide +kernel

theorem wit_HoopService :
    (let h : Hoop := 0; let s : State := (tS (tDev |>.put (HOOP_SVC_BUSY h) 0 ));
     s.dev.awake = true ∧ s.dev.get (HOOP_SVC_BUSY h) = 0 ∧ s.dev.nshard h ≠ 0) ∧
    (let h : Hoop := 0;
     let s : State := (tS (tDev |>.put (HOOP_SVC_BUSY h) 0
         |> fun d => { d with hoop := { d.hoop with shardT := (List.range 128).flatMap (fun i => [(64 * i, 1), (64 * i + 1, 1)]) } }
         |>.put (HOOP_SVC_STATE h) 2));
     let st := s.dev.get (HOOP_SVC_STATE h); s.dev.awake = true ∧ s.dev.get (HOOP_SVC_BUSY h) = 0 ∧ s.dev.nshard h = 0 ∧ st = 2) ∧
    (let h : Hoop := 0; let s : State := (tS (tDev |>.put (HOOP_SVC_BUSY h) 0 )); let st := s.dev.get (HOOP_SVC_STATE h);
     s.dev.awake = true ∧ s.dev.get (HOOP_SVC_BUSY h) = 0 ∧ (st = 0 ∨ st = 3)) ∧
    (let h : Hoop := 0; let s : State := (tS (tDev |>.put (HOOP_SVC_BUSY h) 0 |>.put (HOOP_SVC_STATE h) 0 ));
     let st := s.dev.get (HOOP_SVC_STATE h); s.dev.awake = true ∧ s.dev.get (HOOP_SVC_BUSY h) = 0 ∧ st = 0) ∧
    (let h : Hoop := 0; let s : State := (tS (tDev |>.put (HOOP_SVC_STATE h) 1 )); let st := s.dev.get (HOOP_SVC_STATE h);
     s.dev.awake = true ∧ st = 1) ∧
    (let h : Hoop := 0; let s : State := (tS (tDev |>.put (HOOP_SVC_BUSY h) 1 |>.put (HOOP_SVC_STATE h) 0 ));
     let st := s.dev.get (HOOP_SVC_STATE h); s.dev.awake = true ∧ s.dev.get (HOOP_SVC_BUSY h) = 1 ∧ st ≠ 1) :=
  by refine ⟨?_, ?_, ?_, ?_, ?_, ?_⟩ <;> decide +kernel

theorem wit_ShardAssignment :
    (let s : State := tS tDev; let sh : Shard := 0; let q := 0;
     s.dev.awake = true ∧ s.dev.hoop.mig = none ∧ s.dev.shardQueue sh.toNat = some q ∧ s.dev.holds q = false ∧
         s.dev.shardHeld sh.toNat = false) ∧
    (let sh : Shard := 0;
     let s : State := (tS (tDev
         |> fun d => { d with hoop := { d.hoop with ctxs := [{ hoop := 0, eng := 0, ctx := 0, q := 0, shard := sh.toNat, entry := {} }] } }));
     s.dev.awake = true ∧ s.dev.hoop.mig = none ∧ s.dev.shardHeld sh.toNat = true) :=
  by refine ⟨?_, ?_⟩ <;> decide +kernel

theorem wit_Migration :
    (let s : State := (tS (tDev |>.put HOOP_MIG_STATUS_BUSY 1 )); let d := s.dev; let i := .qmove;
     s.dev.awake = true ∧ d.get HOOP_MIG_STATUS_BUSY = 1 ∧ i ∈ [Instr.qmove, .smove, .qmoveForced, .smoveForced]) ∧
    (let s : State := (tS (tDev |>.put HOOP_MIG_STATUS_BUSY 0 |>.put (HOOP_SVC_STATE 0) 2)); let q := s.dev.get HOOP_MIG_ARG_QUEUE;
     let dh := s.dev.get HOOP_MIG_ARG_DHOOP; let d := s.dev;
     s.dev.awake = true ∧ d.get HOOP_MIG_STATUS_BUSY = 0 ∧ d.hoop.mig = none ∧ q < 0x1400 ∧ (d.shardsOf q).isEmpty = false ∧
         d.hoopUp dh = true ∧ d.hoopUp (d.queueHoop q) = true) ∧
    (let s : State := (tS (tDev |>.put HOOP_MIG_STATUS_BUSY 0 |>.put HOOP_MIG_ARG_DHOOP 1 |>.put (HOOP_SVC_STATE 1) 2));
     let q := s.dev.get HOOP_MIG_ARG_QUEUE; let dh := s.dev.get HOOP_MIG_ARG_DHOOP; let d := s.dev;
     s.dev.awake = true ∧ d.get HOOP_MIG_STATUS_BUSY = 0 ∧ d.hoop.mig = none ∧ q < 0x1400 ∧ (d.shardsOf q).isEmpty = false ∧
         d.hoopUp dh = true ∧ d.hoopUp (d.queueHoop q) = false) ∧
    (let s : State := (tS (tDev |>.put HOOP_MIG_STATUS_BUSY 0 |>.put (HOOP_SVC_STATE 0) 2)); let dh := s.dev.get HOOP_MIG_ARG_DHOOP;
     let sh := s.dev.get HOOP_MIG_ARG_SHARD; let dq := s.dev.get HOOP_MIG_ARG_DQUEUE; let d := s.dev; let old := 0;
     s.dev.awake = true ∧ d.get HOOP_MIG_STATUS_BUSY = 0 ∧ d.hoop.mig = none ∧ d.shardQueue sh = some old ∧ dq < 0x1400 ∧
         d.hoopUp (d.shardHoop sh) = true ∧ d.hoopUp dh = true ∧ (d.shardsOf dq).all (fun x => d.shardHoop x == dh) = true) ∧
    (let s : State := (tS (tDev |>.put HOOP_MIG_STATUS_BUSY 0 |> fun d => { d with bsk := { d.bsk with shard := [(0, (0, false))] } }));
     let sh := s.dev.get HOOP_MIG_ARG_SHARD; let d := s.dev;
     s.dev.awake = true ∧ d.get HOOP_MIG_STATUS_BUSY = 0 ∧ d.hoop.mig = none ∧ sh < 8192 ∧ d.shardQueue sh = none) ∧
    (let m : Mig := { op := 2, queue := 0, shard := 0, dhoop := 0, src := 0, pend := true };
     let s : State := (tS (tDev |>.put HOOP_MIG_STATUS_BUSY 0 |> fun d => { d with hoop := { d.hoop with mig := some m } }));
     let d := s.dev; let i := .smove;
     s.dev.awake = true ∧ d.hoop.mig = some m ∧ d.get HOOP_MIG_STATUS_BUSY = 0 ∧ m.pend = true ∧ i ∈ [Instr.qmove, .smove, .qmoveForced]) ∧
    (let m : Mig := { op := 2, queue := 0, shard := 1, dhoop := 0, src := 0, pend := true };
     let s : State := (tS (tDev |>.put HOOP_MIG_STATUS_BUSY 0 |> fun d => { d with hoop := { d.hoop with mig := some m } }));
     let sh := s.dev.get HOOP_MIG_ARG_SHARD; let d := s.dev;
     s.dev.awake = true ∧ d.hoop.mig = some m ∧ d.get HOOP_MIG_STATUS_BUSY = 0 ∧ m.pend = true ∧ m.op = 2 ∧ m.shard ≠ sh) ∧
    (let m : Mig := { op := 2, queue := 0, shard := 0, dhoop := 0, src := 0, pend := true };
     let s : State := (tS (tDev |>.put HOOP_MIG_STATUS_BUSY 0 |> fun d => { d with hoop := { d.hoop with mig := some m } }
         |>.put (HOOP_SVC_STATE 0) 2));
     let dh := s.dev.get HOOP_MIG_ARG_DHOOP; let sh := s.dev.get HOOP_MIG_ARG_SHARD; let d := s.dev;
     s.dev.awake = true ∧ d.hoop.mig = some m ∧ d.get HOOP_MIG_STATUS_BUSY = 0 ∧ m.pend = true ∧ m.op = 2 ∧ m.shard = sh ∧
         d.hoopUp dh = true) ∧
    (let m : Mig := { op := 2, queue := 0, shard := 0, dhoop := 0, src := 0, pend := false };
     let s : State := (tS (tDev |> fun d => { d with hoop := { d.hoop with mig := some m } } |>.put HOOP_MIG_STATUS_MARKS 7));
     let d := s.dev; s.dev.awake = true ∧ d.hoop.mig = some m ∧ m.pend = false ∧ d.migDrained m = true ∧ m.op = 2) :=
  by refine ⟨?_, ?_, ?_, ?_, ?_, ?_, ?_, ?_, ?_⟩ <;> decide +kernel

theorem wit_HoopResults :
    (let h : Hoop := 0; let e : Entry := {}; let r : List Entry := [];
     let s : State := (tS (tDev |>.put (HOOP_SVC_STATE h) 2 |>.setQueue 0 { Queue.reset 0 with es := e :: r, head := 1 }
         |> fun d => { d with hoop := { d.hoop with shardT := (List.range 4096).map (fun i => (i, 0)) } }));
     let q : Nat := 0; let g : Nat := 0; let c : Nat := 0;
     s.dev.awake = true ∧ s.dev.get (HOOP_SVC_STATE h) = 2 ∧ s.dev.freeCtx h = some (g, c) ∧
         (afterOf (s.dev.hoopQueues h) (Tab.get 0 s.dev.hoop.rr h)).find? (fun q => s.dev.takeOk h q) = some q ∧ s.dev.taken q = [] ∧
         (s.dev.queue q).es = e :: r ∧ e.live = true ∧ e.poison = false ∧ e.cells ≤ (s.dev.queue q).head - 16 * (s.dev.queue q).refillFly ∧
         e.mark = none ∧ e.lost = false ∧ s.dev.hoop.mig = none ∧ s.dev.shardHoop (entryShard e) = h.val) ∧
    (let h : Hoop := 0; let c : Fin 4 := 0; let e : Fin 16 := 0;
     let x : Ctx := { hoop := h.val, eng := e.val, ctx := c.val, q := 0, shard := 0, entry := tEnt 4 [] };
     let s : State := (tS (tDev |> fun d => { d with hoop := { d.hoop with ctxs := [x] } })); let b := msgBytes x.entry;
     s.dev.awake = true ∧ s.dev.ctxOf h e c = some x ∧ x.phase = .run ∧ (x.entry.hand = true ∨ byteAt b 1 ≠ 1)) ∧
    (let h : Hoop := 0; let c : Fin 4 := 0; let e : Fin 16 := 0;
     let x : Ctx := { hoop := h.val, eng := e.val, ctx := c.val, q := 0, shard := 0, entry := tEnt 1 (tZeros 12) };
     let s : State := (tS (tDev |> fun d => { d with hoop := { d.hoop with ctxs := [x] } })); let b := msgBytes x.entry;
     s.dev.awake = true ∧ s.dev.ctxOf h e c = some x ∧ x.phase = .run ∧ x.entry.hand = false ∧ byteAt b 1 = 1) :=
  by refine ⟨?_, ?_, ?_⟩ <;> decide +kernel

theorem wit_WaveResults :
    let snap : BitVec 16 := 0; let lix : Lix := 0; let w : Wave := ⟨lix.toNat, snap.toNat, 0, 0, 0, []⟩;
    let s : State := (tS (tDev |> fun d => { d with hoop := { d.hoop with waves := [w] } }));
    let mine := fun (w : Wave) => w.lix == lix.toNat && w.snap == snap.toNat; s.dev.awake = true ∧ s.dev.hoop.waves.find? mine = some w := by decide +kernel

theorem wit_OutResults :
    (let g : Fin 512 := 0; let r : Running := { eng := g.val, inv := ⟨0, 0, 0, {}⟩ };
     let s : State := (tS (tDev |> fun d => { d with hoop := { d.hoop with running := [r] } })); let v : BitVec 32 := 0x00800001;
     let w := v.toNat; let n := w % 4096; let f := r.inv.fn; let buf := s.dev.obufWords g;
     let body := wordBytes (buf.take n ++ List.replicate (n - buf.length) 0);
     s.dev.awake = true ∧ s.dev.runningOn g = some r ∧ 1 ≤ n ∧ n ≤ 2048 ∧ 0x80 ≤ w / 65536 % 256 ∧ w / 4096 % 4 = 0 ∧
         s.dev.hasRoom (0x1403 + 6 * f) (s.dev.recordOf f (w / 65536 % 256) body)) ∧
    (let g : Fin 512 := 0; let r : Running := { eng := g.val, inv := ⟨0, 0, 0, {}⟩ };
     let s : State := (tS (tDev |> fun d => { d with hoop := { d.hoop with running := [r] } })); let v : BitVec 32 := 0x00801001;
     let w := v.toNat; let n := w % 4096; let f := r.inv.fn; let buf := s.dev.obufWords g;
     let body := wordBytes (buf.take n ++ List.replicate (n - buf.length) 0);
     s.dev.awake = true ∧ s.dev.runningOn g = some r ∧ 1 ≤ n ∧ n ≤ 2048 ∧ 0x80 ≤ w / 65536 % 256 ∧ w / 4096 % 4 = 1 ∧
         s.dev.hasRoom (0x1405 + 6 * f) (s.dev.bulkInOf f (w / 65536 % 256) body)) :=
  ⟨⟨by decide +kernel, by decide +kernel, by decide +kernel, by decide +kernel, by decide +kernel, by decide +kernel, tRoom_spec (by decide +kernel)⟩,
   ⟨by decide +kernel, by decide +kernel, by decide +kernel, by decide +kernel, by decide +kernel, by decide +kernel, tRoom_spec (by decide +kernel)⟩⟩

theorem wit_ReflexOrders :
    let m : RfxIn := ⟨0, 0, tZeros 6, 0, 0⟩; let r : List RfxIn := [];
    let s : State := (tS (tDev |>.put RFX_CTRL_EN 1
        |> fun d => { d with rfx := { d.rfx with inq := m :: r, ent := [(0, [1 + 2 + 512 + 2 ^ 45])], crv := [(0, [1000 * 2 ^ 16 + 2 ^ 32, 0, 0, 0, 2])] } }
        |> fun d => d.setQueue 0x1588 { d.queue 0x1588 with enable := true }));
    let d := s.dev; let e := d.rfxEnt m.lix; let q0 := quadAt e 0; let b2 := byteAt m.bytes 2; let dt := m.base + 1000 * beAt m.bytes 0 2;
    let a := !b2.testBit 4; let c := Tab.get [] d.rfx.crv (if a then bits q0 36 29 else bits q0 44 37);
    let n := if a then bits q0 4 1 else bits q0 8 5; let split := if a then bits q0 12 9 else bits q0 16 13;
    let os := fun (lo hi dev : Nat) => d.rfxOrders e c (if a then 0 else 8) lo hi (max (byteAt m.bytes 3) (d.get RFX_CTRL_VMIN)) (if a then -1 else 1) (sgn 16 (beAt m.bytes 4 2)) dt dev;
    let dev := d.get RIM_CFG_DEVNO; let loc := os 0 (min n split) dev;
    s.dev.awake = true ∧ s.dev.rfx.inq = m :: r ∧ d.get RFX_CTRL_EN = 1 ∧ q0.testBit 0 = true ∧ (bits q0 52 45).testBit (b2 / 32) = true ∧
        bits q0 56 53 ≤ b2 % 16 ∧ m.adm ≤ dt + d.get RFX_CTRL_MAXAGE * 1000000 ∧ loc ≠ [] ∧
        os split n (if a then bits q0 22 17 else bits q0 28 23) = [] ∧ d.hasRoom 0x1588 (rfxEntry false dev (d.iln m.lix) dt loc) := ⟨by decide +kernel, by decide +kernel, by decide +kernel, by decide +kernel, by decide +kernel, by decide +kernel, by decide +kernel, by decide +kernel, by decide +kernel, tRoom_spec (by decide +kernel)⟩

theorem wit_MoveResults :
    (let s : State := (tS (tDev |>.put HOOP_MIG_STATUS_BUSY 0 |>.put (HOOP_SVC_STATE 0) 2)); let d := s.dev; let q := d.get HOOP_MIG_ARG_QUEUE;
     let dh := d.get HOOP_MIG_ARG_DHOOP;
     s.dev.awake = true ∧ d.get HOOP_MIG_STATUS_BUSY = 0 ∧ d.hoop.mig = none ∧ q < 0x1400 ∧ (d.shardsOf q).isEmpty = false ∧
         d.hoopUp dh = true ∧ d.hoopUp (d.queueHoop q) = true) ∧
    (let s : State := (tS (tDev |>.put HOOP_MIG_STATUS_BUSY 0 |>.put (HOOP_SVC_STATE 1) 2 |>.put HOOP_MIG_ARG_DHOOP 1)); let d := s.dev;
     let q := d.get HOOP_MIG_ARG_QUEUE; let dh := d.get HOOP_MIG_ARG_DHOOP;
     s.dev.awake = true ∧ d.get HOOP_MIG_STATUS_BUSY = 0 ∧ d.hoop.mig = none ∧ q < 0x1400 ∧ (d.shardsOf q).isEmpty = false ∧
         d.hoopUp dh = true ∧ d.hoopUp (d.queueHoop q) = false) :=
  by refine ⟨?_, ?_⟩ <;> decide +kernel

theorem wit_MergeRule :
    (let k := ({ first := 0, last := 0, fn := 0, kind := 1, level := 0, fade := 0, start := 0, stop := 1, cseq := 0 } : OrdRec);
     let d : Dev := (tDev |> fun d => { d with ord := { d.ord with recs := [(0, k)] } }); let n : Nat := 0; let s : Nat := 0;
     let act := (d.ord.recs.map (·.2)).filter (fun k => k.covers n && k.active s); act.filter (fun k => k.kind == 1 && k.fn == 0) = [k]) ∧
    (let d : Dev := (tDev ); let n : Nat := 0; let o : Nat := 0; let s : Nat := 0; let start : Nat := 0; let c := d.roadClass (d.olan n).cls;
     let m := d.merge n o s start; c.floor ≤ c.ceil ∧ m.2.2 ≠ 5) ∧
    (let d : Dev := (tDev ); let n : Nat := 0; let s : Nat := 0; let c := d.roadClass (d.olan n).cls;
     let act := (d.ord.recs.map (·.2)).filter (fun k => k.covers n && k.active s);
     act = [] ∧ (d.olan n).rv = false ∧ d.compCount n = 0 ∧ (d.olan n).schcal = 0 ∧ (d.olan n).fbcal = 0 ∧ c.floor ≤ c.ceil ∧
         (d.olan n).lvalid = false) :=
  by refine ⟨?_, ?_, ?_⟩ <;> decide +kernel

theorem wit_OrderRecords :
    (let fn : Nat := 0; let kind : Nat := 0; kind = 0 ∧ fn = 0) ∧
    (let fn : Nat := 0; let kind : Nat := 1; let level : Nat := 0; let first : Nat := 0; let last : Nat := 0; let start : Nat := 0;
     let stop : Nat := 0; (kind ≠ 0 ∨ fn ≠ 0) ∧ (last < first ∨ 262143 < last ∨ 1000 < level ∨ later stop start = false)) ∧
    (let d : Dev := (tDev ); let fn : Nat := 0; let kind : Nat := 0; let level : Nat := 0; let fade : Nat := 0; let first : Nat := 0;
     let last : Nat := 0; let start : Nat := 0; let stop : Nat := 0; let p := d.ordPlace fn kind level fade first last start stop; p.2.1 ≠ 0) ∧
    (let d : Dev := (tDev
         |> fun d => { d with ord := { d.ord with recs := [(0, { first := 0, last := 0, fn := 0, kind := 1, level := 0, fade := 0, start := 0, stop := 1, cseq := 0 })] } });
     let fn : Nat := 0; let kind : Nat := 1; let level : Nat := 1000; let fade : Nat := 0; let first : Nat := 0; let last : Nat := 0;
     let start : Nat := 0; let stop : Nat := 1; let p := d.ordPlace fn kind level fade first last start stop; let i := 0;
     p.2.1 = 0 ∧ i < p.2.2.1) ∧
    (let d : Dev := (tDev ); let fn : Nat := 0; let kind : Nat := 1; let level : Nat := 0; let fade : Nat := 0; let first : Nat := 262143;
     let last : Nat := 262143; let start : Nat := 0; let stop : Nat := 1; let p := d.ordPlace fn kind level fade first last start stop;
     let i := 1; p.2.1 = 0 ∧ i ≠ p.2.2.1) ∧
    (let d : Dev := (tDev ); let n := 0; Tab.find d.ord.recs n = none) ∧
    (let r := ({ first := 0, last := 0, fn := 2, kind := 1, level := 0, fade := 0, start := 0, stop := 1, cseq := 0 } : OrdRec); let n := 16383;
     let d : Dev := (tDev |> fun d => { d with ord := { d.ord with recs := [(n, r)] } }); let fn : Nat := 1;
     n < 16384 ∧ Tab.find d.ord.recs n = some r ∧ (fn ≠ 0 ∧ r.fn ≠ fn)) ∧
    (let r := ({ first := 0, last := 0, fn := 2, kind := 1, level := 0, fade := 0, start := 0, stop := 1, cseq := 0 } : OrdRec); let n := 16383;
     let d : Dev := (tDev |> fun d => { d with ord := { d.ord with recs := [(n, r)] } }); let fn : Nat := 0;
     n < 16384 ∧ Tab.find d.ord.recs n = some r ∧ (fn = 0 ∨ r.fn = fn)) :=
  by refine ⟨?_, ?_, ?_, ?_, ?_, ?_, ?_, ?_⟩ <;> decide +kernel

theorem wit_OrderSweep :
    (let s : State := tS tDev; s.dev.awake = true ∧ s.dev.now + s.dev.ord.lead * 1000 < s.dev.ord.next * 1000000) ∧
    (let s : State := (tS (tDev |>.put TB_NS_NS 500000)); s.dev.awake = true ∧ s.dev.ord.next * 1000000 ≤ s.dev.now + s.dev.ord.lead * 1000) ∧
    (let s : State := tS tDev; s.dev.awake = true ∧ s.dev.ord.cuts = []) ∧
    (let c := (⟨0, []⟩ : OrdCut); let s : State := (tS (tDev |> fun d => { d with ord := { d.ord with cuts := [c] } })); let r := [];
     s.dev.awake = true ∧ s.dev.ord.cuts = c :: r) :=
  by refine ⟨?_, ?_, ?_, ?_⟩ <;> decide +kernel

theorem wit_OrderPriority :
    (let a : Nat := 0; let b : Nat := 0; a < 2 ^ 32 ∧ b < 2 ^ 32) ∧
    (let due : List OrdDue := []; (∀ x ∈ due, 1 ≤ x.cls ∧ x.cls ≤ 5)) :=
  by refine ⟨?_, ?_⟩ <;> decide +kernel

theorem wit_OrderConfiguration :
    (let s : State := tS tDev; let lead : BitVec 10 := 900; let refresh : BitVec 10 := 1000; let ack : BitVec 2 := 2;
     let ok := 100 ≤ lead.toNat ∧ lead.toNat ≤ 900 ∧ ack.toNat ≤ 2 ∧ 10 ≤ refresh.toNat ∧ refresh.toNat ≤ 1000; s.dev.awake = true ∧ ok) ∧
    (let s : State := tS tDev; let lead : BitVec 10 := 99; let refresh : BitVec 10 := 10; let ack : BitVec 2 := 0;
     let ok := 100 ≤ lead.toNat ∧ lead.toNat ≤ 900 ∧ ack.toNat ≤ 2 ∧ 10 ≤ refresh.toNat ∧ refresh.toNat ≤ 1000; s.dev.awake = true ∧ ¬ ok) :=
  by refine ⟨?_, ?_⟩ <;> decide +kernel

theorem wit_QueueConsumers :
    (let q : Nat := 0x1588; let e : Entry := { words := [1] }; let r : List Entry := [];
     let s : State := (tS (tDev |> fun d => { d with bsk := { d.bsk with taken := [(q, e :: r)] } }));
     s.dev.awake = true ∧ s.dev.taken q = e :: r ∧ e.poison = false ∧ q = 0x1588 ∧ isReflexEntry e = true) ∧
    (let q : Nat := 0x1588; let e : Entry := {}; let r : List Entry := [];
     let s : State := (tS (tDev |> fun d => { d with bsk := { d.bsk with taken := [(q, e :: r)] } }));
     s.dev.awake = true ∧ s.dev.taken q = e :: r ∧ e.poison = false ∧ q = 0x1588 ∧ isReflexEntry e = false) ∧
    (let q : Nat := 0x1589; let e : Entry := {}; let r : List Entry := [];
     let s : State := (tS (tDev |> fun d => { d with bsk := { d.bsk with taken := [(q, e :: r)] } }));
     s.dev.awake = true ∧ s.dev.taken q = e :: r ∧ e.poison = false ∧ q = 0x1589) ∧
    (let q : Nat := 0x158A; let e : Entry := {}; let r : List Entry := [];
     let s : State := (tS (tDev |> fun d => { d with bsk := { d.bsk with taken := [(q, e :: r)] } }));
     s.dev.awake = true ∧ s.dev.taken q = e :: r ∧ e.poison = false ∧ q = 0x158A) ∧
    (let q : Nat := 0x158B; let e : Entry := tEnt 2 []; let r : List Entry := [];
     let s : State := (tS (tDev |> fun d => { d with bsk := { d.bsk with taken := [(q, e :: r)] } }));
     s.dev.awake = true ∧ s.dev.taken q = e :: r ∧ e.poison = false ∧ q = 0x158B ∧ isStatusEntry e = true) ∧
    (let q : Nat := 0x158B; let e : Entry := {}; let r : List Entry := [];
     let s : State := (tS (tDev |> fun d => { d with bsk := { d.bsk with taken := [(q, e :: r)] } }));
     s.dev.awake = true ∧ s.dev.taken q = e :: r ∧ e.poison = false ∧ q = 0x158B ∧ isStatusEntry e = false) ∧
    (let q : Nat := 0; let e : Entry := {}; let r : List Entry := [];
     let s : State := (tS (tDev |>.put LDG_CFG_EN 0 |> fun d => { d with bsk := { d.bsk with taken := [(q, e :: r)] } }));
     let d := { s.dev with bsk := { s.dev.bsk with taken := Tab.set [] s.dev.bsk.taken q r } };
     s.dev.awake = true ∧ s.dev.taken q = e :: r ∧ e.poison = false ∧ d.get LDG_CFG_EN ≠ 1) ∧
    (let q : Nat := 0; let e : Entry := {}; let r : List Entry := [];
     let s : State := (tS (tDev |>.put LDG_CFG_EN 1 |> fun d => { d with bsk := { d.bsk with taken := [(q, e :: r)] } }));
     let d := { s.dev with bsk := { s.dev.bsk with taken := Tab.set [] s.dev.bsk.taken q r } };
     s.dev.awake = true ∧ s.dev.taken q = e :: r ∧ e.poison = false ∧ d.get LDG_CFG_EN = 1 ∧ d.msgKnown e = false) ∧
    (let q : Nat := 0; let e : Entry := {}; let r : List Entry := [];
     let s : State := (tS (tDev |> fun d => { d with bsk := { d.bsk with taken := [(q, e :: r)] } }));
     let d := { s.dev with bsk := { s.dev.bsk with taken := Tab.set [] s.dev.bsk.taken q r } }; let target := 0; let x := target % 2 ^ 18;
     s.dev.awake = true ∧ s.dev.taken q = e :: r ∧ e.poison = false ∧ (target / 2 ^ 18 ≠ d.get RIM_CFG_DEVNO ∨ d.lantern x = none)) ∧
    (let q : Nat := 0; let e : Entry := {}; let r : List Entry := [];
     let s : State := (tS (tDev |> fun d => { d with bsk := { d.bsk with taken := [(q, e :: r)] } } |>.setLantern 0 {}));
     let d := { s.dev with bsk := { s.dev.bsk with taken := Tab.set [] s.dev.bsk.taken q r } }; let target := 0; let x := target % 2 ^ 18;
     let o := d.olan x;
     s.dev.awake = true ∧ s.dev.taken q = e :: r ∧ e.poison = false ∧ target / 2 ^ 18 = d.get RIM_CFG_DEVNO ∧ (d.lantern x).isSome ∧
         o.rv = false) ∧
    (let q : Nat := 0; let e : Entry := tEnt 0x11 (tZeros 12); let r : List Entry := [];
     let s : State := (tS (tDev |> fun d => { d with bsk := { d.bsk with taken := [(q, e :: r)] } } |>.setLantern 0 { uid := msgUid e }
         |>.setOlan 0 { ack := 1 }));
     let d := { s.dev with bsk := { s.dev.bsk with taken := Tab.set [] s.dev.bsk.taken q r } }; let x := msgLix e; let o := d.olan x;
     let hit := d.msgKnown e = true ∧ beAt ((msgBytes e).drop 16) 4 4 = o.lslot ∧ (o.ack = 1 ∨ o.ack = 2); let k := 1;
     s.dev.awake = true ∧ s.dev.taken q = e :: r ∧ e.poison = false ∧ hit ∧ k ≠ x) ∧
    (let q : Nat := 0; let e : Entry := {}; let r : List Entry := [];
     let s : State := (tS (tDev |> fun d => { d with bsk := { d.bsk with taken := [(q, e :: r)] } }));
     let d := { s.dev with bsk := { s.dev.bsk with taken := Tab.set [] s.dev.bsk.taken q r } }; let x := msgLix e; let o := d.olan x;
     let hit := d.msgKnown e = true ∧ beAt ((msgBytes e).drop 16) 4 4 = o.lslot ∧ (o.ack = 1 ∨ o.ack = 2);
     s.dev.awake = true ∧ s.dev.taken q = e :: r ∧ e.poison = false ∧ ¬ hit) :=
  by refine ⟨?_, ?_, ?_, ?_, ?_, ?_, ?_, ?_, ?_, ?_, ?_, ?_⟩ <;> decide +kernel

theorem wit_DarkSets :
    (let d : Dev := (tDev ); let e : Entry := tEnt 3 (tZeros 10 ++ [2, 1] ++ tZeros 8); d.msgKnown e = false) ∧
    (let e : Entry := tEnt 3 (tZeros 10 ++ [2, 1] ++ tZeros 8);
     let d : Dev := (tDev |>.setLantern 0 { uid := msgUid e } |>.setOlan 0 { codes := [0] }); let lix := msgLix e;
     let pl := (msgBytes e).drop 16; let code := beAt pl 8 2; let r := d.olan lix; let dark := byteAt pl 10 = 2 ∧ byteAt pl 11 = 1;
     d.msgKnown e = true ∧ dark ∧ r.codes.contains code = true) ∧
    (let e : Entry := tEnt 3 (tZeros 10 ++ [2, 1] ++ tZeros 8);
     let d : Dev := (tDev |>.setLantern 0 { uid := msgUid e } |>.setOlan 0 { codes := [1, 2, 3] }); let lix := msgLix e;
     let pl := (msgBytes e).drop 16; let code := beAt pl 8 2; let r := d.olan lix; let dark := byteAt pl 10 = 2 ∧ byteAt pl 11 = 1;
     d.msgKnown e = true ∧ dark ∧ r.codes.contains code = false ∧ r.codes.length < 4) ∧
    (let e : Entry := tEnt 3 (tZeros 10 ++ [2, 1] ++ tZeros 8);
     let d : Dev := (tDev |>.setLantern 0 { uid := msgUid e } |>.setOlan 0 { codes := [1, 2, 3, 4] }); let lix := msgLix e;
     let pl := (msgBytes e).drop 16; let code := beAt pl 8 2; let r := d.olan lix; let dark := byteAt pl 10 = 2 ∧ byteAt pl 11 = 1;
     d.msgKnown e = true ∧ dark ∧ r.codes.contains code = false ∧ 4 ≤ r.codes.length) ∧
    (let e : Entry := tEnt 3 (tZeros 20); let d : Dev := (tDev |>.setLantern 0 { uid := msgUid e }); let pl := (msgBytes e).drop 16;
     let dark := byteAt pl 10 = 2 ∧ byteAt pl 11 = 1; d.msgKnown e = true ∧ ¬ dark) ∧
    (let d : Dev := (tDev |>.setOlan 0 { dovf := true }); let e : Entry := tEnt 3 (tZeros 10 ++ [2, 1] ++ tZeros 8); let lix := msgLix e;
     let r := d.olan lix; r.dovf = true) ∧
    (let e : Entry := tEnt 3 (tZeros 10 ++ [2, 1] ++ tZeros 8); let lix := msgLix e; let k := 1; k ≠ lix) ∧
    (let e : Entry := tEnt 3 (tZeros 10 ++ [2, 1] ++ tZeros 8); let d : Dev := (tDev |>.setLantern 0 { uid := msgUid e });
     let l : List Entry := []; let s : State := (tS (tDev |> fun d => { d with bsk := { d.bsk with taken := [(0x1589, e :: l)] } }));
     s.dev.awake = true ∧ s.dev.taken 0x1589 = e :: l ∧ e.poison = false) ∧
    (let s : State := tS tDev;
     s.dev.awake = true ∧ s.dev.get ORD_TBL_CMD_BUSY = 0 ∧ s.dev.get ORD_TBL_SEL_TABLE = 0 ∧
         ordIndexOk 0 (s.dev.get ORD_TBL_SEL_INDEX) = true) :=
  by refine ⟨?_, ?_, ?_, ?_, ?_, ?_, ?_, ?_, ?_⟩ <;> decide +kernel

theorem wit_CompensationExpiry :
    let s : State := tS tDev; s.dev.awake = true := by decide +kernel

theorem wit_OrderTables :
    (let s : State := (tS (tDev |>.put ORD_TBL_CMD_BUSY 1 )); let d := s.dev; let c := (.ordTblRead : Instr);
     s.dev.awake = true ∧ d.get ORD_TBL_CMD_BUSY = 1 ∧ c ∈ [Instr.ordTblRead, .ordTblWrite, .ordTblClear]) ∧
    (let s : State := (tS (tDev |>.put ORD_TBL_CMD_BUSY 0 |>.put ORD_TBL_SEL_TABLE 2 |>.put ORD_TBL_SEL_INDEX 0)); let d := s.dev;
     let t := d.get ORD_TBL_SEL_TABLE; let i := d.get ORD_TBL_SEL_INDEX; let c := (.ordTblRead : Instr);
     s.dev.awake = true ∧ d.get ORD_TBL_CMD_BUSY = 0 ∧ ordIndexOk t i = false ∧ c ∈ [Instr.ordTblRead, .ordTblWrite, .ordTblClear]) ∧
    (let s : State := (tS (tDev |>.put ORD_TBL_CMD_BUSY 0 |>.put ORD_TBL_SEL_TABLE 0 |>.put ORD_TBL_SEL_INDEX 262143)); let d := s.dev;
     let t := d.get ORD_TBL_SEL_TABLE; let i := d.get ORD_TBL_SEL_INDEX; let l := s.dev.olanQuads 262143;
     s.dev.awake = true ∧ d.get ORD_TBL_CMD_BUSY = 0 ∧ ordIndexOk t i = true ∧ d.ordRead t i = some l ∧ l.length ≤ 16) ∧
    (let s : State := (tS (tDev |>.put ORD_TBL_CMD_BUSY 0 |>.put ORD_TBL_SEL_TABLE 0 |>.put ORD_TBL_SEL_INDEX 0 |>.put (ORD_DATA_QUAD 0) 256
         |>.setCalendar 1 [1]));
     let d := s.dev; let t := d.get ORD_TBL_SEL_TABLE; let i := d.get ORD_TBL_SEL_INDEX;
     let q := (List.range 16).map (fun i => d.get (ORD_DATA_QUAD i)); let fb := bits (quadAt q 0) 17 8; let sc := bits (quadAt q 0) 27 18;
     let bad := (fb ≠ 0 ∧ d.calOwner fb ≠ 0) ∨ (sc ≠ 0 ∧ d.calOwner sc ≠ d.ownerOf i);
     s.dev.awake = true ∧ d.get ORD_TBL_CMD_BUSY = 0 ∧ ordIndexOk t i = true ∧ t = 0 ∧ bad) ∧
    (let s : State := (tS (tDev |>.put ORD_TBL_CMD_BUSY 0 |>.put ORD_TBL_SEL_TABLE 0 |>.put ORD_TBL_SEL_INDEX 0)); let d := s.dev;
     let t := d.get ORD_TBL_SEL_TABLE; let i := d.get ORD_TBL_SEL_INDEX; let q := (List.range 16).map (fun i => d.get (ORD_DATA_QUAD i));
     let fb := bits (quadAt q 0) 17 8; let sc := bits (quadAt q 0) 27 18;
     let bad := (fb ≠ 0 ∧ d.calOwner fb ≠ 0) ∨ (sc ≠ 0 ∧ d.calOwner sc ≠ d.ownerOf i);
     s.dev.awake = true ∧ d.get ORD_TBL_CMD_BUSY = 0 ∧ ordIndexOk t i = true ∧ t = 0 ∧ ¬ bad) ∧
    (let s : State := (tS (tDev |>.put ORD_TBL_CMD_BUSY 0 |>.put ORD_TBL_SEL_TABLE 1 |>.put ORD_TBL_SEL_INDEX 255 |>.put (ORD_DATA_QUAD 0) 1));
     let d := s.dev; let t := d.get ORD_TBL_SEL_TABLE; let i := d.get ORD_TBL_SEL_INDEX;
     let q := (List.range 16).map (fun i => d.get (ORD_DATA_QUAD i)); let c := RoadClass.ofQuads q;
     let bad := c.ceil < c.floor ∨ 1000 < c.ceil ∨ 1000 < c.fclevel ∨ 8 < c.fcn;
     s.dev.awake = true ∧ d.get ORD_TBL_CMD_BUSY = 0 ∧ ordIndexOk t i = true ∧ t = 1 ∧ bad) ∧
    (let s : State := (tS (tDev |>.put ORD_TBL_CMD_BUSY 0 |>.put ORD_TBL_SEL_TABLE 1 |>.put ORD_TBL_SEL_INDEX 255
         |>.put (ORD_DATA_QUAD 0) (2 ^ 48) |>.setCalendar 1 [1]));
     let d := s.dev; let t := d.get ORD_TBL_SEL_TABLE; let i := d.get ORD_TBL_SEL_INDEX;
     let q := (List.range 16).map (fun i => d.get (ORD_DATA_QUAD i)); let c := RoadClass.ofQuads q;
     let bad := c.ceil < c.floor ∨ 1000 < c.ceil ∨ 1000 < c.fclevel ∨ 8 < c.fcn;
     s.dev.awake = true ∧ d.get ORD_TBL_CMD_BUSY = 0 ∧ ordIndexOk t i = true ∧ t = 1 ∧ ¬ bad ∧ c.darkcal ≠ 0 ∧ d.calOwner c.darkcal ≠ 0) ∧
    (let s : State := (tS (tDev |>.put ORD_TBL_CMD_BUSY 0 |>.put ORD_TBL_SEL_TABLE 1 |>.put ORD_TBL_SEL_INDEX 1
         |>.put (ORD_DATA_QUAD 0) (1000 * 2 ^ 12)));
     let d := s.dev; let t := d.get ORD_TBL_SEL_TABLE; let i := d.get ORD_TBL_SEL_INDEX;
     let q := (List.range 16).map (fun i => d.get (ORD_DATA_QUAD i)); let c := RoadClass.ofQuads q;
     let bad := c.ceil < c.floor ∨ 1000 < c.ceil ∨ 1000 < c.fclevel ∨ 8 < c.fcn;
     s.dev.awake = true ∧ d.get ORD_TBL_CMD_BUSY = 0 ∧ ordIndexOk t i = true ∧ t = 1 ∧ ¬ bad ∧ (c.darkcal = 0 ∨ d.calOwner c.darkcal = 0)) ∧
    (let s : State := (tS (tDev |>.put ORD_TBL_CMD_BUSY 0 |>.put ORD_TBL_SEL_TABLE 2 |>.put ORD_TBL_SEL_INDEX 1
         |>.put (ORD_DATA_QUAD 0) (1001 * 2 ^ 16)));
     let d := s.dev; let t := d.get ORD_TBL_SEL_TABLE; let i := d.get ORD_TBL_SEL_INDEX;
     let q := (List.range 16).map (fun i => d.get (ORD_DATA_QUAD i)); let c := calMask q;
     let bad := bits (quadAt c 1) 34 32 = 7 ∨ 1000 < bits (quadAt c 0) 25 16;
     s.dev.awake = true ∧ d.get ORD_TBL_CMD_BUSY = 0 ∧ ordIndexOk t i = true ∧ t = 2 ∧ bad) ∧
    (let s : State := (tS (tDev |>.put ORD_TBL_CMD_BUSY 0 |>.put ORD_TBL_SEL_TABLE 2 |>.put ORD_TBL_SEL_INDEX 1023 |>.put (ORD_DATA_QUAD 0) 1));
     let d := s.dev; let t := d.get ORD_TBL_SEL_TABLE; let i := d.get ORD_TBL_SEL_INDEX;
     let q := (List.range 16).map (fun i => d.get (ORD_DATA_QUAD i)); let c := calMask q;
     let bad := bits (quadAt c 1) 34 32 = 7 ∨ 1000 < bits (quadAt c 0) 25 16;
     let foreign := (calProgs c).any (fun p => d.progOwner p != bits (quadAt c 0) 5 0);
     s.dev.awake = true ∧ d.get ORD_TBL_CMD_BUSY = 0 ∧ ordIndexOk t i = true ∧ t = 2 ∧ ¬ bad ∧ foreign = true) ∧
    (let s : State := (tS (tDev |>.put ORD_TBL_CMD_BUSY 0 |>.put ORD_TBL_SEL_TABLE 2 |>.put ORD_TBL_SEL_INDEX 1)); let d := s.dev;
     let t := d.get ORD_TBL_SEL_TABLE; let i := d.get ORD_TBL_SEL_INDEX; let q := (List.range 16).map (fun i => d.get (ORD_DATA_QUAD i));
     let c := calMask q; let bad := bits (quadAt c 1) 34 32 = 7 ∨ 1000 < bits (quadAt c 0) 25 16;
     let foreign := (calProgs c).any (fun p => d.progOwner p != bits (quadAt c 0) 5 0);
     s.dev.awake = true ∧ d.get ORD_TBL_CMD_BUSY = 0 ∧ ordIndexOk t i = true ∧ t = 2 ∧ ¬ bad ∧ foreign = false ∧
         bits (quadAt c 0) 5 0 = d.calOwner i) ∧
    (let s : State := (tS (tDev |>.put ORD_TBL_CMD_BUSY 0 |>.put ORD_TBL_SEL_TABLE 3 |>.put ORD_TBL_SEL_INDEX 0)); let d := s.dev;
     let t := d.get ORD_TBL_SEL_TABLE; let i := d.get ORD_TBL_SEL_INDEX; let q := (List.range 16).map (fun i => d.get (ORD_DATA_QUAD i));
     s.dev.awake = true ∧ d.get ORD_TBL_CMD_BUSY = 0 ∧ ordIndexOk t i = true ∧ t = 3 ∧ progOk (progMask q) = false) ∧
    (let s : State := (tS (tDev |>.put ORD_TBL_CMD_BUSY 0 |>.put ORD_TBL_SEL_TABLE 3 |>.put ORD_TBL_SEL_INDEX 4095
         |> fun d => (List.range 14).foldl (fun d j => d.put (ORD_DATA_QUAD (j + 1)) 0x1FFFF) d));
     let d := s.dev; let t := d.get ORD_TBL_SEL_TABLE; let i := d.get ORD_TBL_SEL_INDEX;
     let q := (List.range 16).map (fun i => d.get (ORD_DATA_QUAD i));
     s.dev.awake = true ∧ d.get ORD_TBL_CMD_BUSY = 0 ∧ ordIndexOk t i = true ∧ t = 3 ∧ progOk (progMask q) = true ∧
         quadAt (progMask q) 15 = d.progOwner i) ∧
    (let s : State := (tS (tDev |>.put ORD_TBL_CMD_BUSY 0 |>.put ORD_TBL_SEL_TABLE 4 |>.put ORD_TBL_SEL_INDEX 0)); let d := s.dev;
     let t := d.get ORD_TBL_SEL_TABLE; let i := d.get ORD_TBL_SEL_INDEX;
     s.dev.awake = true ∧ d.get ORD_TBL_CMD_BUSY = 0 ∧ ordIndexOk t i = true ∧ t = 4) ∧
    (let s : State := (tS (tDev |>.put ORD_TBL_CMD_BUSY 0 |>.put ORD_TBL_SEL_TABLE 1 |>.put ORD_TBL_SEL_INDEX 0)); let d := s.dev;
     let t := d.get ORD_TBL_SEL_TABLE; let i := d.get ORD_TBL_SEL_INDEX;
     s.dev.awake = true ∧ d.get ORD_TBL_CMD_BUSY = 0 ∧ ordIndexOk t i = true ∧ 1 ≤ t ∧ t ≤ 3) :=
  by refine ⟨?_, ?_, ?_, ?_, ?_, ?_, ?_, ?_, ?_, ?_, ?_, ?_, ?_, ?_, ?_⟩ <;> decide +kernel

theorem wit_DecimalTotals :
    let total : Nat := 0; allDigits 16 total = true := by decide +kernel

theorem wit_LedgerStatus :
    (let d : Dev := (tDev ); let n : Nat := 0; let pl : List Byte := tZeros 59 ++ [1]; let g := d.ldgRec n; beAt pl 0 8 ≤ g.laststat) ∧
    (let pl : List Byte := tZeros 60; beAt pl 52 8 = 0) ∧
    (let d : Dev := (tDev ); let n : Nat := 0; let pl : List Byte := tZeros 59 ++ [1]; let g := d.ldgRec n;
     beAt pl 52 8 ≠ 0 ∧ g.known.testBit 0 = false) ∧
    (let n : Nat := 0; let d : Dev := (tDev |>.setLdg n { engid := 1, known := 1 }); let pl : List Byte := tZeros 59 ++ [1]; let g := d.ldgRec n;
     let k := tempBand (sgn 16 (beAt pl 20 2));
     let add := sumN ((List.range 8).map (fun b => beAt pl (28 + 2 * b) 2 * d.ageFactor g.type k b));
     let cyc := g.ecyc + sinceLast (beAt pl 44 4) g.bcyc;
     beAt pl 52 8 ≠ 0 ∧ g.known.testBit 0 = true ∧ beAt pl 52 8 = g.engid ∧ g.eq + add < 2 ^ 48 ∧ cyc < 2 ^ 32) :=
  by refine ⟨?_, ?_, ?_, ?_⟩ <;> decide +kernel

theorem wit_EnergyPeriods :
    (let s : State := tS tDev; s.dev.onAir = true ∧ s.dev.ldg.due = none) ∧
    (let b := 0; let s : State := (tS (tDev |> fun d => { d with ldg := { d.ldg with due := some b } }));
     s.dev.onAir = true ∧ s.dev.ldg.due = some b) :=
  by refine ⟨?_, ?_⟩ <;> decide +kernel

theorem wit_LedgerTables :
    (let s : State := (tS (tDev |>.put LDG_TBL_CMD_BUSY 1 )); let d := s.dev; let c := (.ldgTblRead : Instr);
     s.dev.awake = true ∧ d.get LDG_TBL_CMD_BUSY = 1 ∧ c ∈ [Instr.ldgTblRead, .ldgTblWrite, .ldgTblClear]) ∧
    (let s : State := (tS (tDev |>.put LDG_TBL_CMD_BUSY 0 |>.put LDG_TBL_SEL_TABLE 3 |>.put LDG_TBL_SEL_INDEX 64)); let d := s.dev;
     let t := d.get LDG_TBL_SEL_TABLE; let i := d.get LDG_TBL_SEL_INDEX; let c := (.ldgTblRead : Instr);
     s.dev.awake = true ∧ d.get LDG_TBL_CMD_BUSY = 0 ∧ ldgIndexOk t i = false ∧ c ∈ [Instr.ldgTblRead, .ldgTblWrite, .ldgTblClear]) ∧
    (let s : State := (tS (tDev |>.put LDG_TBL_CMD_BUSY 0 |>.put LDG_TBL_SEL_TABLE 3 |>.put LDG_TBL_SEL_INDEX 63)); let d := s.dev;
     let t := d.get LDG_TBL_SEL_TABLE; let i := d.get LDG_TBL_SEL_INDEX; let l := [s.dev.get (LDG_ETOT_TOTAL 63)];
     s.dev.awake = true ∧ d.get LDG_TBL_CMD_BUSY = 0 ∧ ldgIndexOk t i = true ∧ d.ldgRead t i = some l ∧ l.length ≤ 32) ∧
    (let s : State := (tS (tDev |>.put LDG_TBL_CMD_BUSY 0 |>.put LDG_TBL_SEL_TABLE 0 |>.put LDG_TBL_SEL_INDEX 262143
         |>.put (LDG_DATA_QUAD 10) 10));
     let d := s.dev; let t := d.get LDG_TBL_SEL_TABLE; let i := d.get LDG_TBL_SEL_INDEX;
     let q := (List.range 32).map (fun i => d.get (LDG_DATA_QUAD i));
     let digits := allDigits 16 (quadAt q 10) = true ∧ allDigits 16 (quadAt q 11) = true;
     s.dev.awake = true ∧ d.get LDG_TBL_CMD_BUSY = 0 ∧ ldgIndexOk t i = true ∧ t = 0 ∧ ¬ digits) ∧
    (let s : State := (tS (tDev |>.put LDG_TBL_CMD_BUSY 0 |>.put LDG_TBL_SEL_TABLE 0 )); let d := s.dev; let t := d.get LDG_TBL_SEL_TABLE;
     let i := d.get LDG_TBL_SEL_INDEX; let q := (List.range 32).map (fun i => d.get (LDG_DATA_QUAD i));
     let digits := allDigits 16 (quadAt q 10) = true ∧ allDigits 16 (quadAt q 11) = true;
     s.dev.awake = true ∧ d.get LDG_TBL_CMD_BUSY = 0 ∧ ldgIndexOk t i = true ∧ t = 0 ∧ digits) ∧
    (let s : State := (tS (tDev |>.put LDG_TBL_CMD_BUSY 0 |>.put LDG_TBL_SEL_TABLE 1 )); let d := s.dev; let t := d.get LDG_TBL_SEL_TABLE;
     let i := d.get LDG_TBL_SEL_INDEX; s.dev.awake = true ∧ d.get LDG_TBL_CMD_BUSY = 0 ∧ ldgIndexOk t i = true ∧ t = 1) ∧
    (let s : State := (tS (tDev |>.put LDG_TBL_CMD_BUSY 0 |>.put LDG_TBL_SEL_TABLE 2 )); let d := s.dev; let t := d.get LDG_TBL_SEL_TABLE;
     let i := d.get LDG_TBL_SEL_INDEX; s.dev.awake = true ∧ d.get LDG_TBL_CMD_BUSY = 0 ∧ ldgIndexOk t i = true ∧ t = 2) ∧
    (let s : State := (tS (tDev |>.put LDG_TBL_CMD_BUSY 0 |>.put LDG_TBL_SEL_TABLE 3 )); let d := s.dev; let t := d.get LDG_TBL_SEL_TABLE;
     let i := d.get LDG_TBL_SEL_INDEX; s.dev.awake = true ∧ d.get LDG_TBL_CMD_BUSY = 0 ∧ ldgIndexOk t i = true ∧ t = 3) ∧
    (let s : State := (tS (tDev |>.put LDG_TBL_CMD_BUSY 0 |>.put LDG_TBL_SEL_TABLE 1 )); let d := s.dev; let t := d.get LDG_TBL_SEL_TABLE;
     let i := d.get LDG_TBL_SEL_INDEX; s.dev.awake = true ∧ d.get LDG_TBL_CMD_BUSY = 0 ∧ ldgIndexOk t i = true ∧ t ≠ 0) :=
  by refine ⟨?_, ?_, ?_, ?_, ?_, ?_, ?_, ?_, ?_⟩ <;> decide +kernel

theorem wit_ConsumerResults :
    (let e : Entry := ({ words := (List.replicate 8 (0 : Word)).set 0 1 } : Entry); let r : List Entry := [];
     let s : State := (tS (tDev |> fun d => { d with bsk := { d.bsk with taken := [(0x1588, e :: r)] } })); let d := s.dev;
     s.dev.awake = true ∧ e.poison = false ∧ d.taken 0x1588 = e :: r ∧ isReflexEntry e = true) ∧
    (let e : Entry := ({ words := (List.replicate 8 (0 : Word)).set 0 0 } : Entry); let r : List Entry := [];
     let s : State := (tS (tDev |> fun d => { d with bsk := { d.bsk with taken := [(0x1588, e :: r)] } })); let d := s.dev;
     let w0 := (e.words.getD 0 0).toNat;
     s.dev.awake = true ∧ e.poison = false ∧ d.taken 0x1588 = e :: r ∧ isReflexEntry e = false ∧ w0.testBit 5 = false) ∧
    (let e : Entry := ({ words := (List.replicate 10 (0 : Word)).set 0 0x60 } : Entry); let r : List Entry := [];
     let s : State := (tS (tDev |> fun d => { d with bsk := { d.bsk with taken := [(0x1588, e :: r)] } })); let d := s.dev;
     let w0 := (e.words.getD 0 0).toNat;
     let key : RComp → Bool := fun x => x.sdev == (e.words.getD 1 0).toNat % 64 && x.slan == wordsNat ((e.words.drop 2).take 2) % 2 ^ 24 && x.side == bits w0 10 10;
     let ts := (List.range (bits w0 9 6)).map (fun k => wordsNat ((e.words.drop (8 + 2 * k)).take 2) % 2 ^ 24);
     s.dev.awake = true ∧ e.poison = false ∧ d.taken 0x1588 = e :: r ∧ isReflexEntry e = false ∧ w0.testBit 5 = true ∧ ts ≠ [] ∧
         (∀ t ∈ ts, t / 2 ^ 18 = d.get RIM_CFG_DEVNO) ∧ d.ord.remote.any key = false ∧ d.ord.remote.length < 4096) ∧
    (let e : Entry := {}; let r : List Entry := [];
     let s : State := (tS (tDev |> fun d => { d with bsk := { d.bsk with taken := [(0x1589, e :: r)] } })); let d := s.dev;
     s.dev.awake = true ∧ e.poison = false ∧ d.taken 0x1589 = e :: r) ∧
    (let e : Entry := tEnt 0x11 (tZeros 12); let r : List Entry := [];
     let s : State := (tS (tDev |> fun d => { d with bsk := { d.bsk with taken := [(0x158A, e :: r)] } } |>.setLantern 0 { uid := msgUid e }
         |>.setOlan 0 { ack := 1 }));
     let d := s.dev; let lix := msgLix e; let o := d.olan lix; let pl := (msgBytes e).drop 16;
     let hit := d.msgKnown e = true ∧ beAt pl 4 4 = o.lslot ∧ (o.ack = 1 ∨ o.ack = 2);
     s.dev.awake = true ∧ e.poison = false ∧ d.taken 0x158A = e :: r ∧ hit) ∧
    (let e : Entry := tEnt 0x11 (tZeros 12); let r : List Entry := [];
     let s : State := (tS (tDev |> fun d => { d with bsk := { d.bsk with taken := [(0x158A, e :: r)] } })); let d := s.dev;
     let lix := msgLix e; let o := d.olan lix; let pl := (msgBytes e).drop 16;
     let hit := d.msgKnown e = true ∧ beAt pl 4 4 = o.lslot ∧ (o.ack = 1 ∨ o.ack = 2);
     s.dev.awake = true ∧ e.poison = false ∧ d.taken 0x158A = e :: r ∧ ¬ hit) :=
  by refine ⟨?_, ?_, ?_, ?_, ?_, ?_⟩ <;> decide +kernel

theorem wit_LedgerResults :
    (let e : Entry := tEnt 2 (1 :: tZeros 75); let r : List Entry := [];
     let s : State := (tS (tDev |> fun d => { d with bsk := { d.bsk with taken := [(0x158B, e :: r)] } } |>.setLantern 0 { uid := msgUid e }
         |>.put LDG_CFG_EN 1));
     let d := s.dev; let n := msgLix e; let g := d.ldgRec n; let pl := (msgBytes e).drop 16; let time := beAt pl 0 8;
     s.dev.awake = true ∧ s.dev.taken 0x158B = e :: r ∧ e.poison = false ∧ s.dev.get LDG_CFG_EN = 1 ∧ s.dev.msgKnown e = true ∧
         isStatusEntry e = true ∧ g.laststat < time) ∧
    (let e : Entry := tEnt 4 (1 :: tZeros 27); let r : List Entry := [];
     let s : State := (tS (tDev |> fun d => { d with bsk := { d.bsk with taken := [(0x158B, e :: r)] } } |>.setLantern 0 { uid := msgUid e }
         |>.put LDG_CFG_EN 1));
     let d := s.dev; let n := msgLix e; let g := d.ldgRec n; let f := d.ownerOf n; let pl := (msgBytes e).drop 16; let time := beAt pl 0 8;
     s.dev.awake = true ∧ s.dev.taken 0x158B = e :: r ∧ e.poison = false ∧ s.dev.get LDG_CFG_EN = 1 ∧ s.dev.msgKnown e = true ∧
         isStatusEntry e = false ∧ g.lasten < time ∧ f < 64) :=
  by refine ⟨?_, ?_⟩ <;> decide +kernel

theorem wit_RimService :
    (let i : Link := 0; let s : State := (tS (tDev |>.put (RIM_SVC_BUSY i) 0 )); let d := s.dev;
     s.dev.awake = true ∧ d.get (RIM_SVC_BUSY i) = 0 ∧ (d.get RIM_CFG_DVALID = 0 ∨ d.get (RIM_LCFG_NBRV i) = 0)) ∧
    (let i : Link := 0; let s : State := (tS (tDev |>.put (RIM_SVC_BUSY i) 0 |>.put RIM_CFG_DVALID 1 |>.put (RIM_LCFG_NBRV i) 1 ));
     let d := s.dev; let st := d.get (RIM_SVC_STATE i);
     s.dev.awake = true ∧ d.get (RIM_SVC_BUSY i) = 0 ∧ d.get RIM_CFG_DVALID = 1 ∧ d.get (RIM_LCFG_NBRV i) = 1 ∧ (st = 0 ∨ st = 3)) ∧
    (let i : Link := 0;
     let s : State := (tS (tDev |>.put (RIM_SVC_BUSY i) 0 |>.put RIM_CFG_DVALID 1 |>.put (RIM_LCFG_NBRV i) 1 |>.put (RIM_SVC_STATE i) 1));
     let d := s.dev; let st := d.get (RIM_SVC_STATE i);
     s.dev.awake = true ∧ d.get (RIM_SVC_BUSY i) = 0 ∧ d.get RIM_CFG_DVALID = 1 ∧ d.get (RIM_LCFG_NBRV i) = 1 ∧ (st = 1 ∨ st = 2)) ∧
    (let i : Link := 0; let s : State := (tS (tDev |>.put (RIM_SVC_BUSY i) 0 |>.put (RIM_SVC_STATE i) 0 )); let d := s.dev;
     let st := d.get (RIM_SVC_STATE i); s.dev.awake = true ∧ d.get (RIM_SVC_BUSY i) = 0 ∧ st = 0) ∧
    (let i : Link := 0; let s : State := (tS (tDev |>.put (RIM_SVC_BUSY i) 0 |>.put (RIM_SVC_STATE i) 1 )); let d := s.dev;
     let st := d.get (RIM_SVC_STATE i); s.dev.awake = true ∧ d.get (RIM_SVC_BUSY i) = 0 ∧ st = 1) ∧
    (let i : Link := 0; let s : State := (tS (tDev |>.put (RIM_SVC_BUSY i) 0 |>.put (RIM_SVC_STATE i) 3 )); let d := s.dev;
     let st := d.get (RIM_SVC_STATE i); s.dev.awake = true ∧ d.get (RIM_SVC_BUSY i) = 0 ∧ st = 3) ∧
    (let i : Link := 0;
     let s : State := (tS (tDev |>.put (RIM_STATUS_FEC_LOCK i) 0
         |> fun d => { d with rim := { d.rim with link := [(i.val, { lanesOn := true })] } }));
     let d := s.dev; let l := d.rlink i; let g : LinkStage := .signal;
     s.dev.awake = true ∧ l.lanesOn = true ∧ d.get (RIM_STATUS_FEC_LOCK i) = 0 ∧ g ≠ .fec) ∧
    (let i : Link := 0;
     let s : State := (tS (tDev |>.put (RIM_SVC_BUSY i) 0
         |> fun d => { d with rim := { d.rim with link := [(i.val, { holdoff := true })] } }));
     let d := s.dev; let l := d.rlink i; s.dev.awake = true ∧ l.holdoff = true ∧ d.get (RIM_SVC_BUSY i) = 0) ∧
    (let i : Link := 0;
     let s : State := (tS (tDev |>.put (RIM_SVC_BUSY i) 1
         |> fun d => { d with rim := { d.rim with link := [(i.val, { holdoff := true })] } }));
     let d := s.dev; let l := d.rlink i; s.dev.awake = true ∧ l.holdoff = true ∧ d.get (RIM_SVC_BUSY i) = 1) ∧
    (let i : Link := 0;
     let s : State := (tS (tDev |>.put (RIM_SVC_BUSY i) 0 |> fun d => { d with rim := { d.rim with link := [(i.val, { ident := true })] } }
         |>.put (RIM_SVC_STATE i) 2));
     let d := s.dev; let st := d.get (RIM_SVC_STATE i); let l := d.rlink i;
     s.dev.awake = true ∧ l.ident = true ∧ st = 2 ∧ d.get (RIM_SVC_BUSY i) = 0) :=
  by refine ⟨?_, ?_, ?_, ?_, ?_, ?_, ?_, ?_, ?_, ?_⟩ <;> decide +kernel

theorem wit_RimFrames :
    (let s : State := tS tDev; let i : Link := 0; let d := s.dev; let l := d.rlink i;
     s.dev.awake = true ∧ (l.ident = false ∨ d.get (RIM_SVC_BUSY i) = 1)) ∧
    (let i : Link := 0; let e : Entry := {}; let r : List Entry := [];
     let s : State := (tS (tDev |> fun d => { d with bsk := { d.bsk with taken := [(0x158E + i.val, e :: r)] } }
         |>.put (RIM_SVC_STATE i) 2));
     let d := s.dev;
     s.dev.awake = true ∧ d.taken (0x158E + i) = e :: r ∧ e.poison = false ∧ s.dev.rimOpen i = true ∧ s.dev.rimCanSend i e = true) ∧
    (let i : Link := 0; let e : Entry := {}; let r : List Entry := [];
     let s : State := (tS (tDev |> fun d => { d with bsk := { d.bsk with taken := [(0x158E + i.val, e :: r)] } } |>.put (RIM_SVC_STATE i) 2
         |> fun d => { d with rim := { d.rim with link := [(i.val, { txH := 96 })] } }));
     let d := s.dev;
     s.dev.awake = true ∧ d.taken (0x158E + i) = e :: r ∧ e.poison = false ∧ s.dev.rimOpen i = true ∧ s.dev.rimCanSend i e = false) ∧
    (let i : Link := 0; let e : Entry := {}; let r : List Entry := [];
     let s : State := (tS (tDev |> fun d => { d with bsk := { d.bsk with taken := [(0x158E + i.val, e :: r)] } })); let d := s.dev;
     s.dev.awake = true ∧ d.taken (0x158E + i) = e :: r ∧ e.poison = false ∧ s.dev.rimOpen i = false) ∧
    (let i : Link := 0; let s : State := (tS (tDev |> fun d => { d with rim := { d.rim with link := [(i.val, { ident := true })] } }));
     let d := s.dev; let l := d.rlink i; let b : List Byte := []; s.dev.awake = true ∧ l.ident = true ∧ rimParse b = none) ∧
    (let i : Link := 0; let s : State := (tS (tDev |> fun d => { d with rim := { d.rim with link := [(i.val, { ident := true })] } }));
     let d := s.dev; let l := d.rlink i; let b : List Byte := State.reset.dev.rimFrame 0 3 0 [0, 0, 0] [];
     let f := (⟨3, 0, 0, 0, 0, 0, 0, 0, []⟩ : RimRx); s.dev.awake = true ∧ l.ident = true ∧ rimParse b = some f ∧ f.type = 3) ∧
    (let i : Link := 0; let s : State := (tS (tDev |> fun d => { d with rim := { d.rim with link := [(i.val, { ident := true })] } }));
     let d := s.dev; let l := d.rlink i; let b : List Byte := State.reset.dev.rimFrame 0 1 0 [0, 0, 0] []; let cw : RimRxLine := ⟨0, false⟩;
     let f := (⟨1, 0, 0, 0, 0, 0, 0, 0, []⟩ : RimRx);
     s.dev.awake = true ∧ l.ident = true ∧ rimParse b = some f ∧ (f.type = 1 ∨ f.type = 2) ∧
         (cw.begun = false ∨ d.get (RIM_SVC_BUSY i) = 0) ∧ d.rimOpen i = false) ∧
    (let i : Link := 0;
     let s : State := (tS (tDev |>.put (RIM_SVC_BUSY i) 0 |> fun d => { d with rim := { d.rim with link := [(i.val, { ident := true })] } }
         |>.put (RIM_SVC_STATE i) 1));
     let d := s.dev; let l := d.rlink i; let b : List Byte := State.reset.dev.rimFrame 0 4 0 [0, 0, 64] [];
     let f := (⟨4, 0, 0, 0, 0, 0, 0, 64, []⟩ : RimRx);
     s.dev.awake = true ∧ l.ident = true ∧ rimParse b = some f ∧ f.type = 4 ∧ d.get (RIM_SVC_BUSY i) = 0 ∧ d.get (RIM_SVC_STATE i) = 1 ∧
         f.w4 + f.w5 * 65536 = d.get RIM_INSTALL_ID ∧ f.w6 % 64 = d.get (RIM_LCFG_NBR i) ∧ f.w6.testBit 6 = true) ∧
    (let i : Link := 0;
     let s : State := (tS (tDev |>.put (RIM_SVC_BUSY i) 1 |> fun d => { d with rim := { d.rim with link := [(i.val, { ident := true })] } }
         |>.put (RIM_SVC_STATE i) 2));
     let d := s.dev; let l := d.rlink i; let b : List Byte := State.reset.dev.rimFrame 0 4 0 [0, 0, 64] [];
     let f := (⟨4, 0, 0, 0, 0, 0, 0, 64, []⟩ : RimRx);
     s.dev.awake = true ∧ l.ident = true ∧ rimParse b = some f ∧ f.type = 4 ∧ d.get (RIM_SVC_BUSY i) = 1 ∧ d.get (RIM_SVC_STATE i) = 2) ∧
    (let i : Link := 0;
     let s : State := (tS (tDev |>.put (RIM_SVC_BUSY i) 0 |> fun d => { d with rim := { d.rim with link := [(i.val, { ident := true })] } }
         |>.put (RIM_SVC_STATE i) 2));
     let d := s.dev; let l := d.rlink i; let b : List Byte := State.reset.dev.rimFrame 0 4 0 [1, 0, 64] [];
     let f := (⟨4, 0, 0, 0, 0, 1, 0, 64, []⟩ : RimRx);
     s.dev.awake = true ∧ l.ident = true ∧ rimParse b = some f ∧ f.type = 4 ∧ d.get (RIM_SVC_BUSY i) = 0 ∧ d.get (RIM_SVC_STATE i) = 2 ∧
         f.w4 + f.w5 * 65536 ≠ d.get RIM_INSTALL_ID) :=
  by refine ⟨?_, ?_, ?_, ?_, ?_, ?_, ?_, ?_, ?_, ?_⟩ <;> decide +kernel

theorem wit_RimResults :
    (let i : Link := 0;
     let s : State := (tS (tDev |>.put (RIM_STATUS_FEC_LOCK i) 0
         |> fun d => { d with rim := { d.rim with link := [(i.val, { lanesOn := true })] } }));
     let d := s.dev; let l := d.rlink i; s.dev.awake = true ∧ l.lanesOn = true ∧ d.get (RIM_STATUS_FEC_LOCK i) = 0) ∧
    (let i : Link := 0; let s : State := (tS (tDev |> fun d => { d with rim := { d.rim with link := [(i.val, { holdoff := true })] } }));
     let d := s.dev; let l := d.rlink i; s.dev.awake = true ∧ l.holdoff = true) ∧
    (let i : Link := 0; let s : State := (tS (tDev |>.put (RIM_SVC_BUSY i) 1 )); let d := s.dev; s.dev.awake = true ∧ d.get (RIM_SVC_BUSY i) = 1) ∧
    (let i : Link := 0;
     let s : State := (tS (tDev |>.put (RIM_SVC_BUSY i) 0
         |> fun d => { d with rim := { d.rim with link := [(i.val, { ident := true })] } }));
     let d := s.dev; let l := d.rlink i; s.dev.awake = true ∧ l.ident = true ∧ d.get (RIM_SVC_BUSY i) = 0) ∧
    (let i : Link := 0; let e : Entry := {}; let r : List Entry := [];
     let s : State := (tS (tDev |> fun d => { d with bsk := { d.bsk with taken := [(0x158E + i.val, e :: r)] } }
         |>.put (RIM_SVC_STATE i) 2));
     let d := s.dev; s.dev.awake = true ∧ d.taken (0x158E + i) = e :: r ∧ e.poison = false ∧ d.rimOpen i = true ∧ d.rimCanSend i e = true) ∧
    (let i : Link := 0;
     let s : State := (tS (tDev |> fun d => { d with rim := { d.rim with link := [(i.val, { ident := true })] } }
         |> fun d => { d with rim := { d.rim with bset := [(0, true)] } } |>.put (RIM_SVC_STATE i) 2));
     let d := s.dev; let l := d.rlink i; let b : List Byte := State.reset.dev.rimFrame 0 2 0 [0, 0, 0] (List.replicate 4 0);
     let cw : RimRxLine := ⟨0, false⟩; let f : RimRx := (⟨2, 0, 0, 0, 0, 0, 0, 0, (List.replicate 4 0)⟩ : RimRx);
     let e := handTarget { words := f.pl }; let sh := e % 2 ^ 18 / 32; let q := (d.shardQueue sh).getD (0x15A0 + d.shardHoop sh);
     s.dev.awake = true ∧ l.ident = true ∧ rimParse b = some f ∧ d.get (RIM_SVC_STATE i) = 2 ∧
         (d.get (RIM_SVC_BUSY i) = 0 ∨ cw.begun = true) ∧ f.sdev = d.get (RIM_STATUS_PEER i) ∧ f.type = 2 ∧ d.inBset e = true ∧
         d.hasRoom q { words := f.pl, hand := true }) ∧
    (let i : Link := 0;
     let s : State := (tS (tDev |> fun d => { d with rim := { d.rim with link := [(i.val, { ident := true })] } }
         |> fun d => { d with rim := { d.rim with bset := [(0, true)] } } |>.put (RIM_SVC_STATE i) 2
         |> fun d => d.setQueue 0x1588 { d.queue 0x1588 with enable := true }));
     let d := s.dev; let l := d.rlink i; let b : List Byte := State.reset.dev.rimFrame 0 1 0 [0, 0, 0] (1 :: List.replicate 15 0);
     let cw : RimRxLine := ⟨0, false⟩; let f : RimRx := (⟨1, 0, 0, 0, 0, 0, 0, 0, (1 :: List.replicate 15 0)⟩ : RimRx);
     let w0 := (f.pl.getD 0 0).toNat; let n := if w0 % 16 = 0 then bits w0 9 6 else w0 % 16; let z := if w0 % 16 = 0 then 2 else 8;
     s.dev.awake = true ∧ l.ident = true ∧ rimParse b = some f ∧ d.get (RIM_SVC_STATE i) = 2 ∧
         (d.get (RIM_SVC_BUSY i) = 0 ∨ cw.begun = true) ∧ f.sdev = d.get (RIM_STATUS_PEER i) ∧ f.type = 1 ∧ 0 < n ∧
         f.pl.length = 8 + z * n ∧ (∀ k, k < n → d.inBset (wordsNat ((f.pl.drop (8 + z * k)).take 2) % 2 ^ 24) = true) ∧
         d.hasRoom 0x1588 { words := f.pl }) :=
  ⟨by decide +kernel,
   by decide +kernel,
   by decide +kernel,
   by decide +kernel,
   by decide +kernel,
   ⟨by decide +kernel, by decide +kernel, by decide +kernel, by decide +kernel, by decide +kernel, by decide +kernel, by decide +kernel, by decide +kernel, tRoom_spec (by decide +kernel)⟩,
   ⟨by decide +kernel, by decide +kernel, by decide +kernel, by decide +kernel, by decide +kernel, by decide +kernel, by decide +kernel, by decide +kernel, by decide +kernel, by decide +kernel, tRoom_spec (by decide +kernel)⟩⟩

theorem wit_FunctionResets :
    (let s : State := (tS (tDev |>.put HIF_STATUS_VFE 0 |>.put HIF_STATUS_LINK_UP 1 |>.put BOOT_STATUS_STAGE 2)); let d := s.dev;
     let n : BitVec 16 := 0; s.dev.awake = true ∧ s.dev.cfgOpen = true ∧ d.get HIF_STATUS_VFE = 0 ∧ n.toNat ≤ 63) ∧
    (let s : State := (tS (tDev |>.put HIF_STATUS_LINK_UP 1 |>.put BOOT_STATUS_STAGE 2)); let d := s.dev; let n : BitVec 16 := 64;
     s.dev.awake = true ∧ s.dev.cfgOpen = true ∧ (d.get HIF_STATUS_VFE = 1 ∨ 63 < n.toNat)) ∧
    (let s : State := (tS (tDev |>.put HIF_STATUS_VFE 0 |>.put HIF_STATUS_LINK_UP 1 |>.put BOOT_STATUS_STAGE 2 |>.put HIF_STATUS_NUMVF 8));
     let d := s.dev; let ari : Bool := false;
     s.dev.awake = true ∧ s.dev.cfgOpen = true ∧ d.get HIF_STATUS_VFE = 0 ∧ 7 < d.get HIF_STATUS_NUMVF ∧ ari = false) ∧
    (let s : State := (tS (tDev |>.put HIF_STATUS_VFE 0 |>.put HIF_STATUS_LINK_UP 1 |>.put BOOT_STATUS_STAGE 2)); let d := s.dev;
     let ari : Bool := false;
     s.dev.awake = true ∧ s.dev.cfgOpen = true ∧ d.get HIF_STATUS_VFE = 0 ∧ (d.get HIF_STATUS_NUMVF ≤ 7 ∨ ari = true)) ∧
    (let s : State := (tS (tDev |>.put HIF_STATUS_VFE 1 |>.put HIF_STATUS_LINK_UP 1 |>.put BOOT_STATUS_STAGE 2)); let d := s.dev;
     s.dev.awake = true ∧ s.dev.cfgOpen = true ∧ d.get HIF_STATUS_VFE = 1) ∧
    (let s : State := (tS (tDev |>.put HIF_STATUS_LINK_UP 1 |>.put BOOT_STATUS_STAGE 2 |>.put HIF_STATUS_NUMVF 63 |>.put HIF_STATUS_VFE 1));
     let f : Fn := 63; let d := s.dev;
     let vf := fun (g : Nat) => 1 ≤ g ∧ g ≤ d.get HIF_STATUS_NUMVF ∧ g < 64 ∧ d.get HIF_STATUS_VFE = 1 ∧ d.get (HIF_FN_STATUS_STATE g) ≠ 2;
     s.dev.awake = true ∧ s.dev.cfgOpen = true ∧ f ≠ 0 ∧ vf f) ∧
    (let s : State := (tS (tDev |>.put (HIF_FN_STATUS_STATE 0) 0 |>.put HIF_STATUS_LINK_UP 1 |>.put BOOT_STATUS_STAGE 2)); let d := s.dev;
     s.dev.awake = true ∧ s.dev.cfgOpen = true ∧ d.get (HIF_FN_STATUS_STATE 0) ≠ 2) ∧
    (let f : Fn := 0;
     let s : State := (tS (tDev |>.put (HIF_FN_STATUS_STATE f) 2 |>.put HIF_STATUS_LINK_UP 1 |>.put BOOT_STATUS_STAGE 2
         |>.setFn f { reads := [⟨.doorbell, 0, 64⟩] }));
     let d := s.dev; s.dev.awake = true ∧ s.dev.cfgOpen = true ∧ d.get (HIF_FN_STATUS_STATE f) = 2 ∧ (d.fnS f).reads ≠ []) ∧
    (let f : Fn := 0; let s : State := (tS (tDev |>.put (HIF_FN_STATUS_STATE f) 2 |>.put HIF_STATUS_LINK_UP 1 |>.put BOOT_STATUS_STAGE 2));
     let d := s.dev; s.dev.awake = true ∧ s.dev.cfgOpen = true ∧ d.get (HIF_FN_STATUS_STATE f) = 2 ∧ (d.fnS f).reads = []) :=
  by refine ⟨?_, ?_, ?_, ?_, ?_, ?_, ?_, ?_, ?_⟩ <;> decide +kernel

theorem wit_ConfigSpace :
    (let z : Nat := 64; let a : Nat := 0; let n : Nat := 64; let p := pieces z (n + 1) a n; let x := ((0, 64) : Nat × Nat); 0 < z ∧ x ∈ p) ∧
    (let z : Nat := 64; let a : Nat := 0; let n : Nat := 64; let p := pieces z (n + 1) a n; let i := 0; let x := ((0, 64) : Nat × Nat);
     0 < z ∧ p[i]? = some x) ∧
    (let d : Dev := (tDev |>.put HIF_STATUS_LINK_UP 1 |>.put BOOT_STATUS_STAGE 2); let f : Fn := 0;
     2 ≤ d.get BOOT_STATUS_STAGE ∧ d.on HIF_STATUS_LINK_UP = true ∧ d.fnOn f = true ∧ f = 0) ∧
    (let d : Dev := tDev; let s : State := (tS d); s.dev = d ∧ d.awake = true ∧ d.get BOOT_STATUS_STAGE < 2) :=
  by refine ⟨?_, ?_, ?_, ?_⟩ <;> decide +kernel

theorem wit_HostLink :
    (let s : State := (tS (tDev |>.put HIF_STATUS_LINK_UP 0 |>.put PWR_STATUS_STATE 0 |>.put PWR_STATUS_STATE 0 |>.put BOOT_STATUS_STAGE 2
         |>.put HIF_CFG_MAXSPEED 5));
     let d := s.dev; let v : BitVec 3 := 5;
     s.dev.awake = true ∧ v.toNat ≤ d.topSpeed ∧ d.get HIF_STATUS_LINK_UP = 0 ∧ 2 ≤ d.get BOOT_STATUS_STAGE ∧ d.get PWR_STATUS_STATE ≠ 1 ∧
         d.get PWR_STATUS_STATE ≠ 2) ∧
    (let s : State := (tS (tDev |>.put HIF_STATUS_LINK_UP 1 |>.put HIF_CFG_MAXSPEED 1)); let d := s.dev; let v : BitVec 3 := 1;
     s.dev.awake = true ∧ v.toNat ≤ d.topSpeed ∧ d.get HIF_STATUS_LINK_UP = 1 ∧ d.get HIF_STATUS_SPEED ≠ v.toNat) ∧
    (let s : State := tS tDev; let d := s.dev; let c : Fin 3 := 2; s.dev.awake = true ∧ (d.get HIF_STATUS_LINK_UP = 1 ∨ c = 2)) ∧
    (let s : State := (tS (tDev |>.put HIF_STATUS_LINK_UP 1 |>.put BOOT_STATUS_STAGE 2)); let f : Fn := 0; let d := s.dev;
     s.dev.awake = true ∧ d.cfgOpen = true ∧ d.fnOn f = true) ∧
    (let f : Fn := 0; let m : Nat := 1;
     let s : State := (tS (tDev |>.put HIF_STATUS_LINK_UP 1
         |>.setFn f { bme := true, msixEn := true, modN := [0, 0, 0, 0, 0, m], msix := [(0, { ctl := 0 })] }));
     let d := s.dev; let v := d.get (HIF_FN_VEC_VEC5 f);
     s.dev.awake = true ∧ (d.fnS f).modN = [0, 0, 0, 0, 0, m] ∧ (d.fnS f).pba = 0 ∧ (d.fnS f).modLast = [] ∧ 0 < m ∧
         d.vecBlocked f v = false) ∧
    (let f : Fn := 0; let m : Nat := 1; let s : State := (tS (tDev |>.setFn f { modN := [0, 0, 0, 0, 0, m] })); let d := s.dev;
     let v := d.get (HIF_FN_VEC_VEC5 f);
     s.dev.awake = true ∧ (d.fnS f).modN = [0, 0, 0, 0, 0, m] ∧ (d.fnS f).pba = 0 ∧ (d.fnS f).modLast = [] ∧ 0 < m ∧ d.vecBlocked f v = true) ∧
    (let s : State := tS tDev; let f : Fn := 0; let d := s.dev; s.dev.awake = true ∧ (d.fnS f).modN = [0, 0, 0, 0, 0, 0] ∧ (d.fnS f).pba = 0) :=
  by refine ⟨?_, ?_, ?_, ?_, ?_, ?_, ?_⟩ <;> decide +kernel

theorem wit_RingFetches :
    (let s : State := tS tDev; let f : Fn := 0; let d := s.dev; s.dev.awake = true ∧ d.barOpen f = false) ∧
    (let f : Fn := 0;
     let s : State := (tS (tDev |>.put HIF_STATUS_LINK_UP 1 |>.put BOOT_STATUS_STAGE 2 |>.setFn f { mse := true }
         |>.put (HIF_FN_STATUS_STATE f) 2));
     let d := s.dev; s.dev.awake = true ∧ d.barOpen f = true ∧ d.inFlr f = true) ∧
    (let f : Fn := 0;
     let s : State := (tS (tDev |>.put HIF_STATUS_LINK_UP 1 |>.put BOOT_STATUS_STAGE 2 |>.setFn f { mse := true }
         |>.put (RING_CTRL_EN f) 63));
     let k : Fin 6 := 0; let d := s.dev; s.dev.awake = true ∧ d.barOpen f = true ∧ d.inFlr f = false ∧ d.ringOn f k = true) ∧
    (let f : Fn := 0; let s : State := (tS (tDev |>.put HIF_STATUS_LINK_UP 1 |>.put BOOT_STATUS_STAGE 2 |>.setFn f { mse := true }));
     let k : Fin 6 := 0; let d := s.dev;
     s.dev.awake = true ∧ d.barOpen f = true ∧ d.inFlr f = false ∧ d.ringOn f k = false ∧ d.enableBad f k = true) ∧
    (let f : Fn := 0; let k : Fin 6 := 0;
     let s : State := (tS (tDev |>.put HIF_STATUS_LINK_UP 1 |>.put BOOT_STATUS_STAGE 2 |>.setFn f { mse := true }
         |>.put (RING_DB_ADDR_V f) 1 |>.put (RING_ST_ADDR_V f) 1 |>.put (RING_BASE_SIZE f k) 6));
     let d := s.dev; let fs := d.fnS f;
     s.dev.awake = true ∧ d.barOpen f = true ∧ d.inFlr f = false ∧ d.ringOn f k = false ∧ d.enableBad f k = false ∧ fs.di.length = 6 ∧
         fs.hi.length = 6) ∧
    (let f : Fn := 0; let s : State := (tS (tDev |>.put (RING_CTRL_EN f) 1 |>.put HIF_STATUS_LINK_UP 1 |>.setFn f { bme := true }));
     let d := s.dev; let fs := d.fnS f;
     s.dev.awake = true ∧ d.dmaOk f = true ∧ fs.reads.any (fun r => r.kind == .doorbell) = false ∧ d.readRoom f = true ∧
         d.get (RING_CTRL_EN f) ≠ 0 ∧ (fs.fetchNow = true ∨ fs.pollNext ≤ d.now)) ∧
    (let f : Fn := 0; let s : State := (tS (tDev |>.setFn f { reads := [⟨.doorbell, 0, 64⟩] })); let d := s.dev; let fs := d.fnS f;
     s.dev.awake = true ∧ fs.reads.any (fun r => r.kind == .doorbell) = true) ∧
    (let l : List DmaRd := []; let f : Fn := 0; let r : DmaRd := ⟨.doorbell, 0, 64⟩;
     let s : State := (tS (tDev |>.put (HIF_FN_STATUS_STATE f) 0 |>.put (RING_CTRL_EN f) 1 |>.setFn f { reads := r :: l })); let d := s.dev;
     let fs := d.fnS f; let b : List Byte := tZeros 64;
     s.dev.awake = true ∧ takeRead (· == .doorbell) fs.reads = some (r, l) ∧ d.get (HIF_FN_STATUS_STATE f) ≠ 2 ∧
         d.get (RING_CTRL_EN f) = 1 ∧ fs.hi.length = 6 ∧ d.indexOk f 0 (dbIndex b 0) = true) ∧
    (let l : List DmaRd := []; let f : Fn := 0; let r : DmaRd := ⟨.doorbell, 0, 64⟩;
     let s : State := (tS (tDev |>.put (HIF_FN_STATUS_STATE f) 0 |>.put (RING_CTRL_EN f) 1 |>.put (RING_ERR_ERR f) 0
         |>.setFn f { reads := r :: l }));
     let d := s.dev; let fs := d.fnS f; let b : List Byte := [0, 1] ++ tZeros 62;
     s.dev.awake = true ∧ takeRead (· == .doorbell) fs.reads = some (r, l) ∧ d.get (HIF_FN_STATUS_STATE f) ≠ 2 ∧
         d.get (RING_CTRL_EN f) = 1 ∧ fs.hi.length = 6 ∧ d.indexOk f 0 (dbIndex b 0) = false ∧ d.get (RING_ERR_ERR f) = 0) ∧
    (let f : Fn := 0; let r : DmaRd := ⟨.cmd 0, 0, 64⟩;
     let s : State := (tS (tDev |>.put (HIF_FN_STATUS_STATE f) 2 |>.setFn f { reads := [r] })); let d := s.dev; let fs := d.fnS f;
     let n : BitVec 7 := 0; let x : DmaRd := ⟨.cmd 0, 0, 64⟩; let l : List DmaRd := []; let e := (none : DmaErrO);
     s.dev.awake = true ∧ fs.reads[n.toNat]? = some x ∧ takeRead (sameOrder x) fs.reads = some (r, l) ∧ d.get (HIF_FN_STATUS_STATE f) = 2 ∧
         e ≠ some .timeout) ∧
    (let f : Fn := 0; let r : DmaRd := ⟨.cmd 0, 0, 64⟩;
     let s : State := (tS (tDev |>.put (HIF_FN_STATUS_STATE f) 0 |>.setFn f { reads := [r] })); let d := s.dev; let fs := d.fnS f;
     let n : BitVec 7 := 0; let x : DmaRd := ⟨.cmd 0, 0, 64⟩; let l : List DmaRd := [];
     s.dev.awake = true ∧ fs.reads[n.toNat]? = some x ∧ takeRead (sameOrder x) fs.reads = some (r, l) ∧ d.get (HIF_FN_STATUS_STATE f) ≠ 2 ∧
         r.kind.ring ≠ some 4) ∧
    (let a : Nat := 0; let f : Fn := 0; let i : Nat := 0; let m : Nat := 0;
     let s : State := (tS (tDev |>.put (HIF_FN_STATUS_STATE f) 0 |>.setFn f { reads := [⟨.cmd i, a, m⟩] })); let d := s.dev;
     let fs := d.fnS f; let l : List DmaRd := [];
     s.dev.awake = true ∧ takeRead (fun q => q.ring == some 0) fs.reads = some (⟨.cmd i, a, m⟩, l) ∧ d.get (HIF_FN_STATUS_STATE f) ≠ 2) ∧
    (let a : Nat := 0; let f : Fn := 0; let i : Nat := 0; let m : Nat := 0;
     let s : State := (tS (tDev |>.put (HIF_FN_STATUS_STATE f) 0 |>.setFn f { reads := [⟨.bout i, a, m⟩] })); let d := s.dev;
     let fs := d.fnS f; let l : List DmaRd := []; let desc : List Byte := [];
     s.dev.awake = true ∧ takeRead (fun q => q.ring == some 4) fs.reads = some (⟨.bout i, a, m⟩, l) ∧ d.get (HIF_FN_STATUS_STATE f) ≠ 2 ∧
         d.boutFree f = true ∧ (boutKindOk (byteAt desc 12) = false ∨ leAt desc 8 4 = 0 ∨ 4032 < leAt desc 8 4)) ∧
    (let a : Nat := 0; let f : Fn := 1; let i : Nat := 0; let m : Nat := 0;
     let s : State := (tS (tDev |>.put (HIF_FN_STATUS_STATE f) 0 |>.setFn f { reads := [⟨.bout i, a, m⟩] })); let d := s.dev;
     let fs := d.fnS f; let l : List DmaRd := []; let desc : List Byte := (((tZeros 64).set 12 1).set 8 0xC0).set 9 0x0F;
     let d1 := d.setFn f { fs with reads := l };
     s.dev.awake = true ∧ takeRead (fun q => q.ring == some 4) fs.reads = some (⟨.bout i, a, m⟩, l) ∧ d.get (HIF_FN_STATUS_STATE f) ≠ 2 ∧
         d.boutFree f = true ∧ boutKindOk (byteAt desc 12) = true ∧ leAt desc 8 4 ≠ 0 ∧ leAt desc 8 4 ≤ 4032 ∧ d1.boutOwned f desc = false) :=
  by refine ⟨?_, ?_, ?_, ?_, ?_, ?_, ?_, ?_, ?_, ?_, ?_, ?_, ?_, ?_⟩ <;> decide +kernel

theorem wit_RingDeliveries :
    (let s : State := tS tDev; let f : Fn := 0; let d := s.dev; let c : Instr := .completionWrite f; let k : Nat := 1;
     s.dev.awake = true ∧ (c, k) ∈ ringWrites f ∧ (d.dmaOk f = false ∨ d.ringOn f k = false)) ∧
    (let f : Fn := 0; let k : Nat := 5; let e : Entry := {}; let r : List Entry := [];
     let s : State := (tS (tDev |>.put HIF_STATUS_LINK_UP 1 |>.put (RING_CTRL_EN f) 63 |>.setFn f { bme := true }
         |> fun d => { d with bsk := { d.bsk with taken := [(ringQ f k, e :: r)] } }));
     let d := s.dev; let fs := d.fnS f; let c : Instr := .bulkInWrite f;
     s.dev.awake = true ∧ (c, k) ∈ ringWrites f ∧ d.taken (ringQ f k) = e :: r ∧ d.dmaOk f = true ∧ d.ringOn f k = true ∧
         fs.kept.any (fun x => x.redo && x.ring == k) = false ∧ e.gen = d.get (HIF_FN_STATUS_GEN f) ∧ d.ringRoom f k e = false) ∧
    (let f : Fn := 0; let k : Nat := 1; let e : Entry := {}; let r : List Entry := [];
     let s : State := (tS (tDev |>.put HIF_STATUS_LINK_UP 1 |>.put (RING_CTRL_EN f) 63 |>.setFn f { bme := true }
         |> fun d => { d with bsk := { d.bsk with taken := [(ringQ f k, e :: r)] } }));
     let d := s.dev; let fs := d.fnS f; let c : Instr := .completionWrite f;
     s.dev.awake = true ∧ (c, k) ∈ ringWrites f ∧ d.taken (ringQ f k) = e :: r ∧ d.dmaOk f = true ∧ d.ringOn f k = true ∧
         fs.kept.any (fun x => x.redo && x.ring == k) = false ∧ e.gen = d.get (HIF_FN_STATUS_GEN f) ∧ d.ringRoom f k e = true ∧ k = 1) ∧
    (let r : List Entry := []; let f : Fn := 0; let k : Nat := 2; let e : Entry := {};
     let s : State := (tS (tDev |>.put HIF_STATUS_LINK_UP 1 |>.put (RING_CTRL_EN f) 63
         |>.setFn f { bme := true, kept := List.replicate 256 ⟨0, {}, 0, false⟩ }
         |> fun d => { d with bsk := { d.bsk with taken := [(ringQ f k, e :: r)] } }));
     let d := s.dev; let fs := d.fnS f; let c : Instr := .eventWrite f;
     s.dev.awake = true ∧ (c, k) ∈ ringWrites f ∧ d.taken (ringQ f k) = e :: r ∧ d.dmaOk f = true ∧ d.ringOn f k = true ∧
         fs.kept.any (fun x => x.redo && x.ring == k) = false ∧ e.gen = d.get (HIF_FN_STATUS_GEN f) ∧ d.ringRoom f k e = true ∧ k ≠ 1 ∧
         d.keepRoom f = false) ∧
    (let r : List Entry := []; let f : Fn := 0; let k : Nat := 2; let e : Entry := {};
     let s : State := (tS (tDev |>.put HIF_STATUS_LINK_UP 1 |>.put (RING_CTRL_EN f) 63
         |>.setFn f { bme := true, kept := List.replicate 255 ⟨0, {}, 0, false⟩ }
         |> fun d => { d with bsk := { d.bsk with taken := [(ringQ f k, e :: r)] } }));
     let d := s.dev; let fs := d.fnS f; let c : Instr := .eventWrite f;
     s.dev.awake = true ∧ (c, k) ∈ ringWrites f ∧ d.taken (ringQ f k) = e :: r ∧ d.dmaOk f = true ∧ d.ringOn f k = true ∧
         fs.kept.any (fun x => x.redo && x.ring == k) = false ∧ e.gen = d.get (HIF_FN_STATUS_GEN f) ∧ d.ringRoom f k e = true ∧ k ≠ 1 ∧
         d.keepRoom f = true) ∧
    (let s : State := tS tDev; let f : Fn := 0; let d := s.dev; let fs := d.fnS f; let k : Nat := 0; let e : Entry := {};
     s.dev.awake = true ∧ k ≠ 5 ∧ k < 6 ∧ slotsOf k e = 1 ∧ fs.di.length = 6) ∧
    (let f : Fn := 0;
     let s : State := (tS (tDev |>.put (RING_ST_ADDR_V f) 1 |>.put HIF_STATUS_LINK_UP 1 |>.setFn f { bme := true, owed := true }));
     let d := s.dev; let fs := d.fnS f; s.dev.awake = true ∧ d.dmaOk f = true ∧ d.get (RING_ST_ADDR_V f) = 1 ∧ fs.statusDue = true) ∧
    (let s : State := tS tDev; let f : Fn := 0; let d := s.dev; let fs := d.fnS f;
     s.dev.awake = true ∧ (d.dmaOk f = false ∨ d.get (RING_ST_ADDR_V f) = 0 ∨ fs.statusDue = false)) ∧
    (let f : Fn := 0; let n : Nat := 0; let r : List Nat := []; let s : State := (tS (tDev |>.setFn f { sws := n :: r })); let d := s.dev;
     let fs := d.fnS f; s.dev.awake = true ∧ fs.sws = n :: r) ∧
    (let s : State := tS tDev; let f : Fn := 0; let d := s.dev; let fs := d.fnS f; s.dev.awake = true ∧ fs.sws = []) ∧
    (let s : State := (tS (tDev |>.put HIF_STATUS_LINK_UP 0 )); let d := s.dev; s.dev.awake = true ∧ d.get HIF_STATUS_LINK_UP = 0) ∧
    (let s : State := (tS (tDev |>.put HIF_STATUS_LINK_UP 1 )); let d := s.dev; s.dev.awake = true ∧ d.get HIF_STATUS_LINK_UP = 1) :=
  by refine ⟨?_, ?_, ?_, ?_, ?_, ?_, ?_, ?_, ?_, ?_, ?_, ?_⟩ <;> decide +kernel

theorem wit_HostCommands :
    (let f : Fn := 0; let e : Entry := tCmd 1 []; let r : List Entry := [];
     let s : State := (tS (tDev |> fun d => { d with bsk := { d.bsk with taken := [(ringQ f 0, e :: r), (ringQ 1 0, [{}])] } }));
     let c := (.cmdNop f : Instr);
     s.dev.awake = true ∧ s.dev.taken (ringQ f 0) = e :: r ∧ e.poison = false ∧ e.gen = s.dev.get (HIF_FN_STATUS_GEN f) ∧
         s.dev.cmdTurn f = false ∧
         c ∈ ([.cmdNop f, .cmdTime f, .cmdInv f, .cmdKey f, .cmdGateway f, .cmdTread f, .cmdTclear f, .cmdPlace f, .cmdCancel f, .cmdSchedule f] : List Instr)) ∧
    (let f : Fn := 0; let e : Entry := tCmd 0x0 []; let r : List Entry := [];
     let s : State := (tS (tDev |> fun d => { d with bsk := { d.bsk with taken := [(ringQ f 0, e :: r)] } })); let b := wordBytes e.words;
     let op := leAt b 0 2;
     s.dev.awake = true ∧ s.dev.taken (ringQ f 0) = e :: r ∧ e.poison = false ∧ e.gen = s.dev.get (HIF_FN_STATUS_GEN f) ∧
         s.dev.cmdTurn f = true ∧ opcodeKnown op = false) ∧
    (let f : Fn := 0; let e : Entry := tCmd 0x2 []; let r : List Entry := [];
     let s : State := (tS (tDev |> fun d => { d with bsk := { d.bsk with taken := [(ringQ f 0, e :: r)] } })); let b := wordBytes e.words;
     let op := leAt b 0 2;
     s.dev.awake = true ∧ s.dev.taken (ringQ f 0) = e :: r ∧ e.poison = false ∧ e.gen = s.dev.get (HIF_FN_STATUS_GEN f) ∧
         s.dev.cmdTurn f = true ∧ opcodeKnown op = true ∧ op ≠ 1) ∧
    (let f : Fn := 0; let e : Entry := tCmd 0x1 []; let r : List Entry := [];
     let s : State := (tS (tDev |> fun d => { d with bsk := { d.bsk with taken := [(ringQ f 0, e :: r)] } })); let b := wordBytes e.words;
     let op := leAt b 0 2;
     s.dev.awake = true ∧ s.dev.taken (ringQ f 0) = e :: r ∧ e.poison = false ∧ e.gen = s.dev.get (HIF_FN_STATUS_GEN f) ∧
         s.dev.cmdTurn f = true ∧ op = 0x0001) ∧
    (let f : Fn := 0; let e : Entry := tCmd 0x2 []; let r : List Entry := [];
     let s : State := (tS (tDev |> fun d => { d with bsk := { d.bsk with taken := [(ringQ f 0, e :: r)] } })); let b := wordBytes e.words;
     let op := leAt b 0 2;
     s.dev.awake = true ∧ s.dev.taken (ringQ f 0) = e :: r ∧ e.poison = false ∧ e.gen = s.dev.get (HIF_FN_STATUS_GEN f) ∧
         s.dev.cmdTurn f = true ∧ op = 0x0002) ∧
    (let f : Fn := 63; let e : Entry := tCmd 0x101 []; let r : List Entry := [];
     let s : State := (tS (tDev |> fun d => { d with bsk := { d.bsk with taken := [(ringQ f 0, e :: r)] } }));
     let d := { s.dev with bsk := { s.dev.bsk with taken := Tab.set [] s.dev.bsk.taken (ringQ f 0) r } }.served f;
     let b := wordBytes e.words; let op := leAt b 0 2;
     s.dev.awake = true ∧ s.dev.taken (ringQ f 0) = e :: r ∧ e.poison = false ∧ e.gen = s.dev.get (HIF_FN_STATUS_GEN f) ∧
         s.dev.cmdTurn f = true ∧ op = 0x0101 ∧ d.mle.invPend = none ∧ f ≠ 0) ∧
    (let f : Fn := 0; let e : Entry := tCmd 0x101 [(22, 7)]; let r : List Entry := [];
     let s : State := (tS (tDev |> fun d => { d with bsk := { d.bsk with taken := [(ringQ f 0, e :: r)] } }));
     let d := { s.dev with bsk := { s.dev.bsk with taken := Tab.set [] s.dev.bsk.taken (ringQ f 0) r } }.served f;
     let b := wordBytes e.words; let op := leAt b 0 2;
     s.dev.awake = true ∧ s.dev.taken (ringQ f 0) = e :: r ∧ e.poison = false ∧ e.gen = s.dev.get (HIF_FN_STATUS_GEN f) ∧
         s.dev.cmdTurn f = true ∧ op = 0x0101 ∧ d.mle.invPend = none ∧ f = 0 ∧ (byteAt b 22 = 0 ∨ 6 < byteAt b 22)) ∧
    (let f : Fn := 0; let e : Entry := tCmd 0x101 [(22, 6), (20, 255), (21, 15)]; let r : List Entry := [];
     let s : State := (tS (tDev |> fun d => { d with bsk := { d.bsk with taken := [(ringQ f 0, e :: r)] } }));
     let d := { s.dev with bsk := { s.dev.bsk with taken := Tab.set [] s.dev.bsk.taken (ringQ f 0) r } }.served f;
     let b := wordBytes e.words; let op := leAt b 0 2;
     s.dev.awake = true ∧ s.dev.taken (ringQ f 0) = e :: r ∧ e.poison = false ∧ e.gen = s.dev.get (HIF_FN_STATUS_GEN f) ∧
         s.dev.cmdTurn f = true ∧ op = 0x0101 ∧ d.mle.invPend = none ∧ f = 0 ∧ 1 ≤ byteAt b 22 ∧ byteAt b 22 ≤ 6 ∧ leAt b 20 2 ≤ 4095) ∧
    (let f : Fn := 63; let e : Entry := tCmd 0x102 []; let r : List Entry := [];
     let s : State := (tS (tDev |> fun d => { d with bsk := { d.bsk with taken := [(ringQ f 0, e :: r)] } }));
     let d := { s.dev with bsk := { s.dev.bsk with taken := Tab.set [] s.dev.bsk.taken (ringQ f 0) r } }.served f;
     let b := wordBytes e.words; let op := leAt b 0 2;
     s.dev.awake = true ∧ s.dev.taken (ringQ f 0) = e :: r ∧ e.poison = false ∧ e.gen = s.dev.get (HIF_FN_STATUS_GEN f) ∧
         s.dev.cmdTurn f = true ∧ op = 0x0102 ∧ d.mle.keyPend = none ∧ f ≠ 0) ∧
    (let f : Fn := 0; let e : Entry := tCmd 0x102 [(10, 24)]; let r : List Entry := [];
     let s : State := (tS (tDev |> fun d => { d with bsk := { d.bsk with taken := [(ringQ f 0, e :: r)] } }));
     let d := { s.dev with bsk := { s.dev.bsk with taken := Tab.set [] s.dev.bsk.taken (ringQ f 0) r } }.served f;
     let b := wordBytes e.words; let op := leAt b 0 2; let a := leAt b 8 4;
     s.dev.awake = true ∧ s.dev.taken (ringQ f 0) = e :: r ∧ e.poison = false ∧ e.gen = s.dev.get (HIF_FN_STATUS_GEN f) ∧
         s.dev.cmdTurn f = true ∧ op = 0x0102 ∧ d.mle.keyPend = none ∧ f = 0 ∧ 1 ≤ bits a 20 18 ∧ bits a 20 18 ≤ 6) ∧
    (let f : Fn := 63; let e : Entry := tCmd 0x103 []; let r : List Entry := [];
     let s : State := (tS (tDev |> fun d => { d with bsk := { d.bsk with taken := [(ringQ f 0, e :: r)] } })); let b := wordBytes e.words;
     let op := leAt b 0 2;
     s.dev.awake = true ∧ s.dev.taken (ringQ f 0) = e :: r ∧ e.poison = false ∧ e.gen = s.dev.get (HIF_FN_STATUS_GEN f) ∧
         s.dev.cmdTurn f = true ∧ op = 0x0103 ∧ f ≠ 0) ∧
    (let f : Fn := 0; let e : Entry := tCmd 0x103 [(8, 255), (9, 15), (10, 1)]; let r : List Entry := [];
     let s : State := (tS (tDev |> fun d => { d with bsk := { d.bsk with taken := [(ringQ f 0, e :: r)] } })); let b := wordBytes e.words;
     let op := leAt b 0 2;
     s.dev.awake = true ∧ s.dev.taken (ringQ f 0) = e :: r ∧ e.poison = false ∧ e.gen = s.dev.get (HIF_FN_STATUS_GEN f) ∧
         s.dev.cmdTurn f = true ∧ op = 0x0103 ∧ f = 0 ∧ leAt b 8 2 ≤ 4095 ∧ byteAt b 10 = 1) ∧
    (let f : Fn := 0; let e : Entry := tCmd 0x103 [(8, 255), (9, 15), (10, 2)]; let r : List Entry := [];
     let s : State := (tS (tDev |> fun d => { d with bsk := { d.bsk with taken := [(ringQ f 0, e :: r)] } })); let b := wordBytes e.words;
     let op := leAt b 0 2;
     s.dev.awake = true ∧ s.dev.taken (ringQ f 0) = e :: r ∧ e.poison = false ∧ e.gen = s.dev.get (HIF_FN_STATUS_GEN f) ∧
         s.dev.cmdTurn f = true ∧ op = 0x0103 ∧ f = 0 ∧ leAt b 8 2 ≤ 4095 ∧ byteAt b 10 = 2) ∧
    (let f : Fn := 0; let e : Entry := tCmd 0x103 [(9, 16), (10, 1)]; let r : List Entry := [];
     let s : State := (tS (tDev |> fun d => { d with bsk := { d.bsk with taken := [(ringQ f 0, e :: r)] } })); let b := wordBytes e.words;
     let op := leAt b 0 2;
     s.dev.awake = true ∧ s.dev.taken (ringQ f 0) = e :: r ∧ e.poison = false ∧ e.gen = s.dev.get (HIF_FN_STATUS_GEN f) ∧
         s.dev.cmdTurn f = true ∧ op = 0x0103 ∧ f = 0 ∧ 4095 < leAt b 8 2 ∧ (byteAt b 10 = 1 ∨ byteAt b 10 = 2)) ∧
    (let f : Fn := 0; let e : Entry := tCmd 0x110 []; let r : List Entry := [];
     let s : State := (tS (tDev |> fun d => { d with bsk := { d.bsk with taken := [(ringQ f 0, e :: r)] } } |>.put HIF_STATUS_LINK_UP 1
         |>.setFn f { bme := true }));
     let d := { s.dev with bsk := { s.dev.bsk with taken := Tab.set [] s.dev.bsk.taken (ringQ f 0) r } }.served f;
     let b := wordBytes e.words; let op := leAt b 0 2; let t := byteAt b 8;
     s.dev.awake = true ∧ s.dev.taken (ringQ f 0) = e :: r ∧ e.poison = false ∧ e.gen = s.dev.get (HIF_FN_STATUS_GEN f) ∧
         s.dev.cmdTurn f = true ∧ d.dmaOk f = true ∧ op = 0x0110 ∧ tableSize t = 0) ∧
    (let f : Fn := 63; let e : Entry := tCmd 0x110 [(8, 1)]; let r : List Entry := [];
     let s : State := (tS (tDev |> fun d => { d with bsk := { d.bsk with taken := [(ringQ f 0, e :: r)] } } |>.put HIF_STATUS_LINK_UP 1
         |>.put HIF_STATUS_VFE 1 |>.put HIF_STATUS_NUMVF 63 |>.setFn f { bme := true }));
     let d := { s.dev with bsk := { s.dev.bsk with taken := Tab.set [] s.dev.bsk.taken (ringQ f 0) r } }.served f;
     let b := wordBytes e.words; let op := leAt b 0 2; let t := byteAt b 8;
     s.dev.awake = true ∧ s.dev.taken (ringQ f 0) = e :: r ∧ e.poison = false ∧ e.gen = s.dev.get (HIF_FN_STATUS_GEN f) ∧
         s.dev.cmdTurn f = true ∧ d.dmaOk f = true ∧ op = 0x0110 ∧ tableSize t ≠ 0 ∧ tableAllowed f t true = false) ∧
    (let f : Fn := 0; let e : Entry := tCmd 0x110 [(8, 1), (16, 1), (17, 16)]; let r : List Entry := [];
     let s : State := (tS (tDev |> fun d => { d with bsk := { d.bsk with taken := [(ringQ f 0, e :: r)] } } |>.put HIF_STATUS_LINK_UP 1
         |>.setFn f { bme := true }));
     let d := { s.dev with bsk := { s.dev.bsk with taken := Tab.set [] s.dev.bsk.taken (ringQ f 0) r } }.served f;
     let b := wordBytes e.words; let op := leAt b 0 2; let t := byteAt b 8; let n := leAt b 16 4;
     s.dev.awake = true ∧ s.dev.taken (ringQ f 0) = e :: r ∧ e.poison = false ∧ e.gen = s.dev.get (HIF_FN_STATUS_GEN f) ∧
         s.dev.cmdTurn f = true ∧ d.dmaOk f = true ∧ op = 0x0110 ∧ tableSize t ≠ 0 ∧ tableAllowed f t true = true ∧ (n = 0 ∨ 4096 < n)) ∧
    (let f : Fn := 0; let e : Entry := tCmd 0x110 [(8, 1), (17, 16)]; let r : List Entry := [];
     let s : State := (tS (tDev |> fun d => { d with bsk := { d.bsk with taken := [(ringQ f 0, e :: r)] } } |>.put HIF_STATUS_LINK_UP 1
         |>.setFn f { bme := true }));
     let d := { s.dev with bsk := { s.dev.bsk with taken := Tab.set [] s.dev.bsk.taken (ringQ f 0) r } }.served f;
     let b := wordBytes e.words; let op := leAt b 0 2; let t := byteAt b 8; let n := leAt b 16 4;
     s.dev.awake = true ∧ s.dev.taken (ringQ f 0) = e :: r ∧ e.poison = false ∧ e.gen = s.dev.get (HIF_FN_STATUS_GEN f) ∧
         s.dev.cmdTurn f = true ∧ d.dmaOk f = true ∧ op = 0x0110 ∧ tableSize t ≠ 0 ∧ tableAllowed f t true = true ∧ 0 < n ∧ n ≤ 4096) ∧
    (let f : Fn := 0; let e : Entry := tCmd 0x111 []; let r : List Entry := [];
     let s : State := (tS (tDev |> fun d => { d with bsk := { d.bsk with taken := [(ringQ f 0, e :: r)] } } |>.put HIF_STATUS_LINK_UP 1
         |>.setFn f { bme := true }));
     let d := { s.dev with bsk := { s.dev.bsk with taken := Tab.set [] s.dev.bsk.taken (ringQ f 0) r } }.served f;
     let b := wordBytes e.words; let op := leAt b 0 2; let t := byteAt b 8;
     s.dev.awake = true ∧ s.dev.taken (ringQ f 0) = e :: r ∧ e.poison = false ∧ e.gen = s.dev.get (HIF_FN_STATUS_GEN f) ∧
         s.dev.cmdTurn f = true ∧ d.dmaOk f = true ∧ op = 0x0111 ∧ tableSize t = 0) ∧
    (let f : Fn := 0; let e : Entry := tCmd 0x111 [(8, 1), (17, 16)]; let r : List Entry := [];
     let s : State := (tS (tDev |> fun d => { d with bsk := { d.bsk with taken := [(ringQ f 0, e :: r)] } } |>.put HIF_STATUS_LINK_UP 1
         |>.setFn f { bme := true }));
     let d := { s.dev with bsk := { s.dev.bsk with taken := Tab.set [] s.dev.bsk.taken (ringQ f 0) r } }.served f;
     let b := wordBytes e.words; let op := leAt b 0 2; let t := byteAt b 8; let n := leAt b 16 4;
     s.dev.awake = true ∧ s.dev.taken (ringQ f 0) = e :: r ∧ e.poison = false ∧ e.gen = s.dev.get (HIF_FN_STATUS_GEN f) ∧
         s.dev.cmdTurn f = true ∧ d.dmaOk f = true ∧ op = 0x0111 ∧ tableSize t ≠ 0 ∧ tableAllowed f t false = true ∧ 0 < n ∧ n ≤ 4096) ∧
    (let f : Fn := 63; let e : Entry := tCmd 0x112 []; let r : List Entry := [];
     let s : State := (tS (tDev |> fun d => { d with bsk := { d.bsk with taken := [(ringQ f 0, e :: r)] } })); let b := wordBytes e.words;
     let op := leAt b 0 2;
     s.dev.awake = true ∧ s.dev.taken (ringQ f 0) = e :: r ∧ e.poison = false ∧ e.gen = s.dev.get (HIF_FN_STATUS_GEN f) ∧
         s.dev.cmdTurn f = true ∧ op = 0x0112 ∧ f ≠ 0) ∧
    (let f : Fn := 0; let e : Entry := tCmd 0x112 []; let r : List Entry := [];
     let s : State := (tS (tDev |> fun d => { d with bsk := { d.bsk with taken := [(ringQ f 0, e :: r)] } })); let b := wordBytes e.words;
     let op := leAt b 0 2;
     s.dev.awake = true ∧ s.dev.taken (ringQ f 0) = e :: r ∧ e.poison = false ∧ e.gen = s.dev.get (HIF_FN_STATUS_GEN f) ∧
         s.dev.cmdTurn f = true ∧ op = 0x0112 ∧ f = 0 ∧ byteAt b 8 ≠ 3 ∧ byteAt b 8 ≠ 10) ∧
    (let f : Fn := 0; let e : Entry := tCmd 0x112 [(8, 10), (17, 16)]; let r : List Entry := [];
     let s : State := (tS (tDev |> fun d => { d with bsk := { d.bsk with taken := [(ringQ f 0, e :: r)] } })); let b := wordBytes e.words;
     let op := leAt b 0 2;
     s.dev.awake = true ∧ s.dev.taken (ringQ f 0) = e :: r ∧ e.poison = false ∧ e.gen = s.dev.get (HIF_FN_STATUS_GEN f) ∧
         s.dev.cmdTurn f = true ∧ op = 0x0112 ∧ f = 0 ∧ (byteAt b 8 = 3 ∨ byteAt b 8 = 10) ∧ 0 < leAt b 16 4 ∧ leAt b 16 4 ≤ 4096) ∧
    (let f : Fn := 0; let e : Entry := tCmd 0x120 [(8, 1)]; let r : List Entry := [];
     let s : State := (tS (tDev |> fun d => { d with bsk := { d.bsk with taken := [(ringQ f 0, e :: r)] } })); let b := wordBytes e.words;
     let op := leAt b 0 2;
     s.dev.awake = true ∧ s.dev.taken (ringQ f 0) = e :: r ∧ e.poison = false ∧ e.gen = s.dev.get (HIF_FN_STATUS_GEN f) ∧
         s.dev.cmdTurn f = true ∧ op = 0x0120 ∧ byteAt b 8 ≤ 1) ∧
    (let f : Fn := 0; let e : Entry := tCmd 0x120 [(8, 2)]; let r : List Entry := [];
     let s : State := (tS (tDev |> fun d => { d with bsk := { d.bsk with taken := [(ringQ f 0, e :: r)] } })); let b := wordBytes e.words;
     let op := leAt b 0 2;
     s.dev.awake = true ∧ s.dev.taken (ringQ f 0) = e :: r ∧ e.poison = false ∧ e.gen = s.dev.get (HIF_FN_STATUS_GEN f) ∧
         s.dev.cmdTurn f = true ∧ op = 0x0120 ∧ 1 < byteAt b 8) ∧
    (let f : Fn := 0; let e : Entry := tCmd 0x121 []; let r : List Entry := [];
     let s : State := (tS (tDev |> fun d => { d with bsk := { d.bsk with taken := [(ringQ f 0, e :: r)] } })); let b := wordBytes e.words;
     let op := leAt b 0 2;
     s.dev.awake = true ∧ s.dev.taken (ringQ f 0) = e :: r ∧ e.poison = false ∧ e.gen = s.dev.get (HIF_FN_STATUS_GEN f) ∧
         s.dev.cmdTurn f = true ∧ op = 0x0121) ∧
    (let f : Fn := 0; let e : Entry := tCmd 0x122 []; let r : List Entry := [];
     let s : State := (tS (tDev |> fun d => { d with bsk := { d.bsk with taken := [(ringQ f 0, e :: r)] } })); let b := wordBytes e.words;
     let op := leAt b 0 2;
     s.dev.awake = true ∧ s.dev.taken (ringQ f 0) = e :: r ∧ e.poison = false ∧ e.gen = s.dev.get (HIF_FN_STATUS_GEN f) ∧
         s.dev.cmdTurn f = true ∧ op = 0x0122) :=
  by refine ⟨?_, ?_, ?_, ?_, ?_, ?_, ?_, ?_, ?_, ?_, ?_, ?_, ?_, ?_, ?_, ?_, ?_, ?_, ?_, ?_, ?_, ?_, ?_, ?_, ?_, ?_, ?_⟩ <;> decide +kernel

theorem wit_Bar2Window :
    (let s : State := (tS (tDev |>.put BOOT_STATUS_STAGE 0 |>.put BOOT_STATUS_STAGE 0 )); let d := s.dev;
     s.dev.awake = true ∧ s.dev.pwr.emul = false ∧ s.dev.get BOOT_STATUS_STAGE ≠ 14 ∧ s.dev.get BOOT_STATUS_STAGE ≠ 15 ∧ d.barOpen 0 = false) ∧
    (let s : State := (tS (tDev |>.put HIF_STATUS_LINK_UP 1 |>.put BOOT_STATUS_STAGE 2 |>.setFn 0 { mse := true } |>.put MEM_STATUS_READY 1
         |>.put MEM_STATUS_SIZE 1 |>.put (HIF_FN_STATUS_STATE 0) 2));
     let d := s.dev;
     s.dev.awake = true ∧ s.dev.pwr.emul = false ∧ s.dev.get BOOT_STATUS_STAGE ≠ 14 ∧ s.dev.get BOOT_STATUS_STAGE ≠ 15 ∧
         d.barOpen 0 = true ∧ d.inFlr 0 = true) ∧
    (let s : State := (tS (tDev |>.put HIF_CFG_B2EN 0 |>.put HIF_STATUS_LINK_UP 1 |>.put BOOT_STATUS_STAGE 2 |>.setFn 0 { mse := true }
         |>.put MEM_STATUS_READY 1 |>.put MEM_STATUS_SIZE 1));
     let d := s.dev;
     s.dev.awake = true ∧ s.dev.pwr.emul = false ∧ s.dev.get BOOT_STATUS_STAGE ≠ 14 ∧ s.dev.get BOOT_STATUS_STAGE ≠ 15 ∧
         d.barOpen 0 = true ∧ d.inFlr 0 = false ∧ d.get HIF_CFG_B2EN = 0) ∧
    (let s : State := (tS (tDev |>.put HIF_CFG_B2EN 1 |>.put HIF_STATUS_LINK_UP 1 |>.put BOOT_STATUS_STAGE 2 |>.setFn 0 { mse := true }
         |>.put MEM_STATUS_READY 0 |>.put MEM_STATUS_SIZE 1));
     let a : BitVec 28 := 0; let n : BitVec 13 := 0; let d := s.dev; let byte := 2 * d.get HIF_BAR2_BASE_ADDR + a.toNat;
     s.dev.awake = true ∧ s.dev.pwr.emul = false ∧ s.dev.get BOOT_STATUS_STAGE ≠ 14 ∧ s.dev.get BOOT_STATUS_STAGE ≠ 15 ∧
         d.barOpen 0 = true ∧ d.inFlr 0 = false ∧ d.get HIF_CFG_B2EN = 1 ∧
         d.memOk .bar2 (byte / 2) ((byte + n.toNat + 1) / 2 - byte / 2) false = false) ∧
    (let s : State := (tS (tDev |>.put HIF_CFG_B2EN 1 |>.put HIF_STATUS_LINK_UP 1 |>.put BOOT_STATUS_STAGE 2 |>.setFn 0 { mse := true }
         |>.put MEM_STATUS_READY 0 |>.put MEM_STATUS_SIZE 1));
     let a : BitVec 28 := 0; let w : List Byte := []; let d := s.dev; let byte := 2 * d.get HIF_BAR2_BASE_ADDR + a.toNat;
     s.dev.awake = true ∧ s.dev.pwr.emul = false ∧ s.dev.get BOOT_STATUS_STAGE ≠ 14 ∧ s.dev.get BOOT_STATUS_STAGE ≠ 15 ∧
         d.barOpen 0 = true ∧ d.inFlr 0 = false ∧ d.get HIF_CFG_B2EN = 1 ∧
         d.memOk .bar2 (byte / 2) ((byte + w.length + 1) / 2 - byte / 2) true = false) ∧
    (let s : State := (tS (tDev |>.put HIF_CFG_B2EN 1 |>.put HIF_STATUS_LINK_UP 1 |>.put BOOT_STATUS_STAGE 2 |>.setFn 0 { mse := true }
         |>.put MEM_STATUS_READY 1 |>.put MEM_STATUS_SIZE 1));
     let a : BitVec 28 := 0xFFFFFFF; let w : List Byte := [1, 2]; let d := s.dev; let byte := 2 * d.get HIF_BAR2_BASE_ADDR + a.toNat;
     s.dev.awake = true ∧ s.dev.pwr.emul = false ∧ s.dev.get BOOT_STATUS_STAGE ≠ 14 ∧ s.dev.get BOOT_STATUS_STAGE ≠ 15 ∧
         d.barOpen 0 = true ∧ d.inFlr 0 = false ∧ d.get HIF_CFG_B2EN = 1 ∧
         d.memOk .bar2 (byte / 2) ((byte + w.length + 1) / 2 - byte / 2) true = true ∧ (∀ x ∈ d.mem.l2, x.2.data.length = 64)) ∧
    (let s : State := (tS (tDev |>.put HIF_CFG_B2EN 1 |>.put HIF_STATUS_LINK_UP 1 |>.put BOOT_STATUS_STAGE 2 |>.setFn 0 { mse := true }
         |>.put MEM_STATUS_READY 1 |>.put MEM_STATUS_SIZE 1
         |> fun d => { d with mem := { d.mem with l2 := [(0, { data := List.replicate 64 0, dirty := false, poison := false, holders := [] })] } }));
     let a : BitVec 28 := 0; let n : BitVec 13 := 64; let d := s.dev; let byte := 2 * d.get HIF_BAR2_BASE_ADDR + a.toNat;
     s.dev.awake = true ∧ s.dev.pwr.emul = false ∧ s.dev.get BOOT_STATUS_STAGE ≠ 14 ∧ s.dev.get BOOT_STATUS_STAGE ≠ 15 ∧
         d.barOpen 0 = true ∧ d.inFlr 0 = false ∧ d.get HIF_CFG_B2EN = 1 ∧
         d.memOk .bar2 (byte / 2) ((byte + n.toNat + 1) / 2 - byte / 2) false = true ∧
         (∀ ln, byte / 64 ≤ ln → 64 * ln < byte + n.toNat → (Tab.find d.mem.l2 ln).isSome ∧ d.linePoison ln = false)) :=
  ⟨by decide +kernel,
   by decide +kernel,
   by decide +kernel,
   by decide +kernel,
   by decide +kernel,
   by decide +kernel,
   ⟨by decide +kernel, by decide +kernel, by decide +kernel, by decide +kernel, by decide +kernel, by decide +kernel, by decide +kernel, by decide +kernel, (by intro ln _ h; have : ln = 0 := (by have h2 : 64 * ln < 64 := h; omega); subst this; decide +kernel)⟩⟩

theorem wit_FetchResults :
    (let s : State := (tS (tDev |>.put HIF_STATUS_LINK_UP 0 |>.put PWR_STATUS_STATE 0 |>.put PWR_STATUS_STATE 0 |>.put BOOT_STATUS_STAGE 2));
     let d := s.dev; let v : BitVec 3 := 0;
     s.dev.awake = true ∧ d.get HIF_STATUS_LINK_UP = 0 ∧ 2 ≤ d.get BOOT_STATUS_STAGE ∧ v.toNat ≤ d.topSpeed ∧ d.get PWR_STATUS_STATE ≠ 1 ∧
         d.get PWR_STATUS_STATE ≠ 2) ∧
    (let a : Nat := 0; let f : Fn := 0; let i : Nat := 0; let m : Nat := 0;
     let s : State := (tS (tDev |>.put (HIF_FN_STATUS_STATE f) 0 |>.setFn f { reads := [⟨.cmd i, a, m⟩] })); let d := s.dev;
     let fs := d.fnS f; let gen := d.get (HIF_FN_STATUS_GEN f);
     let cmd := fun (i : Nat) (b : List Byte) => ({ words := packWords (slice b 0 64), gen := gen, cidx := i, ep := fs.cep } : Entry);
     let l : List DmaRd := []; let b : List Byte := [];
     s.dev.awake = true ∧ d.get (HIF_FN_STATUS_STATE f) ≠ 2 ∧ takeRead (fun q => q.ring == some 0) fs.reads = some (⟨.cmd i, a, m⟩, l) ∧
         d.holding (ringQ f 0) = false ∧ d.hasRoom (ringQ f 0) (cmd i b)) ∧
    (let a : Nat := 0; let f : Fn := 0; let i : Nat := 0; let m : Nat := 0;
     let s : State := (tS (tDev |>.put (HIF_FN_STATUS_STATE f) 0 |>.setFn f { reads := [⟨.bout i, a, m⟩] })); let d := s.dev;
     let fs := d.fnS f; let gen := d.get (HIF_FN_STATUS_GEN f);
     let bout := fun (i : Nat) (desc b : List Byte) => ({ words := packWords (slice desc 0 64 ++ slice b 0 (leAt desc 8 4)), gen := gen, cidx := i, ep := fs.bep } : Entry);
     let l : List DmaRd := []; let desc : List Byte := ((tZeros 64).set 12 1).set 8 0xC0; let b : List Byte := [];
     s.dev.awake = true ∧ d.get (HIF_FN_STATUS_STATE f) ≠ 2 ∧ takeRead (fun q => q.ring == some 4) fs.reads = some (⟨.bout i, a, m⟩, l) ∧
         d.boutFree f = true ∧ boutKindOk (byteAt desc 12) = true ∧ leAt desc 8 4 ≠ 0 ∧ leAt desc 8 4 ≤ 4032 ∧ d.boutOwned f desc = true ∧
         fs.di.length = 6 ∧ d.hasRoom (ringQ f 4) (bout i desc b)) ∧
    (let f : Fn := 0; let r : DmaRd := ⟨.cmd 0, 0, 64⟩;
     let s : State := (tS (tDev |>.put (HIF_FN_STATUS_STATE f) 0 |>.setFn f { reads := [r] })); let d := s.dev; let fs := d.fnS f;
     let gen := d.get (HIF_FN_STATUS_GEN f);
     let cmd := fun (i : Nat) (b : List Byte) => ({ words := packWords (slice b 0 64), gen := gen, cidx := i, ep := fs.cep } : Entry);
     let n : BitVec 7 := 0; let x : DmaRd := ⟨.cmd 0, 0, 64⟩; let l : List DmaRd := []; let i : Nat := 0; let b : List Byte := [];
     s.dev.awake = true ∧ d.get (HIF_FN_STATUS_STATE f) ≠ 2 ∧ fs.reads[n.toNat]? = some x ∧ takeRead (sameOrder x) fs.reads = some (r, l) ∧
         r.kind = .cmd i ∧ d.holding (ringQ f 0) = false ∧ d.hasRoom (ringQ f 0) (cmd i b)) ∧
    (let f : Fn := 0; let r : DmaRd := ⟨.bin 0, 0, 64⟩;
     let s : State := (tS (tDev |>.put (HIF_FN_STATUS_STATE f) 0 |>.setFn f { reads := [r] })); let d := s.dev; let fs := d.fnS f;
     let n : BitVec 7 := 0; let x : DmaRd := ⟨.bin 0, 0, 64⟩; let l : List DmaRd := []; let i : Nat := 0;
     let b : List Byte := (tZeros 16).set 9 0x10;
     s.dev.awake = true ∧ d.get (HIF_FN_STATUS_STATE f) ≠ 2 ∧ fs.reads[n.toNat]? = some x ∧ takeRead (sameOrder x) fs.reads = some (r, l) ∧
         r.kind = .bin i ∧ 4096 ≤ leAt b 8 4 ∧ leAt b 0 8 % 64 = 0) :=
  ⟨by decide +kernel,
   ⟨by decide +kernel, by decide +kernel, by decide +kernel, by decide +kernel, tRoom_spec (by decide +kernel)⟩,
   ⟨by decide +kernel, by decide +kernel, by decide +kernel, by decide +kernel, by decide +kernel, by decide +kernel, by decide +kernel, by decide +kernel, by decide +kernel, tRoom_spec (by decide +kernel)⟩,
   ⟨by decide +kernel, by decide +kernel, by decide +kernel, by decide +kernel, by decide +kernel, by decide +kernel, tRoom_spec (by decide +kernel)⟩,
   by decide +kernel⟩

theorem wit_WriteResults :
    let f : Fn := 0; let k : Nat := 1; let e : Entry := {}; let r : List Entry := [];
    let s : State := (tS (tDev |>.put HIF_STATUS_LINK_UP 1 |>.put (RING_CTRL_EN f) 63 |>.setFn f { bme := true }
        |> fun d => { d with bsk := { d.bsk with taken := [(ringQ f k, e :: r)] } }));
    let c : Instr := .completionWrite f; let d := s.dev; let fs := d.fnS f;
    s.dev.awake = true ∧ (c, k) ∈ ringWrites f ∧ d.taken (ringQ f k) = e :: r ∧ d.dmaOk f = true ∧ d.ringOn f k = true ∧
        fs.kept.any (fun x => x.redo && x.ring == k) = false ∧ e.gen = d.get (HIF_FN_STATUS_GEN f) ∧ d.ringRoom f k e = true ∧
        fs.di.length = 6 ∧ (k ≠ 1 → d.keepRoom f = true) ∧ slotsOf k e = 1 := by decide +kernel

theorem wit_CommandResults :
    (let f : Fn := 0; let e : Entry := tCmd 0x1 []; let r : List Entry := [];
     let s : State := (tS (tDev |> fun d => { d with bsk := { d.bsk with taken := [(ringQ f 0, e :: r)] } } |>.put HIF_STATUS_LINK_UP 1
         |>.setFn f { bme := true }));
     let d := { s.dev with bsk := { s.dev.bsk with taken := Tab.set [] s.dev.bsk.taken (ringQ f 0) r } }.served f;
     let b := wordBytes e.words; let op := leAt b 0 2;
     s.dev.awake = true ∧ s.dev.taken (ringQ f 0) = e :: r ∧ e.poison = false ∧ e.gen = s.dev.get (HIF_FN_STATUS_GEN f) ∧
         s.dev.cmdTurn f = true ∧ op = 0x0001 ∧ d.hasRoom (ringQ f 1) (e.completion ⟨0, 0, []⟩)) ∧
    (let f : Fn := 0; let e : Entry := tCmd 0x2 []; let r : List Entry := [];
     let s : State := (tS (tDev |> fun d => { d with bsk := { d.bsk with taken := [(ringQ f 0, e :: r)] } } |>.put HIF_STATUS_LINK_UP 1
         |>.setFn f { bme := true }));
     let d := { s.dev with bsk := { s.dev.bsk with taken := Tab.set [] s.dev.bsk.taken (ringQ f 0) r } }.served f;
     let b := wordBytes e.words; let op := leAt b 0 2;
     s.dev.awake = true ∧ s.dev.taken (ringQ f 0) = e :: r ∧ e.poison = false ∧ e.gen = s.dev.get (HIF_FN_STATUS_GEN f) ∧
         s.dev.cmdTurn f = true ∧ op = 0x0002 ∧ d.hasRoom (ringQ f 1) (e.completion ⟨0, 0, leBytes 8 d.now⟩)) ∧
    (let f : Fn := 0; let e : Entry := tCmd 0x101 [(22, 6), (20, 255), (21, 15)]; let r : List Entry := [];
     let s : State := (tS (tDev |> fun d => { d with bsk := { d.bsk with taken := [(ringQ f 0, e :: r)] } } |>.put HIF_STATUS_LINK_UP 1
         |>.setFn f { bme := true }));
     let d := { s.dev with bsk := { s.dev.bsk with taken := Tab.set [] s.dev.bsk.taken (ringQ f 0) r } }.served f;
     let b := wordBytes e.words; let op := leAt b 0 2;
     let c : InvCmd := ⟨byteAt b 22, leAt b 8 8, bits (leAt b 16 4) 17 0, bits (leAt b 16 4) 23 18, leAt b 20 2⟩; let x := d.invRun c;
     s.dev.awake = true ∧ s.dev.taken (ringQ f 0) = e :: r ∧ e.poison = false ∧ e.gen = s.dev.get (HIF_FN_STATUS_GEN f) ∧
         s.dev.cmdTurn f = true ∧ op = 0x0101 ∧ d.mle.invPend = none ∧ f = 0 ∧ 1 ≤ byteAt b 22 ∧ byteAt b 22 ≤ 6 ∧ leAt b 20 2 ≤ 4095 ∧
         x.1.hasRoom (ringQ f 1) (e.completion (blockEnd (d.invResult c) (leBytes 8 (x.1.invEntry c.uid))))) ∧
    (let f : Fn := 0; let e : Entry := tCmd 0x102 [(10, 24)]; let r : List Entry := [];
     let s : State := (tS (tDev |> fun d => { d with bsk := { d.bsk with taken := [(ringQ f 0, e :: r)] } } |>.put HIF_STATUS_LINK_UP 1
         |>.setFn f { bme := true }));
     let d := { s.dev with bsk := { s.dev.bsk with taken := Tab.set [] s.dev.bsk.taken (ringQ f 0) r } }.served f;
     let b := wordBytes e.words; let op := leAt b 0 2; let a := leAt b 8 4;
     let c : KeyCmd := ⟨bits a 20 18, bits a 17 0, leAt b 12 4, slice b 16 24, slice b 40 24⟩;
     s.dev.awake = true ∧ s.dev.taken (ringQ f 0) = e :: r ∧ e.poison = false ∧ e.gen = s.dev.get (HIF_FN_STATUS_GEN f) ∧
         s.dev.cmdTurn f = true ∧ op = 0x0102 ∧ d.mle.keyPend = none ∧ f = 0 ∧ 1 ≤ bits a 20 18 ∧ bits a 20 18 ≤ 6 ∧
         (d.keyRunAll c).1.hasRoom (ringQ f 1) (e.completion (blockEnd (d.keyResult c) []))) ∧
    (let f : Fn := 0; let e : Entry := tCmd 0x103 [(10, 1)]; let r : List Entry := [];
     let s : State := (tS (tDev |> fun d => { d with bsk := { d.bsk with taken := [(ringQ f 0, e :: r)] } } |>.put HIF_STATUS_LINK_UP 1
         |>.setFn f { bme := true }));
     let d := { s.dev with bsk := { s.dev.bsk with taken := Tab.set [] s.dev.bsk.taken (ringQ f 0) r } }.served f;
     let b := wordBytes e.words; let op := leAt b 0 2; let g := d.gateway (leAt b 8 2);
     s.dev.awake = true ∧ s.dev.taken (ringQ f 0) = e :: r ∧ e.poison = false ∧ e.gen = s.dev.get (HIF_FN_STATUS_GEN f) ∧
         s.dev.cmdTurn f = true ∧ op = 0x0103 ∧ f = 0 ∧ leAt b 8 2 ≤ 4095 ∧ byteAt b 10 = 1 ∧
         d.hasRoom (ringQ f 1) (e.completion ⟨0, 0, leBytes 4 g.cfg ++ beBytes 8 g.hi ++ beBytes 8 g.lo⟩)) ∧
    (let f : Fn := 0; let e : Entry := tCmd 0x103 [(10, 2)]; let r : List Entry := [];
     let s : State := (tS (tDev |> fun d => { d with bsk := { d.bsk with taken := [(ringQ f 0, e :: r)] } } |>.put HIF_STATUS_LINK_UP 1
         |>.setFn f { bme := true }));
     let d := { s.dev with bsk := { s.dev.bsk with taken := Tab.set [] s.dev.bsk.taken (ringQ f 0) r } }.served f;
     let b := wordBytes e.words; let op := leAt b 0 2; let n : Gateway := ⟨beAt b 16 8, beAt b 24 8, leAt b 12 4 % 2 ^ 19⟩;
     s.dev.awake = true ∧ s.dev.taken (ringQ f 0) = e :: r ∧ e.poison = false ∧ e.gen = s.dev.get (HIF_FN_STATUS_GEN f) ∧
         s.dev.cmdTurn f = true ∧ op = 0x0103 ∧ f = 0 ∧ leAt b 8 2 ≤ 4095 ∧ byteAt b 10 = 2 ∧
         (d.setGateway (leAt b 8 2) n).hasRoom (ringQ f 1) (e.completion ⟨0, 0, []⟩)) ∧
    (let f : Fn := 0; let e : Entry := tCmd 0x110 [(8, 9), (16, 1)]; let r : List Entry := [];
     let s : State := (tS (tDev |> fun d => { d with bsk := { d.bsk with taken := [(ringQ f 0, e :: r)] } } |>.put HIF_STATUS_LINK_UP 1
         |>.setFn f { bme := true }));
     let d := { s.dev with bsk := { s.dev.bsk with taken := Tab.set [] s.dev.bsk.taken (ringQ f 0) r } }.served f;
     let b := wordBytes e.words; let op := leAt b 0 2; let t0 := byteAt b 8; let ix := leAt b 12 4; let a := leAt b 24 8;
     let buf : List Byte := []; let q := (tableQuads (slice buf 0 128)).map (fun v => v &&& 0x80000003FFFFFFFF);
     s.dev.awake = true ∧ s.dev.taken (ringQ f 0) = e :: r ∧ e.poison = false ∧ e.gen = s.dev.get (HIF_FN_STATUS_GEN f) ∧
         s.dev.cmdTurn f = true ∧ d.dmaOk f = true ∧ leAt b 16 4 = 1 ∧ op = 0x0110 ∧ f = 0 ∧ t0 = 9 ∧ ix < 262144 ∧
         ((d.hostReads f a 128).setSucc ix (if q.all (· == 0) then [] else q)).hasRoom (ringQ f 1) (e.completion ⟨0, 0, leBytes 4 1⟩)) ∧
    (let f : Fn := 0; let e : Entry := tCmd 0x111 [(8, 9), (16, 1)]; let r : List Entry := [];
     let s : State := (tS (tDev |> fun d => { d with bsk := { d.bsk with taken := [(ringQ f 0, e :: r)] } } |>.put HIF_STATUS_LINK_UP 1
         |>.setFn f { bme := true }));
     let d := { s.dev with bsk := { s.dev.bsk with taken := Tab.set [] s.dev.bsk.taken (ringQ f 0) r } }.served f;
     let b := wordBytes e.words; let op := leAt b 0 2; let t0 := byteAt b 8; let ix := leAt b 12 4; let a := leAt b 24 8;
     let w := slice ((d.tableGet f t0 ix).2.flatMap (leBytes 8)) 0 (tableSize t0);
     s.dev.awake = true ∧ s.dev.taken (ringQ f 0) = e :: r ∧ e.poison = false ∧ e.gen = s.dev.get (HIF_FN_STATUS_GEN f) ∧
         s.dev.cmdTurn f = true ∧ d.dmaOk f = true ∧ leAt b 16 4 = 1 ∧ op = 0x0111 ∧ tableSize t0 ≠ 0 ∧ tableAllowed f t0 false = true ∧
         tableIndexOk t0 ix = true ∧ (d.tableGet f t0 ix).1 = 0 ∧ d.tblPoison t0 ix = false ∧
         a % d.maxPayload + tableSize t0 ≤ d.maxPayload ∧ (d.hostWrite f a w false).hasRoom (ringQ f 1) (e.completion ⟨0, 0, leBytes 4 1⟩)) ∧
    (let f : Fn := 0; let e : Entry := tCmd 0x112 [(8, 3), (16, 1)]; let r : List Entry := [];
     let s : State := (tS (tDev |> fun d => { d with bsk := { d.bsk with taken := [(ringQ f 0, e :: r)] } } |>.put HIF_STATUS_LINK_UP 1
         |>.setFn f { bme := true }));
     let d := { s.dev with bsk := { s.dev.bsk with taken := Tab.set [] s.dev.bsk.taken (ringQ f 0) r } }.served f;
     let b := wordBytes e.words; let op := leAt b 0 2; let ix := leAt b 12 4;
     let o := { d.olan ix with codes := [], dovf := false, rv := false, lvalid := false, ack := 0 };
     s.dev.awake = true ∧ s.dev.taken (ringQ f 0) = e :: r ∧ e.poison = false ∧ e.gen = s.dev.get (HIF_FN_STATUS_GEN f) ∧
         s.dev.cmdTurn f = true ∧ op = 0x0112 ∧ f = 0 ∧ byteAt b 8 = 3 ∧ leAt b 16 4 = 1 ∧ leAt b 12 4 < 262144 ∧
         (d.setOlan ix o).hasRoom (ringQ f 1) (e.completion ⟨0, 0, leBytes 4 1⟩)) ∧
    (let f : Fn := 0; let e : Entry := tCmd 0x120 []; let r : List Entry := [];
     let s : State := (tS (tDev |> fun d => { d with bsk := { d.bsk with taken := [(ringQ f 0, e :: r)] } } |>.put HIF_STATUS_LINK_UP 1
         |>.setFn f { bme := true }));
     let d := { s.dev with bsk := { s.dev.bsk with taken := Tab.set [] s.dev.bsk.taken (ringQ f 0) r } }.served f;
     let b := wordBytes e.words; let op := leAt b 0 2;
     let x := d.ordPlace f (byteAt b 8) (leAt b 10 2) (leAt b 12 2) (leAt b 16 4) (leAt b 20 4) (leAt b 24 4) (leAt b 28 4);
     s.dev.awake = true ∧ s.dev.taken (ringQ f 0) = e :: r ∧ e.poison = false ∧ e.gen = s.dev.get (HIF_FN_STATUS_GEN f) ∧
         s.dev.cmdTurn f = true ∧ op = 0x0120 ∧ byteAt b 8 ≤ 1 ∧
         x.1.hasRoom (ringQ f 1) (e.completion ⟨x.2.1, 0, if x.2.1 = (0 : Nat) then leBytes 2 x.2.2.1 ++ leBytes 2 0 ++ leBytes 4 x.2.2.2 else []⟩)) ∧
    (let f : Fn := 0; let e : Entry := tCmd 0x121 []; let r : List Entry := [];
     let s : State := (tS (tDev |> fun d => { d with bsk := { d.bsk with taken := [(ringQ f 0, e :: r)] } } |>.put HIF_STATUS_LINK_UP 1
         |>.setFn f { bme := true }));
     let d := { s.dev with bsk := { s.dev.bsk with taken := Tab.set [] s.dev.bsk.taken (ringQ f 0) r } }.served f;
     let b := wordBytes e.words; let op := leAt b 0 2; let n := leAt b 8 2;
     s.dev.awake = true ∧ s.dev.taken (ringQ f 0) = e :: r ∧ e.poison = false ∧ e.gen = s.dev.get (HIF_FN_STATUS_GEN f) ∧
         s.dev.cmdTurn f = true ∧ op = 0x0121 ∧ (d.ordCancel f n).1.hasRoom (ringQ f 1) (e.completion ⟨(d.ordCancel f n).2, 0, []⟩)) ∧
    (let f : Fn := 0; let e : Entry := tCmd 0x122 []; let r : List Entry := [];
     let s : State := (tS (tDev |> fun d => { d with bsk := { d.bsk with taken := [(ringQ f 0, e :: r)] } } |>.put HIF_STATUS_LINK_UP 1
         |>.setFn f { bme := true }));
     let d := { s.dev with bsk := { s.dev.bsk with taken := Tab.set [] s.dev.bsk.taken (ringQ f 0) r } }.served f;
     let b := wordBytes e.words; let op := leAt b 0 2; let x := d.ordSchedule f (leAt b 8 4) (leAt b 12 4) (leAt b 16 2);
     s.dev.awake = true ∧ s.dev.taken (ringQ f 0) = e :: r ∧ e.poison = false ∧ e.gen = s.dev.get (HIF_FN_STATUS_GEN f) ∧
         s.dev.cmdTurn f = true ∧ op = 0x0122 ∧ x.1.hasRoom (ringQ f 1) (e.completion ⟨x.2.1, x.2.2.1, leBytes 4 x.2.2.2⟩)) :=
  ⟨⟨by decide +kernel, by decide +kernel, by decide +kernel, by decide +kernel, by decide +kernel, by decide +kernel, tRoom_spec (by decide +kernel)⟩,
   ⟨by decide +kernel, by decide +kernel, by decide +kernel, by decide +kernel, by decide +kernel, by decide +kernel, tRoom_spec (by decide +kernel)⟩,
   ⟨by decide +kernel, by decide +kernel, by decide +kernel, by decide +kernel, by decide +kernel, by decide +kernel, by decide +kernel, by decide +kernel, by decide +kernel, by decide +kernel, by decide +kernel, tRoom_spec (by decide +kernel)⟩,
   ⟨by decide +kernel, by decide +kernel, by decide +kernel, by decide +kernel, by decide +kernel, by decide +kernel, by decide +kernel, by decide +kernel, by decide +kernel, by decide +kernel, tRoom_spec (by decide +kernel)⟩,
   ⟨by decide +kernel, by decide +kernel, by decide +kernel, by decide +kernel, by decide +kernel, by decide +kernel, by decide +kernel, by decide +kernel, by decide +kernel, tRoom_spec (by decide +kernel)⟩,
   ⟨by decide +kernel, by decide +kernel, by decide +kernel, by decide +kernel, by decide +kernel, by decide +kernel, by decide +kernel, by decide +kernel, by decide +kernel, tRoom_spec (by decide +kernel)⟩,
   ⟨by decide +kernel, by decide +kernel, by decide +kernel, by decide +kernel, by decide +kernel, by decide +kernel, by decide +kernel, by decide +kernel, by decide +kernel, by decide +kernel, by decide +kernel, tRoom_spec (by decide +kernel)⟩,
   ⟨by decide +kernel, by decide +kernel, by decide +kernel, by decide +kernel, by decide +kernel, by decide +kernel, by decide +kernel, by decide +kernel, by decide +kernel, by decide +kernel, by decide +kernel, by decide +kernel, by decide +kernel, by decide +kernel, tRoom_spec (by decide +kernel)⟩,
   ⟨by decide +kernel, by decide +kernel, by decide +kernel, by decide +kernel, by decide +kernel, by decide +kernel, by decide +kernel, by decide +kernel, by decide +kernel, by decide +kernel, tRoom_spec (by decide +kernel)⟩,
   ⟨by decide +kernel, by decide +kernel, by decide +kernel, by decide +kernel, by decide +kernel, by decide +kernel, by decide +kernel, tRoom_spec (by decide +kernel)⟩,
   ⟨by decide +kernel, by decide +kernel, by decide +kernel, by decide +kernel, by decide +kernel, by decide +kernel, tRoom_spec (by decide +kernel)⟩,
   ⟨by decide +kernel, by decide +kernel, by decide +kernel, by decide +kernel, by decide +kernel, by decide +kernel, tRoom_spec (by decide +kernel)⟩⟩

theorem wit_PlaitInteger :
    (let s : State := (tS (tDev |>.put (HOOP_SVC_STATE 0) 2)); let c : Instr := .popc (.engine 0 0) tReg; let t : ThreadId := .engine 0 0;
     let i : PIns := ofReg tReg 0 19; let d1 := (s.dev.entering t i.env).1;
     s.dev.awake = true ∧ plait c = some (t, i) ∧ i.cls = 0 ∧ i.fn ≤ 19 ∧ s.dev.poised t i d1) ∧
    (let s : State := (tS (tDev |>.put (HOOP_SVC_STATE 0) 2)); let c : Instr := .getp (.engine 0 0) tReg; let t : ThreadId := .engine 0 0;
     let i : PIns := ofReg tReg 0 22; let d1 := (s.dev.entering t i.env).1;
     s.dev.awake = true ∧ plait c = some (t, i) ∧ i.cls = 0 ∧ i.fn = 22 ∧ s.dev.poised t i d1) ∧
    (let s : State := (tS (tDev |>.put (HOOP_SVC_STATE 0) 2)); let c : Instr := .setp (.engine 0 0) tReg; let t : ThreadId := .engine 0 0;
     let i : PIns := ofReg tReg 0 23; let d1 := (s.dev.entering t i.env).1;
     s.dev.awake = true ∧ plait c = some (t, i) ∧ i.cls = 0 ∧ i.fn = 23 ∧ s.dev.poised t i d1) ∧
    (let s : State := (tS (tDev |>.put (HOOP_SVC_STATE 0) 2)); let c : Instr := .immediateLoad (.engine 0 0) tArg;
     let t : ThreadId := .engine 0 0; let i : PIns := ofArg tArg 1; let d1 := (s.dev.entering t i.env).1;
     s.dev.awake = true ∧ plait c = some (t, i) ∧ i.cls = 1 ∧ i.x = false ∧ s.dev.poised t i d1) ∧
    (let s : State := (tS (tDev |>.put (HOOP_SVC_STATE 0) 2)); let c : Instr := .immediateLoad (.engine 0 0) { tArg with l := true, x := true };
     let t : ThreadId := .engine 0 0; let i : PIns := ofArg { tArg with l := true, x := true } 1; let d1 := (s.dev.entering t i.env).1;
     s.dev.awake = true ∧ plait c = some (t, i) ∧ i.cls = 1 ∧ i.x = true ∧ s.dev.poised t i d1) ∧
    (let s : State := (tS (tDev |>.put (HOOP_SVC_STATE 0) 2)); let c : Instr := .divu (.engine 0 0) tReg; let t : ThreadId := .engine 0 0;
     let i : PIns := ofReg tReg 2 5; let d1 := (s.dev.entering t i.env).1;
     s.dev.awake = true ∧ plait c = some (t, i) ∧ i.cls = 2 ∧ i.fn ≤ 5 ∧ s.dev.poised t i d1) ∧
    (let s : State := (tS (tDev |>.put (HOOP_SVC_STATE 0) 2)); let c : Instr := .mfmh (.engine 0 0) tReg; let t : ThreadId := .engine 0 0;
     let i : PIns := ofReg tReg 2 6; let d1 := (s.dev.entering t i.env).1;
     s.dev.awake = true ∧ plait c = some (t, i) ∧ i.cls = 2 ∧ i.fn = 6 ∧ s.dev.poised t i d1) ∧
    (let s : State := (tS (tDev |>.put (HOOP_SVC_STATE 0) 2)); let c : Instr := .mfml (.engine 0 0) tReg; let t : ThreadId := .engine 0 0;
     let i : PIns := ofReg tReg 2 7; let d1 := (s.dev.entering t i.env).1;
     s.dev.awake = true ∧ plait c = some (t, i) ∧ i.cls = 2 ∧ i.fn = 7 ∧ s.dev.poised t i d1) ∧
    (let s : State := (tS (tDev |>.put (HOOP_SVC_STATE 0) 2)); let c : Instr := .mtmh (.engine 0 0) tReg; let t : ThreadId := .engine 0 0;
     let i : PIns := ofReg tReg 2 8; let d1 := (s.dev.entering t i.env).1;
     s.dev.awake = true ∧ plait c = some (t, i) ∧ i.cls = 2 ∧ i.fn = 8 ∧ s.dev.poised t i d1) ∧
    (let s : State := (tS (tDev |>.put (HOOP_SVC_STATE 0) 2)); let c : Instr := .mtml (.engine 0 0) tReg; let t : ThreadId := .engine 0 0;
     let i : PIns := ofReg tReg 2 9; let d1 := (s.dev.entering t i.env).1;
     s.dev.awake = true ∧ plait c = some (t, i) ∧ i.cls = 2 ∧ i.fn = 9 ∧ s.dev.poised t i d1) ∧
    (let s : State := (tS (tDev |>.put (HOOP_SVC_STATE 0) 2)); let c : Instr := .cmpNone (.engine 0 0) tReg; let t : ThreadId := .engine 0 0;
     let i : PIns := ofReg tReg 3 7; let d1 := (s.dev.entering t i.env).1;
     s.dev.awake = true ∧ plait c = some (t, i) ∧ i.cls = 3 ∧ i.fn ≤ 7 ∧ s.dev.poised t i d1) ∧
    (let s : State := (tS (tDev |>.put (HOOP_SVC_STATE 0) 2)); let c : Instr := .pand (.engine 0 0) tReg; let t : ThreadId := .engine 0 0;
     let i : PIns := ofReg tReg 3 16; let d1 := (s.dev.entering t i.env).1;
     s.dev.awake = true ∧ plait c = some (t, i) ∧ i.cls = 3 ∧ 16 ≤ i.fn ∧ s.dev.poised t i d1) ∧
    (let s : State := (tS (tDev |>.put (HOOP_SVC_STATE 0) 2)); let c : Instr := .dchk (.engine 0 0) tReg; let t : ThreadId := .engine 0 0;
     let i : PIns := ofReg tReg 12 2; let d1 := (s.dev.entering t i.env).1;
     s.dev.awake = true ∧ plait c = some (t, i) ∧ i.cls = 12 ∧ i.fn % 8 = 2 ∧ s.dev.poised t i d1) ∧
    (let s : State := (tS (tDev |>.put (HOOP_SVC_STATE 0) 2)); let c : Instr := .btod (.engine 0 0) tReg; let t : ThreadId := .engine 0 0;
     let i : PIns := ofReg tReg 12 4; let d1 := (s.dev.entering t i.env).1;
     s.dev.awake = true ∧ plait c = some (t, i) ∧ i.cls = 12 ∧ i.fn % 8 = 4 ∧ s.dev.poised t i d1) ∧
    (let s : State := (tS (tDev |>.put (HOOP_SVC_STATE 0) 2)); let c : Instr := .dtob (.engine 0 0) tReg; let t : ThreadId := .engine 0 0;
     let i : PIns := ofReg tReg 12 3; let d1 := (s.dev.entering t i.env).1; let h := d1.th (tid t);
     s.dev.awake = true ∧ plait c = some (t, i) ∧ s.dev.poised t i d1 ∧ badDigits 16 (h.gr i.ra) = false ∧ i.cls = 12 ∧ i.fn % 8 = 3) ∧
    (let s : State := (tS (tDev |>.put (HOOP_SVC_STATE 0) 2)); let c : Instr := .dadd (.engine 0 0) tReg; let t : ThreadId := .engine 0 0;
     let i : PIns := ofReg tReg 12 0; let d1 := (s.dev.entering t i.env).1; let h := d1.th (tid t);
     s.dev.awake = true ∧ plait c = some (t, i) ∧ s.dev.poised t i d1 ∧ badDigits 16 (h.gr i.ra) = false ∧ i.cls = 12 ∧
         badDigits 16 (h.gr i.rb) = false ∧ i.fn % 8 = 0) ∧
    (let s : State := (tS (tDev |>.put (HOOP_SVC_STATE 0) 2)); let c : Instr := .dsub (.engine 0 0) tReg; let t : ThreadId := .engine 0 0;
     let i : PIns := ofReg tReg 12 1; let d1 := (s.dev.entering t i.env).1; let h := d1.th (tid t);
     s.dev.awake = true ∧ plait c = some (t, i) ∧ s.dev.poised t i d1 ∧ badDigits 16 (h.gr i.ra) = false ∧ i.cls = 12 ∧
         badDigits 16 (h.gr i.rb) = false ∧ i.fn % 8 = 1) :=
  ⟨⟨by decide +kernel, by decide +kernel, by decide +kernel, by decide +kernel, tPoised_spec (by decide +kernel)⟩,
   ⟨by decide +kernel, by decide +kernel, by decide +kernel, by decide +kernel, tPoised_spec (by decide +kernel)⟩,
   ⟨by decide +kernel, by decide +kernel, by decide +kernel, by decide +kernel, tPoised_spec (by decide +kernel)⟩,
   ⟨by decide +kernel, by decide +kernel, by decide +kernel, by decide +kernel, tPoised_spec (by decide +kernel)⟩,
   ⟨by decide +kernel, by decide +kernel, by decide +kernel, by decide +kernel, tPoised_spec (by decide +kernel)⟩,
   ⟨by decide +kernel, by decide +kernel, by decide +kernel, by decide +kernel, tPoised_spec (by decide +kernel)⟩,
   ⟨by decide +kernel, by decide +kernel, by decide +kernel, by decide +kernel, tPoised_spec (by decide +kernel)⟩,
   ⟨by decide +kernel, by decide +kernel, by decide +kernel, by decide +kernel, tPoised_spec (by decide +kernel)⟩,
   ⟨by decide +kernel, by decide +kernel, by decide +kernel, by decide +kernel, tPoised_spec (by decide +kernel)⟩,
   ⟨by decide +kernel, by decide +kernel, by decide +kernel, by decide +kernel, tPoised_spec (by decide +kernel)⟩,
   ⟨by decide +kernel, by decide +kernel, by decide +kernel, by decide +kernel, tPoised_spec (by decide +kernel)⟩,
   ⟨by decide +kernel, by decide +kernel, by decide +kernel, by decide +kernel, tPoised_spec (by decide +kernel)⟩,
   ⟨by decide +kernel, by decide +kernel, by decide +kernel, by decide +kernel, tPoised_spec (by decide +kernel)⟩,
   ⟨by decide +kernel, by decide +kernel, by decide +kernel, by decide +kernel, tPoised_spec (by decide +kernel)⟩,
   ⟨by decide +kernel, by decide +kernel, tPoised_spec (by decide +kernel), by decide +kernel, by decide +kernel, by decide +kernel⟩,
   ⟨by decide +kernel, by decide +kernel, tPoised_spec (by decide +kernel), by decide +kernel, by decide +kernel, by decide +kernel, by decide +kernel⟩,
   ⟨by decide +kernel, by decide +kernel, tPoised_spec (by decide +kernel), by decide +kernel, by decide +kernel, by decide +kernel, by decide +kernel⟩⟩

theorem wit_IntegerArithmetic :
    (let a : BitVec 64 := 1; a ≠ 0) ∧
    (let b : BitVec 64 := 0; let m : Nat := 0; m < 2 ^ 128 ∧ b = 0) ∧
    (let b : BitVec 64 := 1; let m : Nat := 0; m < 2 ^ 128 ∧ b ≠ 0) ∧
    (let n : Nat := 0; let a : Nat := 0; let b : Nat := 0; let c : Nat := 0; c ≤ 1 ∧ badDigits n a = false ∧ badDigits n b = false) :=
  by refine ⟨?_, ?_, ?_, ?_⟩ <;> decide +kernel

theorem wit_PlaitFloat :
    (let s : State := (tS (tDev |>.put (HOOP_SVC_STATE 0) 2)); let c : Instr := .fmax (.engine 0 0) tReg; let t : ThreadId := .engine 0 0;
     let i : PIns := ofReg tReg 13 9; let d1 := (s.dev.entering t i.env).1;
     s.dev.awake = true ∧ plait c = some (t, i) ∧ i.cls = 13 ∧ i.fn ≤ 9 ∧ s.dev.poised t i d1) ∧
    (let s : State := (tS (tDev |>.put (HOOP_SVC_STATE 0) 2)); let c : Instr := .fabs (.engine 0 0) tReg; let t : ThreadId := .engine 0 0;
     let i : PIns := ofReg tReg 13 10; let d1 := (s.dev.entering t i.env).1;
     s.dev.awake = true ∧ plait c = some (t, i) ∧ i.cls = 13 ∧ i.fn = 10 ∧ s.dev.poised t i d1) ∧
    (let s : State := (tS (tDev |>.put (HOOP_SVC_STATE 0) 2)); let c : Instr := .fneg (.engine 0 0) tReg; let t : ThreadId := .engine 0 0;
     let i : PIns := ofReg tReg 13 11; let d1 := (s.dev.entering t i.env).1;
     s.dev.awake = true ∧ plait c = some (t, i) ∧ i.cls = 13 ∧ i.fn = 11 ∧ s.dev.poised t i d1) ∧
    (let s : State := (tS (tDev |>.put (HOOP_SVC_STATE 0) 2)); let c : Instr := .fmov (.engine 0 0) tReg; let t : ThreadId := .engine 0 0;
     let i : PIns := ofReg tReg 13 12; let d1 := (s.dev.entering t i.env).1;
     s.dev.awake = true ∧ plait c = some (t, i) ∧ i.cls = 13 ∧ i.fn = 12 ∧ s.dev.poised t i d1) ∧
    (let s : State := (tS (tDev |>.put (HOOP_SVC_STATE 0) 2)); let c : Instr := .fcvt (.engine 0 0) tReg; let t : ThreadId := .engine 0 0;
     let i : PIns := ofReg tReg 13 16; let d1 := (s.dev.entering t i.env).1;
     s.dev.awake = true ∧ plait c = some (t, i) ∧ i.cls = 13 ∧ i.fn = 16 ∧ s.dev.poised t i d1) ∧
    (let s : State := (tS (tDev |>.put (HOOP_SVC_STATE 0) 2)); let c : Instr := .fcvti (.engine 0 0) tReg; let t : ThreadId := .engine 0 0;
     let i : PIns := ofReg tReg 13 17; let d1 := (s.dev.entering t i.env).1;
     s.dev.awake = true ∧ plait c = some (t, i) ∧ i.cls = 13 ∧ i.fn = 17 ∧ s.dev.poised t i d1) ∧
    (let s : State := (tS (tDev |>.put (HOOP_SVC_STATE 0) 2)); let c : Instr := .fcvtiu (.engine 0 0) tReg; let t : ThreadId := .engine 0 0;
     let i : PIns := ofReg tReg 13 18; let d1 := (s.dev.entering t i.env).1;
     s.dev.awake = true ∧ plait c = some (t, i) ∧ i.cls = 13 ∧ i.fn = 18 ∧ s.dev.poised t i d1) ∧
    (let s : State := (tS (tDev |>.put (HOOP_SVC_STATE 0) 2)); let c : Instr := .fcvtit (.engine 0 0) tReg; let t : ThreadId := .engine 0 0;
     let i : PIns := ofReg tReg 13 19; let d1 := (s.dev.entering t i.env).1;
     s.dev.awake = true ∧ plait c = some (t, i) ∧ i.cls = 13 ∧ i.fn = 19 ∧ s.dev.poised t i d1) ∧
    (let s : State := (tS (tDev |>.put (HOOP_SVC_STATE 0) 2)); let c : Instr := .fcvtf (.engine 0 0) tReg; let t : ThreadId := .engine 0 0;
     let i : PIns := ofReg tReg 13 20; let d1 := (s.dev.entering t i.env).1;
     s.dev.awake = true ∧ plait c = some (t, i) ∧ i.cls = 13 ∧ i.fn = 20 ∧ s.dev.poised t i d1) ∧
    (let s : State := (tS (tDev |>.put (HOOP_SVC_STATE 0) 2)); let c : Instr := .fcvtfu (.engine 0 0) tReg; let t : ThreadId := .engine 0 0;
     let i : PIns := ofReg tReg 13 21; let d1 := (s.dev.entering t i.env).1;
     s.dev.awake = true ∧ plait c = some (t, i) ∧ i.cls = 13 ∧ i.fn = 21 ∧ s.dev.poised t i d1) ∧
    (let s : State := (tS (tDev |>.put (HOOP_SVC_STATE 0) 2)); let c : Instr := .fmvfg (.engine 0 0) tReg; let t : ThreadId := .engine 0 0;
     let i : PIns := ofReg tReg 13 22; let d1 := (s.dev.entering t i.env).1;
     s.dev.awake = true ∧ plait c = some (t, i) ∧ i.cls = 13 ∧ i.fn = 22 ∧ s.dev.poised t i d1) ∧
    (let s : State := (tS (tDev |>.put (HOOP_SVC_STATE 0) 2)); let c : Instr := .fmvgf (.engine 0 0) tReg; let t : ThreadId := .engine 0 0;
     let i : PIns := ofReg tReg 13 23; let d1 := (s.dev.entering t i.env).1;
     s.dev.awake = true ∧ plait c = some (t, i) ∧ i.cls = 13 ∧ i.fn = 23 ∧ s.dev.poised t i d1) ∧
    (let s : State := (tS (tDev |>.put (HOOP_SVC_STATE 0) 2)); let c : Instr := .funord (.engine 0 0) tReg; let t : ThreadId := .engine 0 0;
     let i : PIns := ofReg tReg 13 27; let d1 := (s.dev.entering t i.env).1;
     s.dev.awake = true ∧ plait c = some (t, i) ∧ i.cls = 13 ∧ 24 ≤ i.fn ∧ i.fn ≤ 27 ∧ s.dev.poised t i d1) :=
  ⟨⟨by decide +kernel, by decide +kernel, by decide +kernel, by decide +kernel, tPoised_spec (by decide +kernel)⟩,
   ⟨by decide +kernel, by decide +kernel, by decide +kernel, by decide +kernel, tPoised_spec (by decide +kernel)⟩,
   ⟨by decide +kernel, by decide +kernel, by decide +kernel, by decide +kernel, tPoised_spec (by decide +kernel)⟩,
   ⟨by decide +kernel, by decide +kernel, by decide +kernel, by decide +kernel, tPoised_spec (by decide +kernel)⟩,
   ⟨by decide +kernel, by decide +kernel, by decide +kernel, by decide +kernel, tPoised_spec (by decide +kernel)⟩,
   ⟨by decide +kernel, by decide +kernel, by decide +kernel, by decide +kernel, tPoised_spec (by decide +kernel)⟩,
   ⟨by decide +kernel, by decide +kernel, by decide +kernel, by decide +kernel, tPoised_spec (by decide +kernel)⟩,
   ⟨by decide +kernel, by decide +kernel, by decide +kernel, by decide +kernel, tPoised_spec (by decide +kernel)⟩,
   ⟨by decide +kernel, by decide +kernel, by decide +kernel, by decide +kernel, tPoised_spec (by decide +kernel)⟩,
   ⟨by decide +kernel, by decide +kernel, by decide +kernel, by decide +kernel, tPoised_spec (by decide +kernel)⟩,
   ⟨by decide +kernel, by decide +kernel, by decide +kernel, by decide +kernel, tPoised_spec (by decide +kernel)⟩,
   ⟨by decide +kernel, by decide +kernel, by decide +kernel, by decide +kernel, tPoised_spec (by decide +kernel)⟩,
   ⟨by decide +kernel, by decide +kernel, by decide +kernel, by decide +kernel, by decide +kernel, tPoised_spec (by decide +kernel)⟩⟩

theorem wit_PlaitMemory :
    (let s : State := (tS (tDev |>.put (HOOP_SVC_STATE 0) 2)); let c : Instr := .ld (.engine 0 0) tReg; let t : ThreadId := .engine 0 0;
     let i : PIns := ofReg tReg 4 0; let d1 : Dev := (s.dev.entering t i.env).1; let d2 : Dev := d1; let cx := (s.dev.entering t i.env).2;
     let h := d1.th (tid t); let n := szWords (i.fn % 4); let va := i.ea h n; let v := (0 : Nat);
     s.dev.awake = true ∧ plait c = some (t, i) ∧ s.dev.poised t i d1 ∧ i.cls = 4 ∧ d1.mload (d1.loadCx cx i) 1 va n = .ok d2 v ∧
         i.fn / 4 = 0) ∧
    (let s : State := (tS (tDev |>.put (HOOP_SVC_STATE 0) 2)); let c : Instr := .ldu (.engine 0 0) tReg; let t : ThreadId := .engine 0 0;
     let i : PIns := ofReg tReg 4 4; let d1 : Dev := (s.dev.entering t i.env).1; let d2 : Dev := d1; let cx := (s.dev.entering t i.env).2;
     let h := d1.th (tid t); let n := szWords (i.fn % 4); let va := i.ea h n; let v := (0 : Nat);
     s.dev.awake = true ∧ plait c = some (t, i) ∧ s.dev.poised t i d1 ∧ i.cls = 4 ∧ d1.mload (d1.loadCx cx i) 1 va n = .ok d2 v ∧
         i.fn / 4 = 1) ∧
    (let s : State := (tS (tDev |>.put (HOOP_SVC_STATE 0) 2)); let c : Instr := .ldf (.engine 0 0) { tReg with sub := 1 };
     let t : ThreadId := .engine 0 0; let i : PIns := ofReg { tReg with sub := 1 } 4 13; let d1 : Dev := (s.dev.entering t i.env).1;
     let d2 : Dev := d1; let cx := (s.dev.entering t i.env).2; let h := d1.th (tid t); let n := szWords (i.fn % 4); let va := i.ea h n;
     let v := (0 : Nat);
     s.dev.awake = true ∧ plait c = some (t, i) ∧ s.dev.poised t i d1 ∧ i.cls = 4 ∧ d1.mload (d1.loadCx cx i) 1 va n = .ok d2 v ∧
         i.fn / 4 = 3) ∧
    (let s : State := (tS (tDev |>.put (HOOP_SVC_STATE 0) 2)); let c : Instr := .st (.engine 0 0) tReg; let t : ThreadId := .engine 0 0;
     let i : PIns := ofReg tReg 4 8; let d1 : Dev := (s.dev.entering t i.env).1; let cx := (s.dev.entering t i.env).2;
     let h := d1.th (tid t); let n := szWords (i.fn % 4); let va := i.ea h n; let d2 : Dev := tDevOf (d1.mstore cx 2 va n (h.gr i.rd));
     s.dev.awake = true ∧ plait c = some (t, i) ∧ s.dev.poised t i d1 ∧ i.cls = 4 ∧ i.fn / 4 = 2 ∧
         d1.mstore cx 2 va n (h.gr i.rd) = .ok d2 ()) ∧
    (let s : State := (tS (tDev |>.put (HOOP_SVC_STATE 0) 2)); let c : Instr := .stf (.engine 0 0) { tReg with sub := 1 };
     let t : ThreadId := .engine 0 0; let i : PIns := ofReg { tReg with sub := 1 } 4 17; let d1 : Dev := (s.dev.entering t i.env).1;
     let cx := (s.dev.entering t i.env).2; let h := d1.th (tid t); let n := szWords (i.fn % 4); let va := i.ea h n;
     let d2 : Dev := tDevOf (d1.mstore cx 2 va n (h.fr i.rd));
     s.dev.awake = true ∧ plait c = some (t, i) ∧ s.dev.poised t i d1 ∧ i.cls = 4 ∧ i.fn / 4 = 4 ∧
         d1.mstore cx 2 va n (h.fr i.rd) = .ok d2 ()) ∧
    (let s : State := (tS (tDev |>.put (HOOP_SVC_STATE 0) 2)); let c : Instr := .pref (.engine 0 0) tReg; let t : ThreadId := .engine 0 0;
     let i : PIns := ofReg tReg 4 20; let d1 : Dev := (s.dev.entering t i.env).1;
     s.dev.awake = true ∧ plait c = some (t, i) ∧ s.dev.poised t i d1 ∧ i.cls = 4 ∧ i.fn / 4 = 5) ∧
    (let s : State := (tS (tDev |>.put (HOOP_SVC_STATE 0) 2)); let c : Instr := .dclean (.engine 0 0) tReg; let t : ThreadId := .engine 0 0;
     let i : PIns := ofCache tReg 0; let d1 : Dev := (s.dev.entering t i.env).1; let d2 : Dev := d1; let cx := (s.dev.entering t i.env).2;
     let h := d1.th (tid t); let n := szWords (i.fn % 4); let va := i.ea h n;
     s.dev.awake = true ∧ plait c = some (t, i) ∧ s.dev.poised t i d1 ∧ i.cls = 4 ∧ i.fn / 4 = 6 ∧ (cx.user = false ∨ i.rd ≠ 2 ∧ i.rd < 8) ∧
         d1.mcache cx i.rd va = .ok d2 ()) ∧
    (let s : State := (tS (tDev |>.put (HOOP_SVC_STATE 0) 2)); let c : Instr := .shortAbsoluteLoad (.engine 0 0) 2 tArg;
     let t : ThreadId := .engine 0 0; let i : PIns := { ofArg tArg 7 with x := false }; let d1 : Dev := (s.dev.entering t i.env).1;
     let d2 : Dev := d1; let cx := (s.dev.entering t i.env).2; let h := d1.th (tid t); let m := szWords (i.cls - 5); let v := (0 : Nat);
     s.dev.awake = true ∧ plait c = some (t, i) ∧ s.dev.poised t i d1 ∧ 5 ≤ i.cls ∧ i.cls ≤ 7 ∧ i.x = false ∧
         d1.mload cx 1 (i.sha h) m = .ok d2 v) ∧
    (let s : State := (tS (tDev |>.put (HOOP_SVC_STATE 0) 2)); let c : Instr := .shortAbsoluteStore (.engine 0 0) 2 tArg;
     let t : ThreadId := .engine 0 0; let i : PIns := { ofArg tArg 7 with x := true }; let d1 : Dev := (s.dev.entering t i.env).1;
     let cx := (s.dev.entering t i.env).2; let h := d1.th (tid t); let m := szWords (i.cls - 5);
     let d2 : Dev := tDevOf (d1.mstore cx 2 (i.sha h) m (h.gr i.rd));
     s.dev.awake = true ∧ plait c = some (t, i) ∧ s.dev.poised t i d1 ∧ 5 ≤ i.cls ∧ i.cls ≤ 7 ∧ i.x = true ∧
         d1.mstore cx 2 (i.sha h) m (h.gr i.rd) = .ok d2 ()) ∧
    (let s : State := (tS (tDev |>.put (HOOP_SVC_STATE 0) 2)); let c : Instr := .btst (.engine 0 0) tReg; let t : ThreadId := .engine 0 0;
     let i : PIns := ofReg tReg 8 0; let d1 : Dev := (s.dev.entering t i.env).1; let d2 : Dev := d1; let cx := (s.dev.entering t i.env).2;
     let h := d1.th (tid t); let v := false; let w := i.ea h 1;
     s.dev.awake = true ∧ plait c = some (t, i) ∧ s.dev.poised t i d1 ∧ i.cls = 8 ∧ i.fn = 0 ∧ d1.mbit cx w .load (fun _ => none) = .ok d2 v) ∧
    (let s : State := (tS (tDev |>.put (HOOP_SVC_STATE 0) 2)); let c : Instr := .bld (.engine 0 0) tReg; let t : ThreadId := .engine 0 0;
     let i : PIns := ofReg tReg 8 4; let d1 : Dev := (s.dev.entering t i.env).1; let d2 : Dev := d1; let cx := (s.dev.entering t i.env).2;
     let h := d1.th (tid t); let v := false; let w := i.ea h 1;
     s.dev.awake = true ∧ plait c = some (t, i) ∧ s.dev.poised t i d1 ∧ i.cls = 8 ∧ i.fn = 4 ∧ d1.mbit cx w .load (fun _ => none) = .ok d2 v) ∧
    (let s : State := (tS (tDev |>.put (HOOP_SVC_STATE 0) 2)); let c : Instr := .bst (.engine 0 0) tReg; let t : ThreadId := .engine 0 0;
     let i : PIns := ofReg tReg 8 5; let d1 : Dev := (s.dev.entering t i.env).1; let cx := (s.dev.entering t i.env).2;
     let h := d1.th (tid t); let v := false; let w := i.ea h 1;
     let d2 : Dev := tDevOf (d1.mbit cx w .store (fun _ => some (bit (h.gr i.rd) 0)));
     s.dev.awake = true ∧ plait c = some (t, i) ∧ s.dev.poised t i d1 ∧ i.cls = 8 ∧ i.fn = 5 ∧
         d1.mbit cx w .store (fun _ => some (bit (h.gr i.rd) 0)) = .ok d2 v) ∧
    (let s : State := (tS (tDev |>.put (HOOP_SVC_STATE 0) 2)); let c : Instr := .bset (.engine 0 0) tReg; let t : ThreadId := .engine 0 0;
     let i : PIns := ofReg tReg 8 1; let d1 : Dev := (s.dev.entering t i.env).1; let cx := (s.dev.entering t i.env).2;
     let h := d1.th (tid t); let v := false; let w := i.ea h 1; let d2 : Dev := tDevOf (d1.mbit cx w .rmw (fun _ => some true));
     s.dev.awake = true ∧ plait c = some (t, i) ∧ s.dev.poised t i d1 ∧ i.cls = 8 ∧ i.fn = 1 ∧
         d1.mbit cx w .rmw (fun _ => some true) = .ok d2 v) ∧
    (let s : State := (tS (tDev |>.put (HOOP_SVC_STATE 0) 2)); let c : Instr := .bclr (.engine 0 0) tReg; let t : ThreadId := .engine 0 0;
     let i : PIns := ofReg tReg 8 2; let d1 : Dev := (s.dev.entering t i.env).1; let cx := (s.dev.entering t i.env).2;
     let h := d1.th (tid t); let v := false; let w := i.ea h 1; let d2 : Dev := tDevOf (d1.mbit cx w .rmw (fun _ => some false));
     s.dev.awake = true ∧ plait c = some (t, i) ∧ s.dev.poised t i d1 ∧ i.cls = 8 ∧ i.fn = 2 ∧
         d1.mbit cx w .rmw (fun _ => some false) = .ok d2 v) ∧
    (let s : State := (tS (tDev |>.put (HOOP_SVC_STATE 0) 2)); let c : Instr := .binv (.engine 0 0) tReg; let t : ThreadId := .engine 0 0;
     let i : PIns := ofReg tReg 8 3; let d1 : Dev := (s.dev.entering t i.env).1; let cx := (s.dev.entering t i.env).2;
     let h := d1.th (tid t); let v := false; let w := i.ea h 1; let d2 : Dev := tDevOf (d1.mbit cx w .rmw (fun x => some (!x)));
     s.dev.awake = true ∧ plait c = some (t, i) ∧ s.dev.poised t i d1 ∧ i.cls = 8 ∧ i.fn = 3 ∧
         d1.mbit cx w .rmw (fun x => some (!x)) = .ok d2 v) ∧
    (let s : State := (tS (tDev |>.put (HOOP_SVC_STATE 0) 2)); let c : Instr := .ldres (.engine 0 0) { tReg with sub := 1 };
     let t : ThreadId := .engine 0 0; let i : PIns := ofReg { tReg with sub := 1 } 14 1; let d1 : Dev := (s.dev.entering t i.env).1;
     let cx := (s.dev.entering t i.env).2; let h := d1.th (tid t); let n := szWords (i.fn % 4);
     let d2 : Dev := tDevOf (d1.mldres cx (h.gr i.ra) n); let v := (0 : Nat);
     s.dev.awake = true ∧ plait c = some (t, i) ∧ s.dev.poised t i d1 ∧ i.cls = 14 ∧ i.fn / 4 = 0 ∧ d1.mldres cx (h.gr i.ra) n = .ok d2 v) ∧
    (let s : State := (tS (tDev |>.put (HOOP_SVC_STATE 0) 2)); let c : Instr := .stcom (.engine 0 0) { tReg with sub := 1 };
     let t : ThreadId := .engine 0 0; let i : PIns := ofReg { tReg with sub := 1 } 14 5; let d1 : Dev := (s.dev.entering t i.env).1;
     let cx := (s.dev.entering t i.env).2; let h := d1.th (tid t); let n := szWords (i.fn % 4); let b := h.gr i.rb % 2 ^ (16 * n);
     let d2 : Dev := tDevOf (d1.mstcom cx (h.gr i.ra) n b); let v := false;
     s.dev.awake = true ∧ plait c = some (t, i) ∧ s.dev.poised t i d1 ∧ i.cls = 14 ∧ i.fn / 4 = 1 ∧ d1.mstcom cx (h.gr i.ra) n b = .ok d2 v) ∧
    (let s : State := (tS (tDev |>.put (HOOP_SVC_STATE 0) 2)); let c : Instr := .aand (.engine 0 0) { tReg with sub := 1 };
     let t : ThreadId := .engine 0 0; let i : PIns := ofReg { tReg with sub := 1 } 14 25; let d1 : Dev := (s.dev.entering t i.env).1;
     let cx := (s.dev.entering t i.env).2; let h := d1.th (tid t); let n := szWords (i.fn % 4); let b := h.gr i.rb % 2 ^ (16 * n);
     let d2 : Dev := tDevOf (d1.matom cx (h.gr i.ra) n (fun x => some (x &&& b))); let v := (0 : Nat);
     s.dev.awake = true ∧ plait c = some (t, i) ∧ s.dev.poised t i d1 ∧ i.cls = 14 ∧ 2 ≤ i.fn / 4 ∧ i.fn / 4 ≤ 6 ∧
         d1.matom cx (h.gr i.ra) n (fun x => match i.fn / 4 with | 2 => some b | 3 => some ((x + b) % 2 ^ (16 * n)) | 4 => if x = h.gr i.rd % 2 ^ (16 * n) then some b else none | 5 => some (x ||| b) | _ => some (x &&& b)) = .ok d2 v) ∧
    (let s : State := (tS (tDev |>.put (HOOP_SVC_STATE 0) 2)); let c : Instr := .nop (.engine 0 0) tArg; let t : ThreadId := .engine 0 0;
     let i : PIns := ofSys tArg 0; let d1 : Dev := (s.dev.entering t i.env).1; let n := szWords (i.fn % 4); let e : Fin 512 := 0;
     let x : Fin 4 := 0; let a : Nat := 65535;
     s.dev.awake = true ∧ plait c = some (t, i) ∧ s.dev.poised t i d1 ∧ t = .engine e x ∧ d1.invOf t = none ∧ a + n ≤ 2 ^ 24 ∧ a ≤ 65535) ∧
    (let s : State := (tS (tDev |>.put (HOOP_SVC_STATE 0) 2
         |> fun d => { d with thr := { d.thr with t := [(0, { resv := some (engPlace 0 0, 1) })] } }));
     let c : Instr := .nop (.engine 0 0) tArg; let t : ThreadId := .engine 0 0; let i : PIns := ofSys tArg 0;
     let d1 : Dev := (s.dev.entering t i.env).1; let h := d1.th (tid t); let n := szWords (i.fn % 4); let e : Fin 512 := 0;
     let x : Fin 4 := 0; let a : Nat := 0;
     s.dev.awake = true ∧ plait c = some (t, i) ∧ s.dev.poised t i d1 ∧ t = .engine e x ∧ d1.invOf t = none ∧ a + n ≤ 2 ^ 24 ∧ a % n = 0 ∧
         h.resv = some (engPlace e a, n)) ∧
    (let s : State := (tS (tDev |>.put (HOOP_SVC_STATE 0) 2)); let c : Instr := .nop (.engine 0 0) tArg; let t : ThreadId := .engine 0 0;
     let i : PIns := ofSys tArg 0; let d1 : Dev := (s.dev.entering t i.env).1; let h := d1.th (tid t); let n := szWords (i.fn % 4);
     let e : Fin 512 := 0; let x : Fin 4 := 0; let a : Nat := 0;
     s.dev.awake = true ∧ plait c = some (t, i) ∧ s.dev.poised t i d1 ∧ t = .engine e x ∧ d1.invOf t = none ∧ a + n ≤ 2 ^ 24 ∧ a % n = 0 ∧
         h.resv ≠ some (engPlace e a, n)) :=
  ⟨⟨by decide +kernel, by decide +kernel, tPoised_spec (by decide +kernel), by decide +kernel, tRes_spec (by decide +kernel), by decide +kernel⟩,
   ⟨by decide +kernel, by decide +kernel, tPoised_spec (by decide +kernel), by decide +kernel, tRes_spec (by decide +kernel), by decide +kernel⟩,
   ⟨by decide +kernel, by decide +kernel, tPoised_spec (by decide +kernel), by decide +kernel, tRes_spec (by decide +kernel), by decide +kernel⟩,
   ⟨by decide +kernel, by decide +kernel, tPoised_spec (by decide +kernel), by decide +kernel, by decide +kernel, tRes_spec (by decide +kernel)⟩,
   ⟨by decide +kernel, by decide +kernel, tPoised_spec (by decide +kernel), by decide +kernel, by decide +kernel, tRes_spec (by decide +kernel)⟩,
   ⟨by decide +kernel, by decide +kernel, tPoised_spec (by decide +kernel), by decide +kernel, by decide +kernel⟩,
   ⟨by decide +kernel, by decide +kernel, tPoised_spec (by decide +kernel), by decide +kernel, by decide +kernel, by decide +kernel, tRes_spec (by decide +kernel)⟩,
   ⟨by decide +kernel, by decide +kernel, tPoised_spec (by decide +kernel), by decide +kernel, by decide +kernel, by decide +kernel, tRes_spec (by decide +kernel)⟩,
   ⟨by decide +kernel, by decide +kernel, tPoised_spec (by decide +kernel), by decide +kernel, by decide +kernel, by decide +kernel, tRes_spec (by decide +kernel)⟩,
   ⟨by decide +kernel, by decide +kernel, tPoised_spec (by decide +kernel), by decide +kernel, by decide +kernel, tRes_spec (by decide +kernel)⟩,
   ⟨by decide +kernel, by decide +kernel, tPoised_spec (by decide +kernel), by decide +kernel, by decide +kernel, tRes_spec (by decide +kernel)⟩,
   ⟨by decide +kernel, by decide +kernel, tPoised_spec (by decide +kernel), by decide +kernel, by decide +kernel, tRes_spec (by decide +kernel)⟩,
   ⟨by decide +kernel, by decide +kernel, tPoised_spec (by decide +kernel), by decide +kernel, by decide +kernel, tRes_spec (by decide +kernel)⟩,
   ⟨by decide +kernel, by decide +kernel, tPoised_spec (by decide +kernel), by decide +kernel, by decide +kernel, tRes_spec (by decide +kernel)⟩,
   ⟨by decide +kernel, by decide +kernel, tPoised_spec (by decide +kernel), by decide +kernel, by decide +kernel, tRes_spec (by decide +kernel)⟩,
   ⟨by decide +kernel, by decide +kernel, tPoised_spec (by decide +kernel), by decide +kernel, by decide +kernel, tRes_spec (by decide +kernel)⟩,
   ⟨by decide +kernel, by decide +kernel, tPoised_spec (by decide +kernel), by decide +kernel, by decide +kernel, tRes_spec (by decide +kernel)⟩,
   ⟨by decide +kernel, by decide +kernel, tPoised_spec (by decide +kernel), by decide +kernel, by decide +kernel, by decide +kernel, tRes_spec (by decide +kernel)⟩,
   ⟨by decide +kernel, by decide +kernel, tPoised_spec (by decide +kernel), by decide +kernel, by decide +kernel, by decide +kernel, by decide +kernel⟩,
   ⟨by decide +kernel, by decide +kernel, tPoised_spec (by decide +kernel), by decide +kernel, by decide +kernel, by decide +kernel, by decide +kernel, by decide +kernel⟩,
   ⟨by decide +kernel, by decide +kernel, tPoised_spec (by decide +kernel), by decide +kernel, by decide +kernel, by decide +kernel, by decide +kernel, by decide +kernel⟩⟩

theorem wit_PlaitLong :
    (let s : State := (tS (tDev |>.put (HOOP_SVC_STATE 0) 2)); let c : Instr := .bmove (.engine 0 0) tReg; let t : ThreadId := .engine 0 0;
     let i : PIns := ofReg tReg 11 0; let d1 : Dev := (s.dev.entering t i.env).1; let h := d1.th (tid t); let left := h.gr i.rb % 2 ^ 32;
     s.dev.awake = true ∧ plait c = some (t, i) ∧ i.cls = 11 ∧ s.dev.poised t i d1 ∧ left = 0) ∧
    (let s : State := (tS (tDev |>.put (HOOP_SVC_STATE 0) 2 |> fun d => { d with thr := { d.thr with t := [(0, { g := [(1, 1)] })] } }));
     let c : Instr := .bmove (.engine 0 0) { tReg with rb := 1 }; let t : ThreadId := .engine 0 0;
     let i : PIns := ofReg { tReg with rb := 1 } 11 0; let d1 : Dev := (s.dev.entering t i.env).1; let cx := (s.dev.entering t i.env).2;
     let h := d1.th (tid t); let a := h.gr i.rd; let b := h.gr i.ra; let left := h.gr i.rb % 2 ^ 32; let op := i.fn % 8; let d2 := d1;
     let v := (0 : Nat); let d3 := tDevOf (d2.mstore cx 5 a 1 v);
     s.dev.awake = true ∧ plait c = some (t, i) ∧ i.cls = 11 ∧ s.dev.poised t i d1 ∧ left ≠ 0 ∧ op = 0 ∧ d1.mload cx 5 b 1 = .ok d2 v ∧
         d2.mstore cx 5 a 1 v = .ok d3 ()) ∧
    (let s : State := (tS (tDev |>.put (HOOP_SVC_STATE 0) 2 |> fun d => { d with thr := { d.thr with t := [(0, { g := [(1, 1)] })] } }));
     let c : Instr := .bmoved (.engine 0 0) { tReg with rb := 1 }; let t : ThreadId := .engine 0 0;
     let i : PIns := ofReg { tReg with rb := 1 } 11 1; let d1 : Dev := (s.dev.entering t i.env).1; let cx := (s.dev.entering t i.env).2;
     let h := d1.th (tid t); let a := h.gr i.rd; let b := h.gr i.ra; let left := h.gr i.rb % 2 ^ 32; let op := i.fn % 8; let d2 := d1;
     let v := (0 : Nat); let d3 := tDevOf (d2.mstore cx 5 a 1 v);
     s.dev.awake = true ∧ plait c = some (t, i) ∧ i.cls = 11 ∧ s.dev.poised t i d1 ∧ left ≠ 0 ∧ op = 1 ∧ d1.mload cx 5 b 1 = .ok d2 v ∧
         d2.mstore cx 5 a 1 v = .ok d3 ()) ∧
    (let s : State := (tS (tDev |>.put (HOOP_SVC_STATE 0) 2 |> fun d => { d with thr := { d.thr with t := [(0, { g := [(1, 1)] })] } }));
     let c : Instr := .bfill (.engine 0 0) { tReg with rb := 1 }; let t : ThreadId := .engine 0 0;
     let i : PIns := ofReg { tReg with rb := 1 } 11 2; let d1 : Dev := (s.dev.entering t i.env).1; let cx := (s.dev.entering t i.env).2;
     let h := d1.th (tid t); let a := h.gr i.rd; let b := h.gr i.ra; let left := h.gr i.rb % 2 ^ 32; let op := i.fn % 8;
     let d2 := tDevOf (d1.mstore cx 5 a 1 (b % 65536));
     s.dev.awake = true ∧ plait c = some (t, i) ∧ i.cls = 11 ∧ s.dev.poised t i d1 ∧ left ≠ 0 ∧ op = 2 ∧
         d1.mstore cx 5 a 1 (b % 65536) = .ok d2 ()) ∧
    (let s : State := (tS (tDev |>.put (HOOP_SVC_STATE 0) 2 |> fun d => { d with thr := { d.thr with t := [(0, { g := [(1, 1)] })] } }));
     let c : Instr := .bcmp (.engine 0 0) { tReg with rb := 1 }; let t : ThreadId := .engine 0 0;
     let i : PIns := ofReg { tReg with rb := 1 } 11 3; let d1 : Dev := (s.dev.entering t i.env).1; let cx := (s.dev.entering t i.env).2;
     let h := d1.th (tid t); let a := h.gr i.rd; let b := h.gr i.ra; let left := h.gr i.rb % 2 ^ 32; let op := i.fn % 8; let d2 := d1;
     let d3 := d1; let v := (0 : Nat); let w := (0 : Nat);
     s.dev.awake = true ∧ plait c = some (t, i) ∧ i.cls = 11 ∧ s.dev.poised t i d1 ∧ left ≠ 0 ∧ 3 ≤ op ∧ d1.mload cx 5 a 1 = .ok d2 v ∧
         d2.mload cx 5 b 1 = .ok d3 w ∧ op = 3 ∧ v = w) ∧
    (let s : State := (tS (tDev |>.put (HOOP_SVC_STATE 0) 2
         |> fun d => { d with thr := { d.thr with t := [(0, { g := [(1, 1), (2, 1)] })], wstore := [(1, 1)] } }));
     let c : Instr := .bcmp (.engine 0 0) { tReg with rb := 1, ra := 2 }; let t : ThreadId := .engine 0 0;
     let i : PIns := ofReg { tReg with rb := 1, ra := 2 } 11 3; let d1 : Dev := (s.dev.entering t i.env).1;
     let cx := (s.dev.entering t i.env).2; let h := d1.th (tid t); let a := h.gr i.rd; let b := h.gr i.ra; let left := h.gr i.rb % 2 ^ 32;
     let op := i.fn % 8; let d2 := d1; let d3 := d1; let v := (0 : Nat); let w := (1 : Nat);
     s.dev.awake = true ∧ plait c = some (t, i) ∧ i.cls = 11 ∧ s.dev.poised t i d1 ∧ left ≠ 0 ∧ 3 ≤ op ∧ d1.mload cx 5 a 1 = .ok d2 v ∧
         d2.mload cx 5 b 1 = .ok d3 w ∧ op = 3 ∧ v ≠ w) ∧
    (let s : State := (tS (tDev |>.put (HOOP_SVC_STATE 0) 2 |> fun d => { d with thr := { d.thr with t := [(0, { g := [(1, 1)] })] } }));
     let c : Instr := .sigdh (.engine 0 0) { tReg with rb := 1 }; let t : ThreadId := .engine 0 0;
     let i : PIns := ofReg { tReg with rb := 1 } 11 5; let d1 : Dev := (s.dev.entering t i.env).1; let cx := (s.dev.entering t i.env).2;
     let h := d1.th (tid t); let a := h.gr i.rd; let b := h.gr i.ra; let left := h.gr i.rb % 2 ^ 32; let op := i.fn % 8; let d2 := d1;
     let d3 := d1; let v := (0 : Nat); let w := (0 : Nat);
     s.dev.awake = true ∧ plait c = some (t, i) ∧ i.cls = 11 ∧ s.dev.poised t i d1 ∧ left ≠ 0 ∧ 3 ≤ op ∧ d1.mload cx 5 a 1 = .ok d2 v ∧
         d2.mload cx 5 b 1 = .ok d3 w ∧ (op = 4 ∨ op = 5)) ∧
    (let s : State := (tS (tDev |>.put (HOOP_SVC_STATE 0) 2 |> fun d => { d with thr := { d.thr with t := [(0, { g := [(1, 1)] })] } }));
     let c : Instr := .daddm (.engine 0 0) { tReg with rb := 1 }; let t : ThreadId := .engine 0 0;
     let i : PIns := ofReg { tReg with rb := 1 } 11 6; let d1 : Dev := (s.dev.entering t i.env).1; let cx := (s.dev.entering t i.env).2;
     let h := d1.th (tid t); let a := h.gr i.rd; let b := h.gr i.ra; let left := h.gr i.rb % 2 ^ 32; let op := i.fn % 8;
     let top := bit (h.gr i.rb) 63; let d2 := d1; let d3 := d1; let v := (0 : Nat); let w := (0 : Nat);
     let r := if op = 6 then digAdd 4 v w (b2n top) else digSub 4 v w (b2n top); let d4 := tDevOf (d3.mstore cx 5 a 1 r.1);
     s.dev.awake = true ∧ plait c = some (t, i) ∧ i.cls = 11 ∧ s.dev.poised t i d1 ∧ left ≠ 0 ∧ 3 ≤ op ∧ d1.mload cx 5 a 1 = .ok d2 v ∧
         d2.mload cx 5 b 1 = .ok d3 w ∧ 6 ≤ op ∧ badDigits 4 v = false ∧ badDigits 4 w = false ∧ d3.mstore cx 5 a 1 r.1 = .ok d4 ()) :=
  ⟨⟨by decide +kernel, by decide +kernel, by decide +kernel, tPoised_spec (by decide +kernel), by decide +kernel⟩,
   ⟨by decide +kernel, by decide +kernel, by decide +kernel, tPoised_spec (by decide +kernel), by decide +kernel, by decide +kernel, tRes_spec (by decide +kernel), tRes_spec (by decide +kernel)⟩,
   ⟨by decide +kernel, by decide +kernel, by decide +kernel, tPoised_spec (by decide +kernel), by decide +kernel, by decide +kernel, tRes_spec (by decide +kernel), tRes_spec (by decide +kernel)⟩,
   ⟨by decide +kernel, by decide +kernel, by decide +kernel, tPoised_spec (by decide +kernel), by decide +kernel, by decide +kernel, tRes_spec (by decide +kernel)⟩,
   ⟨by decide +kernel, by decide +kernel, by decide +kernel, tPoised_spec (by decide +kernel), by decide +kernel, by decide +kernel, tRes_spec (by decide +kernel), tRes_spec (by decide +kernel), by decide +kernel, by decide +kernel⟩,
   ⟨by decide +kernel, by decide +kernel, by decide +kernel, tPoised_spec (by decide +kernel), by decide +kernel, by decide +kernel, tRes_spec (by decide +kernel), tRes_spec (by decide +kernel), by decide +kernel, by decide +kernel⟩,
   ⟨by decide +kernel, by decide +kernel, by decide +kernel, tPoised_spec (by decide +kernel), by decide +kernel, by decide +kernel, tRes_spec (by decide +kernel), tRes_spec (by decide +kernel), by decide +kernel⟩,
   ⟨by decide +kernel, by decide +kernel, by decide +kernel, tPoised_spec (by decide +kernel), by decide +kernel, by decide +kernel, tRes_spec (by decide +kernel), tRes_spec (by decide +kernel), by decide +kernel, by decide +kernel, by decide +kernel, tRes_spec (by decide +kernel)⟩⟩

theorem wit_PlaitBranches :
    (let s : State := (tS (tDev |>.put (HOOP_SVC_STATE 0) 2 |> fun d => { d with thr := { d.thr with t := [(0, { annul := true })] } }));
     let c : Instr := .nop (.engine 0 0) tArg; let t : ThreadId := .engine 0 0; let i : PIns := ofSys tArg 0;
     let d1 : Dev := (s.dev.entering t i.env).1; let h := d1.th (tid t);
     s.dev.awake = true ∧ plait c = some (t, i) ∧ s.dev.quiet t ∧ s.dev.fetched t i d1 ∧ i.legal (kindOf t) = true ∧ s.dev.placed t i ∧
         h.annul = true) ∧
    (let s : State := (tS (tDev |>.put (HOOP_SVC_STATE 0) 2)); let c : Instr := .nop (.engine 0 0) { tArg with gp := 1 };
     let t : ThreadId := .engine 0 0; let i : PIns := ofSys { tArg with gp := 1 } 0; let d1 : Dev := (s.dev.entering t i.env).1;
     let h := d1.th (tid t);
     s.dev.awake = true ∧ plait c = some (t, i) ∧ s.dev.quiet t ∧ s.dev.fetched t i d1 ∧ i.legal (kindOf t) = true ∧ s.dev.placed t i ∧
         h.annul = false ∧ i.guard h = false ∧ i.cls ≠ 9 ∧ i.cls ≠ 10) ∧
    (let s : State := (tS (tDev |>.put (HOOP_SVC_STATE 0) 2)); let c : Instr := .br (.engine 0 0) { tArg with gp := 1 };
     let t : ThreadId := .engine 0 0; let i : PIns := ofArg { tArg with gp := 1 } 9; let d1 : Dev := (s.dev.entering t i.env).1;
     let h := d1.th (tid t);
     s.dev.awake = true ∧ plait c = some (t, i) ∧ s.dev.quiet t ∧ s.dev.fetched t i d1 ∧ i.legal (kindOf t) = true ∧ s.dev.placed t i ∧
         h.annul = false ∧ i.guard h = false ∧ (i.cls = 9 ∨ i.cls = 10)) ∧
    (let s : State := (tS (tDev |>.put (HOOP_SVC_STATE 0) 2)); let c : Instr := .br (.engine 0 0) tArg; let t : ThreadId := .engine 0 0;
     let i : PIns := ofArg tArg 9; let d1 : Dev := (s.dev.entering t i.env).1; let h := d1.th (tid t);
     s.dev.awake = true ∧ plait c = some (t, i) ∧ s.dev.quiet t ∧ s.dev.fetched t i d1 ∧ i.legal (kindOf t) = true ∧ s.dev.placed t i ∧
         h.annul = false ∧ i.guard h = true ∧ i.cls = 9) ∧
    (let s : State := (tS (tDev |>.put (HOOP_SVC_STATE 0) 2)); let c : Instr := .jr (.engine 0 0) tReg; let t : ThreadId := .engine 0 0;
     let i : PIns := ofReg tReg 10 0; let d1 : Dev := (s.dev.entering t i.env).1; let h := d1.th (tid t);
     s.dev.awake = true ∧ plait c = some (t, i) ∧ s.dev.quiet t ∧ s.dev.fetched t i d1 ∧ i.legal (kindOf t) = true ∧ s.dev.placed t i ∧
         h.annul = false ∧ i.guard h = true ∧ i.cls = 10) ∧
    (let s : State := (tS (tDev |>.put (HOOP_SVC_STATE 0) 2)); let c : Instr := .br (.engine 0 0) tArg; let t : ThreadId := .engine 0 0;
     let i : PIns := ofArg tArg 9; let d1 : Dev := (s.dev.entering t i.env).1; let h := d1.th (tid t);
     s.dev.awake = true ∧ plait c = some (t, i) ∧ s.dev.quiet t ∧ s.dev.fetched t i d1 ∧ i.legal (kindOf t) = true ∧ s.dev.placed t i ∧
         h.npc = none) :=
  ⟨⟨by decide +kernel, by decide +kernel, tQuiet_spec (by decide +kernel), tFetched_spec (by decide +kernel), by decide +kernel, tPlaced_spec (by decide +kernel), by decide +kernel⟩,
   ⟨by decide +kernel, by decide +kernel, tQuiet_spec (by decide +kernel), tFetched_spec (by decide +kernel), by decide +kernel, tPlaced_spec (by decide +kernel), by decide +kernel, by decide +kernel, by decide +kernel, by decide +kernel⟩,
   ⟨by decide +kernel, by decide +kernel, tQuiet_spec (by decide +kernel), tFetched_spec (by decide +kernel), by decide +kernel, tPlaced_spec (by decide +kernel), by decide +kernel, by decide +kernel, by decide +kernel⟩,
   ⟨by decide +kernel, by decide +kernel, tQuiet_spec (by decide +kernel), tFetched_spec (by decide +kernel), by decide +kernel, tPlaced_spec (by decide +kernel), by decide +kernel, by decide +kernel, by decide +kernel⟩,
   ⟨by decide +kernel, by decide +kernel, tQuiet_spec (by decide +kernel), tFetched_spec (by decide +kernel), by decide +kernel, tPlaced_spec (by decide +kernel), by decide +kernel, by decide +kernel, by decide +kernel⟩,
   ⟨by decide +kernel, by decide +kernel, tQuiet_spec (by decide +kernel), tFetched_spec (by decide +kernel), by decide +kernel, tPlaced_spec (by decide +kernel), by decide +kernel⟩⟩

theorem wit_PlaitSystem :
    (let s : State := (tS (tDev |>.put (HOOP_SVC_STATE 0) 2)); let c : Instr := .flushp (.engine 0 0) tArg; let t : ThreadId := .engine 0 0;
     let i : PIns := ofSys tArg 6; let d1 : Dev := (s.dev.entering t i.env).1; let cx := (s.dev.entering t i.env).2;
     s.dev.awake = true ∧ plait c = some (t, i) ∧ i.cls = 15 ∧ s.dev.poised t i d1 ∧ (i.rd = 0 ∨ i.rd = 7 ∨ i.rd = 6 ∧ cx.user = false)) ∧
    (let s : State := (tS (tDev |>.put (HOOP_SVC_STATE 0) 2)); let c : Instr := .sync (.engine 0 0) tArg; let t : ThreadId := .engine 0 0;
     let i : PIns := ofSys tArg 2; let d1 : Dev := (s.dev.entering t i.env).1;
     s.dev.awake = true ∧ plait c = some (t, i) ∧ i.cls = 15 ∧ s.dev.poised t i d1 ∧ i.rd = 2) ∧
    (let s : State := (tS (tDev |>.put (HOOP_SVC_STATE 0) 2)); let c : Instr := .fenceL (.engine 0 0) tArg; let t : ThreadId := .engine 0 0;
     let i : PIns := { ofSys tArg 3 with ra := 0, rb := 0, fn := 0 }; let d1 : Dev := (s.dev.entering t i.env).1;
     s.dev.awake = true ∧ plait c = some (t, i) ∧ i.cls = 15 ∧ s.dev.poised t i d1 ∧ i.rd = 3) ∧
    (let s : State := tS tDev; let c : Instr := .mfc .handle { tArg with arg := 0x030 }; let t : ThreadId := .handle;
     let i : PIns := ofSys { tArg with arg := 0x030 } 4; let d1 : Dev := (s.dev.entering t i.env).1; let cx := (s.dev.entering t i.env).2;
     let h := d1.th (tid t); let n := i.arg % 1024; let reg := ctlReg (kindOf t) h.lvl (bit (h.cr 0x320) 1) n;
     let r := (⟨true, false, false, false⟩ : CtlReg);
     s.dev.awake = true ∧ plait c = some (t, i) ∧ i.cls = 15 ∧ s.dev.poised t i d1 ∧ i.rd = 4 ∧ reg = some r ∧
         (cx.user = false ∨ r.ur = true)) ∧
    (let s : State := tS tDev; let c : Instr := .mtc .handle { tArg with arg := 0x020 }; let t : ThreadId := .handle;
     let i : PIns := ofSys { tArg with arg := 0x020 } 5; let d1 : Dev := (s.dev.entering t i.env).1; let cx := (s.dev.entering t i.env).2;
     let h := d1.th (tid t); let n := i.arg % 1024; let reg := ctlReg (kindOf t) h.lvl (bit (h.cr 0x320) 1) n;
     let r := (⟨true, true, true, false⟩ : CtlReg);
     s.dev.awake = true ∧ plait c = some (t, i) ∧ i.cls = 15 ∧ s.dev.poised t i d1 ∧ i.rd = 5 ∧ reg = some r ∧ r.wr = true ∧
         (cx.user = false ∨ r.uw = true)) ∧
    (let s : State := tS tDev; let c : Instr := .mtc .handle { tArg with arg := 0x012 }; let t : ThreadId := .handle;
     let i : PIns := ofSys { tArg with arg := 0x012 } 5; let d1 : Dev := (s.dev.entering t i.env).1; let h := d1.th (tid t);
     let n := i.arg % 1024; let reg := ctlReg (kindOf t) h.lvl (bit (h.cr 0x320) 1) n; let r := (⟨true, true, true, true⟩ : CtlReg);
     s.dev.awake = true ∧ plait c = some (t, i) ∧ i.cls = 15 ∧ s.dev.poised t i d1 ∧ reg = some r ∧ r.wr = true ∧ r.sync = true) ∧
    (let s : State := (tS (tDev |>.put (STK_CORE_CTL_STATE 0) 1 |>.put MEM_STATUS_READY 1 |>.put MEM_STATUS_SIZE 1));
     let c : Instr := .hold (.stake 0) { tArg with arg := 4096 }; let t : ThreadId := .stake 0;
     let i : PIns := ofSys { tArg with arg := 4096 } 8; let d1 : Dev := tDevOf (tFetch s.dev t i); let cx := (s.dev.entering t i.env).2;
     s.dev.awake = true ∧ plait c = some (t, i) ∧ i.cls = 15 ∧ s.dev.poised t i d1 ∧ cx.user = false ∧ i.rd = 8) ∧
    (let s : State := (tS (tDev |>.put (STK_CORE_CTL_STATE 0) 1 |>.put MEM_STATUS_READY 1 |>.put MEM_STATUS_SIZE 1));
     let c : Instr := .release (.stake 0) tArg; let t : ThreadId := .stake 0; let i : PIns := ofSys tArg 9;
     let d1 : Dev := tDevOf (tFetch s.dev t i); let cx := (s.dev.entering t i.env).2;
     s.dev.awake = true ∧ plait c = some (t, i) ∧ i.cls = 15 ∧ s.dev.poised t i d1 ∧ cx.user = false ∧ i.rd = 9) ∧
    (let s : State := (tS (tDev |>.put (HOOP_SVC_STATE 0) 2)); let c : Instr := .wait (.engine 0 0) tArg; let t : ThreadId := .engine 0 0;
     let i : PIns := ofSys tArg 11; let d1 : Dev := (s.dev.entering t i.env).1; let cx := (s.dev.entering t i.env).2;
     s.dev.awake = true ∧ plait c = some (t, i) ∧ i.cls = 15 ∧ s.dev.poised t i d1 ∧ cx.user = false ∧ i.rd = 11) ∧
    (let s : State := (tS (tDev |> fun d => { d with thr := { d.thr with t := [(2048, { ctl := [(0, 4)] })] } }));
     let c : Instr := .rete .handle tArg; let t : ThreadId := .handle; let i : PIns := ofSys tArg 10;
     let d1 : Dev := (s.dev.entering t i.env).1; let cx := (s.dev.entering t i.env).2; let h := d1.th (tid t); let x := (h.rete).getD h;
     s.dev.awake = true ∧ plait c = some (t, i) ∧ i.cls = 15 ∧ s.dev.poised t i d1 ∧ cx.user = false ∧ i.rd = 10 ∧ h.rete = some x ∧
         kindOf t ≠ .engine) ∧
    (let s : State := (tS (tDev |>.put (DBG_CORE_CTL_BRKHALT 48) 1)); let c : Instr := .brk .handle { tArg with arg := 4095 };
     let t : ThreadId := .handle; let i : PIns := ofSys { tArg with arg := 4095 } 12; let d1 : Dev := (s.dev.entering t i.env).1;
     s.dev.awake = true ∧ plait c = some (t, i) ∧ i.cls = 15 ∧ s.dev.poised t i d1 ∧ i.rd = 12 ∧ kindOf t ≠ .engine ∧
         d1.get (DBG_CORE_CTL_BRKHALT (dbgCore t)) = 1) ∧
    (let s : State := (tS (tDev |>.put (HOOP_SVC_STATE 0) 2 |>.put (DBG_ENG_CTL_BRKHALT 0) 1)); let c : Instr := .brk (.engine 0 0) tArg;
     let t : ThreadId := .engine 0 0; let i : PIns := ofSys tArg 12; let d1 : Dev := (s.dev.entering t i.env).1; let e := 0; let x := 0;
     s.dev.awake = true ∧ plait c = some (t, i) ∧ i.cls = 15 ∧ s.dev.poised t i d1 ∧ i.rd = 12 ∧ t = .engine e x ∧
         d1.get (DBG_ENG_CTL_BRKHALT e) = 1) :=
  ⟨⟨by decide +kernel, by decide +kernel, by decide +kernel, tPoised_spec (by decide +kernel), by decide +kernel⟩,
   ⟨by decide +kernel, by decide +kernel, by decide +kernel, tPoised_spec (by decide +kernel), by decide +kernel⟩,
   ⟨by decide +kernel, by decide +kernel, by decide +kernel, tPoised_spec (by decide +kernel), by decide +kernel⟩,
   ⟨by decide +kernel, by decide +kernel, by decide +kernel, tPoised_spec (by decide +kernel), by decide +kernel, by decide +kernel, by decide +kernel⟩,
   ⟨by decide +kernel, by decide +kernel, by decide +kernel, tPoised_spec (by decide +kernel), by decide +kernel, by decide +kernel, by decide +kernel, by decide +kernel⟩,
   ⟨by decide +kernel, by decide +kernel, by decide +kernel, tPoised_spec (by decide +kernel), by decide +kernel, by decide +kernel, by decide +kernel⟩,
   ⟨by decide +kernel, by decide +kernel, by decide +kernel, tPoised_spec (by decide +kernel), by decide +kernel, by decide +kernel⟩,
   ⟨by decide +kernel, by decide +kernel, by decide +kernel, tPoised_spec (by decide +kernel), by decide +kernel, by decide +kernel⟩,
   ⟨by decide +kernel, by decide +kernel, by decide +kernel, tPoised_spec (by decide +kernel), by decide +kernel, by decide +kernel⟩,
   ⟨by decide +kernel, by decide +kernel, by decide +kernel, tPoised_spec (by decide +kernel), by decide +kernel, by decide +kernel, by decide +kernel, by decide +kernel⟩,
   ⟨by decide +kernel, by decide +kernel, by decide +kernel, tPoised_spec (by decide +kernel), by decide +kernel, by decide +kernel, by decide +kernel⟩,
   ⟨by decide +kernel, by decide +kernel, by decide +kernel, tPoised_spec (by decide +kernel), by decide +kernel, by decide +kernel, by decide +kernel⟩⟩

theorem wit_PlaitFaults :
    (let s : State := tS tDev; let c : Instr := .fadd .handle tReg; let t : ThreadId := .handle; let i : PIns := ofReg tReg 13 0;
     let d1 : Dev := (s.dev.entering t i.env).1; let h := d1.th (tid t);
     s.dev.awake = true ∧ plait c = some (t, i) ∧ kindOf t ≠ .engine ∧ s.dev.quiet t ∧ s.dev.fetched t i d1 ∧ h.pend = [] ∧
         i.legal (kindOf t) = false) ∧
    (let s : State := (tS (tDev |> fun d => { d with thr := { d.thr with t := [(2048, { slot := true })] } }));
     let c : Instr := .br .handle tArg; let t : ThreadId := .handle; let i : PIns := ofArg tArg 9;
     let d1 : Dev := (s.dev.entering t i.env).1; let h := d1.th (tid t);
     s.dev.awake = true ∧ plait c = some (t, i) ∧ kindOf t ≠ .engine ∧ s.dev.quiet t ∧ s.dev.fetched t i d1 ∧ h.pend = [] ∧
         i.noSlot = true ∧ h.slot = true) ∧
    (let s : State := (tS (tDev |>.put (STK_CORE_CTL_STATE 0) 1 |>.put MEM_STATUS_READY 1 |>.put MEM_STATUS_SIZE 1
         |> fun d => { d with thr := { d.thr with t := [(4096, { ctl := [(0, 1), (0x100, 1), (0x101, 4096)] })] } }
         |> fun d => { d with mem := { d.mem with dram := [(8192, 1), (8193, 0x20), (16384, 0xB7)] } }));
     let c : Instr := .flushp (.stake 0) tArg; let t : ThreadId := .stake 0; let i : PIns := ofSys tArg 6;
     let d1 : Dev := tDevOf (tFetch s.dev t i); let cx := (s.dev.entering t i.env).2; let h := d1.th (tid t);
     s.dev.awake = true ∧ plait c = some (t, i) ∧ kindOf t ≠ .engine ∧ s.dev.quiet t ∧ s.dev.fetched t i d1 ∧ h.pend = [] ∧
         s.dev.poised t i d1 ∧ i.cls = 15 ∧ cx.user = true ∧ i.rd ∈ [6, 8, 9, 10, 11]) ∧
    (let s : State := (tS (tDev |>.put (STK_CORE_CTL_STATE 0) 1 |>.put MEM_STATUS_READY 1 |>.put MEM_STATUS_SIZE 1
         |> fun d => { d with thr := { d.thr with t := [(4096, { ctl := [(0, 1), (0x100, 1), (0x101, 4096)] })] } }
         |> fun d => { d with mem := { d.mem with dram := [(8192, 1), (8193, 0x20), (16384, 0xB7)] } }));
     let c : Instr := .tlbiVa (.stake 0) tReg; let t : ThreadId := .stake 0; let i : PIns := ofCache tReg 8;
     let d1 : Dev := tDevOf (tFetch s.dev t i); let cx := (s.dev.entering t i.env).2; let h := d1.th (tid t);
     s.dev.awake = true ∧ plait c = some (t, i) ∧ kindOf t ≠ .engine ∧ s.dev.quiet t ∧ s.dev.fetched t i d1 ∧ h.pend = [] ∧
         s.dev.poised t i d1 ∧ i.cls = 4 ∧ i.fn / 4 = 6 ∧ cx.user = true ∧ (i.rd = 2 ∨ 8 ≤ i.rd)) ∧
    (let s : State := tS tDev; let c : Instr := .mfc .handle { tArg with arg := 0x010 }; let t : ThreadId := .handle;
     let i : PIns := ofSys { tArg with arg := 0x010 } 4; let d1 : Dev := (s.dev.entering t i.env).1; let h := d1.th (tid t);
     let n := i.arg % 1024;
     s.dev.awake = true ∧ plait c = some (t, i) ∧ kindOf t ≠ .engine ∧ s.dev.quiet t ∧ s.dev.fetched t i d1 ∧ h.pend = [] ∧
         s.dev.poised t i d1 ∧ i.cls = 15 ∧ (i.rd = 4 ∨ i.rd = 5) ∧ ctlReg (kindOf t) h.lvl (bit (h.cr 0x320) 1) n = none) ∧
    (let s : State := (tS (tDev |>.put (STK_CORE_CTL_STATE 0) 1 |>.put MEM_STATUS_READY 1 |>.put MEM_STATUS_SIZE 1
         |> fun d => { d with thr := { d.thr with t := [(4096, { ctl := [(0, 1), (0x100, 1), (0x101, 4096)] })] } }
         |> fun d => { d with mem := { d.mem with dram := [(8192, 1), (8193, 0x20), (16384, 0xB7)] } }));
     let c : Instr := .mfc (.stake 0) { tArg with arg := 0x202 }; let t : ThreadId := .stake 0;
     let i : PIns := ofSys { tArg with arg := 0x202 } 4; let d1 : Dev := tDevOf (tFetch s.dev t i); let cx := (s.dev.entering t i.env).2;
     let h := d1.th (tid t); let n := i.arg % 1024; let r := (⟨false, false, true, false⟩ : CtlReg);
     s.dev.awake = true ∧ plait c = some (t, i) ∧ kindOf t ≠ .engine ∧ s.dev.quiet t ∧ s.dev.fetched t i d1 ∧ h.pend = [] ∧
         s.dev.poised t i d1 ∧ ctlReg (kindOf t) h.lvl (bit (h.cr 0x320) 1) n = some r ∧ i.cls = 15 ∧ i.rd = 4 ∧ cx.user = true ∧
         r.ur = false) ∧
    (let s : State := tS tDev; let c : Instr := .mtc .handle { tArg with arg := 0x030 }; let t : ThreadId := .handle;
     let i : PIns := ofSys { tArg with arg := 0x030 } 5; let d1 : Dev := (s.dev.entering t i.env).1; let h := d1.th (tid t);
     let n := i.arg % 1024; let r := (⟨true, false, false, false⟩ : CtlReg);
     s.dev.awake = true ∧ plait c = some (t, i) ∧ kindOf t ≠ .engine ∧ s.dev.quiet t ∧ s.dev.fetched t i d1 ∧ h.pend = [] ∧
         s.dev.poised t i d1 ∧ ctlReg (kindOf t) h.lvl (bit (h.cr 0x320) 1) n = some r ∧ i.cls = 15 ∧ i.rd = 5 ∧ r.wr = false) ∧
    (let s : State := (tS (tDev |>.put (STK_CORE_CTL_STATE 0) 1 |>.put MEM_STATUS_READY 1 |>.put MEM_STATUS_SIZE 1
         |> fun d => { d with thr := { d.thr with t := [(4096, { ctl := [(0, 1), (0x100, 1), (0x101, 4096)] })] } }
         |> fun d => { d with mem := { d.mem with dram := [(8192, 1), (8193, 0x20), (16384, 0xB7)] } }));
     let c : Instr := .mtc (.stake 0) { tArg with arg := 0x202 }; let t : ThreadId := .stake 0;
     let i : PIns := ofSys { tArg with arg := 0x202 } 5; let d1 : Dev := tDevOf (tFetch s.dev t i); let cx := (s.dev.entering t i.env).2;
     let h := d1.th (tid t); let n := i.arg % 1024; let r := (⟨false, false, true, false⟩ : CtlReg);
     s.dev.awake = true ∧ plait c = some (t, i) ∧ kindOf t ≠ .engine ∧ s.dev.quiet t ∧ s.dev.fetched t i d1 ∧ h.pend = [] ∧
         s.dev.poised t i d1 ∧ ctlReg (kindOf t) h.lvl (bit (h.cr 0x320) 1) n = some r ∧ i.cls = 15 ∧ i.rd = 5 ∧ r.wr = true ∧
         cx.user = true ∧ r.uw = false) ∧
    (let s : State := tS tDev; let c : Instr := .trap .handle { tArg with arg := 4095 }; let t : ThreadId := .handle;
     let i : PIns := ofSys { tArg with arg := 4095 } 1; let d1 : Dev := (s.dev.entering t i.env).1; let h := d1.th (tid t);
     s.dev.awake = true ∧ plait c = some (t, i) ∧ kindOf t ≠ .engine ∧ s.dev.quiet t ∧ s.dev.fetched t i d1 ∧ h.pend = [] ∧
         s.dev.poised t i d1 ∧ i.cls = 15 ∧ i.rd = 1) ∧
    (let s : State := tS tDev; let c : Instr := .brk .handle { tArg with arg := 4095 }; let t : ThreadId := .handle;
     let i : PIns := ofSys { tArg with arg := 4095 } 12; let d1 : Dev := (s.dev.entering t i.env).1; let h := d1.th (tid t);
     s.dev.awake = true ∧ plait c = some (t, i) ∧ kindOf t ≠ .engine ∧ s.dev.quiet t ∧ s.dev.fetched t i d1 ∧ h.pend = [] ∧
         s.dev.poised t i d1 ∧ i.cls = 15 ∧ i.rd = 12 ∧ d1.get (DBG_CORE_CTL_BRKHALT (dbgCore t)) = 0) ∧
    (let s : State := tS tDev; let c : Instr := .rete .handle tArg; let t : ThreadId := .handle; let i : PIns := ofSys tArg 10;
     let d1 : Dev := (s.dev.entering t i.env).1; let cx := (s.dev.entering t i.env).2; let h := d1.th (tid t);
     s.dev.awake = true ∧ plait c = some (t, i) ∧ kindOf t ≠ .engine ∧ s.dev.quiet t ∧ s.dev.fetched t i d1 ∧ h.pend = [] ∧
         s.dev.poised t i d1 ∧ i.cls = 15 ∧ i.rd = 10 ∧ cx.user = false ∧ h.rete = none) ∧
    (let s : State := (tS (tDev |> fun d => { d with thr := { d.thr with t := [(2048, { g := [(1, 10)] })] } }));
     let c : Instr := .dtob .handle { tReg with ra := 1 }; let t : ThreadId := .handle; let i : PIns := ofReg { tReg with ra := 1 } 12 3;
     let d1 : Dev := (s.dev.entering t i.env).1; let h := d1.th (tid t);
     s.dev.awake = true ∧ plait c = some (t, i) ∧ kindOf t ≠ .engine ∧ s.dev.quiet t ∧ s.dev.fetched t i d1 ∧ h.pend = [] ∧
         s.dev.poised t i d1 ∧ i.cls = 12 ∧ i.fn % 8 = 3 ∧ badDigits 16 (h.gr i.ra) = true) ∧
    (let s : State := (tS (tDev |> fun d => { d with thr := { d.thr with t := [(2048, { g := [(1, 10)] })] } }));
     let c : Instr := .dsub .handle { tReg with ra := 1 }; let t : ThreadId := .handle; let i : PIns := ofReg { tReg with ra := 1 } 12 1;
     let d1 : Dev := (s.dev.entering t i.env).1; let h := d1.th (tid t);
     s.dev.awake = true ∧ plait c = some (t, i) ∧ kindOf t ≠ .engine ∧ s.dev.quiet t ∧ s.dev.fetched t i d1 ∧ h.pend = [] ∧
         s.dev.poised t i d1 ∧ i.cls = 12 ∧ i.fn % 8 ≤ 1 ∧ (badDigits 16 (h.gr i.ra) = true ∨ badDigits 16 (h.gr i.rb) = true)) :=
  ⟨⟨by decide +kernel, by decide +kernel, by decide +kernel, tQuiet_spec (by decide +kernel), tFetched_spec (by decide +kernel), by decide +kernel, by decide +kernel⟩,
   ⟨by decide +kernel, by decide +kernel, by decide +kernel, tQuiet_spec (by decide +kernel), tFetched_spec (by decide +kernel), by decide +kernel, by decide +kernel, by decide +kernel⟩,
   ⟨by decide +kernel, by decide +kernel, by decide +kernel, tQuiet_spec (by decide +kernel), tFetched_spec (by decide +kernel), by decide +kernel, tPoised_spec (by decide +kernel), by decide +kernel, by decide +kernel, by decide +kernel⟩,
   ⟨by decide +kernel, by decide +kernel, by decide +kernel, tQuiet_spec (by decide +kernel), tFetched_spec (by decide +kernel), by decide +kernel, tPoised_spec (by decide +kernel), by decide +kernel, by decide +kernel, by decide +kernel, by decide +kernel⟩,
   ⟨by decide +kernel, by decide +kernel, by decide +kernel, tQuiet_spec (by decide +kernel), tFetched_spec (by decide +kernel), by decide +kernel, tPoised_spec (by decide +kernel), by decide +kernel, by decide +kernel, by decide +kernel⟩,
   ⟨by decide +kernel, by decide +kernel, by decide +kernel, tQuiet_spec (by decide +kernel), tFetched_spec (by decide +kernel), by decide +kernel, tPoised_spec (by decide +kernel), by decide +kernel, by decide +kernel, by decide +kernel, by decide +kernel, by decide +kernel⟩,
   ⟨by decide +kernel, by decide +kernel, by decide +kernel, tQuiet_spec (by decide +kernel), tFetched_spec (by decide +kernel), by decide +kernel, tPoised_spec (by decide +kernel), by decide +kernel, by decide +kernel, by decide +kernel, by decide +kernel⟩,
   ⟨by decide +kernel, by decide +kernel, by decide +kernel, tQuiet_spec (by decide +kernel), tFetched_spec (by decide +kernel), by decide +kernel, tPoised_spec (by decide +kernel), by decide +kernel, by decide +kernel, by decide +kernel, by decide +kernel, by decide +kernel, by decide +kernel⟩,
   ⟨by decide +kernel, by decide +kernel, by decide +kernel, tQuiet_spec (by decide +kernel), tFetched_spec (by decide +kernel), by decide +kernel, tPoised_spec (by decide +kernel), by decide +kernel, by decide +kernel⟩,
   ⟨by decide +kernel, by decide +kernel, by decide +kernel, tQuiet_spec (by decide +kernel), tFetched_spec (by decide +kernel), by decide +kernel, tPoised_spec (by decide +kernel), by decide +kernel, by decide +kernel, by decide +kernel⟩,
   ⟨by decide +kernel, by decide +kernel, by decide +kernel, tQuiet_spec (by decide +kernel), tFetched_spec (by decide +kernel), by decide +kernel, tPoised_spec (by decide +kernel), by decide +kernel, by decide +kernel, by decide +kernel, by decide +kernel⟩,
   ⟨by decide +kernel, by decide +kernel, by decide +kernel, tQuiet_spec (by decide +kernel), tFetched_spec (by decide +kernel), by decide +kernel, tPoised_spec (by decide +kernel), by decide +kernel, by decide +kernel, by decide +kernel⟩,
   ⟨by decide +kernel, by decide +kernel, by decide +kernel, tQuiet_spec (by decide +kernel), tFetched_spec (by decide +kernel), by decide +kernel, tPoised_spec (by decide +kernel), by decide +kernel, by decide +kernel, by decide +kernel⟩⟩

theorem wit_CoreRequests :
    (let c : Core := 0;
     let s : State := (tS (tDev |>.put (STK_CORE_CTL_STATE c) 1
         |> fun d => { d with thr := { d.thr with t := [(4096 + c.val, { ctl := [(0, 32)], hold := 1 })] } }));
     let d := s.dev; let k := 4096 + c.val; s.dev.awake = true ∧ s.dev.coreUp c = true ∧ (d.th k).held = true) ∧
    (let c : Core := 0; let s : State := (tS (tDev |>.put (STK_CORE_CTL_STATE c) 1)); let d := s.dev; let k := 4096 + c.val;
     s.dev.awake = true ∧ s.dev.coreUp c = true ∧ (d.th k).held = false) ∧
    (let a := 0; let v := 0; let c : Core := 0; let r := 0;
     let s : State := (tS (tDev |>.put (STK_CORE_CTL_STATE c) 1
         |> fun d => { d with thr := { d.thr with t := [(4096 + c.val, { mc := some (r, v, a) })] } }));
     let d := s.dev; let k := 4096 + c.val; let x := d.ctxFor io (.stake c) false {}; let b := x.1.boundary x.2; let h := b.1.th k;
     let low := h.lvl = 0 ∨ h.lvl = 1 ∧ h.rel = true;
     s.dev.awake = true ∧ s.dev.coreUp c = true ∧ (d.th k).pend = [] ∧ h.stepping = 0 ∧ h.mc = some (r, v, a) ∧ low) ∧
    (let a := 0; let v := 0; let c : Core := 0; let r := 0;
     let s : State := (tS (tDev |>.put (STK_CORE_CTL_STATE c) 1
         |> fun d => { d with thr := { d.thr with t := [(4096 + c.val, { mc := some (r, v, a), ctl := [(0, 4)] })] } }));
     let d := s.dev; let k := 4096 + c.val; let x := d.ctxFor io (.stake c) false {}; let b := x.1.boundary x.2; let h := b.1.th k;
     s.dev.awake = true ∧ s.dev.coreUp c = true ∧ (d.th k).pend = [] ∧ h.stepping = 0 ∧ h.mc = some (r, v, a) ∧ h.lvl = 1 ∧ h.rel = false) ∧
    (let u := 0; let n := 0; let pc := 0; let c : Core := 0;
     let s : State := (tS (tDev |>.put (STK_CORE_CTL_STATE c) 1
         |> fun d => { d with thr := { d.thr with t := [(4096 + c.val, { fpt := some (pc, u, n) })] } }));
     let d := s.dev; let k := 4096 + c.val; let x := d.ctxFor io (.stake c) false {}; let b := x.1.boundary x.2; let h := b.1.th k;
     let low := h.lvl = 0 ∨ h.lvl = 1 ∧ h.rel = true;
     s.dev.awake = true ∧ s.dev.coreUp c = true ∧ (d.th k).pend = [] ∧ h.stepping = 0 ∧ h.mc = none ∧ h.fpt = some (pc, u, n) ∧ low ∧
         h.held = false) ∧
    (let c : Core := 0;
     let s : State := (tS (tDev |>.put (STK_CORE_CTL_STATE c) 1
         |> fun d => { d with thr := { d.thr with t := [(4096 + c.val, { ctl := [(0, 2), (0x202, 1), (0x203, 1)] })] } }));
     let d := s.dev; let k := 4096 + c.val; let x := d.ctxFor io (.stake c) false {}; let b := x.1.boundary x.2; let h := b.1.th k;
     let low := h.lvl = 0 ∨ h.lvl = 1 ∧ h.rel = true; let n := 0;
     s.dev.awake = true ∧ s.dev.coreUp c = true ∧ (d.th k).pend = [] ∧ h.stepping = 0 ∧ h.mc = none ∧ h.fpt = none ∧ h.haltReq = none ∧
         h.irqNow = some n ∧ low ∧ h.held = false ∧ bit (h.cr 0) 1 = true) ∧
    (let c : Core := 0; let s : State := (tS (tDev |>.put (STK_CORE_CTL_STATE c) 1)); let d := s.dev; let k := 4096 + c.val;
     let x := d.ctxFor io (.stake c) false {}; let b := x.1.boundary x.2; let h := b.1.th k;
     s.dev.awake = true ∧ s.dev.coreUp c = true ∧ (d.th k).pend = [] ∧ h.stepping = 0 ∧ h.mc = none ∧ h.fpt = none ∧ h.irqNow = none) :=
  by refine ⟨?_, ?_, ?_, ?_, ?_, ?_, ?_⟩ <;> decide +kernel

theorem wit_CoreControl :
    (let c : Core := 0; let s : State := (tS (tDev |>.put (STK_CORE_CTL_STATE c) 3)); let d := s.dev; s.dev.awake = true ∧ d.coreDead c = true) ∧
    (let c : Core := 0; let s : State := (tS (tDev |>.put (STK_CORE_CTL_BUSY c) 1 )); let d := s.dev;
     s.dev.awake = true ∧ d.coreDead c = false ∧ d.get (STK_CORE_CTL_BUSY c) = 1) ∧
    (let c : Core := 0; let s : State := (tS (tDev |>.put (STK_CORE_CTL_BUSY c) 0 |>.put (STK_CORE_CTL_STATE c) 1 )); let d := s.dev;
     s.dev.awake = true ∧ d.coreDead c = false ∧ d.get (STK_CORE_CTL_BUSY c) = 0 ∧ d.get (STK_CORE_CTL_STATE c) ≠ 0) ∧
    (let c : Core := 0;
     let s : State := (tS (tDev |>.put (STK_CORE_CTL_BUSY c) 0 |>.put (STK_CORE_CTL_STATE c) 0 |>.put (DBG_CORE_STAT_HALTPEND c) 0
         |>.put (STK_CORE_CFG_AUTO c) 1 |> fun d => { d with thr := { d.thr with t := [(4096 + c.val, { autoDue := true })] } }));
     let d := s.dev; let k := 4096 + c.val;
     s.dev.awake = true ∧ d.coreDead c = false ∧ d.get (STK_CORE_CTL_BUSY c) = 0 ∧ d.get (STK_CORE_CTL_STATE c) = 0 ∧
         d.get (DBG_CORE_STAT_HALTPEND c) = 0 ∧ d.get (STK_CORE_CFG_AUTO c) = 1 ∧ (d.th k).autoDue = true) ∧
    (let c : Core := 0; let s : State := (tS (tDev |>.put (STK_CORE_CTL_BUSY c) 0 )); let d := s.dev; let k := 4096 + c.val;
     s.dev.awake = true ∧ d.coreDead c = false ∧ d.get (STK_CORE_CTL_BUSY c) = 0 ∧
         (d.get (STK_CORE_CFG_AUTO c) = 0 ∨ (d.th k).autoDue = false)) ∧
    (let c : Core := 0;
     let s : State := (tS (tDev |>.put (STK_CORE_CTL_BUSY c) 0 |>.put (STK_CORE_CTL_STATE c) 0 |>.put (DBG_CORE_STAT_HALTPEND c) 1 ));
     let d := s.dev; let k := 4096 + c.val;
     s.dev.awake = true ∧ d.coreDead c = false ∧ d.get (STK_CORE_CTL_BUSY c) = 0 ∧ d.get (STK_CORE_CTL_STATE c) = 0 ∧
         d.get (DBG_CORE_STAT_HALTPEND c) = 1 ∧ (d.th k).link = none ∧ (d.th k).annul = false) ∧
    (let e : BufEnt := ⟨0, true, [], []⟩; let c : Core := 0; let m : Bool := false;
     let s : State := (tS (tDev |> fun d => { d with mem := { d.mem with buf := [(2 * c.val + b2n m, [e])] } })); let d := s.dev;
     let i : BitVec 8 := 0; s.dev.awake = true ∧ (d.bufOf c (b2n m))[i.toNat]? = some e) :=
  by refine ⟨?_, ?_, ?_, ?_, ?_, ?_, ?_⟩ <;> decide +kernel

theorem wit_ClustersAndMemory :
    (let k : Cluster := 0; let s : State := (tS (tDev |>.put (STK_CLU_SVC_BUSY k) 1 |>.put (STK_CLU_SVC_STATE k) 1 )); let d := s.dev;
     let st := d.get (STK_CLU_SVC_STATE k); s.dev.awake = true ∧ d.get (STK_CLU_SVC_BUSY k) = 1 ∧ st = 1) ∧
    (let k : Cluster := 0; let s : State := (tS (tDev |>.put (STK_CLU_SVC_BUSY k) 1 |>.put (STK_CLU_SVC_STATE k) 2 )); let d := s.dev;
     let st := d.get (STK_CLU_SVC_STATE k); s.dev.awake = true ∧ d.get (STK_CLU_SVC_BUSY k) = 1 ∧ st = 2) ∧
    (let k : Cluster := 0; let s : State := (tS (tDev |>.put (STK_CLU_SVC_BUSY k) 0 |>.put (STK_CLU_SVC_STATE k) 2 )); let d := s.dev;
     let st := d.get (STK_CLU_SVC_STATE k); s.dev.awake = true ∧ d.get (STK_CLU_SVC_BUSY k) = 0 ∧ st = 2) ∧
    (let k : Cluster := 0; let s : State := (tS (tDev |>.put (STK_CLU_SVC_BUSY k) 0 |>.put (STK_CLU_SVC_STATE k) 0 )); let d := s.dev;
     let st := d.get (STK_CLU_SVC_STATE k); s.dev.awake = true ∧ d.get (STK_CLU_SVC_BUSY k) = 0 ∧ st = 0) ∧
    (let k : Cluster := 0; let s : State := (tS (tDev |>.put (STK_CLU_SVC_BUSY k) 0 |>.put (STK_CLU_SVC_STATE k) 3)); let d := s.dev;
     let st := d.get (STK_CLU_SVC_STATE k); s.dev.awake = true ∧ d.get (STK_CLU_SVC_BUSY k) = 0 ∧ (st = 0 ∨ st = 3)) ∧
    (let s : State := (tS (tDev |>.put MEM_INIT_BUSY 1 |> fun d => { d with mem := { d.mem with initOp := 1 } })); let d := s.dev;
     s.dev.awake = true ∧ d.get MEM_INIT_BUSY = 1 ∧ d.mem.initOp = 1) ∧
    (let s : State := (tS (tDev |>.put MEM_INIT_BUSY 1 |> fun d => { d with mem := { d.mem with initOp := 2 } })); let d := s.dev;
     s.dev.awake = true ∧ d.get MEM_INIT_BUSY = 1 ∧ d.mem.initOp = 2) ∧
    (let s : State := (tS (tDev |>.put MEM_INIT_BUSY 0 |>.put MEM_STATUS_TRAINED 0 )); let d := s.dev;
     s.dev.awake = true ∧ d.get MEM_INIT_BUSY = 0 ∧ d.get MEM_STATUS_TRAINED = 0) ∧
    (let s : State := (tS (tDev |>.put MEM_INIT_BUSY 0 |>.put MEM_STATUS_TRAINED 1 )); let d := s.dev;
     s.dev.awake = true ∧ d.get MEM_INIT_BUSY = 0 ∧ d.get MEM_STATUS_TRAINED = 1) ∧
    (let s : State := (tS (tDev |>.put SCR_CMD_BUSY 1 )); let d := s.dev; s.dev.awake = true ∧ d.get SCR_CMD_BUSY = 1) ∧
    (let s : State := (tS (tDev |>.put SCR_CMD_BUSY 0 |>.put MEM_STATUS_READY 0 )); let d := s.dev;
     s.dev.awake = true ∧ d.get SCR_CMD_BUSY = 0 ∧ d.get MEM_STATUS_READY = 0) ∧
    (let s : State := (tS (tDev |>.put SCR_CMD_BUSY 0 |>.put MEM_STATUS_READY 1 )); let d := s.dev; let a := d.get SCR_START_ADDR;
     let b := d.get SCR_END_ADDR; let range := a % 32 = 0 ∧ b % 32 = 0 ∧ a < b ∧ b ≤ d.dramTop;
     s.dev.awake = true ∧ d.get SCR_CMD_BUSY = 0 ∧ d.get MEM_STATUS_READY = 1 ∧ ¬ range) ∧
    (let s : State := (tS (tDev |>.put SCR_CMD_BUSY 0 |>.put MEM_STATUS_READY 1 |>.put MEM_STATUS_SIZE 1 |>.put SCR_START_ADDR 0
         |>.put SCR_END_ADDR 32 |>.put SCR_DEST_ADDR 1));
     let d := s.dev; let a := d.get SCR_START_ADDR; let b := d.get SCR_END_ADDR; let p := d.get SCR_DEST_ADDR;
     let range := a % 32 = 0 ∧ b % 32 = 0 ∧ a < b ∧ b ≤ d.dramTop;
     let dest := p % 4 = 0 ∧ p + 128 ≤ d.dramTop ∧ ∀ e ∈ d.mem.prot, p + 128 ≤ e.2.1 ∨ e.2.2 ≤ p;
     s.dev.awake = true ∧ d.get SCR_CMD_BUSY = 0 ∧ d.get MEM_STATUS_READY = 1 ∧ range ∧ ¬ dest) ∧
    (let s : State := (tS (tDev |>.put SCR_CMD_BUSY 0 |>.put MEM_STATUS_READY 1 |>.put MEM_STATUS_SIZE 1 |>.put SCR_START_ADDR 0
         |>.put SCR_END_ADDR 32 |>.put SCR_DEST_ADDR 64));
     let d := s.dev; let a := d.get SCR_START_ADDR; let b := d.get SCR_END_ADDR; let p := d.get SCR_DEST_ADDR;
     let range := a % 32 = 0 ∧ b % 32 = 0 ∧ a < b ∧ b ≤ d.dramTop;
     let dest := p % 4 = 0 ∧ p + 128 ≤ d.dramTop ∧ ∀ e ∈ d.mem.prot, p + 128 ≤ e.2.1 ∨ e.2.2 ≤ p;
     s.dev.awake = true ∧ d.get SCR_CMD_BUSY = 0 ∧ d.get MEM_STATUS_READY = 1 ∧ range ∧ dest) ∧
    (let s : State := tS tDev; let d := s.dev; s.dev.awake = true ∧ d.mem.scrub = none) ∧
    (let y : Scrub := ⟨0, 32, 64, 0, 0, false, 0, 0, 0, [], [], 0⟩;
     let s : State := (tS (tDev |> fun d => { d with mem := { d.mem with scrub := some y } })); let d := s.dev;
     s.dev.awake = true ∧ d.mem.scrub = some y ∧ y.next < y.stop ∧ y.abort = false) ∧
    (let y : Scrub := ⟨0, 32, 64, 0, 32, false, 0, 0, 0, [], [], 0⟩;
     let s : State := (tS (tDev |> fun d => { d with mem := { d.mem with scrub := some y } })); let d := s.dev;
     s.dev.awake = true ∧ d.mem.scrub = some y ∧ (y.stop ≤ y.next ∨ y.abort = true)) :=
  by refine ⟨?_, ?_, ?_, ?_, ?_, ?_, ?_, ?_, ?_, ?_, ?_, ?_, ?_, ?_, ?_, ?_, ?_⟩ <;> decide +kernel

theorem wit_TimeBase :
    (let s : State := tS tDev; let d := s.dev; s.dev.onAir = true ∧ d.awake = true) ∧
    (let s : State := tS tDev; let d := s.dev; s.dev.onAir = true ∧ d.tb.slotDue = 0) ∧
    (let s : State := (tS (tDev |> fun d => { d with tb := { d.tb with slotDue := 1 } })); let d := s.dev; s.dev.onAir = true ∧ d.tb.slotDue ≠ 0) :=
  by refine ⟨?_, ?_, ?_⟩ <;> decide +kernel

theorem wit_ChannelsAndTimers :
    (let n : Nat := 0; let d : Dev := (tDev |>.put (TB_CMP_CFG_ARM n) 1 ); let v := d.get (TB_CMP_VAL_VALUE n);
     n < 32 ∧ d.get (TB_CMP_CFG_ARM n) = 1 ∧ v ≤ d.now) ∧
    (let d : Dev := (tDev ); let n : Nat := 0; let v := d.get (TB_CMP_VAL_VALUE n); n < 32 ∧ (d.get (TB_CMP_CFG_ARM n) = 0 ∨ d.now < v)) ∧
    (let n : Fin 32 := 0; let s : State := (tS (tDev |>.put (TB_CMP_CFG_ARM n) 1 )); let d := s.dev;
     s.dev.onAir = true ∧ d.get (TB_CMP_CFG_ARM n) = 1 ∧ d.get (TB_CMP_VAL_VALUE n) ≤ d.tbNext.1) ∧
    (let s : State := tS tDev; let n : Fin 32 := 0; let d := s.dev;
     s.dev.onAir = true ∧ (d.get (TB_CMP_CFG_ARM n) = 0 ∨ d.tbNext.1 < d.get (TB_CMP_VAL_VALUE n))) ∧
    (let d : Dev := (tDev |>.put (STK_CORE_CTL_STATE 0) 1); let n : Nat := 0; let arg : Nat := 0; let j := 0;
     d.coreHears (arg % 64) = true ∧ d.asleep = false ∧ n < 58 ∧ j ≠ 4096 + arg % 64) ∧
    (let d : Dev := (tDev ); let arg : Nat := 0; (d.coreHears (arg % 64) = false ∨ d.asleep = true)) ∧
    (let s : State := tS tDev; let d := s.dev; let v : BitVec 32 := 1; s.dev.onAir = true ∧ d.awake = true ∧ v ≠ 0) ∧
    (let k : Fin 16 := 0; let s : State := (tS (tDev |>.put (TB_TMR_COUNT_COUNT k) 2 |>.put (TB_TMR_PERIOD_PERIOD k) 1)); let d := s.dev;
     let periods := (d.tickTo.1.timers d.tickTo.2).2; s.dev.onAir = true ∧ periods.getD k false = true) ∧
    (let s : State := tS tDev; let k : Fin 16 := 0; let d := s.dev; let periods := (d.tickTo.1.timers d.tickTo.2).2;
     s.dev.onAir = true ∧ periods.getD k false = false) ∧
    (let k : Nat := 0; let d : Dev := (tDev |>.put DBG_FRZ_TMR 1 |>.put (TB_TMR_TGT_TGT k) 1 |>.put (DBG_CORE_STAT_HALTED 0) 1);
     d.timerFrozen k = true) ∧
    (let k : Nat := 0; let d : Dev := (tDev |>.put (TB_TMR_COUNT_COUNT k) 2 |>.put (TB_TMR_PERIOD_PERIOD k) 1);
     let c := d.get (TB_TMR_COUNT_COUNT k); let p := d.get (TB_TMR_PERIOD_PERIOD k); d.timerFrozen k = false ∧ p < c) ∧
    (let k : Nat := 0; let d : Dev := (tDev |>.put (TB_TMR_CFG_RSTM k) 1); let l : List Bool := [true]; let c := d.get (TB_TMR_COUNT_COUNT k);
     let p := d.get (TB_TMR_PERIOD_PERIOD k); let m := d.get (TB_TMR_CFG_MASTER k);
     let cut := d.get (TB_TMR_CFG_RSTM k) = 1 ∧ l.getD m false = true; d.timerFrozen k = false ∧ c ≤ p ∧ cut) ∧
    (let x : TickIn := ⟨false, false, []⟩; let k : Nat := 0; let d : Dev := (tDev |>.put (TB_TMR_CTL_RUN k) 1 |>.put (TB_TMR_PERIOD_PERIOD k) 2);
     let l : List Bool := []; let c := d.get (TB_TMR_COUNT_COUNT k); let p := d.get (TB_TMR_PERIOD_PERIOD k);
     let m := d.get (TB_TMR_CFG_MASTER k); let cut := d.get (TB_TMR_CFG_RSTM k) = 1 ∧ l.getD m false = true;
     let counts := d.get (TB_TMR_CTL_RUN k) = 1 ∧ (d.get (TB_TMR_CFG_GATEM k) = 1 → x.run.getD m false = true) ∧
         (d.get (TB_TMR_CFG_CLK k) = 0 ∨ d.get (TB_TMR_CFG_CLK k) = 1 ∧ x.slot = true ∨ d.get (TB_TMR_CFG_CLK k) = 2 ∧
         x.mgmt = true ∨ d.get (TB_TMR_CFG_CLK k) = 3 ∧ l.getD m false = true);
     d.timerFrozen k = false ∧ c ≤ p ∧ ¬ cut ∧ counts ∧ c + 1 < p) ∧
    (let x : TickIn := ⟨false, false, []⟩; let k : Nat := 0; let d : Dev := (tDev |>.put (TB_TMR_CTL_RUN k) 1 |>.put (TB_TMR_PERIOD_PERIOD k) 1);
     let l : List Bool := []; let c := d.get (TB_TMR_COUNT_COUNT k); let p := d.get (TB_TMR_PERIOD_PERIOD k);
     let m := d.get (TB_TMR_CFG_MASTER k); let cut := d.get (TB_TMR_CFG_RSTM k) = 1 ∧ l.getD m false = true;
     let counts := d.get (TB_TMR_CTL_RUN k) = 1 ∧ (d.get (TB_TMR_CFG_GATEM k) = 1 → x.run.getD m false = true) ∧
         (d.get (TB_TMR_CFG_CLK k) = 0 ∨ d.get (TB_TMR_CFG_CLK k) = 1 ∧ x.slot = true ∨ d.get (TB_TMR_CFG_CLK k) = 2 ∧
         x.mgmt = true ∨ d.get (TB_TMR_CFG_CLK k) = 3 ∧ l.getD m false = true);
     d.timerFrozen k = false ∧ c ≤ p ∧ ¬ cut ∧ counts ∧ p ≤ c + 1) ∧
    (let x : TickIn := ⟨false, false, []⟩; let k : Nat := 0; let d : Dev := (tDev |>.put (TB_TMR_CFG_CLK k) 3 ); let l : List Bool := [];
     let c := d.get (TB_TMR_COUNT_COUNT k); let p := d.get (TB_TMR_PERIOD_PERIOD k); let m := d.get (TB_TMR_CFG_MASTER k);
     let cut := d.get (TB_TMR_CFG_RSTM k) = 1 ∧ l.getD m false = true;
     let counts := d.get (TB_TMR_CTL_RUN k) = 1 ∧ (d.get (TB_TMR_CFG_GATEM k) = 1 → x.run.getD m false = true) ∧
         (d.get (TB_TMR_CFG_CLK k) = 0 ∨ d.get (TB_TMR_CFG_CLK k) = 1 ∧ x.slot = true ∨ d.get (TB_TMR_CFG_CLK k) = 2 ∧
         x.mgmt = true ∨ d.get (TB_TMR_CFG_CLK k) = 3 ∧ l.getD m false = true);
     d.timerFrozen k = false ∧ c ≤ p ∧ ¬ cut ∧ ¬ counts ∧ d.get (TB_TMR_CFG_CLK k) < 4) :=
  by refine ⟨?_, ?_, ?_, ?_, ?_, ?_, ?_, ?_, ?_, ?_, ?_, ?_, ?_, ?_, ?_⟩ <;> decide +kernel

theorem wit_Watchdogs :
    (let s : State := tS tDev; let d := s.dev; let r : Requester := .handle; let k : BitVec 2 := 3; let u : BitVec 6 := 0;
     let key : BitVec 16 := 0xA55A; let ok := key = 0xA55A ∧ (k = 0 ∧ u.toNat < 48 ∨ k = 3 ∧ r = .handle);
     s.dev.onAir = true ∧ d.awake = true ∧ ok) ∧
    (let s : State := tS tDev; let d := s.dev; let r : Requester := .handle; let k : BitVec 2 := 0; let u : BitVec 6 := 0;
     let key : BitVec 16 := 0; let ok := key = 0xA55A ∧ (k = 0 ∧ u.toNat < 48 ∨ k = 3 ∧ r = .handle);
     s.dev.onAir = true ∧ d.awake = true ∧ ¬ ok) ∧
    (let s : State := tS tDev; let d := s.dev; let w : Watchdog := .handle; let c := w.cls; let u := w.unit;
     let due := d.wdRuns c u = true ∧ d.wdFrozen c u = false ∧ d.wdLeft c u ≤ 1; s.dev.onAir = true ∧ ¬ due) ∧
    (let s : State := (tS (tDev |>.put TB_WD_HANDLE_EN 1 |>.put TB_WD_HANDLE_TIMEOUT 0)); let d := s.dev; let w : Watchdog := .handle;
     let c := w.cls; let u := w.unit; let due := d.wdRuns c u = true ∧ d.wdFrozen c u = false ∧ d.wdLeft c u ≤ 1; s.dev.onAir = true ∧ due) ∧
    (let s : State := tS tDev; let d := s.dev; s.dev.onAir = true ∧ d.tb.trialDue = false) ∧
    (let s : State := (tS (tDev |> fun d => { d with tb := { d.tb with trialDue := true } } |>.put BOOT_STATUS_TRIAL (2 ^ trialBit 3)));
     let d := s.dev; s.dev.onAir = true ∧ d.tb.trialDue = true ∧ d.onTrial 3 = true) ∧
    (let s : State := (tS (tDev |> fun d => { d with tb := { d.tb with trialDue := true } })); let d := s.dev;
     s.dev.onAir = true ∧ d.tb.trialDue = true ∧ d.onTrial 3 = false) ∧
    (let s : State := tS tDev; let d := s.dev; s.dev.onAir = true ∧ d.tb.warmDue = false) ∧
    (let s : State := (tS (tDev |> fun d => { d with tb := { d.tb with warmDue := true } })); let d := s.dev;
     s.dev.onAir = true ∧ d.tb.warmDue = true) :=
  by refine ⟨?_, ?_, ?_, ?_, ?_, ?_, ?_, ?_, ?_⟩ <;> decide +kernel

theorem wit_TickResults :
    (let n : Fin 32 := 0; let s : State := (tS (tDev |>.put (TB_CMP_CFG_ARM n) 1 )); let d := s.dev; let v := d.get (TB_CMP_VAL_VALUE n);
     s.dev.onAir = true ∧ d.get (TB_CMP_CFG_ARM n) = 1 ∧ v ≤ d.tbNext.1) ∧
    (let k : Fin 16 := 0; let s : State := (tS (tDev |>.put (TB_TMR_COUNT_COUNT k) 2 |>.put (TB_TMR_PERIOD_PERIOD k) 1)); let d := s.dev;
     s.dev.onAir = true ∧ (d.tickTo.1.timers d.tickTo.2).2.getD k false = true) :=
  by refine ⟨?_, ?_⟩ <;> decide +kernel

theorem wit_ImagesAndMeasurements :
    (let d : Dev := (tDev ); let kind : Nat := 0; let b : List Byte := []; let r := 1; d.checkImg kind b = .error r) ∧
    (let d : Dev := (tDev |> fun d => { d with fuse := tFuse }); let kind : Nat := 4; let b : List Byte := tImg4.take 512 ++ [1, 0];
     let h := slice b 0 512; let body := slice b 512 (hdrBodyLen h);
     let sound := leAt h 0 4 = 0x4D495A56 ∧ byteAt h 4 = 1 ∧ byteAt h 5 = kind ∧ hdrReserved h kind = false ∧ hdrBodyLen h ≠ 0 ∧
         hdrBodyLen h % 2 = 0 ∧ hdrBodyLen h ≤ imgLimit kind;
     let signed := beNat (sha384 (slice h 80 96)) = d.keyOf kind ∧
         ecdsaVerify (slice h 80 96) (sha384 (slice h 0 416)) (slice h 416 96) = true;
     let fresh := kind ≤ 4 → d.fuse.svn kind ≤ byteAt h 6; sound ∧ signed ∧ fresh ∧ sha384 body ≠ slice h 32 48) ∧
    (let d : Dev := (tDev |> fun d => { d with fuse := { tFuse with svn3 := 1 } }); let kind : Nat := 4; let b : List Byte := tImg4;
     let h := slice b 0 512;
     let sound := leAt h 0 4 = 0x4D495A56 ∧ byteAt h 4 = 1 ∧ byteAt h 5 = kind ∧ hdrReserved h kind = false ∧ hdrBodyLen h ≠ 0 ∧
         hdrBodyLen h % 2 = 0 ∧ hdrBodyLen h ≤ imgLimit kind;
     let signed := beNat (sha384 (slice h 80 96)) = d.keyOf kind ∧
         ecdsaVerify (slice h 80 96) (sha384 (slice h 0 416)) (slice h 416 96) = true;
     let fresh := kind ≤ 4 → d.fuse.svn kind ≤ byteAt h 6; sound ∧ signed ∧ ¬ fresh) ∧
    (let s : State := tS tDev; let i : BitVec 4 := 0; s.dev.awake = true ∧ i.toNat < 8) ∧
    (let s : State := tS tDev; let i : BitVec 4 := 8; s.dev.awake = true ∧ 8 ≤ i.toNat) :=
  ⟨tErr_spec (by decide +kernel),
   by
    have h : slice (tImg4.take 512 ++ [1, 0]) 0 512 = slice tImg4 0 512 := by decide +kernel
    dsimp only
    rw [h]
    exact ⟨by decide +kernel, ⟨by decide +kernel, tSigned⟩, by decide +kernel, by decide +kernel⟩,
   ⟨by decide +kernel, ⟨by decide +kernel, tSigned⟩, by decide +kernel⟩,
   by decide +kernel,
   by decide +kernel⟩

theorem wit_BootStages :
    (let s : State := (tS (tDev |>.put BOOT_STATUS_STAGE 1 )); let d := s.dev; let st := d.get BOOT_STATUS_STAGE; s.dev.awake = true ∧ st ≠ 0) ∧
    (let s : State := (tS (tDev |>.put BOOT_STATUS_STAGE 0 )); let d := s.dev; let st := d.get BOOT_STATUS_STAGE; s.dev.awake = true ∧ st ≠ 1) ∧
    (let s : State := (tS (tDev |>.put BOOT_STATUS_STAGE 0 )); let d := s.dev; let st := d.get BOOT_STATUS_STAGE; s.dev.awake = true ∧ st ≠ 3) ∧
    (let s : State := (tS (tDev |>.put BOOT_STATUS_STAGE 0 )); let d := s.dev; let st := d.get BOOT_STATUS_STAGE; s.dev.awake = true ∧ st ≠ 4) ∧
    (let s : State := tS tDev; let d := s.dev; let st := d.get BOOT_STATUS_STAGE; s.dev.awake = true ∧ (st ≠ 5 ∨ d.boot.ran = true)) ∧
    (let s : State := (tS (tDev |>.put BOOT_STATUS_STAGE 0 )); let d := s.dev; let st := d.get BOOT_STATUS_STAGE; s.dev.awake = true ∧ st = 0) ∧
    (let s : State := (tS (tDev |>.put BOOT_STATUS_STAGE 1 )); let d := s.dev; let st := d.get BOOT_STATUS_STAGE; s.dev.awake = true ∧ st = 1) ∧
    (let s : State := (tS (tDev |>.put BOOT_STATUS_STAGE 0 )); let d := s.dev; let st := d.get BOOT_STATUS_STAGE; s.dev.awake = true ∧ st ≠ 2) ∧
    (let s : State := (tS (tDev |>.put BOOT_STATUS_STAGE 2 |>.put MEM_INIT_BUSY 0 )); let d := s.dev; let st := d.get BOOT_STATUS_STAGE;
     let f : BitVec 8 := 0; s.dev.awake = true ∧ st = 2 ∧ d.get MEM_INIT_BUSY = 0 ∧ f = 0) ∧
    (let s : State := (tS (tDev |>.put BOOT_STATUS_STAGE 2 |>.put MEM_INIT_BUSY 0 )); let d := s.dev; let st := d.get BOOT_STATUS_STAGE;
     let f : BitVec 8 := 1; s.dev.awake = true ∧ st = 2 ∧ d.get MEM_INIT_BUSY = 0 ∧ f ≠ 0) ∧
    (let s : State := tS (tFlash 4 tImg4 (tDev.put BOOT_STATUS_STAGE 3)); let ok : Bool := true; let d := s.dev;
     let st := d.get BOOT_STATUS_STAGE; let chosen := fun (kind slot : Nat) (m : Img) => (let o := d.slotShows kind (1 - slot) ok;
     d.slotShows kind slot ok = .ok m ∧ sha384 m.code = slice m.hdr 32 48 ∧ slot < 2 ∧
         ∀ n, o = .ok n → sha384 n.code = slice n.hdr 32 48 → (slot = 0 → preferA m n = true) ∧ (slot = 1 → preferA n m = false));
     let slot := 0; let m := tMk tImg4; s.dev.awake = true ∧ st = 3 ∧ chosen 4 slot m) ∧
    (let s : State := (tS (tDev |>.put BOOT_STATUS_STAGE 3 )); let ok : Bool := false; let d := s.dev; let st := d.get BOOT_STATUS_STAGE;
     let none := fun (kind : Nat) => ∀ slot, slot < 2 → ∀ m, d.slotShows kind slot ok = .ok m → sha384 m.code ≠ slice m.hdr 32 48;
     s.dev.awake = true ∧ st = 3 ∧ none 4) ∧
    (let s : State := tS (tFlash 3 tImg3 (tDev.put BOOT_STATUS_STAGE 4)); let ok : Bool := true; let d := s.dev;
     let st := d.get BOOT_STATUS_STAGE; let chosen := fun (kind slot : Nat) (m : Img) => (let o := d.slotShows kind (1 - slot) ok;
     d.slotShows kind slot ok = .ok m ∧ sha384 m.code = slice m.hdr 32 48 ∧ slot < 2 ∧
         ∀ n, o = .ok n → sha384 n.code = slice n.hdr 32 48 → (slot = 0 → preferA m n = true) ∧ (slot = 1 → preferA n m = false));
     let slot := 0; let m := tMk tImg3; s.dev.awake = true ∧ st = 4 ∧ chosen 3 slot m) ∧
    (let s : State := (tS (tDev |>.put BOOT_STATUS_STAGE 4 )); let ok : Bool := false; let d := s.dev; let st := d.get BOOT_STATUS_STAGE;
     let none := fun (kind : Nat) => ∀ slot, slot < 2 → ∀ m, d.slotShows kind slot ok = .ok m → sha384 m.code ≠ slice m.hdr 32 48;
     s.dev.awake = true ∧ st = 4 ∧ none 3) ∧
    (let s : State := (tS (tDev |>.put BOOT_STATUS_STAGE 5 )); let d := s.dev; let st := d.get BOOT_STATUS_STAGE;
     s.dev.awake = true ∧ st = 5 ∧ d.boot.ran = false) :=
  ⟨by decide +kernel,
   by decide +kernel,
   by decide +kernel,
   by decide +kernel,
   by decide +kernel,
   by decide +kernel,
   by decide +kernel,
   by decide +kernel,
   by decide +kernel,
   by decide +kernel,
   ⟨by decide +kernel, by decide +kernel, tChosen (tShows (by decide +kernel) tSlot4) (by decide +kernel) (by decide +kernel)⟩,
   ⟨by decide +kernel, by decide +kernel, tNone (by decide +kernel) (by decide +kernel)⟩,
   ⟨by decide +kernel, by decide +kernel, tChosen (tShows (by decide +kernel) tSlot3) (by decide +kernel) (by decide +kernel)⟩,
   ⟨by decide +kernel, by decide +kernel, tNone (by decide +kernel) (by decide +kernel)⟩,
   by decide +kernel⟩

theorem wit_RecoveryAndUpdates :
    (let s : State := tS tDev; let d := s.dev; let st := d.get BOOT_STATUS_STAGE; let m := d.boot.mbox;
     let waits := (st = 14 ∨ st = 15) ∧ m.go = 1 ∧ (m.st = 1 ∨ m.st = 3); s.dev.awake = true ∧ ¬ waits) ∧
    (let s : State := (tS (tDev |>.put BOOT_STATUS_STAGE 15
         |> fun d => { d with boot := { d.boot with mbox := { st := 1, go := 1, need := 15, kind := 1, op := 0 } } }));
     let d := s.dev; let st := d.get BOOT_STATUS_STAGE; let m := d.boot.mbox;
     let waits := (st = 14 ∨ st = 15) ∧ m.go = 1 ∧ (m.st = 1 ∨ m.st = 3);
     let taken := bit m.need (m.kind - 1) = true ∧ 1 ≤ m.kind ∧ m.kind ≤ 4 ∧ 1 ≤ m.op ∧ m.op ≤ 3 ∧ m.slot ≤ 1;
     s.dev.awake = true ∧ waits ∧ ¬ taken) ∧
    (let s : State := (tS (tDev |>.put BOOT_STATUS_STAGE 15
         |> fun d => { d with boot := { d.boot with mbox := { st := 1, go := 1, need := 15, kind := 1, op := 1 } } }));
     let d := s.dev; let st := d.get BOOT_STATUS_STAGE; let m := d.boot.mbox;
     let waits := (st = 14 ∨ st = 15) ∧ m.go = 1 ∧ (m.st = 1 ∨ m.st = 3);
     let taken := bit m.need (m.kind - 1) = true ∧ 1 ≤ m.kind ∧ m.kind ≤ 4 ∧ 1 ≤ m.op ∧ m.op ≤ 3 ∧ m.slot ≤ 1;
     let b := d.stagAt (min m.len (512 + imgLimit m.kind)); let kind := d.get BOOT_IMG_ARG_KIND; let e := 1;
     s.dev.awake = true ∧ waits ∧ taken ∧ d.checkImg m.kind b = .error e) ∧
    (let s : State := (tS (tDev
         |> fun d => { d with fuse := tFuse, boot := { d.boot with mbox := { st := 1, go := 1, need := 15, kind := 4, op := 1, len := 514 }, stag := tAt 0 tImg4 } }
         |>.put BOOT_STATUS_STAGE 15));
     let d := s.dev; let st := d.get BOOT_STATUS_STAGE; let m := d.boot.mbox;
     let waits := (st = 14 ∨ st = 15) ∧ m.go = 1 ∧ (m.st = 1 ∨ m.st = 3);
     let taken := bit m.need (m.kind - 1) = true ∧ 1 ≤ m.kind ∧ m.kind ≤ 4 ∧ 1 ≤ m.op ∧ m.op ≤ 3 ∧ m.slot ≤ 1;
     let b := d.stagAt (min m.len (512 + imgLimit m.kind)); let kind := d.get BOOT_IMG_ARG_KIND; let g := tMk tImg4;
     s.dev.awake = true ∧ waits ∧ taken ∧ d.checkImg m.kind b = .ok g) ∧
    (let s : State := tS tDev; let k : BitVec 3 := 0; s.dev.awake = true ∧ k ≠ 3 ∧ k ≠ 4) ∧
    (let s : State := tS tDev; let d := s.dev; let k : BitVec 3 := 3; let key : BitVec 16 := 0;
     let ok := key = 0xC0F1 ∧ d.onTrial k.toNat = true ∧ d.tb.trialDue = false; s.dev.awake = true ∧ (k = 3 ∨ k = 4) ∧ ¬ ok) ∧
    (let s : State := (tS (tDev |>.put BOOT_STATUS_TRIAL (2 ^ trialBit 3))); let d := s.dev; let k : BitVec 3 := 3;
     let key : BitVec 16 := 0xC0F1; let ok := key = 0xC0F1 ∧ d.onTrial k.toNat = true ∧ d.tb.trialDue = false;
     s.dev.awake = true ∧ (k = 3 ∨ k = 4) ∧ ok) ∧
    (let s : State := (tS (tDev |>.put BOOT_IMG_CMD_BUSY 1 )); let d := s.dev;
     let cmds : List (Instr × Nat) := [(.flashWrite, 1), (.activate, 2), (.stageTenant, 3), (.confirmTenant, 4), (.removeTenant, 5)];
     let c := ((.flashWrite : Instr), 1); s.dev.awake = true ∧ c ∈ cmds ∧ d.get BOOT_IMG_CMD_BUSY = 1) ∧
    (let s : State := (tS (tDev |>.put BOOT_IMG_CMD_BUSY 0 |>.put BOOT_STATUS_STAGE 14)); let d := s.dev; let st := d.get BOOT_STATUS_STAGE;
     let cmds : List (Instr × Nat) := [(.flashWrite, 1), (.activate, 2), (.stageTenant, 3), (.confirmTenant, 4), (.removeTenant, 5)];
     let c := ((.flashWrite : Instr), 1); s.dev.awake = true ∧ c ∈ cmds ∧ d.get BOOT_IMG_CMD_BUSY = 0 ∧ 14 ≤ st) ∧
    (let s : State := (tS (tDev |>.put BOOT_IMG_CMD_BUSY 0 )); let d := s.dev; let st := d.get BOOT_STATUS_STAGE;
     let cmds : List (Instr × Nat) := [(.flashWrite, 1), (.activate, 2), (.stageTenant, 3), (.confirmTenant, 4), (.removeTenant, 5)];
     let addr := d.get BOOT_IMG_ADDR_ADDR; let len := d.get BOOT_IMG_ARG_LEN; let kind := d.get BOOT_IMG_ARG_KIND;
     let func := d.get BOOT_IMG_ARG_FUNC; let c := ((.flashWrite : Instr), 1);
     s.dev.awake = true ∧ c ∈ cmds ∧ d.get BOOT_IMG_CMD_BUSY = 0 ∧ st < 14 ∧ d.imgBad c.2 addr len kind func = true) ∧
    (let s : State := (tS (tDev |>.put BOOT_IMG_CMD_BUSY 0 |>.put BOOT_IMG_ARG_KIND 1)); let d := s.dev; let st := d.get BOOT_STATUS_STAGE;
     let cmds : List (Instr × Nat) := [(.flashWrite, 1), (.activate, 2), (.stageTenant, 3), (.confirmTenant, 4), (.removeTenant, 5)];
     let addr := d.get BOOT_IMG_ADDR_ADDR; let len := d.get BOOT_IMG_ARG_LEN; let kind := d.get BOOT_IMG_ARG_KIND;
     let func := d.get BOOT_IMG_ARG_FUNC; let c := ((.activate : Instr), 2);
     s.dev.awake = true ∧ c ∈ cmds ∧ d.get BOOT_IMG_CMD_BUSY = 0 ∧ st < 14 ∧ d.imgBad c.2 addr len kind func = false) ∧
    (let s : State := tS tDev; let d := s.dev; s.dev.awake = true ∧ d.boot.cmd = none) ∧
    (let x : ImgCmd := (⟨1, 0, 1, 0, 0, 0, []⟩ : ImgCmd);
     let s : State := (tS (tDev |> fun d => { d with boot := { d.boot with cmd := some x } })); let d := s.dev;
     let kind := d.get BOOT_IMG_ARG_KIND; let act := b2n (d.recBit (x.kind - 1));
     s.dev.awake = true ∧ d.boot.cmd = some x ∧ x.op = 1 ∧ x.kind ≤ 2 ∧ x.slot = act) ∧
    (let x : ImgCmd := (⟨1, 0, 3, 0, 0, 0, []⟩ : ImgCmd);
     let s : State := (tS (tDev |> fun d => { d with boot := { d.boot with cmd := some x } })); let d := s.dev;
     let kind := d.get BOOT_IMG_ARG_KIND; let act := b2n (d.recBit (x.kind - 1)); let e := 1;
     s.dev.awake = true ∧ d.boot.cmd = some x ∧ x.op = 1 ∧ (2 < x.kind ∨ x.slot ≠ act) ∧ d.checkImg x.kind x.bytes = .error e) ∧
    (let x : ImgCmd := (⟨1, 0, 4, 0, 0, 0, tImg4⟩ : ImgCmd);
     let s : State := (tS (tDev |> fun d => { d with boot := { d.boot with cmd := some x } } |> fun d => { d with fuse := tFuse }));
     let d := s.dev; let kind := d.get BOOT_IMG_ARG_KIND; let ok : Bool := false; let act := b2n (d.recBit (x.kind - 1));
     let g := tMk tImg4;
     s.dev.awake = true ∧ d.boot.cmd = some x ∧ x.op = 1 ∧ (2 < x.kind ∨ x.slot ≠ act) ∧ d.checkImg x.kind x.bytes = .ok g ∧ ok = false) ∧
    (let x : ImgCmd := (⟨1, 0, 4, 0, 0, 0, tImg4⟩ : ImgCmd);
     let s : State := (tS (tDev |> fun d => { d with boot := { d.boot with cmd := some x } } |> fun d => { d with fuse := tFuse }));
     let d := s.dev; let kind := d.get BOOT_IMG_ARG_KIND; let ok : Bool := true; let act := b2n (d.recBit (x.kind - 1)); let g := tMk tImg4;
     s.dev.awake = true ∧ d.boot.cmd = some x ∧ x.op = 1 ∧ (2 < x.kind ∨ x.slot ≠ act) ∧ d.checkImg x.kind x.bytes = .ok g ∧ ok = true) ∧
    (let x : ImgCmd := (⟨2, 0, 1, 0, 0, 0, []⟩ : ImgCmd);
     let s : State := (tS (tDev |> fun d => { d with boot := { d.boot with cmd := some x } })); let d := s.dev; let ok : Bool := false;
     s.dev.awake = true ∧ d.boot.cmd = some x ∧ x.op = 2 ∧ ok = false) ∧
    (let x : ImgCmd := (⟨2, 0, 1, 0, 0, 0, []⟩ : ImgCmd);
     let s : State := (tS (tDev |> fun d => { d with boot := { d.boot with cmd := some x } })); let d := s.dev;
     let kind := d.get BOOT_IMG_ARG_KIND; let ok : Bool := true; let act := b2n (d.recBit (x.kind - 1)); let e := 1;
     s.dev.awake = true ∧ d.boot.cmd = some x ∧ x.op = 2 ∧ ok = true ∧ d.checkSlot x.kind (1 - act) true = .error e) ∧
    (let x : ImgCmd := (⟨2, 0, 4, 0, 0, 0, []⟩ : ImgCmd);
     let s : State := tS (tFlash 4 tImg4 { tDev with boot := { tDev.boot with brec := 8, cmd := some x } }); let d := s.dev;
     let kind := d.get BOOT_IMG_ARG_KIND; let ok : Bool := true; let act := b2n (d.recBit (x.kind - 1)); let g := tMk tImg4;
     s.dev.awake = true ∧ d.boot.cmd = some x ∧ x.op = 2 ∧ ok = true ∧ d.checkSlot x.kind (1 - act) true = .ok g) ∧
    (let x : ImgCmd := (⟨3, 0, 0, 0, 0, 0, []⟩ : ImgCmd);
     let s : State := (tS (tDev |> fun d => { d with boot := { d.boot with cmd := some x } } |>.put BOOT_STATUS_TRIAL 1)); let d := s.dev;
     s.dev.awake = true ∧ d.boot.cmd = some x ∧ x.op = 3 ∧ d.get BOOT_STATUS_TRIAL ≠ 0) ∧
    (let x : ImgCmd := (⟨3, 0, 0, 0, 0, 2, []⟩ : ImgCmd);
     let s : State := (tS (tDev |>.put BOOT_STATUS_TRIAL 0 |> fun d => { d with boot := { d.boot with cmd := some x } }
         |>.setPart 2 { owner := 1 }));
     let d := s.dev; let func := d.get BOOT_IMG_ARG_FUNC; let p := d.part x.part;
     s.dev.awake = true ∧ d.boot.cmd = some x ∧ x.op = 3 ∧ d.get BOOT_STATUS_TRIAL = 0 ∧ p.owner ≠ 0 ∧ p.owner ≠ x.func) ∧
    (let x : ImgCmd := (⟨3, 0, 0, 0, 1, 2, []⟩ : ImgCmd);
     let s : State := (tS (tDev |>.put BOOT_STATUS_TRIAL 0 |> fun d => { d with boot := { d.boot with cmd := some x } }
         |>.setPart 2 { owner := 1 }));
     let d := s.dev; let func := d.get BOOT_IMG_ARG_FUNC; let p := d.part x.part; let e := 1;
     s.dev.awake = true ∧ d.boot.cmd = some x ∧ x.op = 3 ∧ d.get BOOT_STATUS_TRIAL = 0 ∧ (p.owner = 0 ∨ p.owner = x.func) ∧
         d.checkImg 5 x.bytes = .error e) ∧
    (let x : ImgCmd := (⟨3, 0, 0, 0, 1, 3, tImg5⟩ : ImgCmd);
     let s : State := (tS (tDev |>.put BOOT_STATUS_TRIAL 0 |> fun d => { d with boot := { d.boot with cmd := some x } }
         |> fun d => { d with fuse := tFuse }));
     let d := s.dev; let func := d.get BOOT_IMG_ARG_FUNC; let ok : Bool := false; let p := d.part x.part; let g := tMk tImg5;
     s.dev.awake = true ∧ d.boot.cmd = some x ∧ x.op = 3 ∧ d.get BOOT_STATUS_TRIAL = 0 ∧ (p.owner = 0 ∨ p.owner = x.func) ∧
         d.checkImg 5 x.bytes = .ok g ∧ (g.func ≠ x.func ∨ byteAt g.hdr 25 ≠ x.part)) ∧
    (let x : ImgCmd := (⟨3, 0, 0, 0, 1, 2, tImg5⟩ : ImgCmd);
     let s : State := (tS (tDev |>.put BOOT_STATUS_TRIAL 0 |> fun d => { d with boot := { d.boot with cmd := some x } }
         |> fun d => { d with fuse := tFuse } |>.setPart 2 { owner := 1 }));
     let d := s.dev; let func := d.get BOOT_IMG_ARG_FUNC; let ok : Bool := false; let p := d.part x.part; let g := tMk tImg5;
     s.dev.awake = true ∧ d.boot.cmd = some x ∧ x.op = 3 ∧ d.get BOOT_STATUS_TRIAL = 0 ∧ (p.owner = 0 ∨ p.owner = x.func) ∧
         d.checkImg 5 x.bytes = .ok g ∧ g.func = x.func ∧ byteAt g.hdr 25 = x.part) ∧
    (let x : ImgCmd := (⟨4, 0, 0, 0, 0, 0, []⟩ : ImgCmd);
     let s : State := (tS (tDev |> fun d => { d with boot := { d.boot with cmd := some x } })); let d := s.dev;
     let q := d.part d.boot.trialPart; s.dev.awake = true ∧ d.boot.cmd = some x ∧ x.op = 4 ∧ q.cur = none) ∧
    (let x : ImgCmd := (⟨4, 0, 0, 0, 0, 0, []⟩ : ImgCmd); let g := ({} : Img);
     let s : State := (tS (tDev |> fun d => { d with boot := { d.boot with cmd := some x } } |>.setPart 0 { cur := some g, owner := 1 }));
     let d := s.dev; let func := d.get BOOT_IMG_ARG_FUNC; let q := d.part d.boot.trialPart;
     let good := fun (g : Img) => d.onTrial 5 = true ∧ d.tb.trialDue = false ∧ x.bytes = slice g.hdr 32 16 ∧ x.func = g.func ∧
         x.part = d.boot.trialPart;
     s.dev.awake = true ∧ d.boot.cmd = some x ∧ x.op = 4 ∧ q.cur = some g ∧ ¬ good g) ∧
    (let x : ImgCmd := (⟨4, 0, 0, 0, 1, 0, tZeros 16⟩ : ImgCmd); let g := ({ func := 1, hdr := tZeros 512 } : Img);
     let s : State := (tS (tDev |> fun d => { d with boot := { d.boot with cmd := some x } } |>.setPart 0 { cur := some g, owner := 1 }
         |>.put BOOT_STATUS_TRIAL (2 ^ trialBit 5)));
     let d := s.dev; let func := d.get BOOT_IMG_ARG_FUNC; let q := d.part d.boot.trialPart;
     let good := fun (g : Img) => d.onTrial 5 = true ∧ d.tb.trialDue = false ∧ x.bytes = slice g.hdr 32 16 ∧ x.func = g.func ∧
         x.part = d.boot.trialPart;
     s.dev.awake = true ∧ d.boot.cmd = some x ∧ x.op = 4 ∧ q.cur = some g ∧ good g) ∧
    (let x : ImgCmd := (⟨5, 0, 0, 0, 1, 0, []⟩ : ImgCmd);
     let s : State := (tS (tDev |> fun d => { d with boot := { d.boot with cmd := some x } })); let d := s.dev;
     let func := d.get BOOT_IMG_ARG_FUNC; let p := d.part x.part; s.dev.awake = true ∧ d.boot.cmd = some x ∧ x.op = 5 ∧ p.owner ≠ x.func) ∧
    (let x : ImgCmd := (⟨5, 0, 0, 0, 0, 0, []⟩ : ImgCmd);
     let s : State := (tS (tDev |> fun d => { d with boot := { d.boot with cmd := some x } })); let d := s.dev;
     let func := d.get BOOT_IMG_ARG_FUNC; let p := d.part x.part; s.dev.awake = true ∧ d.boot.cmd = some x ∧ x.op = 5 ∧ p.owner = x.func) :=
  ⟨by decide +kernel,
   by decide +kernel,
   ⟨by decide +kernel, by decide +kernel, by decide +kernel, tErr_spec (by decide +kernel)⟩,
   ⟨by decide +kernel, by decide +kernel, by decide +kernel, tStaged rfl (by decide +kernel) rfl⟩,
   by decide +kernel,
   by decide +kernel,
   by decide +kernel,
   by decide +kernel,
   by decide +kernel,
   by decide +kernel,
   by decide +kernel,
   by decide +kernel,
   by decide +kernel,
   ⟨by decide +kernel, by decide +kernel, by decide +kernel, by decide +kernel, tErr_spec (by decide +kernel)⟩,
   ⟨by decide +kernel, by decide +kernel, by decide +kernel, by decide +kernel, tImage4 (by decide +kernel), by decide +kernel⟩,
   ⟨by decide +kernel, by decide +kernel, by decide +kernel, by decide +kernel, tImage4 (by decide +kernel), by decide +kernel⟩,
   by decide +kernel,
   ⟨by decide +kernel, by decide +kernel, by decide +kernel, by decide +kernel, tErr_spec (by decide +kernel)⟩,
   ⟨by decide +kernel, by decide +kernel, by decide +kernel, by decide +kernel, tSlot4.2⟩,
   by decide +kernel,
   by decide +kernel,
   ⟨by decide +kernel, by decide +kernel, by decide +kernel, by decide +kernel, by decide +kernel, tErr_spec (by decide +kernel)⟩,
   ⟨by decide +kernel, by decide +kernel, by decide +kernel, by decide +kernel, by decide +kernel, tImage5 (by decide +kernel), by decide +kernel⟩,
   ⟨by decide +kernel, by decide +kernel, by decide +kernel, by decide +kernel, by decide +kernel, tImage5 (by decide +kernel), by decide +kernel, by decide +kernel⟩,
   by decide +kernel,
   by decide +kernel,
   by decide +kernel,
   by decide +kernel,
   by decide +kernel⟩

theorem wit_Regulators :
    (let k : Cluster := 0; let s : State := (tS (tDev |>.put (PWR_DVFS_BUSY k) 1 )); let d := s.dev;
     s.dev.awake = true ∧ d.get (PWR_DVFS_BUSY k) = 1) ∧
    (let k : Cluster := 0; let s : State := (tS (tDev |>.put (PWR_DVFS_BUSY k) 0 |>.put (STK_CLU_SVC_STATE k) 0)); let d := s.dev;
     s.dev.awake = true ∧ d.get (PWR_DVFS_BUSY k) = 0 ∧ d.cluActive k = false) ∧
    (let k : Cluster := 0; let s : State := (tS (tDev |>.put (PWR_DVFS_BUSY k) 0 )); let d := s.dev; let cur := d.get (PWR_DVFS_CUR k);
     let x : BitVec 2 := 0; let q : Dvfs := ⟨cur, x.toNat, false⟩; let e : Dev := (d.put (PWR_DVFS_STEP k) x.toNat).put (PWR_DVFS_BUSY k) 1;
     let e1 : Dev := { e with pwr := { d.pwr with dvfs := [(k.val, q)] } };
     s.dev.awake = true ∧ d.get (PWR_DVFS_BUSY k) = 0 ∧ d.cluActive k = true ∧ d.pwr.dvfs = [] ∧ d.pwr.pmb = none ∧ d.pwr.sw = [] ∧
         x.toNat ≤ cur ∧ e1.needV ≤ d.pwr.vdd) ∧
    (let k : Cluster := 0;
     let s : State := (tS (tDev |>.put (PWR_DVFS_BUSY k) 0 |>.put (STK_CLU_SVC_STATE k) 2 |>.put (PWR_REG_VALID 0) 1 |>.put PWR_VSTEP_V0 900
         |>.put PWR_VSTEP_V1 850 |>.put PWR_VSTEP_V2 800 |>.put PWR_VSTEP_V3 750 |> fun d => { d with pwr := { d.pwr with vdd := 700 } }));
     let d := s.dev; let cur := d.get (PWR_DVFS_CUR k); let x : BitVec 2 := 0; let q : Dvfs := ⟨cur, x.toNat, false⟩;
     let e : Dev := (d.put (PWR_DVFS_STEP k) x.toNat).put (PWR_DVFS_BUSY k) 1;
     let e1 : Dev := { e with pwr := { d.pwr with dvfs := [(k.val, q)] } }; let r := 0;
     s.dev.awake = true ∧ d.get (PWR_DVFS_BUSY k) = 0 ∧ d.cluActive k = true ∧ d.pwr.dvfs = [] ∧ d.pwr.pmb = none ∧ d.pwr.sw = [] ∧
         x.toNat ≤ cur ∧ d.pwr.vdd < e1.needV ∧ d.stkReg = some r) ∧
    (let k : Cluster := 0;
     let s : State := (tS (tDev |>.put (PWR_DVFS_BUSY k) 0 |>.put (STK_CLU_SVC_STATE k) 2 |>.put PWR_VSTEP_V0 900 |>.put PWR_VSTEP_V1 850
         |>.put PWR_VSTEP_V2 800 |>.put PWR_VSTEP_V3 750 |> fun d => { d with pwr := { d.pwr with vdd := 700 } }));
     let d := s.dev; let cur := d.get (PWR_DVFS_CUR k); let x : BitVec 2 := 0; let q : Dvfs := ⟨cur, x.toNat, false⟩;
     let e : Dev := (d.put (PWR_DVFS_STEP k) x.toNat).put (PWR_DVFS_BUSY k) 1;
     let e1 : Dev := { e with pwr := { d.pwr with dvfs := [(k.val, q)] } };
     s.dev.awake = true ∧ d.get (PWR_DVFS_BUSY k) = 0 ∧ d.cluActive k = true ∧ d.pwr.dvfs = [] ∧ d.pwr.pmb = none ∧ d.pwr.sw = [] ∧
         x.toNat ≤ cur ∧ d.pwr.vdd < e1.needV ∧ d.stkReg = none) ∧
    (let k : Cluster := 0;
     let s : State := (tS (tDev |>.put (PWR_DVFS_BUSY k) 0 |>.put (STK_CLU_SVC_STATE k) 2 |>.put PWR_VSTEP_V0 900 |>.put PWR_VSTEP_V1 850
         |>.put PWR_VSTEP_V2 800 |>.put PWR_VSTEP_V3 750 |> fun d => { d with pwr := { d.pwr with vdd := 700 } }));
     let d := s.dev; let cur := d.get (PWR_DVFS_CUR k); let x : BitVec 2 := 1; let q : Dvfs := ⟨cur, x.toNat, false⟩;
     let e : Dev := (d.put (PWR_DVFS_STEP k) x.toNat).put (PWR_DVFS_BUSY k) 1;
     let e2 : Dev := { e.put (PWR_DVFS_CUR k) x.toNat with pwr := { d.pwr with dvfs := [(k.val, { q with switched := true })] } };
     s.dev.awake = true ∧ d.get (PWR_DVFS_BUSY k) = 0 ∧ d.cluActive k = true ∧ d.pwr.dvfs = [] ∧ d.pwr.pmb = none ∧ d.pwr.sw = [] ∧
         cur < x.toNat ∧ d.pwr.vdd ≤ e2.needV) ∧
    (let k : Cluster := 0;
     let s : State := (tS (tDev |>.put (PWR_DVFS_BUSY k) 0 |>.put (STK_CLU_SVC_STATE k) 2 |>.put (PWR_REG_VALID 0) 1 |>.put PWR_VSTEP_V0 900
         |>.put PWR_VSTEP_V1 850 |>.put PWR_VSTEP_V2 800 |>.put PWR_VSTEP_V3 750 |> fun d => { d with pwr := { d.pwr with vdd := 900 } }
         |> fun d => ((List.range 12).foldl (fun d i => d.put (PWR_DVFS_CUR i) 3) d).put (PWR_DVFS_CUR k) 0));
     let d := s.dev; let cur := d.get (PWR_DVFS_CUR k); let x : BitVec 2 := 1; let q : Dvfs := ⟨cur, x.toNat, false⟩;
     let e : Dev := (d.put (PWR_DVFS_STEP k) x.toNat).put (PWR_DVFS_BUSY k) 1;
     let e2 : Dev := { e.put (PWR_DVFS_CUR k) x.toNat with pwr := { d.pwr with dvfs := [(k.val, { q with switched := true })] } };
     let r := 0;
     s.dev.awake = true ∧ d.get (PWR_DVFS_BUSY k) = 0 ∧ d.cluActive k = true ∧ d.pwr.dvfs = [] ∧ d.pwr.pmb = none ∧ d.pwr.sw = [] ∧
         cur < x.toNat ∧ e2.needV < d.pwr.vdd ∧ d.stkReg = some r) ∧
    (let k : Cluster := 0;
     let s : State := (tS (tDev |>.put (PWR_DVFS_BUSY k) 0 |>.put (STK_CLU_SVC_STATE k) 2 |>.put PWR_VSTEP_V0 900 |>.put PWR_VSTEP_V1 850
         |>.put PWR_VSTEP_V2 800 |>.put PWR_VSTEP_V3 750 |> fun d => { d with pwr := { d.pwr with vdd := 900 } }
         |> fun d => ((List.range 12).foldl (fun d i => d.put (PWR_DVFS_CUR i) 3) d).put (PWR_DVFS_CUR k) 0));
     let d := s.dev; let cur := d.get (PWR_DVFS_CUR k); let x : BitVec 2 := 1; let q : Dvfs := ⟨cur, x.toNat, false⟩;
     let e : Dev := (d.put (PWR_DVFS_STEP k) x.toNat).put (PWR_DVFS_BUSY k) 1;
     let e2 : Dev := { e.put (PWR_DVFS_CUR k) x.toNat with pwr := { d.pwr with dvfs := [(k.val, { q with switched := true })] } };
     s.dev.awake = true ∧ d.get (PWR_DVFS_BUSY k) = 0 ∧ d.cluActive k = true ∧ d.pwr.dvfs = [] ∧ d.pwr.pmb = none ∧ d.pwr.sw = [] ∧
         cur < x.toNat ∧ e2.needV < d.pwr.vdd ∧ d.stkReg = none) ∧
    (let s : State := tS tDev; let k : Cluster := 0; let d := s.dev; s.dev.awake = true ∧ d.dvfs k = none) ∧
    (let k : Cluster := 0; let r := ⟨0, 1, false⟩;
     let s : State := (tS (tDev |> fun d => { d with pwr := { d.pwr with dvfs := [(k.val, r)] } } |>.put PWR_VSTEP_V0 900
         |>.put PWR_VSTEP_V1 850 |>.put PWR_VSTEP_V2 800 |>.put PWR_VSTEP_V3 750 |> fun d => { d with pwr := { d.pwr with vdd := 700 } }));
     let d := s.dev;
     let waits := d.pwr.sw.contains k.val = true ∨ d.pwr.pmb.any (fun q => q.cluster == k.val) = true ∨ r.switched = false ∧
         d.pwr.vdd < d.vstep r.new;
     s.dev.awake = true ∧ d.dvfs k = some r ∧ waits) ∧
    (let k : Cluster := 0; let r := ⟨0, 1, true⟩; let s : State := (tS (tDev |> fun d => { d with pwr := { d.pwr with dvfs := [(k.val, r)] } }));
     let d := s.dev;
     let waits := d.pwr.sw.contains k.val = true ∨ d.pwr.pmb.any (fun q => q.cluster == k.val) = true ∨ r.switched = false ∧
         d.pwr.vdd < d.vstep r.new;
     s.dev.awake = true ∧ d.dvfs k = some r ∧ ¬ waits) ∧
    (let q := (⟨0, 900, 850, 3⟩ : PmbReq); let s : State := (tS (tDev |> fun d => { d with pwr := { d.pwr with pmb := some q } }));
     let d := s.dev; let n : Bool := true; s.dev.awake = true ∧ d.pwr.pmb = some q ∧ q.cluster < 12 ∧ q.reg < 8 ∧ n = true) ∧
    (let q := (⟨0, 900, 850, 3⟩ : PmbReq);
     let s : State := (tS (tDev |> fun d => { d with pwr := { d.pwr with pmb := some q } } |>.put (PWR_REG_TOL q.reg) 200)); let d := s.dev;
     let st : BitVec 16 := 2; let v : BitVec 16 := 1; let n : Bool := false;
     let near := ulinearNear (sgn 5 (Tab.get 0 d.pwr.vexp q.reg)) v.toNat q.cmd (d.get (PWR_REG_TOL q.reg)) = true;
     s.dev.awake = true ∧ d.pwr.pmb = some q ∧ q.cluster < 12 ∧ q.reg < 8 ∧ n = false ∧ (d.get (PWR_REG_MODE q.reg) = 1 ∨ near) ∧
         statusFault st.toNat = true) ∧
    (let q := (⟨0, 900, 850, 3⟩ : PmbReq); let s : State := (tS (tDev |> fun d => { d with pwr := { d.pwr with pmb := some q } }));
     let d := s.dev; let st : BitVec 16 := 0; let v : BitVec 16 := 0; let n : Bool := false;
     let near := ulinearNear (sgn 5 (Tab.get 0 d.pwr.vexp q.reg)) v.toNat q.cmd (d.get (PWR_REG_TOL q.reg)) = true;
     s.dev.awake = true ∧ d.pwr.pmb = some q ∧ q.cluster < 12 ∧ q.reg < 8 ∧ n = false ∧ ¬ near ∧
         (d.get (PWR_REG_MODE q.reg) = 0 ∨ statusFault st.toNat = false)) ∧
    (let q := (⟨0, 900, 850, 3⟩ : PmbReq);
     let s : State := (tS (tDev |> fun d => { d with pwr := { d.pwr with pmb := some q } } |>.put (PWR_REG_TOL q.reg) 200)); let d := s.dev;
     let st : BitVec 16 := 0; let v : BitVec 16 := 1; let n : Bool := false;
     let near := ulinearNear (sgn 5 (Tab.get 0 d.pwr.vexp q.reg)) v.toNat q.cmd (d.get (PWR_REG_TOL q.reg)) = true;
     s.dev.awake = true ∧ d.pwr.pmb = some q ∧ q.cluster < 12 ∧ q.reg < 8 ∧ n = false ∧ near ∧ statusFault st.toNat = false) ∧
    (let s : State := (tS (tDev |>.put PWR_LOCK_LOCK 1 )); let d := s.dev; s.dev.awake = true ∧ d.get PWR_LOCK_LOCK = 1) ∧
    (let s : State := (tS (tDev |>.put PWR_LOCK_LOCK 0 )); let d := s.dev; let v : BitVec 64 := 0; let w := v.toNat;
     s.dev.awake = true ∧ d.get PWR_LOCK_LOCK = 0 ∧ (bits w 31 24 = 0 ∨ bits w 39 32 = 0)) ∧
    (let s : State := (tS (tDev |>.put PWR_LOCK_LOCK 0 )); let d := s.dev; let v : BitVec 64 := 0x0101000000; let w := v.toNat;
     s.dev.awake = true ∧ d.get PWR_LOCK_LOCK = 0 ∧ bits w 31 24 ≠ 0 ∧ bits w 39 32 ≠ 0) :=
  by refine ⟨?_, ?_, ?_, ?_, ?_, ?_, ?_, ?_, ?_, ?_, ?_, ?_, ?_, ?_, ?_, ?_, ?_, ?_⟩ <;> decide +kernel

theorem wit_SuppliesAndSensors :
    (let s : State := (tS (tDev |>.put PWR_STATUS_BELOW 1)); let d := s.dev; let x : Fin 8 := 0;
     s.dev.onAir = true ∧ bit (d.get PWR_STATUS_BELOW) x = true) ∧
    (let s : State := tS tDev; let d := s.dev; let x : Fin 8 := 0; s.dev.onAir = true ∧ bit (d.get PWR_STATUS_BELOW) x = false) ∧
    (let s : State := (tS (tDev |>.put PWR_MON_AUTO 1 )); let d := s.dev;
     s.dev.onAir = true ∧ d.awake = true ∧ d.asleep = false ∧ d.pwr.smbWait = none ∧ d.get PWR_MON_AUTO = 1) ∧
    (let s : State := (tS (tDev |>.put PWR_MON_AUTO 0 )); let d := s.dev;
     s.dev.onAir = true ∧ d.awake = true ∧ d.asleep = false ∧ d.pwr.smbWait = none ∧ d.get PWR_MON_AUTO = 0) ∧
    (let s : State := tS tDev; let d := s.dev; s.dev.onAir = true ∧ d.awake = true ∧ d.asleep = false ∧ d.pwr.smbWait = none ∧ d.pwr.mon = none) ∧
    (let m := 7; let s : State := (tS (tDev |> fun d => { d with pwr := { d.pwr with mon := some m } })); let d := s.dev;
     s.dev.onAir = true ∧ d.awake = true ∧ d.asleep = false ∧ d.pwr.smbWait = none ∧ d.pwr.mon = some m) ∧
    (let s : State := (tS (tDev |> fun d => { d with pwr := { d.pwr with tripped := true } })); let d := s.dev;
     s.dev.onAir = true ∧ d.pwr.tripped = true) ∧
    (let s : State := tS tDev; let d := s.dev; s.dev.onAir = true ∧ d.pwr.tripped = false) ∧
    (let s : State := tS tDev; let d := s.dev; s.dev.onAir = true ∧ d.pwr.pllLost = false) ∧
    (let s : State := (tS (tDev |> fun d => { d with pwr := { d.pwr with pllLost := true } })); let d := s.dev;
     s.dev.onAir = true ∧ d.pwr.pllLost = true) :=
  by refine ⟨?_, ?_, ?_, ?_, ?_, ?_, ?_, ?_, ?_, ?_⟩ <;> decide +kernel

theorem wit_HushAndWake :
    (let s : State := (tS (tDev |> fun d => ((List.range 32).foldl (fun d i => d.put (HOOP_SVC_STATE i) 3) d)
         |> fun d => ((List.range 12).foldl (fun d i => d.put (STK_CLU_SVC_STATE i) 3) d)
         |> fun d => ((List.range 4).foldl (fun d i => d.put (FP_SVC_STATE i) 3) d) |>.put PWR_CTL_SMBWAKE 1));
     let d := s.dev; let outOf := fun (f : Nat → Fld) (n : Nat) => ∀ i, i < n → d.get (f i) = 0 ∨ d.get (f i) = 3;
     let quiet := outOf HOOP_SVC_STATE 32 ∧ outOf STK_CLU_SVC_STATE 12 ∧ outOf RIM_SVC_STATE 2;
     let ports := ∀ p, p < 4 → d.get (FP_SVC_STATE p) = 3;
     let armed := (∃ p, p < 4 ∧ d.get (FP_WAKE_MODE p) ≠ 0) ∨ d.get PWR_CTL_SMBWAKE = 1;
     let idle := d.get BOOT_STATUS_TRIAL = 0 ∧ d.mem.scrub = none ∧ ∀ k, k < 12 → d.get (PWR_DVFS_BUSY k) ≠ 1;
     s.dev.onAir = true ∧ quiet ∧ ports ∧ armed ∧ idle) ∧
    (let s : State := tS tDev; let d := s.dev; let outOf := fun (f : Nat → Fld) (n : Nat) => ∀ i, i < n → d.get (f i) = 0 ∨ d.get (f i) = 3;
     let quiet := outOf HOOP_SVC_STATE 32 ∧ outOf STK_CLU_SVC_STATE 12 ∧ outOf RIM_SVC_STATE 2; s.dev.onAir = true ∧ ¬ quiet) ∧
    (let s : State := (tS (tDev |> fun d => ((List.range 32).foldl (fun d i => d.put (HOOP_SVC_STATE i) 3) d)
         |> fun d => ((List.range 12).foldl (fun d i => d.put (STK_CLU_SVC_STATE i) 3) d)
         |> fun d => ((List.range 4).foldl (fun d i => d.put (FP_SVC_STATE i) 3) d) |>.put (FP_SVC_STATE 0) 0));
     let d := s.dev; let outOf := fun (f : Nat → Fld) (n : Nat) => ∀ i, i < n → d.get (f i) = 0 ∨ d.get (f i) = 3;
     let quiet := outOf HOOP_SVC_STATE 32 ∧ outOf STK_CLU_SVC_STATE 12 ∧ outOf RIM_SVC_STATE 2;
     let ports := ∀ p, p < 4 → d.get (FP_SVC_STATE p) = 3; s.dev.onAir = true ∧ quiet ∧ ¬ ports) ∧
    (let s : State := (tS (tDev |> fun d => ((List.range 32).foldl (fun d i => d.put (HOOP_SVC_STATE i) 3) d)
         |> fun d => ((List.range 12).foldl (fun d i => d.put (STK_CLU_SVC_STATE i) 3) d)
         |> fun d => ((List.range 4).foldl (fun d i => d.put (FP_SVC_STATE i) 3) d) |>.put PWR_CTL_SMBWAKE 0
         |> fun d => ((List.range 4).foldl (fun d i => d.put (FP_WAKE_MODE i) 0) d)));
     let d := s.dev; let outOf := fun (f : Nat → Fld) (n : Nat) => ∀ i, i < n → d.get (f i) = 0 ∨ d.get (f i) = 3;
     let quiet := outOf HOOP_SVC_STATE 32 ∧ outOf STK_CLU_SVC_STATE 12 ∧ outOf RIM_SVC_STATE 2;
     let ports := ∀ p, p < 4 → d.get (FP_SVC_STATE p) = 3;
     let armed := (∃ p, p < 4 ∧ d.get (FP_WAKE_MODE p) ≠ 0) ∨ d.get PWR_CTL_SMBWAKE = 1; s.dev.onAir = true ∧ quiet ∧ ports ∧ ¬ armed) ∧
    (let s : State := (tS (tDev |> fun d => ((List.range 32).foldl (fun d i => d.put (HOOP_SVC_STATE i) 3) d)
         |> fun d => ((List.range 12).foldl (fun d i => d.put (STK_CLU_SVC_STATE i) 3) d)
         |> fun d => ((List.range 4).foldl (fun d i => d.put (FP_SVC_STATE i) 3) d) |>.put PWR_CTL_SMBWAKE 1 |>.put BOOT_STATUS_TRIAL 1));
     let d := s.dev; let outOf := fun (f : Nat → Fld) (n : Nat) => ∀ i, i < n → d.get (f i) = 0 ∨ d.get (f i) = 3;
     let quiet := outOf HOOP_SVC_STATE 32 ∧ outOf STK_CLU_SVC_STATE 12 ∧ outOf RIM_SVC_STATE 2;
     let ports := ∀ p, p < 4 → d.get (FP_SVC_STATE p) = 3;
     let armed := (∃ p, p < 4 ∧ d.get (FP_WAKE_MODE p) ≠ 0) ∨ d.get PWR_CTL_SMBWAKE = 1;
     let idle := d.get BOOT_STATUS_TRIAL = 0 ∧ d.mem.scrub = none ∧ ∀ k, k < 12 → d.get (PWR_DVFS_BUSY k) ≠ 1;
     s.dev.onAir = true ∧ quiet ∧ ports ∧ armed ∧ ¬ idle) ∧
    (let s : State := tS tDev; let d := s.dev; let r : Requester := .handle; s.dev.onAir = true ∧ d.awake = true ∧ (r = .pf ∨ r = .handle)) ∧
    (let s : State := tS tDev; let d := s.dev; let r : Requester := .dbg0; s.dev.onAir = true ∧ d.awake = true ∧ r ≠ .pf ∧ r ≠ .handle) ∧
    (let s : State := (tS (tDev |> fun d => { d with pwr := { d.pwr with tripped := true } })); let d := s.dev;
     s.dev.onAir = true ∧ d.pwr.tripped = true) ∧
    (let s : State := (tS (tDev |>.put PWR_STATUS_STATE 0 )); let d := s.dev; let st := d.get PWR_STATUS_STATE; s.dev.onAir = true ∧ st ≠ 1) ∧
    (let s : State := (tS (tDev |>.put PWR_STATUS_STATE 1 )); let d := s.dev; let st := d.get PWR_STATUS_STATE;
     s.dev.onAir = true ∧ st = 1 ∧ d.pwr.tripped = false) ∧
    (let s : State := tS tDev; let d := s.dev; let st := d.get PWR_STATUS_STATE; let sig : BitVec 4 := 0; let pat : BitVec 4 := 0;
     let smb : Bool := false; let p := d.wakePorts sig.toNat pat.toNat;
     let wakes := d.pwr.tripped = false ∧ (st = 1 ∨ st = 2) ∧ (p ≠ 0 ∨ smb = true ∧ d.get PWR_CTL_SMBWAKE = 1); s.dev.onAir = true ∧ ¬ wakes) ∧
    (let s : State := (tS (tDev |>.put PWR_STATUS_STATE 2 |>.put PWR_CTL_SMBWAKE 1)); let d := s.dev; let st := d.get PWR_STATUS_STATE;
     let sig : BitVec 4 := 0; let pat : BitVec 4 := 0; let smb : Bool := true; let p := d.wakePorts sig.toNat pat.toNat;
     let wakes := d.pwr.tripped = false ∧ (st = 1 ∨ st = 2) ∧ (p ≠ 0 ∨ smb = true ∧ d.get PWR_CTL_SMBWAKE = 1);
     s.dev.onAir = true ∧ wakes ∧ st = 2) ∧
    (let s : State := (tS (tDev |>.put PWR_STATUS_STATE 0 )); let d := s.dev; let st := d.get PWR_STATUS_STATE; s.dev.onAir = true ∧ st ≠ 3) ∧
    (let s : State := (tS (tDev |>.put PWR_STATUS_STATE 3 )); let d := s.dev; let st := d.get PWR_STATUS_STATE;
     s.dev.onAir = true ∧ st = 3 ∧ d.pwr.tripped = false ∧ d.pwr.smbWait ≠ some 0x41) ∧
    (let s : State := (tS (tDev |>.put (HOOP_SVC_STATE 0) 0)); let d := s.dev; let h : Hoop := 0;
     let rests := d.hoopUp h = true ∧ d.get PWR_ADOZE_HOOP = 1 ∧ d.hoopQueues h = [] ∧ (∀ c ∈ d.hoop.ctxs, c.hoop ≠ h.val) ∧
         ∀ r ∈ d.hoop.running, r.eng / 16 ≠ h.val;
     s.dev.onAir = true ∧ d.awake = true ∧ ¬ rests) ∧
    (let s : State := (tS (tDev |>.put (HOOP_SVC_STATE 0) 2 |>.put PWR_ADOZE_HOOP 1)); let d := s.dev; let h : Hoop := 0;
     let rests := d.hoopUp h = true ∧ d.get PWR_ADOZE_HOOP = 1 ∧ d.hoopQueues h = [] ∧ (∀ c ∈ d.hoop.ctxs, c.hoop ≠ h.val) ∧
         ∀ r ∈ d.hoop.running, r.eng / 16 ≠ h.val;
     s.dev.onAir = true ∧ d.awake = true ∧ rests) ∧
    (let s : State := (tS (tDev |>.put PWR_STATUS_STATE 2 |> fun d => { d with pwr := { d.pwr with tripped := true } })); let d := s.dev;
     let st := d.get PWR_STATUS_STATE;
     let cmds : List Instr := [.smbReadState, .smbReadHighestTemp, .smbReadBelow, .smbWake, .smbHush 0x48] ++ (List.finRange 12).map .smbReadTemp ++ (List.finRange 8).map .smbReadVolt;
     let c := (.smbReadState : Instr); s.dev.onAir = true ∧ (d.get PWR_SMB_EN = 0 ∨ d.pwr.tripped = true ∧ st ≠ 0) ∧ c ∈ cmds) ∧
    (let s : State := (tS (tDev |>.put PWR_STATUS_STATE 0 |>.put PWR_SMB_EN 1 |>.put (PWR_TEMP_VALID 2) 1 |>.put (PWR_TEMP_T 2) 5));
     let d := s.dev; let st := d.get PWR_STATUS_STATE; let m : Int := 5;
     s.dev.onAir = true ∧ d.get PWR_SMB_EN = 1 ∧ st = 0 ∧ (∃ i, i < 12 ∧ d.get (PWR_TEMP_VALID i) = 1 ∧ sgn 12 (d.get (PWR_TEMP_T i)) = m) ∧
         (∀ i, i < 12 → d.get (PWR_TEMP_VALID i) = 1 → sgn 12 (d.get (PWR_TEMP_T i)) ≤ m)) ∧
    (let s : State := (tS (tDev |>.put PWR_SMB_EN 1 |>.put PWR_STATUS_STATE 0 )); let d := s.dev; let st := d.get PWR_STATUS_STATE;
     s.dev.onAir = true ∧ d.get PWR_SMB_EN = 1 ∧ st = 0 ∧ d.pwr.tripped = false) ∧
    (let s : State := (tS (tDev |>.put PWR_SMB_EN 1 |>.put PWR_STATUS_STATE 0 )); let d := s.dev; let st := d.get PWR_STATUS_STATE;
     let v : BitVec 8 := 0; s.dev.onAir = true ∧ d.get PWR_SMB_EN = 1 ∧ st = 0 ∧ v ≠ 0x48) ∧
    (let s : State := (tS (tDev |>.put PWR_SMB_EN 1 |>.put PWR_STATUS_STATE 2 |>.put PWR_CTL_SMBWAKE 1 )); let d := s.dev;
     let st := d.get PWR_STATUS_STATE;
     let cmds : List Instr := [.smbReadState, .smbReadHighestTemp, .smbReadBelow, .smbWake, .smbHush 0x48] ++ (List.finRange 12).map .smbReadTemp ++ (List.finRange 8).map .smbReadVolt;
     let c := (.smbReadState : Instr);
     s.dev.onAir = true ∧ d.get PWR_SMB_EN = 1 ∧ d.pwr.tripped = false ∧ st = 2 ∧ d.get PWR_CTL_SMBWAKE = 1 ∧ c ∈ cmds) ∧
    (let s : State := (tS (tDev |>.put PWR_SMB_EN 1 |>.put PWR_STATUS_STATE 1 |>.put PWR_CTL_SMBWAKE 0 )); let d := s.dev;
     let st := d.get PWR_STATUS_STATE;
     let cmds : List Instr := [.smbReadState, .smbReadHighestTemp, .smbReadBelow, .smbWake, .smbHush 0x48] ++ (List.finRange 12).map .smbReadTemp ++ (List.finRange 8).map .smbReadVolt;
     let c := (.smbReadState : Instr);
     s.dev.onAir = true ∧ d.get PWR_SMB_EN = 1 ∧ d.pwr.tripped = false ∧ st ≠ 0 ∧ d.get PWR_CTL_SMBWAKE = 0 ∧ c ∈ cmds) :=
  by refine ⟨?_, ?_, ?_, ?_, ?_, ?_, ?_, ?_, ?_, ?_, ?_, ?_, ?_, ?_, ?_, ?_, ?_, ?_, ?_, ?_, ?_, ?_⟩ <;> decide +kernel

theorem wit_Grants :
    (let t : Fin 2 := 0; let s : State := (tS (tDev |> fun d => { d with dbg := { d.dbg with lock := [(t.val, 1)] } })); let d := s.dev;
     let n : BitVec 2 := 0; d.awake = true ∧ n ≠ 3 ∧ d.now < Tab.get 0 d.dbg.lock t) ∧
    (let s : State := (tS (tDev |>.put DBG_STATUS_CAP 0)); let t : Fin 2 := 0; let d := s.dev; let n : BitVec 2 := 1;
     d.awake = true ∧ n ≠ 3 ∧ Tab.get 0 d.dbg.lock t ≤ d.now ∧ d.get DBG_STATUS_CAP < n.toNat) ∧
    (let s : State := tS tDev; let t : Fin 2 := 0; let d := s.dev; let n : BitVec 2 := 0;
     d.awake = true ∧ n ≠ 3 ∧ Tab.get 0 d.dbg.lock t ≤ d.now ∧ n.toNat ≤ d.get DBG_STATUS_CAP ∧ n.toNat ≤ d.level t) ∧
    (let s : State := (tS (tDev |>.put DBG_STATUS_CAP 2)); let t : Fin 2 := 0; let d := s.dev; let n : BitVec 2 := 1;
     d.awake = true ∧ n ≠ 3 ∧ Tab.get 0 d.dbg.lock t ≤ d.now ∧ n.toNat ≤ d.get DBG_STATUS_CAP ∧ d.level t < n.toNat) ∧
    (let s : State := tS tDev; let t : Fin 2 := 0; let d := s.dev; let valid := d.get (bank DBG_AUTH_STATUS_CHALV t) = 1;
     d.awake = true ∧ ¬ valid) ∧
    (let t : Fin 2 := 0;
     let s : State := (tS (tDev |>.put (bank DBG_AUTH_STATUS_CHALV t) 1 |> fun d => { d with fuse := { d.fuse with kd := 1 } }));
     let d := s.dev; let r := d.authBytes DBG_AUTH_RESP_BYTES t 24; let valid := d.get (bank DBG_AUTH_STATUS_CHALV t) = 1;
     let owner := beNat (sha384 (slice r 0 96)) = d.token; d.awake = true ∧ valid ∧ ¬ owner) ∧
    (let t : Fin 2 := 0;
     let s : State := (tS (tDev |>.put (bank DBG_AUTH_STATUS_CHALV t) 1
         |> fun d => { d with fuse := { d.fuse with kd := 0xf57bb7ed82c6ae4a29e6c9879338c592c7d42a39135583e8ccbe3940f2344b0eb6eb8503db0ffd6a39ddd00cd07d8317 } }));
     let d := s.dev; let l := Tab.get 0 d.dbg.req t; let r := d.authBytes DBG_AUTH_RESP_BYTES t 24;
     let msg := d.authBytes DBG_AUTH_CHAL_BYTES t 4 ++ leBytes 8 d.fuse.serial ++ leBytes 1 l ++ leBytes 1 t;
     let valid := d.get (bank DBG_AUTH_STATUS_CHALV t) = 1; let owner := beNat (sha384 (slice r 0 96)) = d.token;
     let signed := ecdsaVerify (slice r 0 96) (sha384 msg) (slice r 96 96) = true; d.awake = true ∧ valid ∧ owner ∧ ¬ signed) ∧
    (let t : Fin 2 := 0;
     let s : State := (tS (tDev |>.put (bank DBG_AUTH_STATUS_CHALV t) 1 |> fun d => { d with fuse := { d.fuse with kd := tKeyHash } }
         |> fun d => (List.range 24).foldl (fun d i => d.put (bank (DBG_AUTH_RESP_BYTES i) t) (leNat (slice tResp (8 * i) 8))) d));
     let d := s.dev; d.awake = true ∧ d.respondResult t = 0) ∧
    (let s : State := tS tDev; let t : Fin 2 := 0; let d := s.dev; d.awake = true ∧ d.respondResult t ≠ 0) ∧
    (let s : State := (tS (tDev |>.put (bank DBG_AUTH_STATUS_LEVEL 0) 2)); let d := s.dev; let c : BitVec 8 := 0; let n := c.toNat;
     boardTest n = true ∧ d.level 0 = 2) ∧
    (let s : State := tS tDev; let d := s.dev; let c : BitVec 8 := 0; let n := c.toNat; boardTest n = true ∧ d.level 0 ≠ 2) ∧
    (let c : BitVec 8 := 2; let n := c.toNat; (n = 1 ∨ n = 2 ∨ n = 0x10)) ∧
    (let c : BitVec 8 := 7; let n := c.toNat; boardTest n = false ∧ n ≠ 1 ∧ n ≠ 2 ∧ n ≠ 0x10) :=
  by refine ⟨?_, ?_, ?_, ?_, ?_, ?_, ?_, ?_, ?_, ?_, ?_, ?_, ?_⟩ <;> decide +kernel

theorem wit_DebugAccess :
    (let s : State := tS tDev; let d := s.dev; d.dbg.ir ≠ 0x10) ∧
    (let s : State := (tS (tDev |> fun d => { d with dbg := { d.dbg with ir := 0x10, done := false } })); let d := s.dev;
     d.dbg.ir = 0x10 ∧ d.dbg.done = false) ∧
    (let s : State := (tS (tDev |> fun d => { d with dbg := { d.dbg with ir := 0x10 } })); let d := s.dev; let off : BitVec 20 := 0;
     let w : Bool := false; let off := off.toNat; let dark := d.asleep = true ∨ d.pwr.tripped = true ∨ d.boot.held = true;
     d.dbg.ir = 0x10 ∧ d.dbg.done = true ∧ w = false ∧ (dark ∨ d.dbg0Reads off = false)) ∧
    (let s : State := (tS (tDev |> fun d => { d with dbg := { d.dbg with ir := 0x10 } })); let d := s.dev; let off : BitVec 20 := 0x20000;
     let w : Bool := false; let off := off.toNat; let dark := d.asleep = true ∨ d.pwr.tripped = true ∨ d.boot.held = true;
     d.dbg.ir = 0x10 ∧ d.dbg.done = true ∧ w = false ∧ ¬ dark ∧ d.dbg0Reads off = true) ∧
    (let s : State := (tS (tDev |> fun d => { d with dbg := { d.dbg with ir := 0x10 } })); let d := s.dev; let off : BitVec 20 := 0;
     let w : Bool := true; let p : Bool := false; let off := off.toNat;
     let dark := d.asleep = true ∨ d.pwr.tripped = true ∨ d.boot.held = true;
     d.dbg.ir = 0x10 ∧ d.dbg.done = true ∧ w = true ∧ (dark ∨ p = true ∨ d.dbg0Writes off = false)) ∧
    (let s : State := (tS (tDev |> fun d => { d with dbg := { d.dbg with ir := 0x10 } } |>.put (bank DBG_AUTH_STATUS_LEVEL 0) 2));
     let d := s.dev; let off : BitVec 20 := 0x20000; let w : Bool := true; let p : Bool := false; let off := off.toNat;
     let dark := d.asleep = true ∨ d.pwr.tripped = true ∨ d.boot.held = true;
     d.dbg.ir = 0x10 ∧ d.dbg.done = true ∧ w = true ∧ ¬ dark ∧ p = false ∧ d.dbg0Writes off = true) ∧
    (let s : State := (tS (tDev |>.put DBG_ACC_CMD_BUSY 1 )); let d := s.dev; d.awake = true ∧ d.get DBG_ACC_CMD_BUSY = 1) ∧
    (let s : State := (tS (tDev |>.put DBG_ACC_CMD_BUSY 0 )); let d := s.dev; let t : Fin 2 := 0;
     d.awake = true ∧ d.get DBG_ACC_CMD_BUSY = 0 ∧ d.level t < 1) ∧
    (let s : State := (tS (tDev |>.put DBG_ACC_CMD_BUSY 0 )); let d := s.dev; let t : Fin 2 := 0;
     d.awake = true ∧ d.get DBG_ACC_CMD_BUSY = 0 ∧ d.level t < 2) ∧
    (let t : Fin 2 := 0; let s : State := (tS (tDev |>.put DBG_ACC_CMD_BUSY 0 |>.put (bank DBG_AUTH_STATUS_LEVEL t) 2)); let d := s.dev;
     let p : Bool := true; d.awake = true ∧ d.get DBG_ACC_CMD_BUSY = 0 ∧ 2 ≤ d.level t ∧ p = true) ∧
    (let t : Fin 2 := 0;
     let s : State := (tS (tDev |>.put DBG_ACC_CMD_BUSY 0 |>.put (bank DBG_AUTH_STATUS_LEVEL t) 1 |>.put DBG_ACC_ADDR_ADDR 1));
     let d := s.dev; let size : Fin 3 := 1; let n := 2 ^ size.val; let pa := d.get DBG_ACC_ADDR_ADDR;
     d.awake = true ∧ d.get DBG_ACC_CMD_BUSY = 0 ∧ 1 ≤ d.level t ∧ pa % n ≠ 0) ∧
    (let t : Fin 2 := 0;
     let s : State := (tS (tDev |>.put DBG_ACC_CMD_BUSY 0 |>.put (bank DBG_AUTH_STATUS_LEVEL t) 2 |>.put DBG_ACC_ADDR_ADDR 1));
     let d := s.dev; let size : Fin 3 := 1; let p : Bool := false; let n := 2 ^ size.val; let pa := d.get DBG_ACC_ADDR_ADDR;
     d.awake = true ∧ d.get DBG_ACC_CMD_BUSY = 0 ∧ 2 ≤ d.level t ∧ p = false ∧ pa % n ≠ 0) ∧
    (let t : Fin 2 := 0;
     let s : State := (tS (tDev |>.put DBG_ACC_CMD_BUSY 0 |>.put (bank DBG_AUTH_STATUS_LEVEL t) 1 |>.put MEM_STATUS_READY 1
         |>.put MEM_STATUS_SIZE 1));
     let d := s.dev; let size : Fin 3 := 0; let e : DramEnv := []; let n := 2 ^ size.val; let pa := d.get DBG_ACC_ADDR_ADDR;
     let x := d.readCoherent (pa / 32) e 0x66;
     d.awake = true ∧ d.get DBG_ACC_CMD_BUSY = 0 ∧ pa % n = 0 ∧ isControl pa = false ∧ 1 ≤ d.level t ∧ d.memOk .dbg pa n false = true ∧
         x.2 = false) ∧
    (let t : Fin 2 := 0;
     let s : State := (tS (tDev |>.put DBG_ACC_CMD_BUSY 0 |>.put (bank DBG_AUTH_STATUS_LEVEL t) 1 |>.put MEM_STATUS_READY 1
         |>.put MEM_STATUS_SIZE 1 |> fun d => { d with mem := { d.mem with poison := [(0, true)] } }));
     let d := s.dev; let size : Fin 3 := 0; let e : DramEnv := []; let n := 2 ^ size.val; let pa := d.get DBG_ACC_ADDR_ADDR;
     let x := d.readCoherent (pa / 32) e 0x66;
     d.awake = true ∧ d.get DBG_ACC_CMD_BUSY = 0 ∧ pa % n = 0 ∧ isControl pa = false ∧ 1 ≤ d.level t ∧ d.memOk .dbg pa n false = true ∧
         x.2 = true) ∧
    (let t : Fin 2 := 0;
     let s : State := (tS (tDev |>.put DBG_ACC_CMD_BUSY 0 |>.put (bank DBG_AUTH_STATUS_LEVEL t) 1 |>.put MEM_STATUS_READY 1
         |>.put MEM_STATUS_SIZE 1));
     let d := s.dev; let size : Fin 3 := 0; let e : DramEnv := []; let n := 2 ^ size.val; let pa := d.get DBG_ACC_ADDR_ADDR;
     d.awake = true ∧ d.get DBG_ACC_CMD_BUSY = 0 ∧ pa % n = 0 ∧ isControl pa = false ∧ 1 ≤ d.level t ∧ d.memOk .dbg pa n false = true ∧
         ((Tab.find d.mem.l2 (pa / 32)).isSome ∨ e = [] ∧ Tab.get false d.mem.poison (pa / 32) = false)) ∧
    (let t : Fin 2 := 0; let s : State := (tS (tDev |>.put DBG_ACC_CMD_BUSY 0 |>.put (bank DBG_AUTH_STATUS_LEVEL t) 1)); let d := s.dev;
     let size : Fin 3 := 0; let n := 2 ^ size.val; let pa := d.get DBG_ACC_ADDR_ADDR;
     d.awake = true ∧ d.get DBG_ACC_CMD_BUSY = 0 ∧ pa % n = 0 ∧ isControl pa = false ∧ 1 ≤ d.level t ∧ d.memOk .dbg pa n false = false) ∧
    (let t : Fin 2 := 0;
     let s : State := (tS (tDev |>.put DBG_ACC_CMD_BUSY 0 |>.put (bank DBG_AUTH_STATUS_LEVEL t) 2 |>.put MEM_STATUS_READY 1
         |>.put MEM_STATUS_SIZE 1
         |> fun d => { d with mem := { d.mem with l2 := [(0, { data := List.replicate 64 0, dirty := false, poison := false, holders := [] })] } }));
     let d := s.dev; let size : Fin 3 := 0; let e : DramEnv := []; let p : Bool := false; let n := 2 ^ size.val;
     let pa := d.get DBG_ACC_ADDR_ADDR;
     d.awake = true ∧ d.get DBG_ACC_CMD_BUSY = 0 ∧ pa % n = 0 ∧ isControl pa = false ∧ 2 ≤ d.level t ∧ p = false ∧
         d.memOk .dbg pa n true = true ∧ (∀ e ∈ d.mem.l2, e.2.data.length = 64)) ∧
    (let t : Fin 2 := 0;
     let s : State := (tS (tDev |>.put DBG_ACC_CMD_BUSY 0 |>.put (bank DBG_AUTH_STATUS_LEVEL t) 1 |>.put DBG_ACC_ADDR_ADDR 0x0F0000020000));
     let d := s.dev; let size : Fin 3 := 1; let p : Bool := false; let n := 2 ^ size.val; let pa := d.get DBG_ACC_ADDR_ADDR;
     let o := locate (pa - 0x0F0000000000);
     let y := ((locate 0x20000).getD ⟨⟨.DBG_AUTH_RESP, 131104, 24, 4, 0, 1, 0, 0, true, []⟩, 0, 0, 0, 0⟩);
     d.awake = true ∧ d.get DBG_ACC_CMD_BUSY = 0 ∧ pa % n = 0 ∧ isControl pa = true ∧ o = locate (pa - 0x0F0000000000) ∧ 1 ≤ d.level t ∧
         o = some y ∧ y.part = 0 ∧ n = y.reg.words ∧ (p = true ∨ d.level t = 1)) :=
  by refine ⟨?_, ?_, ?_, ?_, ?_, ?_, ?_, ?_, ?_, ?_, ?_, ?_, ?_, ?_, ?_, ?_, ?_, ?_⟩ <;> decide +kernel

theorem wit_RunControl :
    (let s : State := tS tDev; let r : Requester := .dbg0; let c : Fin 49 := 0; let d := s.dev; let i := .halt r c;
     s.dev.awake = true ∧ d.mayRun r c = false ∧ i ∈ ([.halt r c, .debugResume r c, .debugStep r c] : List Instr)) ∧
    (let s : State := tS tDev; let r : Requester := .handle; let c : Fin 49 := 0; let d := s.dev;
     let halted := d.get (DBG_CORE_STAT_HALTED c) = 1; s.dev.awake = true ∧ d.mayRun r c = true ∧ ¬ halted ∧ d.coreInReset c = true) ∧
    (let c : Fin 49 := 0; let s : State := (tS (tDev |>.put (STK_CORE_CTL_STATE c) 1)); let r : Requester := .handle; let d := s.dev;
     let halted := d.get (DBG_CORE_STAT_HALTED c) = 1; s.dev.awake = true ∧ d.mayRun r c = true ∧ ¬ halted ∧ d.coreInReset c = false) ∧
    (let c : Fin 49 := 0; let s : State := (tS (tDev |>.put (DBG_CORE_STAT_HALTED c) 1 |>.put (DBG_INSN_INSN 0) 0xFFFFFFFF));
     let r : Requester := .handle; let d := s.dev; let halted := d.get (DBG_CORE_STAT_HALTED c) = 1; let env : MemEnv := {};
     let i := { rawIns (d.get (DBG_INSN_INSN c)) with env := env }; let x := d.ctxFor io (dbgThread c) true env;
     let d2 := tDevOf (x.1.attempt x.2 i); let code := 1; let a := 0; let b := 0; let l := false;
     s.dev.awake = true ∧ d.mayRun r c = true ∧ halted ∧ x.1.attempt x.2 i = .bad d2 (.exc code a b l)) ∧
    (let c : Fin 49 := 0; let s : State := (tS (tDev |>.put (DBG_CORE_STAT_HALTED c) 1)); let r : Requester := .handle; let d := s.dev;
     let halted := d.get (DBG_CORE_STAT_HALTED c) = 1; let env : MemEnv := {};
     let i := { rawIns (d.get (DBG_INSN_INSN c)) with env := env }; let x := d.ctxFor io (dbgThread c) true env;
     let d2 := tDevOf (x.1.attempt x.2 i); s.dev.awake = true ∧ d.mayRun r c = true ∧ halted ∧ x.1.attempt x.2 i = .ok d2 .next) ∧
    (let s : State := tS tDev; let r : Requester := .dbg0; let d := s.dev; let e : Fin 512 := 0;
     let cmds : List Instr := [.engineHalt r e, .engineResume r e] ++ (List.finRange 4).map (.engineStep r e); let i := .engineHalt r e;
     s.dev.awake = true ∧ d.mayDebug r 2 = false ∧ i ∈ cmds) ∧
    (let e : Fin 512 := 0; let s : State := (tS (tDev |>.put (DBG_ENG_STAT_HALTED e) 1)); let r : Requester := .handle; let d := s.dev;
     let eh := d.get (DBG_ENG_STAT_HALTED e) = 1; s.dev.awake = true ∧ d.mayDebug r 2 = true ∧ eh) ∧
    (let s : State := tS tDev; let r : Requester := .handle; let d := s.dev; let e : Fin 512 := 0; let eh := d.get (DBG_ENG_STAT_HALTED e) = 1;
     s.dev.awake = true ∧ d.mayDebug r 2 = true ∧ ¬ eh) ∧
    (let c : Fin 49 := 0; let s : State := (tS (tDev |>.put (STK_CORE_CTL_STATE c) 1)); let d := s.dev; let k := tid (dbgThread c);
     let h := d.th k; let halted := d.get (DBG_CORE_STAT_HALTED c) = 1;
     s.dev.awake = true ∧ h.pend = [] ∧ h.lvl ≠ 3 ∧ (if c.val < 48 then d.coreUp c = true ∧ h.mcLevel = none ∧
         h.fptNow = false else ¬ halted) ∧ (h.haltReq = none ∨ h.held = true)) ∧
    (let a := 1; let u := 0; let c : Fin 49 := 0;
     let s : State := (tS (tDev |>.put (STK_CORE_CTL_STATE c) 1
         |> fun d => { d with thr := { d.thr with t := [(4096 + c.val, { haltReq := some (a, u) })] } }));
     let d := s.dev; let k := tid (dbgThread c); let h := d.th k; let halted := d.get (DBG_CORE_STAT_HALTED c) = 1;
     s.dev.awake = true ∧ h.pend = [] ∧ h.lvl ≠ 3 ∧ (if c.val < 48 then d.coreUp c = true ∧ h.mcLevel = none ∧
         h.fptNow = false else ¬ halted) ∧ h.haltReq = some (a, u) ∧ h.held = false) :=
  ⟨by decide +kernel,
   by decide +kernel,
   by decide +kernel,
   ⟨by decide +kernel, by decide +kernel, by decide +kernel, tBad_spec (by decide +kernel)⟩,
   ⟨by decide +kernel, by decide +kernel, by decide +kernel, tRes_spec (by decide +kernel)⟩,
   by decide +kernel,
   by decide +kernel,
   by decide +kernel,
   by decide +kernel,
   by decide +kernel⟩

theorem wit_DebugRegisters :
    (let s : State := tS tDev; let r : Requester := .dbg0; let tg : DbgTarget := .core 0; let d := s.dev;
     let may := match tg with | .core c => d.mayRun r c | .engine _ _ => d.mayDebug r 2; s.dev.awake = true ∧ may = false) ∧
    (let s : State := tS tDev; let r : Requester := .handle; let tg : DbgTarget := .core 0; let d := s.dev;
     let may := match tg with | .core c => d.mayRun r c | .engine _ _ => d.mayDebug r 2;
     let x := match tg with | .core c => d.coreSel c | .engine e y => d.engSel e y; s.dev.awake = true ∧ may = true ∧ x.halted = false) ∧
    (let s : State := (tS (tDev |>.put (DBG_CORE_STAT_HALTED 0) 1)); let r : Requester := .handle; let tg : DbgTarget := .core 0;
     let n : BitVec 11 := 0; let d := s.dev; let may := match tg with | .core c => d.mayRun r c | .engine _ _ => d.mayDebug r 2;
     let x := match tg with | .core c => d.coreSel c | .engine e y => d.engSel e y; let h := d.th (tid x.t);
     s.dev.awake = true ∧ may = true ∧ x.halted = true ∧ h.pend = [] ∧ n.toNat < 0x1C) ∧
    (let s : State := (tS (tDev |>.put (DBG_ENG_STAT_HALTED 0) 1)); let r : Requester := .handle; let tg : DbgTarget := .engine 0 0;
     let n : BitVec 11 := 0x20; let d := s.dev; let may := match tg with | .core c => d.mayRun r c | .engine _ _ => d.mayDebug r 2;
     let x := match tg with | .core c => d.coreSel c | .engine e y => d.engSel e y; let h := d.th (tid x.t);
     s.dev.awake = true ∧ may = true ∧ x.halted = true ∧ h.pend = [] ∧ 0x20 ≤ n.toNat ∧ n.toNat < 0x40) ∧
    (let s : State := (tS (tDev |>.put (DBG_CORE_STAT_HALTED 0) 1)); let r : Requester := .handle; let tg : DbgTarget := .core 0;
     let n : BitVec 11 := 0x41; let d := s.dev; let may := match tg with | .core c => d.mayRun r c | .engine _ _ => d.mayDebug r 2;
     let x := match tg with | .core c => d.coreSel c | .engine e y => d.engSel e y; let h := d.th (tid x.t);
     s.dev.awake = true ∧ may = true ∧ x.halted = true ∧ h.pend = [] ∧ n.toNat = 0x41) ∧
    (let s : State := (tS (tDev |>.put (DBG_CORE_STAT_HALTED 0) 1)); let r : Requester := .handle; let tg : DbgTarget := .core 0;
     let n : BitVec 11 := 0x42; let d := s.dev; let may := match tg with | .core c => d.mayRun r c | .engine _ _ => d.mayDebug r 2;
     let x := match tg with | .core c => d.coreSel c | .engine e y => d.engSel e y; let h := d.th (tid x.t);
     s.dev.awake = true ∧ may = true ∧ x.halted = true ∧ h.pend = [] ∧ n.toNat = 0x42) ∧
    (let s : State := (tS (tDev |>.put (DBG_CORE_STAT_HALTED 0) 1)); let r : Requester := .handle; let tg : DbgTarget := .core 0;
     let n : BitVec 11 := 0x64; let d := s.dev; let may := match tg with | .core c => d.mayRun r c | .engine _ _ => d.mayDebug r 2;
     let x := match tg with | .core c => d.coreSel c | .engine e y => d.engSel e y; let h := d.th (tid x.t);
     s.dev.awake = true ∧ may = true ∧ x.halted = true ∧ h.pend = [] ∧ 0x64 ≤ n.toNat ∧ n.toNat < 0x400) ∧
    (let s : State := (tS (tDev |>.put (DBG_CORE_STAT_HALTED 0) 1)); let r : Requester := .handle; let tg : DbgTarget := .core 0;
     let n : BitVec 11 := 0x511; let d := s.dev; let may := match tg with | .core c => d.mayRun r c | .engine _ _ => d.mayDebug r 2;
     let x := match tg with | .core c => d.coreSel c | .engine e y => d.engSel e y; let h := d.th (tid x.t);
     s.dev.awake = true ∧ may = true ∧ x.halted = true ∧ h.pend = [] ∧ 0x400 ≤ n.toNat ∧
         ctlReg (kindOf x.t) 3 false (n.toNat - 0x400) = none) :=
  by refine ⟨?_, ?_, ?_, ?_, ?_, ?_, ?_, ?_⟩ <;> decide +kernel

theorem wit_TraceAndCounters :
    (let s : State := tS tDev; let r : Requester := .dbg0; let d := s.dev; s.dev.awake = true ∧ d.mayDebug r 2 = false) ∧
    (let s : State := tS tDev; let r : Requester := .handle; let c : Core := 0; let d := s.dev; let p := true;
     s.dev.awake = true ∧ d.mayDebug r 2 = true ∧ (p = true ∨ d.get (DBG_CORE_STAT_TXFULL c) = 0)) ∧
    (let c : Core := 0; let s : State := (tS (tDev |>.put (DBG_CORE_STAT_TXFULL c) 1 )); let r : Requester := .handle; let d := s.dev;
     s.dev.awake = true ∧ d.mayDebug r 2 = true ∧ d.get (DBG_CORE_STAT_TXFULL c) = 1) ∧
    (let c : Core := 0; let s : State := (tS (tDev |>.put (DBG_CORE_STAT_RXFULL c) 1 )); let r : Requester := .handle; let d := s.dev;
     s.dev.awake = true ∧ d.mayDebug r 2 = true ∧ d.get (DBG_CORE_STAT_RXFULL c) = 1) ∧
    (let c : Core := 0; let s : State := (tS (tDev |>.put (DBG_CORE_STAT_RXFULL c) 0 )); let r : Requester := .handle; let d := s.dev;
     s.dev.awake = true ∧ d.mayDebug r 2 = true ∧ d.get (DBG_CORE_STAT_RXFULL c) = 0) ∧
    (let s : State := tS tDev; let d := s.dev; let src : BitVec 7 := 0; let vc : Fin 3 := 0; let kind : Fin 8 := 0; let a : PAddr := 0;
     let n := src.toNat; let rg := d.get (TRC_SRC_RANGE n);
     let takes := d.get TRC_CTL_EN = 1 ∧ n < 0x67 ∧ d.get (TRC_SRC_EN n) = 1 ∧ bit (d.get (TRC_SRC_VCMASK n)) vc = true ∧
         bit (d.get (TRC_SRC_KINDMASK n)) kind = true ∧ (rg = 0 ∨ 4 < rg ∨ d.get (TRC_ADDR_LO_ADDR (rg - 1)) ≤ a.toNat ∧
         a.toNat ≤ d.get (TRC_ADDR_HI_ADDR (rg - 1))) ∧ d.trcFrozen = false ∧ d.asleep = false;
     s.dev.awake = true ∧ ¬ takes) ∧
    (let s : State := (tS (tDev |>.put TRC_CTL_EN 1 |>.put (TRC_SRC_EN 0) 1 |>.put (TRC_SRC_VCMASK 0) 7 |>.put (TRC_SRC_KINDMASK 0) 0xFF
         |>.put TRC_STATUS_REFUSING 0xFF));
     let d := s.dev; let src : BitVec 7 := 0; let vc : Fin 3 := 0; let kind : Fin 8 := 0; let size : Fin 4 := 0; let a : PAddr := 0;
     let n := src.toNat; let rg := d.get (TRC_SRC_RANGE n);
     let takes := d.get TRC_CTL_EN = 1 ∧ n < 0x67 ∧ d.get (TRC_SRC_EN n) = 1 ∧ bit (d.get (TRC_SRC_VCMASK n)) vc = true ∧
         bit (d.get (TRC_SRC_KINDMASK n)) kind = true ∧ (rg = 0 ∨ 4 < rg ∨ d.get (TRC_ADDR_LO_ADDR (rg - 1)) ≤ a.toNat ∧
         a.toNat ≤ d.get (TRC_ADDR_HI_ADDR (rg - 1))) ∧ d.trcFrozen = false ∧ d.asleep = false;
     let p := d.encodePkt n vc kind size a.toNat;
     let full := bit (d.get TRC_STATUS_REFUSING) (d.get (TRC_SRC_PRIO n)) = true ∨ 65536 < d.trc.fill + p.1.length + 256;
     s.dev.awake = true ∧ takes ∧ full) ∧
    (let s : State := (tS (tDev |>.put TRC_CTL_EN 1 |>.put (TRC_SRC_EN 0) 1 |>.put (TRC_SRC_VCMASK 0) 7 |>.put (TRC_SRC_KINDMASK 0) 0xFF));
     let d := s.dev; let src : BitVec 7 := 0; let vc : Fin 3 := 0; let kind : Fin 8 := 0; let size : Fin 4 := 0; let a : PAddr := 0;
     let n := src.toNat; let rg := d.get (TRC_SRC_RANGE n);
     let takes := d.get TRC_CTL_EN = 1 ∧ n < 0x67 ∧ d.get (TRC_SRC_EN n) = 1 ∧ bit (d.get (TRC_SRC_VCMASK n)) vc = true ∧
         bit (d.get (TRC_SRC_KINDMASK n)) kind = true ∧ (rg = 0 ∨ 4 < rg ∨ d.get (TRC_ADDR_LO_ADDR (rg - 1)) ≤ a.toNat ∧
         a.toNat ≤ d.get (TRC_ADDR_HI_ADDR (rg - 1))) ∧ d.trcFrozen = false ∧ d.asleep = false;
     let p := d.encodePkt n vc kind size a.toNat;
     let full := bit (d.get TRC_STATUS_REFUSING) (d.get (TRC_SRC_PRIO n)) = true ∨ 65536 < d.trc.fill + p.1.length + 256;
     s.dev.awake = true ∧ takes ∧ ¬ full ∧ d.trc.lost.all (fun x => x == 0) = true) ∧
    (let s : State := tS tDev; let d := s.dev; let src : BitVec 7 := 0; let n := src.toNat; s.dev.awake = true ∧ (d.tsrc n).fresh = true) ∧
    (let s : State := tS tDev; let d := s.dev; let mode := d.get TRC_SINK_CFG_MODE;
     let runs := d.asleep = false ∧ d.get TRC_STATUS_STOPPED ≠ 1 ∧ d.trcFrozen = false;
     s.dev.awake = true ∧ (mode = 0 ∨ ¬ runs ∨ d.trc.fill = 0)) ∧
    (let s : State := (tS (tDev |>.put TRC_SINK_CFG_MODE 1 |> fun d => { d with trc := { d.trc with fifo := [List.replicate 64 0] } }));
     let d := s.dev; let mode := d.get TRC_SINK_CFG_MODE; let w := d.get TRC_SINK_WPTR_OFFSET;
     let runs := d.asleep = false ∧ d.get TRC_STATUS_STOPPED ≠ 1 ∧ d.trcFrozen = false;
     s.dev.awake = true ∧ mode = 1 ∧ runs ∧ 64 ≤ d.trc.fill ∧ w + 128 ≤ 2 ^ 20) ∧
    (let s : State := tS tDev; let d := s.dev;
     let due := (d.cnt.due = true ∨ d.cnt.snap = true) ∧ d.cnt.dump = none ∧ ¬ (d.get DBG_FRZ_CNT = 1 ∧ d.anyHalted = true) ∧
         d.asleep = false ∧ d.pwr.tripped = false;
     s.dev.awake = true ∧ ¬ due) ∧
    (let s : State := (tS (tDev |>.put CNT_CTL_CLR 1 |> fun d => { d with cnt := { d.cnt with due := true } })); let d := s.dev;
     let due := (d.cnt.due = true ∨ d.cnt.snap = true) ∧ d.cnt.dump = none ∧ ¬ (d.get DBG_FRZ_CNT = 1 ∧ d.anyHalted = true) ∧
         d.asleep = false ∧ d.pwr.tripped = false;
     let f := (MLE_RX_CNT_COUNT : Fld); let b := (.core : CntBlk);
     s.dev.awake = true ∧ due ∧ d.get CNT_CTL_CLR = 1 ∧ (CntSrc.reg f, b) ∈ cntOrder ∧ d.blkUp b = true) ∧
    (let s : State := (tS (tDev |>.put CNT_CTL_CLR 0 |> fun d => { d with cnt := { d.cnt with due := true } })); let d := s.dev;
     let due := (d.cnt.due = true ∨ d.cnt.snap = true) ∧ d.cnt.dump = none ∧ ¬ (d.get DBG_FRZ_CNT = 1 ∧ d.anyHalted = true) ∧
         d.asleep = false ∧ d.pwr.tripped = false;
     s.dev.awake = true ∧ due ∧ d.get CNT_CTL_CLR = 0) ∧
    (let s : State := tS tDev; let d := s.dev; let g := if d.tick.cnt.n = d.cnt.n then d else d.tick; s.dev.awake = true ∧ g.cnt.dump = none) ∧
    (let x := (⟨0, 0, 0, false, false, 0, [], true⟩ : Dump);
     let s : State := (tS (tDev |> fun d => { d with cnt := { d.cnt with dump := some x } })); let d := s.dev;
     let g := if d.tick.cnt.n = d.cnt.n then d else d.tick; s.dev.awake = true ∧ g.cnt.dump = some x ∧ x.opened = true) ∧
    (let s : State := (tS (tDev |>.put CNT_CMD_BUSY 1 )); let d := s.dev; s.dev.awake = true ∧ d.get CNT_CMD_BUSY = 1) ∧
    (let s : State := (tS (tDev |>.put CNT_CMD_BUSY 0 )); let d := s.dev; s.dev.awake = true ∧ d.get CNT_CMD_BUSY = 0) ∧
    (let s : State := tS tDev; let d := s.dev; s.dev.awake = true ∧ d.cnt.dump = none) ∧
    (let x := ⟨0, 0, 0, false, false, 0, [], true⟩;
     let s : State := (tS (tDev |> fun d => { d with cnt := { d.cnt with dump := some x } } |>.put DBG_FRZ_CNT 1
         |>.put (DBG_CORE_STAT_HALTED 0) 1));
     let d := s.dev; s.dev.awake = true ∧ d.cnt.dump = some x ∧ d.get DBG_FRZ_CNT = 1 ∧ d.anyHalted = true) ∧
    (let x := ⟨0, 0, 0, false, false, 0, [], true⟩;
     let s : State := (tS (tDev |> fun d => { d with cnt := { d.cnt with dump := some x } } |>.put MEM_STATUS_READY 1
         |>.put MEM_STATUS_SIZE 1));
     let d := s.dev;
     s.dev.awake = true ∧ d.cnt.dump = some x ∧ (d.get DBG_FRZ_CNT = 0 ∨ d.anyHalted = false) ∧
         d.memOk .counter (d.dumpAddr x.slot) (cdiv x.bytes.length 2) true = true) :=
  by refine ⟨?_, ?_, ?_, ?_, ?_, ?_, ?_, ?_, ?_, ?_, ?_, ?_, ?_, ?_, ?_, ?_, ?_, ?_, ?_, ?_, ?_⟩ <;> decide +kernel

theorem wit_Resets :
    (let s : State := (tS (tDev |> fun d => { d with err := { d.err with fatal := true } })); let d := s.dev;
     d.onAir = true ∧ d.err.fatal = true ∧ d.pwr.pllLost = false) ∧
    (let s : State := tS tDev; let d := s.dev; d.onAir = true ∧ (d.err.fatal = false ∨ d.pwr.pllLost = true)) ∧
    (let s : State := tS tDev; let d := s.dev; let r : Requester := .handle; let key : BitVec 16 := 0;
     let may := (r = .pf ∨ r = .handle) ∧ key = 0x7A3C; d.awake = true ∧ ¬ may) ∧
    (let s : State := tS tDev; let d := s.dev; let r : Requester := .handle; let key : BitVec 16 := 0x7A3C; let b : BitVec 5 := 0;
     let i : BitVec 5 := 0; let may := (r = .pf ∨ r = .handle) ∧ key = 0x7A3C; let k := i.toNat;
     d.awake = true ∧ may ∧ rstBlock b.toNat k = none) ∧
    (let s : State := tS tDev; let d := s.dev; let r : Requester := .handle; let key : BitVec 16 := 0x7A3C; let b : BitVec 5 := 3;
     let i : BitVec 5 := 0; let may := (r = .pf ∨ r = .handle) ∧ key = 0x7A3C; let k := i.toNat; d.awake = true ∧ may ∧ b = 3 ∧ k < 4) ∧
    (let s : State := tS tDev; let d := s.dev; let r : Requester := .handle; let key : BitVec 16 := 0x7A3C; let b : BitVec 5 := 0xC;
     let i : BitVec 5 := 0; let may := (r = .pf ∨ r = .handle) ∧ key = 0x7A3C; let k := i.toNat; d.awake = true ∧ may ∧ b = 0xC ∧ k < 2) ∧
    (let s : State := (tS (tDev |>.put (HOOP_SVC_STATE 0) 1)); let d := s.dev; let r : Requester := .handle; let key : BitVec 16 := 0x7A3C;
     let b : BitVec 5 := 7; let i : BitVec 5 := 0; let may := (r = .pf ∨ r = .handle) ∧ key = 0x7A3C; let k := i.toNat;
     d.awake = true ∧ may ∧ b = 7 ∧ (d.get (HOOP_SVC_STATE k) = 1 ∨ d.get (HOOP_SVC_STATE k) = 2)) ∧
    (let s : State := tS tDev; let d := s.dev; let r : Requester := .handle; let key : BitVec 16 := 0x7A3C; let b : BitVec 5 := 0xD;
     let i : BitVec 5 := 0; let may := (r = .pf ∨ r = .handle) ∧ key = 0x7A3C; let k := i.toNat;
     d.awake = true ∧ may ∧ b = 0xD ∧ k < 12 ∧ (d.get (STK_CLU_SVC_STATE k) = 1 ∨ d.get (STK_CLU_SVC_STATE k) = 2)) ∧
    (let s : State := tS tDev; let d := s.dev; let r : Requester := .handle; d.awake = true ∧ (r = .pf ∨ r = .handle)) ∧
    (let s : State := tS tDev; let d := s.dev; let r : Requester := .dbg0; d.awake = true ∧ r ≠ .pf ∧ r ≠ .handle) :=
  by refine ⟨?_, ?_, ?_, ?_, ?_, ?_, ?_, ?_, ?_, ?_⟩ <;> decide +kernel

theorem wit_ManagementTick :
    (let s : State := tS tDev; let d := s.dev; s.dev.onAir = true ∧ d.tb.mgmtDue = 0) ∧
    (let s : State := (tS (tDev |> fun d => { d with tb := { d.tb with mgmtDue := 1 } } |>.put PWR_STATUS_STATE 2
         |> fun d => { d with pwr := { d.pwr with emul := false } }));
     let d := s.dev; s.dev.onAir = true ∧ d.tb.mgmtDue ≠ 0 ∧ d.asleep = true) ∧
    (let s : State := (tS (tDev |> fun d => { d with tb := { d.tb with mgmtDue := 1 } })); let d := s.dev;
     s.dev.onAir = true ∧ d.tb.mgmtDue ≠ 0 ∧ d.asleep = false) :=
  by refine ⟨?_, ?_, ?_⟩ <;> decide +kernel

theorem wit_ControlSpace :
    (let x := (tLoc 0x30000).reg; x ∈ regMap) ∧
    (let r : Requester := .handle; let l : Loc := tLoc 196608; let x : FieldDesc := tFirst l;
     l.reg.fields.Pairwise (fun a b => a.lo ≠ b.lo) ∧ x ∈ l.reg.fields ∧
         (∀ f, lockAt l.base = some f → ∀ y ∈ l.reg.fields, (l.fld r y).key ≠ f.key) ∧ x.ty = .rw) ∧
    (let r : Requester := .handle; let l : Loc := tLoc 180226; let x : FieldDesc := tFirst l;
     l.reg.fields.Pairwise (fun a b => a.lo ≠ b.lo) ∧ x ∈ l.reg.fields ∧
         (∀ f, lockAt l.base = some f → ∀ y ∈ l.reg.fields, (l.fld r y).key ≠ f.key) ∧ x.ty = .rwl) ∧
    (let r : Requester := .handle; let l : Loc := tLoc 172296; let x : FieldDesc := tFirst l;
     l.reg.fields.Pairwise (fun a b => a.lo ≠ b.lo) ∧ x ∈ l.reg.fields ∧
         (∀ f, lockAt l.base = some f → ∀ y ∈ l.reg.fields, (l.fld r y).key ≠ f.key) ∧ x.ty = .w1s) ∧
    (let r : Requester := .handle; let l : Loc := tLoc 65636; let x : FieldDesc := tFirst l;
     l.reg.fields.Pairwise (fun a b => a.lo ≠ b.lo) ∧ x ∈ l.reg.fields ∧
         (∀ f, lockAt l.base = some f → ∀ y ∈ l.reg.fields, (l.fld r y).key ≠ f.key) ∧ x.ty = .w1c) ∧
    (let r : Requester := .handle; let l : Loc := tLoc 196634; let x : FieldDesc := tFirst l;
     l.reg.fields.Pairwise (fun a b => a.lo ≠ b.lo) ∧ x ∈ l.reg.fields ∧
         (∀ f, lockAt l.base = some f → ∀ y ∈ l.reg.fields, (l.fld r y).key ≠ f.key) ∧ (x.ty = .ro ∨ x.ty = .rc ∨ x.ty = .wo)) ∧
    (let r : Requester := .handle; let l : Loc := tLoc 196740; let x : FieldDesc := tFirst l;
     l.reg.fields.Pairwise (fun a b => a.lo ≠ b.lo) ∧ x ∈ l.reg.fields ∧
         (∀ f, lockAt l.base = some f → ∀ y ∈ l.reg.fields, (l.fld r y).key ≠ f.key) ∧ x.ty = .rc) ∧
    (let r : Requester := .handle; let l : Loc := tLoc 196608; let x : FieldDesc := tFirst l;
     l.reg.fields.Pairwise (fun a b => a.lo ≠ b.lo) ∧ x ∈ l.reg.fields ∧
         (∀ f, lockAt l.base = some f → ∀ y ∈ l.reg.fields, (l.fld r y).key ≠ f.key) ∧ x.ty ≠ .rc) ∧
    (let s : State := tS tDev; let r : Requester := .accEngine 0; let off : BitVec 23 := 0x30FFF; let n := off.toNat;
     s.dev.awake = true ∧ ((∃ c, r = .stake c) ∨ (∃ t, r = .accEngine t)) ∧ locate n = none) ∧
    (let s : State := tS tDev; let r : Requester := .accEngine 0; let off : BitVec 23 := 196608; let bytes : Fin 16 := 1; let n := off.toNat;
     let l := tLoc 196608; let whole := l.part = 0 ∧ bytes.val = 2 * l.reg.words;
     s.dev.awake = true ∧ ((∃ c, r = .stake c) ∨ (∃ t, r = .accEngine t)) ∧ locate n = some l ∧ ¬ whole) ∧
    (let s : State := tS tDev; let r : Requester := .accEngine 0; let off : BitVec 23 := 196612; let bytes : Fin 16 := 4; let v : BitVec 64 := 0;
     let d := s.dev; let n := off.toNat; let l := tLoc 196612; let whole := l.part = 0 ∧ bytes.val = 2 * l.reg.words;
     s.dev.awake = true ∧ ((∃ c, r = .stake c) ∨ (∃ t, r = .accEngine t)) ∧ locate n = some l ∧ whole ∧
         d.reserved l (v.toNat % 2 ^ (8 * bytes.val)) = true) ∧
    (let s : State := tS tDev; let r : Requester := .accEngine 0; let off : BitVec 23 := 196682; let bytes : Fin 16 := 4;
     let v : BitVec 64 := 0xC0000000; let n := off.toNat; let l := tLoc 196682; let whole := l.part = 0 ∧ bytes.val = 2 * l.reg.words;
     s.dev.awake = true ∧ ((∃ c, r = .stake c) ∨ (∃ t, r = .accEngine t)) ∧ locate n = some l ∧ whole ∧
         l.reg.name ∈ [.MLE_GW_CMD, .FP_NH_CMD, .BSK_SHARDQ, .HOOP_SHARD, .RIM_BSET] ∧ v.toNat.testBit 30 = true ∧ v.toNat.testBit 31 = true) ∧
    (let s : State := tS tDev; let r : Requester := .accEngine 0; let off : BitVec 23 := 196608; let bytes : Fin 16 := 4; let n := off.toNat;
     let l := tLoc 196608; let whole := l.part = 0 ∧ bytes.val = 2 * l.reg.words; let t := 0;
     s.dev.awake = true ∧ ((∃ c, r = .stake c) ∨ (∃ t, r = .accEngine t)) ∧ locate n = some l ∧ whole ∧ l.reg.name ≠ .FP_TXTS_INFO ∧
         l.reg.name ≠ .TRC_BUFDATA ∧ l.reg.name ≠ .DBG_VT_TX ∧ r = .accEngine t) ∧
    (let l : Loc := tLoc 196624; let w := 0;
     let s : State := (tS (tDev |> fun d => { d with dbg := { d.dbg with wlatch := [(0, (l.base, w))] } })); let off : BitVec 20 := 196624;
     let v : BitVec 32 := 0; let d := s.dev; let h := 0;
     s.dev.awake = true ∧ locate off.toNat = some l ∧ l.part = 0 ∧ l.reg.quad = true ∧ locate (off.toNat + 2) = some { l with part := 2 } ∧
         Tab.find d.dbg.wlatch 0 = some (l.base, w) ∧ h = v.toNat) ∧
    (let s : State := tS tDev; let off : BitVec 20 := 196624; let l : Loc := tLoc 196624; let d := s.dev;
     s.dev.awake = true ∧ locate off.toNat = some l ∧ l.part = 0 ∧ l.reg.quad = true ∧ locate (off.toNat + 2) = some { l with part := 2 } ∧
         (∀ u, Tab.find d.dbg.wlatch 0 ≠ some (l.base, u))) ∧
    (let s : State := (tS (tDev |>.put (bank DBG_AUTH_STATUS_LEVEL 0) 2)); let off : BitVec 20 := 196624; let l : Loc := tLoc 196624;
     let d := s.dev; s.dev.awake = true ∧ locate off.toNat = some l ∧ l.part = 0 ∧ l.reg.quad = true ∧ d.asleep = false ∧ d.level 0 = 2) ∧
    (let s : State := tS tDev; let off : BitVec 20 := 196624; let l : Loc := tLoc 196624; let d := s.dev;
     s.dev.awake = true ∧ locate off.toNat = some l ∧ l.part = 0 ∧ l.reg.quad = true ∧ d.level 0 = 0 ∧ l.reg.name.banked = false) ∧
    (let s : State := tS tDev; let r : Requester := .handle; s.dev.awake = true ∧ ((∃ c, r = .stake c) ∨ r = .handle)) :=
  ⟨by decide +kernel,
   ⟨by decide +kernel, by decide +kernel, tNoLock (by decide +kernel), by decide +kernel⟩,
   ⟨by decide +kernel, by decide +kernel, tLock (g := BSK_LOCK_LOCK) (by decide +kernel) (by decide +kernel), by decide +kernel⟩,
   ⟨by decide +kernel, by decide +kernel, tNoLock (by decide +kernel), by decide +kernel⟩,
   ⟨by decide +kernel, by decide +kernel, tNoLock (by decide +kernel), by decide +kernel⟩,
   ⟨by decide +kernel, by decide +kernel, tNoLock (by decide +kernel), by decide +kernel⟩,
   ⟨by decide +kernel, by decide +kernel, tNoLock (by decide +kernel), by decide +kernel⟩,
   ⟨by decide +kernel, by decide +kernel, tNoLock (by decide +kernel), by decide +kernel⟩,
   ⟨by decide +kernel, Or.inr ⟨0, rfl⟩, by decide +kernel⟩,
   ⟨by decide +kernel, Or.inr ⟨0, rfl⟩, by decide +kernel, by decide +kernel⟩,
   ⟨by decide +kernel, Or.inr ⟨0, rfl⟩, by decide +kernel, by decide +kernel, by decide +kernel⟩,
   ⟨by decide +kernel, Or.inr ⟨0, rfl⟩, by decide +kernel, by decide +kernel, by decide +kernel, by decide +kernel, by decide +kernel⟩,
   ⟨by decide +kernel, Or.inr ⟨0, rfl⟩, by decide +kernel, by decide +kernel, by decide +kernel, by decide +kernel, by decide +kernel, by decide +kernel⟩,
   by decide +kernel,
   ⟨by decide +kernel, by decide +kernel, by decide +kernel, by decide +kernel, by decide +kernel, tNoFind (by decide +kernel)⟩,
   by decide +kernel,
   by decide +kernel,
   ⟨by decide +kernel, Or.inr rfl⟩⟩

theorem wit_RegisterAccess :
    (let s : State := tS tDev; let d := s.dev; let r : Requester := .accEngine 0; let off : BitVec 23 := 163864; let bytes : Fin 16 := 4;
     let v : BitVec 64 := 0; let l : Loc := tLoc 163864; let u := v.toNat % 2 ^ (8 * bytes.val);
     s.dev.awake = true ∧ d.reaches r off.toNat bytes l ∧ l.reg.name ∉ actingWrites ∧ d.reserved l u = false ∧ d.regDead l.base = false ∧
         ((∃ f, r = .fnPage f) ∨ l.base < 0x10000 ∨ 0x20000 ≤ l.base)) ∧
    (let s : State := tS tDev; let d := s.dev; let r : Requester := .accEngine 0; let off : BitVec 23 := 196608; let bytes : Fin 16 := 4;
     let p : Bool := false; let l : Loc := tLoc 196608;
     s.dev.awake = true ∧ d.reaches r off.toNat bytes l ∧ l.reg.name ∉ actingReads ∧ (p = true → ∃ t, r = .accEngine t ∨ r = .dbg0)) ∧
    (let s : State := tS tDev; let d := s.dev; let r : Requester := .handle; let l : Loc := tLoc 196608; let x := tFirst l;
     s.dev.awake = true ∧ l.reg ∈ regMap ∧ l.reg.name ∉ actingReads ++ views ∧ (∀ x ∈ l.reg.fields, d.get (l.fld r x) < 2 ^ x.w) ∧
         x ∈ l.reg.fields ∧ x.ty ≠ .wo) ∧
    (let s : State := tS tDev; let d := s.dev; let hd : Bool := true; let off : BitVec 20 := 196624; let l : Loc := tLoc 196624; let p := false;
     s.dev.awake = true ∧ locate off.toNat = some l ∧ l.part = 0 ∧ l.reg.quad = true ∧ (hd = false → d.asleep = false ∧ d.level 0 = 2) ∧
         l.reg.name ∉ actingReads ∧ (p = true → hd = false)) ∧
    (let l : Loc := tLoc 196624; let w := 0;
     let s : State := (tS (tDev |> fun d => { d with dbg := { d.dbg with wlatch := [(0, (l.base, w))] } })); let d := s.dev;
     let hd : Bool := true; let off : BitVec 20 := 196624; let k := if hd then 0 else 1; let v : BitVec 32 := 0;
     let u := w + v.toNat * 2 ^ 32;
     s.dev.awake = true ∧ locate off.toNat = some l ∧ l.part = 0 ∧ l.reg.quad = true ∧ (hd = false → d.asleep = false ∧ d.level 0 = 2) ∧
         Tab.find d.dbg.wlatch k = some (l.base, w) ∧ locate (off.toNat + 2) = some { l with part := 2 } ∧ l.reg.name ∉ actingWrites ∧
         d.reserved l u = false ∧ d.regDead l.base = false ∧ (l.base < 0x10000 ∨ 0x20000 ≤ l.base)) ∧
    (let s : State := (tS (tDev |> fun d => { d with dbg := { d.dbg with ir := 0x10 } } |>.put (bank DBG_AUTH_STATUS_LEVEL 0) 2));
     let d := s.dev; let off : BitVec 20 := 196612; let l : Loc := tLoc 196612;
     s.dev.awake = true ∧ d.dbg.ir = 0x10 ∧ d.dbg.done = true ∧ d.reaches .dbg0 off.toNat 4 l ∧ l.reg.name ∉ actingReads) ∧
    (let s : State := (tS (tDev |> fun d => { d with dbg := { d.dbg with ir := 0x10 } } |>.put (bank DBG_AUTH_STATUS_LEVEL 0) 2));
     let d := s.dev; let off : BitVec 20 := 163864; let v : BitVec 32 := 0; let l : Loc := tLoc 163864;
     s.dev.awake = true ∧ d.dbg.ir = 0x10 ∧ d.dbg.done = true ∧ d.reaches .dbg0 off.toNat 4 l ∧ l.reg.name ∉ actingWrites ∧
         d.reserved l v.toNat = false ∧ d.regDead l.base = false ∧ (l.base < 0x10000 ∨ 0x20000 ≤ l.base)) ∧
    (let s : State := tS tDev; let d := s.dev; let r : Requester := .accEngine 0; let k : Fin 8 := 0;
     s.dev.awake = true ∧ (∃ l, d.reaches r (lockOff k) 4 l) ∧ (∀ f, r ≠ .fnPage f)) :=
  ⟨⟨by decide +kernel, tReaches_spec (by decide +kernel), by decide +kernel, by decide +kernel, by decide +kernel, Or.inr (by decide +kernel)⟩,
   ⟨by decide +kernel, tReaches_spec (by decide +kernel), by decide +kernel, nofun⟩,
   by decide +kernel,
   by decide +kernel,
   by decide +kernel,
   ⟨by decide +kernel, by decide +kernel, by decide +kernel, tReaches_spec (by decide +kernel), by decide +kernel⟩,
   ⟨by decide +kernel, by decide +kernel, by decide +kernel, tReaches_spec (by decide +kernel), by decide +kernel, by decide +kernel, by decide +kernel, by decide +kernel⟩,
   ⟨by decide +kernel, ⟨tLoc (lockOff 0), tReaches_spec (by decide +kernel)⟩, fun _ => nofun⟩⟩

/-- A sound state with a command waiting, and the sound state its step answers. -/
def tNext : State := match exec .supplyResetLevel (tS tDev) with | .next t => t | _ => tS tDev
theorem wit_StepKeepsSound : State.sound { tS tDev with pending := [.supplyResetLevel] } ∧
    step { tS tDev with pending := [.supplyResetLevel] } = .next tNext := by
  refine ⟨⟨by decide +kernel, ?_⟩, rfl⟩
  unfold Dev.reports Dev.fpReports Dev.fnReports
  decide +kernel

theorem wit_HeldIgnores : State.reset.dev.boot.held = true ∧ Instr.tick ≠ .powerOnReset ∧ Instr.tick ≠ .resetRelease ∧
    Instr.tick ≠ .supplyResetLevel ∧ Instr.tick ≠ .testLogicReset ∧ (∀ o w p v, Instr.tick ≠ .dbgdrUpdate o w p v) ∧
    ∀ k, Instr.tick ≠ .tapInstructionLoad k := by
  refine ⟨rfl, ?_, ?_, ?_, ?_, ?_, ?_⟩ <;> intros <;> exact nofun

/-- Stake core 0 with a BR in a delay slot, at the level and REL of its STATUS. -/
def tLevel (status : Nat) : State :=
  tS { tDev.put (STK_CORE_CTL_STATE 0) 1 |>.put MEM_STATUS_READY 1 |>.put MEM_STATUS_SIZE 1 with
    thr := { tDev.thr with t := [(4096, { slot := true, ctl := [(0, status)] })] } }

/-- The levels of a stake core that PlaitFaults tells apart: 0, 1 with REL and without, 2. -/
theorem wit_PlaitFaults_levels (l : Nat × Nat × Bool) (hl : l ∈ [(0, 0, false), (4, 1, false), (20, 1, true), (8, 2, false)]) :
    let s := tLevel l.1; let t : ThreadId := .stake 0; let i := ofArg tArg 9; let d1 := tDevOf (tFetch s.dev t i); let h := d1.th (tid t)
    s.dev.awake = true ∧ plait (.br t tArg) = some (t, i) ∧ kindOf t ≠ .engine ∧ s.dev.quiet t ∧ s.dev.fetched t i d1 ∧ h.pend = [] ∧
      i.noSlot = true ∧ h.slot = true ∧ kindOf t = .stake ∧ h.lvl = l.2.1 ∧ h.rel = l.2.2 := by
  simp only [List.mem_cons, List.not_mem_nil, or_false] at hl
  rcases hl with rfl | rfl | rfl | rfl <;>
    exact ⟨by decide +kernel, by decide +kernel, by decide +kernel, tQuiet_spec (by decide +kernel), tFetched_spec (by decide +kernel),
      by decide +kernel, by decide +kernel, by decide +kernel, by decide +kernel, by decide +kernel, by decide +kernel⟩

/-! ### The instructions by name: devices on which each is about to execute -/

def tEng : Dev := tDev.put (HOOP_SVC_STATE 0) 2
def tStk : Dev := tDev.put (STK_CORE_CTL_STATE 0) 1 |>.put MEM_STATUS_READY 1 |>.put MEM_STATUS_SIZE 1
def tHan : Dev := tDev.put MEM_STATUS_READY 1 |>.put MEM_STATUS_SIZE 1
/-- A thread of the device with a record of its own. -/
def tWith (d : Dev) (k : Nat) (h : Thr) : Dev := { d with thr := { d.thr with t := [(k, h)] } }
/-- The device after the fetch of an instruction. -/
def tGone (d : Dev) (t : ThreadId) (i : PIns) : Dev := tDevOf (tFetch d t i)
/-- On device d thread t is about to execute instruction i, and the device that its fetch leaves meets P. -/
def tReady (d : Dev) (t : ThreadId) (P : PIns → Dev → Prop) (i : PIns) : Prop :=
  d.awake = true ∧ d.poised t i (tGone d t i) ∧ P i (tGone d t i)
theorem tAll {d : Dev} {t : ThreadId} {l : List PIns} (P : PIns → Dev → Prop) [∀ i x, Decidable (P i x)]
    (h : l.all (fun i => d.awake && tPoised d t i (tGone d t i) && decide (P i (tGone d t i))) = true) : ∀ i ∈ l, tReady d t P i := by
  intro i hi
  have h := List.all_eq_true.mp h i hi
  simp only [Bool.and_eq_true, decide_eq_true_eq] at h
  exact ⟨h.1.1, tPoised_spec h.1.2, h.2⟩

/-- A stock engine context, and registers that hold decimal zeros, for every integer instruction. -/
theorem wit_IntegerRows : ∀ i ∈ (List.range 20).map (ofReg tReg 0) ++ [ofReg tReg 0 22, ofReg tReg 0 23, ofArg tArg 1] ++
      (List.range 8).map (ofReg tReg 3) ++ [16, 17, 18, 19].map (ofReg tReg 3) ++ (List.range 10).map (ofReg tReg 2) ++ (List.range 5).map (ofReg tReg 12),
    tReady tEng (.engine 0 0) (fun _ d => badDigits 16 ((d.th 0).gr 0) = false) i :=
  tAll _ (by decide +kernel)

theorem wit_FloatRows : ∀ i ∈ (List.range 13).map (ofReg tReg 13) ++ [16, 17, 18, 19, 20, 21, 22, 23, 24, 25, 26, 27].map (ofReg tReg 13),
    tReady tEng (.engine 0 0) (fun _ _ => True) i :=
  tAll _ (by decide +kernel)

/-- Loads, stores, bits and atomics of two words at address 0: no invocation runs, the words and the bit lie in their spaces, no reservation is
held, and a compare matches. -/
theorem wit_MemoryRows : ∀ i ∈ [1, 5, 13, 9, 17, 21].map (ofReg { tReg with sub := 1 } 4) ++
      [{ ofArg tArg 5 with x := false }, { ofArg tArg 5 with x := true }] ++
      (List.range 6).map (ofReg tReg 8) ++ (List.range 7).map (fun op => ofReg { tReg with sub := 1 } 14 (4 * op + 1)),
    tReady tEng (.engine 0 0) (fun i d => let h := d.th 0; d.invOf (.engine 0 0) = none ∧ i.ea h 2 + 2 ≤ 2 ^ 24 ∧ i.sha h + 1 ≤ 2 ^ 24 ∧
      i.ea h 1 ≤ 65535 ∧ h.gr i.ra + 2 ≤ 2 ^ 24 ∧ h.gr i.ra % 2 = 0 ∧ h.resv ≠ some (engPlace 0 0, 2) ∧
      d.engWord 0 0 + d.engWord 0 1 * 65536 = h.gr i.rd % 2 ^ 32) i :=
  tAll _ (by decide +kernel)
/-- STCOM under its reservation, and ACAS of a value that is not there. -/
theorem wit_MemoryRows_others :
    tReady (tWith tEng 0 { resv := some (engPlace 0 0, 2) }) (.engine 0 0) (fun i d => let h := d.th 0; d.invOf (.engine 0 0) = none ∧
      h.gr i.ra = 0 ∧ h.resv = some (engPlace 0 0, 2)) (ofReg { tReg with sub := 1 } 14 5) ∧
    tReady (tWith tEng 0 { g := [(1, 1)] }) (.engine 0 0) (fun i d => let h := d.th 0; d.invOf (.engine 0 0) = none ∧
      h.gr i.ra = 0 ∧ d.engWord 0 0 + d.engWord 0 1 * 65536 ≠ h.gr i.rd % 2 ^ 32) (ofReg { tReg with sub := 1, rd := 1 } 14 17) :=
  ⟨tAll (l := [_]) _ (by decide +kernel) _ (List.mem_singleton_self _), tAll (l := [_]) _ (by decide +kernel) _ (List.mem_singleton_self _)⟩

/-- The access of a cache operation: its address lies in the thread's space, and it is not in user mode. -/
def tMay (d : Dev) (t : ThreadId) (i : PIns) (d1 : Dev) : Prop := i.ea (d1.th (tid t)) 1 < 2 ^ (kindOf t).eaw ∧ (d.entering t i.env).2.user = false
/-- Cache operations by the three kinds of thread: on an engine those of lines, off a stake core those of a whole core, and on stake core 0, with
nothing buffered, the discards. -/
theorem wit_CacheRows :
    (∀ i ∈ [0, 1, 2, 3, 11, 16, 17, 18].map (ofCache tReg), tReady tEng (.engine 0 0) (tMay tEng (.engine 0 0)) i) ∧
    (∀ i ∈ [0, 1, 2, 3, 11, 16, 17, 18].map (ofCache tReg), tReady tHan .handle (fun i d => tMay tHan .handle i d ∧
      isControl (i.ea (d.th (tid .handle)) 1) = false) i) ∧
    tReady tHan .handle (fun i d => tMay tHan .handle i d ∧ let base := i.ea (d.th (tid .handle)) 1 / 32 * 32
      inControl base 32 = false ∧ d.hpuStops 2 base 32 = false ∧ base + 32 ≤ d.dramTop ∧ d.memOk .handle base 32 true = true ∧
      ∀ x ∈ d.mem.l2, x.2.data.length = 64) (ofCache tReg 4) ∧
    ∀ i ∈ [8, 9, 10, 11, 16, 17, 18].map (ofCache tReg), tReady tStk (.stake 0) (fun i d => tMay tStk (.stake 0) i d ∧ d.mem.buf = []) i := by
  unfold tMay
  exact ⟨tAll _ (by decide +kernel), tAll _ (by decide +kernel), tAll (l := [_]) _ (by decide +kernel) _ (List.mem_singleton_self _), tAll _ (by decide +kernel)⟩

/-- One element of each long instruction: RB counts it, its words lie in the space, their digits are decimal, and BCMP finds them equal. -/
theorem wit_LongRows : ∀ op ∈ List.range 8, tReady (tWith tEng 0 { g := [(1, 1)] }) (.engine 0 0) (fun i d => let h := d.th 0;
      d.invOf (.engine 0 0) = none ∧ h.gr i.rb % 2 ^ 32 ≠ 0 ∧ h.gr i.rd < 2 ^ 24 ∧ h.gr i.ra < 2 ^ 24 ∧
      d.engWord 0 (h.gr i.rd) = d.engWord 0 (h.gr i.ra) ∧ badDigits 4 (d.engWord 0 (h.gr i.rd)) = false) (ofReg { tReg with rb := 1 } 11 op) :=
  fun op h => tAll (l := (List.range 8).map (ofReg { tReg with rb := 1 } 11)) _ (by decide +kernel) _ (List.mem_map_of_mem h)
/-- BCMP that finds two words different. -/
theorem wit_LongRows_differ : tReady ({ tWith tEng 0 { g := [(1, 1), (2, 1)] } with thr := { (tWith tEng 0 { g := [(1, 1), (2, 1)] }).thr with
      wstore := [(1, 1)] } } : Dev) (.engine 0 0) (fun i d => let h := d.th 0; d.invOf (.engine 0 0) = none ∧ h.gr i.rb % 2 ^ 32 ≠ 0 ∧ h.gr i.rd < 2 ^ 24 ∧
      h.gr i.ra < 2 ^ 24 ∧ d.engWord 0 (h.gr i.rd) ≠ d.engWord 0 (h.gr i.ra)) (ofReg { tReg with rb := 1, ra := 2 } 11 3) :=
  tAll (l := [_]) _ (by decide +kernel) _ (List.mem_singleton_self _)

theorem wit_BranchRows : ∀ i ∈ [ofArg tArg 9, ofReg tReg 10 0], tReady tEng (.engine 0 0) (fun _ _ => True) i := tAll _ (by decide +kernel)

/-- Instructions of class 15 without a condition, the fences, and MFC and MTC of register 0x020 on the handle core. -/
theorem wit_SystemRows :
    tReady tEng (.engine 0 0) (fun _ _ => True) (ofSys tArg 7) ∧
    (∀ i ∈ [0, 2, 6].map (ofSys tArg) ++ [0, 1, 2, 3].map (fun n => { ofSys tArg 3 with ra := n, rb := 0, fn := 0 }) ++ [ofSys { tArg with arg := 4096 } 8, ofSys tArg 9, ofSys tArg 11],
      tReady tStk (.stake 0) (fun i d => (tStk.entering (.stake 0) i.env).2.user = false ∧ (d.th (tid (.stake 0))).lvl = 0) i) ∧
    (∀ i ∈ [4, 5].map (ofSys { tArg with arg := 0x020 }), tReady tHan .handle (fun i d => let h := d.th (tid .handle);
      (tHan.entering .handle i.env).2.user = false ∧ ctlReg .handle h.lvl (bit (h.cr 0x320) 1) (i.arg % 1024) = some ⟨true, true, true, false⟩) i) ∧
    tReady (tWith tHan 2048 { ctl := [(0, 4)] }) .handle (fun i d => ((tWith tHan 2048 { ctl := [(0, 4)] }).entering .handle i.env).2.user = false ∧
      (d.th (tid .handle)).rete.isSome = true) (ofSys tArg 10) ∧
    (∀ i ∈ [1, 12].map (ofSys tArg), tReady tHan .handle (fun _ d => (d.th (tid .handle)).pend = [] ∧ (d.th (tid .handle)).lvl = 0 ∧
      d.get (DBG_CORE_CTL_BRKHALT (dbgCore .handle)) = 0) i) ∧
    tReady (tHan.put (DBG_CORE_CTL_BRKHALT 48) 1) .handle (fun _ d => d.get (DBG_CORE_CTL_BRKHALT (dbgCore .handle)) = 1) (ofSys tArg 12) ∧
    tReady (tEng.put (DBG_ENG_CTL_BRKHALT 0) 1) (.engine 0 0) (fun _ d => d.get (DBG_ENG_CTL_BRKHALT 0) = 1) (ofSys tArg 12) :=
  ⟨tAll (l := [_]) _ (by decide +kernel) _ (List.mem_singleton_self _), tAll _ (by decide +kernel), tAll _ (by decide +kernel),
    tAll (l := [_]) _ (by decide +kernel) _ (List.mem_singleton_self _), tAll _ (by decide +kernel),
    tAll (l := [_]) _ (by decide +kernel) _ (List.mem_singleton_self _), tAll (l := [_]) _ (by decide +kernel) _ (List.mem_singleton_self _)⟩

end Sys2Proof.Tests
end

section
/-!
SUPPORT. What every command does: in which domain it acts, what it ends with, and the state before the first power-up.
-/
namespace Sys2Proof.Machine

/-- The commands that act even while RESET_N is low (log entry 31): the resets, their release, and the 1149.1 port's. -/
inductive Instr.ActsHeld : Instr → Prop where
  | powerOnReset : Instr.ActsHeld .powerOnReset
  | resetRelease : Instr.ActsHeld .resetRelease
  | supplyResetLevel : Instr.ActsHeld .supplyResetLevel
  | testLogicReset : Instr.ActsHeld .testLogicReset
  | dbgdrUpdate (o w p v) : Instr.ActsHeld (.dbgdrUpdate o w p v)
  | tapInstructionLoad (k) : Instr.ActsHeld (.tapInstructionLoad k)

/-- The domain in which a command acts, with its effect on the device. -/
inductive RunsIn (c : Instr) (s : State) : Prop where
  | core (f : Dev → Dev) (h : exec c s = s.run f)
  | alwaysOn (f : Dev → Dev) (h : exec c s = s.runAon f)
  | held (f : Dev → Dev) (hc : Instr.ActsHeld c) (h : exec c s = s.runAll f)

theorem runsIn (c : Instr) (s : State) : RunsIn c s := by
  cases c with
  | powerOnReset => exact .held _ .powerOnReset rfl
  | resetRelease => exact .held _ .resetRelease rfl
  | supplyResetLevel => exact .held _ .supplyResetLevel rfl
  | testLogicReset => exact .held _ .testLogicReset rfl
  | dbgdrUpdate => exact .held _ (.dbgdrUpdate ..) (by unfold exec; rfl)
  | tapInstructionLoad => exact .held _ (.tapInstructionLoad _) (by unfold exec; rfl)
  | deviceWarmReset | slotBoundary | managementTick | fatalReset | energyPeriodBoundary | fpWakeDetect | supplyWarning
  | supplyRecovery | thermalTrip | referenceLoss | pllLockReturn | hushEntered | hushWake | wakeComplete | smbReadState
  | smbReadHighestTemp | smbReadTemp | smbReadVolt | smbReadBelow | smbWake | smbHush | tick | compareChannelFire
  | timerPeriodEvent | watchdogExpire | trialWatchdogExpire | trialWatchdogReset => exact .alwaysOn _ (by unfold exec; rfl)
  | _ => exact .core _ (by unfold exec; rfl)

/-- An effect on the device answers a next state, the waiting commands untouched. -/
theorem State.act_answers (s : State) (d : Dev) : ∃ t, s.act d = .next t ∧ t.pending = s.pending := ⟨_, rfl, rfl⟩

theorem exec_answers (c : Instr) (s : State) : ∃ t, exec c s = .next t ∧ t.pending = s.pending := by
  cases runsIn c s with
  | core f h =>
    rw [h, State.run]
    split
    · exact s.act_answers _
    · exact ⟨s, rfl, rfl⟩
  | alwaysOn f h =>
    rw [h, State.runAon]
    split
    · exact s.act_answers _
    · exact ⟨s, rfl, rfl⟩
  | held f _ h => exact h ▸ s.act_answers _

theorem exec_held (c : Instr) (s : State) (hs : s.dev.boot.held = true) (hc : ¬ Instr.ActsHeld c) : exec c s = .next s := by
  cases runsIn c s with
  | core f h => rw [h, State.run, if_neg (by simp [Dev.awake, hs])]
  | alwaysOn f h => rw [h, State.runAon, if_neg (by simp [Dev.onAir, hs])]
  | held f ha _ => exact absurd ha hc

theorem Dev.onlyRegs_settle (d : Dev) : d.onlyRegs d.settle [] := fun g _ h => d.get_settle g h

theorem endOfCommand : Claims.EndOfCommand := fun d =>
  ⟨d.onlyRegs_settle, fun a => by rw [d.settle_mem]; exact Tab.get_canon 0 _ a, d.settle_out, d.settle_mle, d.settle_fp, d.settle_bsk,
    d.settle_hoop, d.settle_ord, d.settle_ldg, d.settle_rim, d.settle_hif, d.settle_thr, d.settle_tb, d.settle_pwr, d.settle_err,
    d.settle_dbg⟩

theorem idleOnEmptyQueue : Claims.IdleOnEmptyQueue := fun s h => by rw [step, h]

theorem heldIgnores : Claims.HeldIgnores := by
  intro c s hs h1 h2 h3 h4 h5 h6
  refine exec_held c s hs fun ha => ?_
  cases ha with
  | powerOnReset => exact h1 rfl
  | resetRelease => exact h2 rfl
  | supplyResetLevel => exact h3 rfl
  | testLogicReset => exact h4 rfl
  | dbgdrUpdate o w p v => exact h5 o w p v rfl
  | tapInstructionLoad k => exact h6 k rfl

/-- Settles O5: every meaning runs in one of three domains and ends with `settle`. -/
theorem commandsEnd : Obligations.CommandsEnd := ⟨exec_answers, endOfCommand, idleOnEmptyQueue, heldIgnores⟩

/-- Settles O2: nothing is listed in the register file or among the queues, so that each reads its reset value. -/
theorem resetState : Obligations.ResetState := ⟨rfl, rfl, fun _ => rfl, fun _ => rfl⟩

/-- An empty receive buffer lies below every high water but 0, which is not the Reset value of HIWAT. -/
theorem State.reset_fpReports (p : Nat) : State.reset.dev.fpReports p := by
  have hg : ∀ f : Fld, State.reset.dev.get f = f.rst := fun _ => rfl
  have ho : (State.reset.dev.fport p).occ = 0 := rfl
  simp [Dev.fpReports, hg, ho, FP_STATUS_LEVEL, FP_STATUS_HIWAT, FP_BUF_HIWAT, b2n]

/-- At reset every buffer and table is empty, as the Reset values of the fields that report them say. -/
theorem State.reset_reports : State.reset.dev.reports :=
  ⟨fun p _ => State.reset_fpReports p, fun _ _ => ⟨rfl, rfl⟩, fun _ h => (nomatch h), rfl, rfl, rfl, rfl⟩

/-- Settles O3: the tables are empty, hence in canonical form, and every fill is that of an empty buffer. -/
theorem resetSound : Obligations.ResetSound := ⟨rfl, State.reset_reports⟩

end Sys2Proof.Machine
end

section
/-!
SUPPORT. Stage 0 of boot when neither slot of the handle firmware passes, and the boot record of an erased flash.
-/
namespace Sys2Proof.Machine

/-! ### The boot record of an erased flash (R326) -/

/-- The code corrects at most one bit of a quad. -/
theorem secdedFix_near {q c v : Nat} (h : secdedFix q c = some v) : v = q ∨ ∃ i < 64, v = q ^^^ 2 ^ i := by
  unfold secdedFix at h
  simp only at h
  split at h
  · exact .inl (Option.some.inj h).symm
  · obtain ⟨i, hi, hv⟩ := List.mem_map.1 (List.mem_of_find?_eq_some h)
    exact .inr ⟨i, List.mem_range.1 hi, hv.symm⟩

/-- No single bit leads from an erased quad to one that begins with the record's magic number. -/
theorem erased_quad_not_magic {c v : Nat} (h : secdedFix (2 ^ 64 - 1) c = some v) : v % 2 ^ 32 ≠ 0x52425A56 := by
  rcases secdedFix_near h with rfl | ⟨i, hi, rfl⟩
  · decide
  · have hall : ∀ i < 64, (2 ^ 64 - 1 ^^^ 2 ^ i) % 2 ^ 32 ≠ 0x52425A56 := by decide
    exact hall i hi

/-- A copy of the record whose first quad is erased is not valid. -/
theorem Dev.readCopy_erased (d : Dev) (k : Nat) (h : leAt (d.flashAt (0x10000 * k) 72) 0 8 = 2 ^ 64 - 1) : d.readCopy k = none := by
  unfold Dev.readCopy
  simp only
  split
  · next hall =>
    have hmem : secdedFix (leAt (d.flashAt (0x10000 * k) 72) (8 * 0) 8) (byteAt (d.flashAt (0x10000 * k) 72) (64 + 0)) ∈
        (List.range 8).map (fun i => secdedFix (leAt (d.flashAt (0x10000 * k) 72) (8 * i) 8) (byteAt (d.flashAt (0x10000 * k) 72) (64 + i))) :=
      List.mem_map_of_mem (List.mem_range.2 (by decide))
    obtain ⟨v, hv⟩ := Option.isSome_iff_exists.1 (List.all_eq_true.1 hall _ hmem)
    have hmagic := erased_quad_not_magic (h ▸ hv)
    have h0 : ((List.range 8).map (fun i => secdedFix (leAt (d.flashAt (0x10000 * k) 72) (8 * i) 8)
        (byteAt (d.flashAt (0x10000 * k) 72) (64 + i)))).getD 0 none = some v := hv
    rw [h0, Option.getD_some, if_neg hmagic]
  · rfl

/-- With no valid copy the record is written afresh, every bit 0. -/
theorem Dev.readRecord_fresh (d : Dev) (h0 : d.readCopy 0 = none) (h1 : d.readCopy 1 = none) (i : Nat) : d.readRecord.recBit i = false := by
  unfold Dev.readRecord
  simp only [h0, h1]
  exact Nat.zero_testBit i

/-! ### Slots that fail their check (R325, R328) -/

/-- A slot whose header fails a check fails with its reason. -/
theorem Dev.checkSlot_badHdr {d : Dev} {kind slot r : Nat} (h : d.checkHdr kind (d.flashAt (slotOff kind slot) 512) = r) (hr : r ≠ 0) :
    d.checkSlot kind slot true = .error r := by
  obtain ⟨n, rfl⟩ := Nat.exists_eq_succ_of_ne_zero hr
  simp [Dev.checkSlot, Dev.checkSlotHdr, h]

/-- A slot's check depends on the flash and the fuses alone. -/
theorem Dev.checkSlot_congr {a b : Dev} (hb : a.boot = b.boot) (hf : a.fuse = b.fuse) (kind slot : Nat) (ok : Bool) :
    a.checkSlot kind slot ok = b.checkSlot kind slot ok := by
  have hflash : a.flashAt = b.flashAt := by funext o n; rw [Dev.flashAt, Dev.flashAt, hb]
  have hkey : a.keyOf = b.keyOf := by funext k; unfold Dev.keyOf; rw [hf]
  have hhdr : a.checkHdr = b.checkHdr := by funext k h; unfold Dev.checkHdr; rw [hkey, hf]
  simp only [Dev.checkSlot, Dev.checkSlotHdr, hflash, hhdr]

theorem Dev.checkFailed_boot (d : Dev) (kind slot r : Nat) : (d.checkFailed kind slot r).boot = d.boot := (Dev.bskOnly_pfEvent _ _ _).boot
theorem Dev.checkFailed_fuse (d : Dev) (kind slot r : Nat) : (d.checkFailed kind slot r).fuse = d.fuse :=
  (congrArg Dev.fuse (Dev.bskOnly_pfEvent (d.put BOOT_STATUS_REASON r) 0x1402 [(1, kind), (1, slot), (1, r)]).1).trans rfl

theorem Dev.checkFailed_reason (d : Dev) (kind slot r : Nat) : (d.checkFailed kind slot r).get BOOT_STATUS_REASON = r % 2 ^ 8 := by
  have hkey : ∀ i, i < 16 → BOOT_STATUS_REASON.key ≠ (BSK_CNT_COUNT i).key ∧ BOOT_STATUS_REASON.key ≠ (BSK_DROP_CNT_COUNT i).key := by decide
  exact ((Dev.bskOnly_pfEvent _ _ _).2.2 _ hkey).trans (Dev.get_put_same _ _ _)

/-- Where both slots fail, the other slot's failure is reported last. -/
theorem Dev.selectPriv_none {d : Dev} {kind r q : Nat} {ok : Bool} (hr : d.checkSlot kind (b2n (d.recBit (kind - 1))) ok = .error r)
    (hq : d.checkSlot kind (1 - b2n (d.recBit (kind - 1))) ok = .error q) :
    d.selectPriv kind ok = ((d.checkFailed kind (b2n (d.recBit (kind - 1))) r).checkFailed kind (1 - b2n (d.recBit (kind - 1))) q, none) := by
  have hq' := (Dev.checkSlot_congr (d.checkFailed_boot kind (b2n (d.recBit (kind - 1))) r)
    (d.checkFailed_fuse kind (b2n (d.recBit (kind - 1))) r) kind (1 - b2n (d.recBit (kind - 1))) ok).trans hq
  simp only [Dev.selectPriv, hr, hq']

theorem Dev.recover_reason (d : Dev) (kind stage : Nat) : (d.recover kind stage).get BOOT_STATUS_REASON = d.get BOOT_STATUS_REASON :=
  Dev.get_put_ne _ _ (by decide)

/-- Stage 0 that runs again and finds neither slot good says why the slot failed that the record in use does not name. -/
theorem Dev.bootRom_again_reason {d : Dev} {r q : Nat} {ok : Bool} (hheld : d.boot.held = false) (hst : d.get BOOT_STATUS_STAGE = 0)
    (hsensed : d.boot.sensed = true) (hr : d.checkSlot 1 (b2n (d.recBit 0)) ok = .error r)
    (hq : d.checkSlot 1 (1 - b2n (d.recBit 0)) ok = .error q) : (d.bootRom ok).get BOOT_STATUS_REASON = q % 2 ^ 8 := by
  have hrun : d.bootRom ok = ((d.checkFailed 1 (b2n (d.recBit 0)) r).checkFailed 1 (1 - b2n (d.recBit 0)) q).recover 1 0 := by
    simp only [Dev.bootRom, Dev.sense, hheld, hst, hsensed, if_true, Dev.selectPriv_none (kind := 1) hr hq]
    rfl
  rw [hrun, Dev.recover_reason, Dev.checkFailed_reason]

/-- A field that reports no fill is, after a command that completes, as the command's effect leaves it. -/
theorem State.completes.get_eq {s : State} {i : Instr} {f : Fld} {v : Nat} {P : Dev → Prop} {d : Dev} (h : s.completes i P)
    (hP : ∀ t, P t → t.get f = v) (hd : s.becomes i d) (hf : notFill f.key) : d.get f = v := by
  obtain ⟨t, ht, -, hPt⟩ := h
  have heq : (Host.Outcome.next t : Host.Outcome State Fault Refusal) = .next { s with dev := d.settle } := ht.symm.trans hd
  injection heq with heq
  have hv := hP _ hPt
  rw [heq] at hv
  rwa [Dev.get_settle _ _ hf] at hv

theorem bootRomStage_becomes (s : State) (ok : Bool) (h : s.dev.awake = true) : s.becomes (.bootRomStage ok) (s.dev.bootRom ok) :=
  State.becomes_run (f := fun d => d.bootRom ok) rfl h rfl

theorem notFill_bootReason : notFill BOOT_STATUS_REASON.key := by unfold notFill; decide +kernel

/-! ### The counterexample -/

/-- Stage 0 that has sensed before: the record in use names slot B, the flash holds no record, and slot B begins with the magic number and format of
an image of no kind. -/
def resensedDev : Dev :=
  { boot := { held := false, sensed := true, brec := 1,
              flash := [(655360, 0x56), (655361, 0x5A), (655362, 0x49), (655363, 0x4D), (655364, 1)] } }

theorem resensedDev_slotA : resensedDev.checkSlot 1 0 true = .error 1 := Dev.checkSlot_badHdr (by decide +kernel) (by decide)
theorem resensedDev_slotB : resensedDev.checkSlot 1 1 true = .error 2 := Dev.checkSlot_badHdr (by decide +kernel) (by decide)

theorem resensedDev_readRecord : resensedDev.readRecord.recBit 0 = false :=
  Dev.readRecord_fresh _ (Dev.readCopy_erased _ _ (by decide +kernel)) (Dev.readCopy_erased _ _ (by decide +kernel)) 0

theorem resensedDev_bootRom : (resensedDev.bootRom true).get BOOT_STATUS_REASON = 1 :=
  Dev.bootRom_again_reason rfl rfl rfl resensedDev_slotB resensedDev_slotA

/-- Refutes O52: the statement has stage 0 choose by the record that the flash holds, whether or not it has been read; where stage 0 has sensed
before, the model goes by the record in use. Here that record names slot B and the flash's slot A, both fail, and REASON is 1, slot A's, where the
statement says 2, slot B's. -/
theorem not_bootAndMeasurement : ¬ Obligations.BootAndMeasurement := by
  rintro ⟨-, hstages⟩
  obtain ⟨-, -, -, -, -, hrom, -⟩ := hstages { dev := resensedDev } true rfl
  obtain ⟨-, -, hnone⟩ := hrom rfl
  have hA : resensedDev.checkSlot 1 (b2n (resensedDev.readRecord.recBit 0)) true = .error 1 := by
    rw [resensedDev_readRecord]; exact resensedDev_slotA
  have hB : resensedDev.checkSlot 1 (1 - b2n (resensedDev.readRecord.recBit 0)) true = .error 2 := by
    rw [resensedDev_readRecord]; exact resensedDev_slotB
  have hreason : (resensedDev.bootRom true).get BOOT_STATUS_REASON = 2 :=
    (hnone 1 2 hA hB).get_eq (fun _ ht => ht.2.1) (bootRomStage_becomes _ _ rfl) notFill_bootReason
  rw [resensedDev_bootRom] at hreason
  exact absurd hreason (by decide)

end Sys2Proof.Machine
end

section
/-!
SUPPORT. Why control space refuses a stake core's write of a register in a function page before it looks at the encodings.
-/
namespace Sys2Proof.Machine

/-- The device that a command makes is determined by the command. -/
theorem State.becomes.settle_eq {s : State} {i : Instr} {a b : Dev} (ha : s.becomes i a) (hb : s.becomes i b) : a.settle = b.settle := by
  have h : (Host.Outcome.next { s with dev := a.settle } : Host.Outcome State Fault Refusal) = .next { s with dev := b.settle } :=
    ha.symm.trans hb
  injection h with h
  exact congrArg State.dev h

/-- A stake core's write to a register of a function page is refused in state, whatever it carries: the pages belong to their functions (R187). -/
theorem Dev.regWrite_stake_page (d : Dev) (c : Core) (l : Loc) (v : Nat) (h : 0x10000 ≤ l.base ∧ l.base < 0x20000) :
    d.regWrite io (.stake c) l v = d.errState 1 l.i l.base (srcOf (.stake c)) := by
  simp [Dev.regWrite, h]

/-- A device out of reset and otherwise as at power-up. -/
def releasedState : State := { dev := { boot := { held := false } } }

/-- RING_BASE[0][0] of function 0's page: a quad whose SIZE 1 is a reserved encoding (R209). -/
def ringBase0 : Loc := ⟨⟨.RING_BASE, 65608, 64, 128, 0, 6, 4, 0, true, [⟨0, 5, .rw, 0, []⟩, ⟨12, 52, .rw, 0, []⟩]⟩, 0, 0, 65608, 0⟩

theorem locate_ringBase0 : locate 65608 = some ringBase0 := by decide +kernel

theorem ringBase0_reserved : releasedState.dev.reserved ringBase0 1 = true := by decide +kernel

/-- The two records that a write of RING_BASE could raise have different reasons. -/
theorem errState_err_ne_errReserved :
    (releasedState.dev.errState 1 0 65608 0).err ≠ (releasedState.dev.errReserved 2 0 65608).err := by decide +kernel

/-- Refutes O60: the clause on reserved encodings takes in the function pages, where a stake core's write of SIZE 1 to RING_BASE is refused in state
(reason 3) and not as a reserved encoding (reason 1). -/
theorem not_controlSpace : ¬ Obligations.ControlSpace := by
  rintro ⟨⟨-, -, haccess, -⟩, -⟩
  obtain ⟨-, hfound⟩ := haccess releasedState (.stake 0) 65608#23 8 1#64 rfl (.inl ⟨0, rfl⟩)
  obtain ⟨-, hwhole⟩ := hfound ringBase0 locate_ringBase0
  obtain ⟨hwrite, hreserved, -⟩ := hwhole ⟨rfl, rfl⟩
  have hpage := releasedState.dev.regWrite_stake_page 0 ringBase0 1 (by decide)
  have heq := State.becomes.settle_eq hwrite (hreserved ringBase0_reserved)
  rw [show (1#64).toNat % 2 ^ (8 * (8 : Fin 16).val) = 1 from rfl, hpage] at heq
  have herr := congrArg Dev.err heq
  rw [Dev.settle_err, Dev.settle_err] at herr
  exact errState_err_ne_errReserved herr

end Sys2Proof.Machine
end

section
/-!
SUPPORT. The host interface's own state: what a reset of register words, a write of a function's record, a repetition and an event leave of it.
-/
namespace Sys2Proof.Machine

/-! ### Registers -/

theorem Tab.find_filter_key {α : Type} (t : Tab α) (p : Nat → Bool) (k : Nat) :
    Tab.find (t.filter (fun e => p e.1)) k = if p k then Tab.find t k else none := by
  induction t with
  | nil => simp [Tab.find]
  | cons e t ih =>
    obtain ⟨j, w⟩ := e
    by_cases hj : p j = true
    · rw [List.filter_cons, if_pos (show p (j, w).1 = true from hj), Tab.find, Tab.find, ih]
      by_cases hjk : j = k
      · simp [hjk ▸ hj, hjk]
      · simp [hjk]
    · rw [List.filter_cons, if_neg (show ¬ p (j, w).1 = true from hj), ih, Tab.find]
      by_cases hk : p k = true
      · rw [if_pos hk, if_pos hk, if_neg (show ¬ j = k from fun h => hj (h ▸ hk))]
      · rw [if_neg hk, if_neg hk]

theorem Dev.get_resetWords (d : Dev) (lo hi : Nat) (f : Fld) :
    (d.resetWords lo hi).get f = if 64 * lo ≤ f.key ∧ f.key < 64 * hi then f.rst else d.get f := by
  have h := Tab.find_filter_key d.regs (fun k => k < 64 * lo || 64 * hi ≤ k) f.key
  simp only [Dev.get, Dev.resetWords, Tab.delRange, Tab.get, h]
  by_cases hk : 64 * lo ≤ f.key ∧ f.key < 64 * hi
  · rw [if_pos hk, if_neg (by simp; omega)]; rfl
  · rw [if_neg hk, if_pos (by simp; omega)]

/-- A register of the host interface or of a function page reports a fill only in READS and KEPT of HIF_FN_STATUS. -/
theorem notFill_of_host {k : Nat} (h : k < 0x800000) (hp : k < 0x400000 ∨ k % 8192 ≠ 144 ∧ k % 8192 ≠ 151) : notFill k := by
  refine ⟨fun p hp => ?_, fun f hf => ?_, ?_, ?_, ?_, ?_, ?_⟩ <;>
    simp only [FP_STATUS_LEVEL, FP_STATUS_HIWAT, HIF_FN_STATUS_READS, HIF_FN_STATUS_KEPT, HOOP_MIG_STATUS_PHASE, BSK_FREE_CELLS,
      RIM_CTAB_USED, ERR_STATUS_USED, TRC_STATUS_FILL] <;> omega

theorem notFill_fnState (f : Nat) (hf : f < 64) : notFill (HIF_FN_STATUS_STATE f).key :=
  notFill_of_host (by simp only [HIF_FN_STATUS_STATE]; omega) (by simp only [HIF_FN_STATUS_STATE]; omega)

theorem notFill_fnGen (f : Nat) (hf : f < 64) : notFill (HIF_FN_STATUS_GEN f).key :=
  notFill_of_host (by simp only [HIF_FN_STATUS_GEN]; omega) (by simp only [HIF_FN_STATUS_GEN]; omega)

/-- A one-bit field that reads 1 is on. -/
theorem Dev.on_of_get {d : Dev} {f : Fld} (h : d.get f = 1) : d.on f = true := by simp [Dev.on, h]

theorem Dev.off_of_get {d : Dev} {f : Fld} (h : d.get f = 0) : d.on f = false := by simp [Dev.on, h]

/-! ### Repetition -/

/-- Rounds that change nothing repeat to nothing. -/
theorem forN_eq_self {n : Nat} {f : Nat → Dev → Dev} {d : Dev} (h : ∀ i, i < n → f i d = d) : forN n f d = d := by
  induction n with
  | zero => rfl
  | succ n ih => rw [forN_succ, ih fun i hi => h i (Nat.lt_succ_of_lt hi), h n (Nat.lt_succ_self n)]

/-- A relation that holds over every round, and is reflexive and transitive, holds over the repetition. -/
theorem forN_rel {R : Dev → Dev → Prop} (refl : ∀ d, R d d) (trans : ∀ {a b c}, R a b → R b c → R a c) (n : Nat) (f : Nat → Dev → Dev)
    (d : Dev) (h : ∀ i e, R e (f i e)) : R d (forN n f d) := by
  induction n with
  | zero => exact refl d
  | succ n ih => rw [forN_succ]; exact trans ih (h n _)

/-! ### A function's record -/

@[simp] theorem Dev.fnS_setFn_same (d : Dev) (f : Nat) (x : FnS) : (d.setFn f x).fnS f = x := Tab.get_set_same _ _ _ _
theorem Dev.fnS_setFn_ne (d : Dev) {f g : Nat} (x : FnS) (h : g ≠ f) : (d.setFn f x).fnS g = d.fnS g := Tab.get_set_ne _ _ _ _ h
@[simp] theorem Dev.get_setFn (d : Dev) (f : Nat) (x : FnS) (r : Fld) : (d.setFn f x).get r = d.get r := rfl
@[simp] theorem Dev.on_setFn (d : Dev) (f : Nat) (x : FnS) (r : Fld) : (d.setFn f x).on r = d.on r := rfl
@[simp] theorem Dev.fnS_put (d : Dev) (r : Fld) (v g : Nat) : (d.put r v).fnS g = d.fnS g := rfl
@[simp] theorem Dev.fnS_emit (d : Dev) (o : Out) (g : Nat) : (d.emit o).fnS g = d.fnS g := rfl
@[simp] theorem Dev.fnS_drawn (d : Dev) (g : Nat) : d.drawn.fnS g = d.fnS g := rfl
@[simp] theorem Dev.fnS_settle (d : Dev) (g : Nat) : d.settle.fnS g = d.fnS g := by rw [Dev.fnS, Dev.settle_hif, Dev.fnS]

theorem Dev.fnS_of_hif {d t : Dev} (h : t.hif = d.hif) (g : Nat) : t.fnS g = d.fnS g := by rw [Dev.fnS, h, Dev.fnS]

/-! ### What leaves the host interface alone -/

/-- From d to t the host interface is as it was: its own state, the order records, and the registers of the host interface and the function pages,
but for those that report a fill. -/
structure Dev.KeepsHost (d t : Dev) : Prop where
  hif : t.hif = d.hif
  ord : t.ord = d.ord
  get : ∀ g : Fld, g.key < 0x800000 → notFill g.key → t.get g = d.get g

theorem Dev.KeepsHost.refl (d : Dev) : d.KeepsHost d := ⟨rfl, rfl, fun _ _ _ => rfl⟩

theorem Dev.KeepsHost.trans {a b c : Dev} (h : a.KeepsHost b) (k : b.KeepsHost c) : a.KeepsHost c :=
  ⟨k.hif.trans h.hif, k.ord.trans h.ord, fun g hg hn => (k.get g hg hn).trans (h.get g hg hn)⟩

theorem Dev.KeepsHost.ite {c : Prop} [Decidable c] {d x y : Dev} (hx : d.KeepsHost x) (hy : d.KeepsHost y) :
    d.KeepsHost (if c then x else y) := by
  split
  · exact hx
  · exact hy

theorem Dev.KeepsHost.forN (n : Nat) (f : Nat → Dev → Dev) (d : Dev) (h : ∀ i e, Dev.KeepsHost e (f i e)) : d.KeepsHost (forN n f d) :=
  forN_rel Dev.KeepsHost.refl Dev.KeepsHost.trans n f d h

/-- A write of a register above the function pages. -/
theorem Dev.keepsHost_put (d : Dev) (f : Fld) (v : Nat) (h : 0x800000 ≤ f.key) : d.KeepsHost (d.put f v) :=
  ⟨rfl, rfl, fun _ hg _ => Dev.get_put_ne _ _ (Nat.ne_of_lt (Nat.lt_of_lt_of_le hg h))⟩

theorem Dev.keepsHost_settle (d : Dev) : d.KeepsHost d.settle := ⟨d.settle_hif, d.settle_ord, fun g _ hn => d.get_settle g hn⟩

theorem Dev.bskOnly.keepsHost {d t : Dev} (h : d.bskOnly t) : d.KeepsHost t :=
  ⟨h.hif, h.ord, fun g hg _ => h.2.2 g fun i _ => by simp only [BSK_CNT_COUNT, BSK_DROP_CNT_COUNT]; omega⟩

theorem Dev.keepsHost_pfEvent (d : Dev) (c : Nat) (p : List (Nat × Nat)) : d.KeepsHost (d.pfEvent c p) := (d.bskOnly_pfEvent c p).keepsHost

theorem Dev.keepsHost_updThr (d : Dev) (k : Nat) (f : Thr → Thr) : d.KeepsHost (d.updThr k f) := ⟨rfl, rfl, fun _ _ _ => rfl⟩

theorem Dev.keepsHost_resumeThr (d : Dev) (t : ThreadId) : d.KeepsHost (d.resumeThr t) := by
  have h : ∀ f, d.KeepsHost ((d.updThr (tid t) f).putB (DBG_CORE_STAT_HALTED (dbgCore t)) false) := fun f =>
    (d.keepsHost_updThr _ f).trans (Dev.keepsHost_put _ _ _ (by simp only [DBG_CORE_STAT_HALTED]; omega))
  unfold Dev.resumeThr
  cases t with
  | stake c => exact (h _).trans (Dev.keepsHost_put _ _ _ (by simp only [STK_CORE_CTL_STATE]; omega))
  | handle => exact h _
  | engine e c => exact h _

/-- The end of the last full grant (R361) reaches the debug, core and watchdog registers and the threads only. -/
theorem Dev.keepsHost_fullLost (d : Dev) : d.KeepsHost d.fullLost := by
  have engGo : ∀ (e : Dev) (i : Nat), e.KeepsHost (e.engGo i) := fun e i =>
    (e.keepsHost_put (DBG_ENG_STAT_HALTED i) 0 (by simp only [DBG_ENG_STAT_HALTED]; omega)).trans
      (.forN _ _ _ fun _ x => .ite (.refl x) (x.keepsHost_updThr _ _))
  unfold Dev.fullLost
  dsimp only
  refine .trans ?_ (Dev.keepsHost_put _ _ _ (by decide))
  refine .trans ?_ (.forN _ _ _ fun i e => .forN _ _ _ fun u x =>
    .ite (Dev.keepsHost_put _ _ _ (by simp only [DBG_BW_CTL_TYPE]; omega)) (.refl _))
  refine .trans ?_ (.forN _ _ _ fun i e => Dev.keepsHost_put _ _ _ (by simp only [DBG_CORE_CTL_BRKHALT]; omega))
  refine .trans ?_ (.forN _ _ _ fun i e => (engGo e i).trans (Dev.keepsHost_put _ _ _ (by simp only [DBG_ENG_CTL_BRKHALT]; omega)))
  refine .trans ?_ (.ite (Dev.keepsHost_resumeThr _ _) (.refl _))
  refine .forN _ _ _ fun c e => ?_
  split
  · exact .ite (Dev.keepsHost_resumeThr _ _) (.refl _)
  · exact .refl _

/-- The end of a grant leaves the host interface alone (R361). -/
theorem Dev.keepsHost_dropGrant (d : Dev) (t : Nat) : d.KeepsHost (d.dropGrant t) := by
  unfold Dev.dropGrant Dev.setLevel Dev.fixAttached Dev.putB
  dsimp only
  refine .trans ?_ (Dev.keepsHost_put _ _ _ (by decide))
  refine .trans ?_ (.ite (Dev.keepsHost_fullLost _) (.refl _))
  refine .trans ?_ (.ite (.refl _) (Dev.keepsHost_pfEvent _ _ _))
  refine .trans ?_ (Dev.keepsHost_put _ _ _ (by split <;> decide))
  exact Dev.keepsHost_put _ _ _ (by simp only [bank, DBG_AUTH_STATUS_LEVEL]; omega)

theorem Dev.keepsHost_vfChanged (d old : Dev) : d.KeepsHost (d.vfChanged old) := .ite (.refl _) (d.keepsHost_pfEvent _ _)

end Sys2Proof.Machine
end

section
/-!
SUPPORT. Configuration space (R182–R185) and the requests that carry a transfer (Table 8-1).
-/
namespace Sys2Proof.Machine

/-! ### The requests of a transfer -/

@[simp] theorem sumN_nil : sumN [] = 0 := rfl

theorem sumN_cons (x : Nat) (l : List Nat) : sumN (x :: l) = x + sumN l := by
  simp only [sumN, ← List.sum_eq_foldl, List.sum_cons]

theorem pieces_succ (z k a n : Nat) (hn : n ≠ 0) :
    pieces z (k + 1) a n = (a, min n (z - a % z)) :: pieces z k (a + min n (z - a % z)) (n - min n (z - a % z)) := by
  simp [pieces, hn]

/-- What the requests of n bytes at a are to be: they cover the bytes in order, and each keeps within a block of z. -/
def Covers (z a n : Nat) (p : List (Nat × Nat)) : Prop :=
  sumN (p.map Prod.snd) = n ∧ (∀ x ∈ p, 0 < x.2 ∧ x.1 % z + x.2 ≤ z) ∧
    ∀ i x, p[i]? = some x → x.1 = a + sumN ((p.take i).map Prod.snd)

theorem Covers.nil (z a : Nat) : Covers z a 0 [] := ⟨rfl, by simp, by simp⟩

/-- A request that keeps within its block, in front of those that cover the rest. -/
theorem Covers.cons {z a n m : Nat} {p : List (Nat × Nat)} (hm : 0 < m) (hz : a % z + m ≤ z) (hmn : m ≤ n) (h : Covers z (a + m) (n - m) p) :
    Covers z a n ((a, m) :: p) := by
  obtain ⟨hsum, hfit, hat⟩ := h
  refine ⟨by rw [List.map_cons, sumN_cons, hsum]; omega, ?_, ?_⟩
  · rintro x (_ | ⟨_, hx⟩)
    · exact ⟨hm, hz⟩
    · exact hfit x hx
  · intro i x hx
    cases i with
    | zero => rw [List.getElem?_cons_zero, Option.some.injEq] at hx; simp [← hx]
    | succ i =>
      rw [List.getElem?_cons_succ] at hx
      rw [hat i x hx, List.take_succ_cons, List.map_cons, sumN_cons, Nat.add_assoc]

/-- With more rounds than bytes, the requests cover the transfer. -/
theorem pieces_covers {z : Nat} (hz : 0 < z) (k a n : Nat) (hk : n < k) : Covers z a n (pieces z k a n) := by
  induction k generalizing a n with
  | zero => exact absurd hk (Nat.not_lt_zero n)
  | succ k ih =>
    by_cases hn : n = 0
    · subst hn; exact .nil z a
    · have hlt := Nat.mod_lt a hz
      rw [pieces_succ z k a n hn]
      exact .cons (by omega) (by omega) (by omega) (ih _ _ (by omega))

/-! ### Configuration reads -/

theorem Dev.cfgRead_retry {d : Dev} (f o : Nat) (h : d.get BOOT_STATUS_STAGE < 2) : d.cfgRead f o = .retry := by simp [Dev.cfgRead, h]

theorem Dev.cfgRead_data {d : Dev} {f : Nat} (o : Nat) (hs : 2 ≤ d.get BOOT_STATUS_STAGE) (hl : d.on HIF_STATUS_LINK_UP = true)
    (hf : d.fnOn f = true) : d.cfgRead f o = .data (d.cfgDword f (o / 4 * 4)) := by
  simp [Dev.cfgRead, Nat.not_lt.2 hs, hl, hf]

/-- The PF's doublewords are those of its own tables, else the common ones. -/
theorem Dev.cfgDword_pf (d : Dev) (o : Nat) (h : ¬ (0x17C ≤ o ∧ o < 0x18C)) :
    d.cfgDword 0 o = (d.cfgPf o).getD (d.cfgCommon 0 0x0F08000 o) := by simp [Dev.cfgDword, h]

/-- What every function's configuration space holds that the tables fix: PF and VF differ in the identity, which a VF takes from the PF (R183), and in
where the MSI-X table lies in BAR0. -/
theorem Dev.cfgDword_fixed (d : Dev) (f : Nat) :
    d.cfgDword f 0x00 = (if f = 0 then 0x64001FC6 else 0xFFFFFFFF) ∧ d.cfgDword f 0x08 = 0x120000B0 ∧ d.cfgDword f 0x0C = 0 ∧
    d.cfgDword f 0x2C = 0x00011FC6 ∧ d.cfgDword f 0x3C = 0 ∧ d.cfgDword f 0x54 = (if f = 0 then 0xF08000 else 0x8000) ∧
    d.cfgDword f 0x58 = (if f = 0 then 0xF0C000 else 0xC000) ∧ d.cfgDword f 0x9C = 0x3E := by
  by_cases hf : f = 0
  · subst hf
    exact ⟨rfl, rfl, rfl, rfl, rfl, rfl, rfl, rfl⟩
  · simp only [Dev.cfgDword, if_neg hf]
    exact ⟨trivial, rfl, rfl, rfl, rfl, rfl, rfl, rfl⟩

/-! ### Configuration requests before STAGE 2 -/

theorem Dev.cfgOpen_early {d : Dev} (h : d.get BOOT_STATUS_STAGE < 2) : d.cfgOpen = false := by simp [Dev.cfgOpen, Nat.not_le.2 h]

theorem Dev.cfgRetry_early {d : Dev} (f : Nat) (h : d.get BOOT_STATUS_STAGE < 2) : d.cfgRetry f = d.emit (.cfgRetry f) := if_pos h

/-- Every configuration write is answered with Request Retry Status then (R182). -/
theorem cfgWrites_early (s : State) (f : Fn) (ha : s.dev.awake = true) (h : s.dev.get BOOT_STATUS_STAGE < 2) :
    s.becomes (.numvfsWrite 0) (s.dev.emit (.cfgRetry 0)) ∧
    (∀ c, s.becomes (.busMasterEnableChange f c) (s.dev.emit (.cfgRetry f))) ∧
    (∀ b, s.becomes (.d3hotTransition b) (s.dev.emit (.cfgRetry 0))) ∧
    ∀ en m a, s.becomes (.vfEnableWrite en m a) (s.dev.emit (.cfgRetry 0)) := by
  have hopen := Dev.cfgOpen_early h
  refine ⟨State.becomes_run (f := fun d => d.numVfs 0) rfl ha ?_, fun c => State.becomes_run (f := fun d => d.busMaster f.val c) rfl ha ?_,
    fun b => State.becomes_run (f := fun d => d.d3hot b) rfl ha ?_, fun en m a => State.becomes_run (f := fun d => d.vfEnable en m a) rfl ha ?_⟩
  · simp [Dev.numVfs, hopen, Dev.cfgRetry_early _ h]
  · simp [Dev.busMaster, hopen, Dev.cfgRetry_early _ h]
  · simp [Dev.d3hot, hopen, Dev.cfgRetry_early _ h]
  · simp [Dev.vfEnable, hopen, Dev.cfgRetry_early _ h]

theorem configSpace : Claims.ConfigSpace := by
  refine ⟨fun z a n hz => pieces_covers hz (n + 1) a n (Nat.lt_succ_self n), fun d f =>
    ⟨fun h o => Dev.cfgRead_retry f o h, fun hs hl hf => ?_, fun s hd ha h => ?_⟩⟩
  · have hread := fun o => Dev.cfgRead_data (f := f.val) o hs hl hf
    have hpf : ∀ v w : Nat, (if f = 0 then v else w) = if f.val = 0 then v else w := fun v w =>
      ite_congr (propext (Fin.ext_iff (a := f) (b := 0))) (fun _ => rfl) (fun _ => rfl)
    obtain ⟨h00, h08, h0C, h2C, h3C, h54, h58, h9C⟩ := d.cfgDword_fixed f.val
    simp only [hpf, hread]
    refine ⟨congrArg _ h00, congrArg _ h08, congrArg _ h0C, congrArg _ h2C, congrArg _ h3C, congrArg _ h54, congrArg _ h58,
      congrArg _ h9C, ?_⟩
    rintro rfl
    exact ⟨rfl, rfl, rfl, rfl, rfl, rfl, rfl⟩
  · subst hd
    exact cfgWrites_early s f ha h

end Sys2Proof.Machine
end

section
/-!
SUPPORT. The host-interface reset (R201): what it leaves of every function and of the registers of the host interface.
-/
namespace Sys2Proof.Machine

/-! ### One function (Table 8-11) -/

/-- A register outside function f's page keeps its value where the page is reset. -/
theorem Dev.get_pageReset_ne (d : Dev) (f : Nat) (r : Fld) (h : r.key < 4194304 + 8192 * f ∨ 4194304 + 8192 * (f + 1) ≤ r.key) :
    (d.pageReset f).get r = d.get r := by
  unfold Dev.pageReset
  simp only
  rw [Dev.get_put_ne _ _ (by simp only [HIF_FN_STATUS_STATE]; omega), Dev.get_put_ne _ _ (by simp only [HIF_FN_STATUS_GEN]; omega),
    Dev.get_resetWords, if_neg (by simp only [pageOff]; omega)]

theorem Dev.get_pageReset_gen (d : Dev) (f : Nat) : (d.pageReset f).get (HIF_FN_STATUS_GEN f) = d.get (HIF_FN_STATUS_GEN f) % 2 ^ 8 := by
  unfold Dev.pageReset
  simp only
  rw [Dev.get_put_ne _ _ (by simp only [HIF_FN_STATUS_STATE, HIF_FN_STATUS_GEN]; omega), Dev.get_put_same]
  rfl

theorem Dev.islandFn_get_ne (d : Dev) (f : Nat) (r : Fld) (h : r.key < 4194304 + 8192 * f ∨ 4194304 + 8192 * (f + 1) ≤ r.key)
    (hc : r.key ≠ (HIF_CNT_COUNT 4).key) : (d.islandFn f).get r = d.get r := by
  unfold Dev.islandFn Dev.genUp Dev.addCnt
  simp only [Dev.get_setFn]
  rw [Dev.get_put_ne _ _ (by simp only [HIF_FN_STATUS_STATE]; omega), Dev.get_put_ne _ _ (by simp only [HIF_FN_STATUS_GEN]; omega),
    Dev.get_pageReset_ne _ _ _ h, Dev.get_put_ne _ _ hc]

theorem Dev.islandFn_state (d : Dev) (f : Nat) : (d.islandFn f).get (HIF_FN_STATUS_STATE f) = 3 := by
  unfold Dev.islandFn
  simp only [Dev.get_setFn]
  exact Dev.get_put_same _ _ _

theorem Dev.islandFn_gen (d : Dev) (f : Nat) :
    (d.islandFn f).get (HIF_FN_STATUS_GEN f) = (d.get (HIF_FN_STATUS_GEN f) + 1) % 2 ^ (HIF_FN_STATUS_GEN f).w := by
  unfold Dev.islandFn Dev.genUp Dev.addCnt
  simp only [Dev.get_setFn]
  rw [Dev.get_put_ne _ _ (by simp only [HIF_FN_STATUS_STATE, HIF_FN_STATUS_GEN]; omega), Dev.get_put_same, Dev.get_pageReset_gen,
    Dev.get_put_ne _ _ (by simp only [HIF_CNT_COUNT, HIF_FN_STATUS_GEN]; omega)]
  exact Nat.mod_add_mod _ _ _

theorem Dev.islandFn_fnS (d : Dev) (f : Nat) : (d.islandFn f).fnS f = (d.fnS f).wipe (d.fnS f).redo := Dev.fnS_setFn_same _ _ _

theorem Dev.islandFn_fnS_ne (d : Dev) {f g : Nat} (h : g ≠ f) : (d.islandFn f).fnS g = d.fnS g := Dev.fnS_setFn_ne _ _ h

/-! ### Every function -/

/-- Function f is as t0 of Table 8-11 leaves it: in STATE 3 under a new GEN, its own state wiped but for the kept entries. -/
def Dev.Islanded (d t : Dev) (f : Nat) : Prop :=
  t.get (HIF_FN_STATUS_STATE f) = 3 ∧ t.fnS f = (d.fnS f).wipe (d.fnS f).redo ∧
    t.get (HIF_FN_STATUS_GEN f) = (d.get (HIF_FN_STATUS_GEN f) + 1) % 2 ^ (HIF_FN_STATUS_GEN f).w

/-- The functions before f leave its page and its state alone, and so do those behind it. -/
theorem Dev.islanded_forN (d : Dev) (f : Nat) (hf : f < 64) : d.Islanded (forN 64 (fun f d => d.islandFn f) d) f := by
  have hpage : ∀ j, j ≠ f → ∀ r : Fld, 4194304 + 8192 * f ≤ r.key → r.key < 4194304 + 8192 * (f + 1) →
      ∀ e : Dev, (e.islandFn j).get r = e.get r := fun j hj r hlo hhi e =>
    e.islandFn_get_ne j r (by omega) (by simp only [HIF_CNT_COUNT]; omega)
  have hstate : ∀ j, j ≠ f → ∀ e : Dev, (e.islandFn j).get (HIF_FN_STATUS_STATE f) = e.get (HIF_FN_STATUS_STATE f) := fun j hj =>
    hpage j hj _ (by simp only [HIF_FN_STATUS_STATE]; omega) (by simp only [HIF_FN_STATUS_STATE]; omega)
  have hgen : ∀ j, j ≠ f → ∀ e : Dev, (e.islandFn j).get (HIF_FN_STATUS_GEN f) = e.get (HIF_FN_STATUS_GEN f) := fun j hj =>
    hpage j hj _ (by simp only [HIF_FN_STATUS_GEN]; omega) (by simp only [HIF_FN_STATUS_GEN]; omega)
  have hfn : ∀ j, j ≠ f → ∀ e : Dev, (e.islandFn j).fnS f = e.fnS f := fun j hj e => e.islandFn_fnS_ne hj.symm
  refine ⟨?_, ?_, ?_⟩
  · rw [forN_at (fun e => e.get (HIF_FN_STATUS_STATE f)) 64 f _ _ hf fun j e _ hj => hstate j hj e]
    exact Dev.islandFn_state _ f
  · rw [forN_at (fun e => e.fnS f) 64 f _ _ hf fun j e _ hj => hfn j hj e, Dev.islandFn_fnS,
      forN_keeps (fun e => e.fnS f) f _ _ fun j e hj => hfn j (Nat.ne_of_lt hj) e]
  · rw [forN_at (fun e => e.get (HIF_FN_STATUS_GEN f)) 64 f _ _ hf fun j e _ hj => hgen j hj e, Dev.islandFn_gen,
      forN_keeps (fun e => e.get (HIF_FN_STATUS_GEN f)) f _ _ fun j e hj => hgen j (Nat.ne_of_lt hj) e]

/-- What keeps the host interface keeps what its reset left of a function. -/
theorem Dev.Islanded.keep {d t u : Dev} {f : Nat} (h : d.Islanded t f) (hf : f < 64) (k : t.KeepsHost u) : d.Islanded u f := by
  obtain ⟨hstate, hfn, hgen⟩ := h
  exact ⟨(k.get _ (by simp only [HIF_FN_STATUS_STATE]; omega) (notFill_fnState f hf)).trans hstate, (Dev.fnS_of_hif k.hif f).trans hfn,
    (k.get _ (by simp only [HIF_FN_STATUS_GEN]; omega) (notFill_fnGen f hf)).trans hgen⟩

/-! ### The registers of the host interface -/

/-- What the reset writes beside the functions' pages, d being the device it met. -/
def Dev.islandRegs (e d : Dev) (cause : Nat) : Dev :=
  let e := ((e.put HIF_STATUS_ISLAND 1).put HIF_ISL_TIME_TIME d.now).put HIF_ISL_INFO_CAUSE cause
  let e := (e.put HIF_ISL_INFO_COUNT (satw 16 (d.get HIF_ISL_INFO_COUNT + 1))).inc (HIF_CNT_COUNT 6)
  let e := ((e.put HIF_STATUS_LINK_UP 0).put HIF_STATUS_SPEED 0).put HIF_STATUS_WIDTH 0
  (e.put HIF_STATUS_VFE 0).put HIF_STATUS_NUMVF 0

/-- The host interface after the reset, before what it reports. -/
def Dev.hostDown (d : Dev) (cause : Nat) : Dev :=
  let e := ((forN 64 (fun f d => d.islandFn f) d).freeAdhoc (· != 0)).islandRegs d cause
  { e with hif := { e.hif with d3 := false, ari := false, tag10 := false, vfMse := false, aerU := 0, aerC := 0, aerHdr := none, hirPend := true } }

theorem Dev.get_freeAdhoc (d : Dev) (t : Nat → Bool) (r : Fld) : (d.freeAdhoc t).get r = d.get r := rfl

theorem Dev.get_hostDown (d : Dev) (cause : Nat) (r : Fld) :
    (d.hostDown cause).get r = (((forN 64 (fun f d => d.islandFn f) d).freeAdhoc (· != 0)).islandRegs d cause).get r := by
  unfold Dev.hostDown
  exact Dev.get_mk ..

theorem Dev.fnS_hostDown (d : Dev) (cause g : Nat) : (d.hostDown cause).fnS g = (forN 64 (fun f d => d.islandFn f) d).fnS g := by
  unfold Dev.hostDown
  generalize forN 64 (fun f d => d.islandFn f) d = e
  rfl

theorem Dev.hostReset_eq (d : Dev) (cause : Nat) (h : cause < 2 → d.on HIF_STATUS_LINK_UP = true) :
    d.hostReset cause = (d.hostDown cause).vfChanged d := by
  refine if_neg ?_
  simp only [Bool.and_eq_true, decide_eq_true_eq, Bool.not_eq_true']
  exact fun hc => absurd (h hc.1) (by simp [hc.2])

/-- A field of a function page is none of those that the reset writes in the host interface's own block. -/
theorem Dev.islandRegs_page (e d : Dev) (cause : Nat) (r : Fld) (h : 4194304 ≤ r.key) : (e.islandRegs d cause).get r = e.get r := by
  have hne : ∀ (a : Dev) (f : Fld) (v : Nat), f.key < 4194304 → (a.put f v).get r = a.get r := fun a f v hf =>
    Dev.get_put_ne _ _ (Nat.ne_of_gt (Nat.lt_of_lt_of_le hf h))
  simp (disch := decide) only [Dev.islandRegs, Dev.inc, Dev.addCnt, hne]

theorem Dev.islandRegs_fields (e d : Dev) (c : Fin 3) :
    (e.islandRegs d c).get HIF_STATUS_ISLAND = 1 ∧ (e.islandRegs d c).get HIF_STATUS_LINK_UP = 0 ∧ (e.islandRegs d c).get HIF_STATUS_VFE = 0 ∧
    (e.islandRegs d c).get HIF_STATUS_NUMVF = 0 ∧ (e.islandRegs d c).get HIF_ISL_INFO_CAUSE = c ∧
    (e.islandRegs d c).get HIF_ISL_TIME_TIME = d.now % 2 ^ 64 := by
  have hc : c.val % 4 = c := by omega
  simp (disch := decide) only [Dev.islandRegs, Dev.inc, Dev.addCnt, Dev.get_put_ne, Dev.get_put_same]
  exact ⟨rfl, rfl, rfl, rfl, hc, rfl⟩

theorem Dev.hostDown_islanded (d : Dev) (cause f : Nat) (hf : f < 64) : d.Islanded (d.hostDown cause) f := by
  obtain ⟨hstate, hfn, hgen⟩ := d.islanded_forN f hf
  refine ⟨?_, (d.fnS_hostDown cause f).trans hfn, ?_⟩
  · rw [Dev.get_hostDown, Dev.islandRegs_page _ d cause _ (by simp only [HIF_FN_STATUS_STATE]; omega), Dev.get_freeAdhoc, hstate]
  · rw [Dev.get_hostDown, Dev.islandRegs_page _ d cause _ (by simp only [HIF_FN_STATUS_GEN]; omega), Dev.get_freeAdhoc, hgen]

/-- Only the PF's ad hoc orders are left. -/
theorem Dev.hostDown_recs (d : Dev) (cause : Nat) : ∀ e ∈ (d.hostDown cause).ord.recs, e.2.kind = 0 → e.2.fn = 0 := by
  intro e he hk
  have hkeep := (List.mem_filter.1 he).2
  simpa [hk] using hkeep

/-- The reset, with the grant it takes from transport 1, leaves the host interface as `hostDown` does. -/
theorem Dev.keepsHost_hostResetD (d : Dev) (cause : Nat) (h : cause < 2 → d.on HIF_STATUS_LINK_UP = true) :
    (d.hostDown cause).KeepsHost (d.hostResetD cause).settle := by
  rw [Dev.hostResetD, d.hostReset_eq cause h]
  exact ((Dev.keepsHost_vfChanged _ _).trans (Dev.keepsHost_dropGrant _ _)).trans (Dev.keepsHost_settle _)

theorem hostInterfaceReset_completes (s : State) (ha : s.dev.awake = true) (c : Fin 3) (h : s.dev.get HIF_STATUS_LINK_UP = 1 ∨ c = 2) :
    s.completes (.hostInterfaceReset c) (fun t => t.get HIF_STATUS_ISLAND = 1 ∧ t.get HIF_STATUS_LINK_UP = 0 ∧ t.get HIF_STATUS_VFE = 0 ∧
      t.get HIF_STATUS_NUMVF = 0 ∧ t.get HIF_ISL_INFO_CAUSE = c ∧ t.get HIF_ISL_TIME_TIME = s.dev.now % 2 ^ 64 ∧ t.hif.hirPend = true ∧
      (∀ e ∈ t.ord.recs, e.2.kind = 0 → e.2.fn = 0) ∧ ∀ g, g < 64 → s.dev.Islanded t g) := by
  have hlink : c.val < 2 → s.dev.on HIF_STATUS_LINK_UP = true := fun hc =>
    h.elim Dev.on_of_get fun h => absurd hc (by rw [h]; decide)
  have hkeep := s.dev.keepsHost_hostResetD c hlink
  have hget : ∀ f : Fld, f.key < 0x400000 → (s.dev.hostResetD c).settle.get f =
      (((forN 64 (fun f d => d.islandFn f) s.dev).freeAdhoc (· != 0)).islandRegs s.dev c).get f := fun f hf =>
    (hkeep.get f (by omega) (notFill_of_host (by omega) (.inl hf))).trans (s.dev.get_hostDown c f)
  obtain ⟨hisl, hlu, hvfe, hnum, hcause, htime⟩ :=
    Dev.islandRegs_fields ((forN 64 (fun f d => d.islandFn f) s.dev).freeAdhoc (· != 0)) s.dev c
  refine State.completes_run (f := fun d => d.hostResetD c.val) rfl ha ⟨(hget _ (by decide)).trans hisl, (hget _ (by decide)).trans hlu,
    (hget _ (by decide)).trans hvfe, (hget _ (by decide)).trans hnum, (hget _ (by decide)).trans hcause, (hget _ (by decide)).trans htime,
    congrArg HifS.hirPend hkeep.hif, ?_, fun g hg => (s.dev.hostDown_islanded c g hg).keep hg hkeep⟩
  rw [hkeep.ord]
  exact s.dev.hostDown_recs c

end Sys2Proof.Machine
end

section
/-!
SUPPORT. Interrupts, configuration writes and error reporting of a function (R190–R195), and the statement on the host link.
-/
namespace Sys2Proof.Machine

/-- A counter that counts one more. -/
theorem Dev.get_inc (d : Dev) (f : Fld) : (d.inc f).get f = satw f.w (d.get f + 1) := by
  have hlt : satw f.w (d.get f + 1) < 2 ^ f.w := by
    unfold satw
    have := Nat.two_pow_pos f.w
    split <;> omega
  exact (Dev.get_put_same _ _ _).trans (Nat.mod_eq_of_lt hlt)

/-! ### What an interrupt that waits changes -/

/-- From a to b only a function's pending interrupts may have changed: its pending bits, its counts of causes and the times of moderation. -/
def FnS.Pends (a b : FnS) : Prop := b = { a with pba := b.pba, modN := b.modN, modFirst := b.modFirst, modLast := b.modLast }

theorem FnS.Pends.refl (a : FnS) : a.Pends a := rfl

theorem FnS.Pends.trans {a b c : FnS} (h : a.Pends b) (k : b.Pends c) : a.Pends c := by
  unfold FnS.Pends at *
  rw [k, h]

/-- From d to t only pending interrupts of functions have changed in the host interface, and none of a function that `same` names. -/
structure Dev.Pends (same : Nat → Prop) (d t : Dev) : Prop where
  own : ∀ g, (d.fnS g).Pends (t.fnS g)
  others : ∀ g, same g → t.fnS g = d.fnS g
  hif : t.hif = { d.hif with fn := t.hif.fn }

theorem Dev.Pends.refl {same : Nat → Prop} (d : Dev) : d.Pends same d := ⟨fun _ => .refl _, fun _ _ => rfl, rfl⟩

theorem Dev.Pends.trans {same : Nat → Prop} {a b c : Dev} (h : Dev.Pends same a b) (k : Dev.Pends same b c) : Dev.Pends same a c :=
  ⟨fun g => (h.own g).trans (k.own g), fun g hg => (k.others g hg).trans (h.others g hg), by rw [k.hif, h.hif]⟩

theorem Dev.Pends.ite {same : Nat → Prop} {c : Prop} [Decidable c] {d x y : Dev} (hx : Dev.Pends same d x) (hy : Dev.Pends same d y) :
    Dev.Pends same d (if c then x else y) := by
  split
  · exact hx
  · exact hy

/-- Whatever leaves the host interface's own state alone. -/
theorem Dev.Pends.of_hif {same : Nat → Prop} {d t : Dev} (h : t.hif = d.hif) : Dev.Pends same d t :=
  ⟨fun g => by rw [Dev.fnS_of_hif h]; exact .refl _, fun g _ => Dev.fnS_of_hif h g, by rw [h]⟩

/-- A write of function f's record that only moves its pending interrupts. -/
theorem Dev.pends_setFn {same : Nat → Prop} (d : Dev) (f : Nat) (x : FnS) (hf : ¬ same f) (h : (d.fnS f).Pends x) :
    Dev.Pends same d (d.setFn f x) := by
  refine ⟨fun g => ?_, fun g hg => Dev.fnS_setFn_ne d x fun he => hf (he ▸ hg), rfl⟩
  by_cases hg : g = f
  · subst hg; rw [Dev.fnS_setFn_same]; exact h
  · rw [Dev.fnS_setFn_ne d x hg]; exact .refl _

section
variable {same : Nat → Prop} {f : Nat} (hf : ¬ same f)
include hf

theorem Dev.pends_cause (d : Dev) (c k : Nat) : Dev.Pends same d (d.cause f c k) := by
  unfold Dev.cause
  exact .ite (.refl d) (d.pends_setFn f _ hf (by split <;> rfl))

theorem Dev.pends_msixOne (d : Dev) (v : Nat) : Dev.Pends same d (d.msixOne f v) := by
  unfold Dev.msixOne
  dsimp only
  split
  · exact d.pends_setFn f _ hf rfl
  · exact .trans (d.pends_setFn f { d.fnS f with pba := if bit (d.fnS f).pba v then (d.fnS f).pba - 2 ^ v else (d.fnS f).pba } hf rfl)
      (.of_hif rfl)

theorem Dev.pends_flushPba (d : Dev) : Dev.Pends same d (d.flushPba f) :=
  forN_rel Dev.Pends.refl Dev.Pends.trans _ _ _ fun v e => .ite (e.pends_msixOne hf v) (.refl e)

theorem Dev.pends_bmeOff (d : Dev) : Dev.Pends same d (d.bmeOff f) := by
  unfold Dev.bmeOff Dev.fnErrEvent
  dsimp only
  refine .ite ?_ (.refl d)
  refine .trans ?_ (Dev.pends_cause hf _ _ _)
  exact .trans (.of_hif rfl) (.of_hif (Dev.bskOnly_bothEvent _ _ _ _).hif)

end

/-! ### Configuration writes of a function (R194, R195) -/

/-- The PF's write beside its own record: AER's status and the 10-Bit Tag Requester Enable, which no function's record holds. -/
theorem Dev.busMaster_pends {d : Dev} {f : Nat} {c : HostCtl} (ho : d.cfgOpen = true) (hf : d.fnOn f = true) :
    ((d.setFn f ((d.fnS f).config (f == 0) c)).fnS f).Pends ((d.busMaster f c).fnS f) ∧ ∀ g, g ≠ f → (d.busMaster f c).fnS g = d.fnS g := by
  have hrun : ∃ e : Dev, d.busMaster f c = (e.flushPba f).bmeOff f ∧ ∀ g, e.fnS g = (d.setFn f ((d.fnS f).config (f == 0) c)).fnS g := by
    unfold Dev.busMaster
    simp only [ho, hf, Bool.not_true, Bool.false_eq_true, if_false]
    refine ⟨_, rfl, fun g => ?_⟩
    split <;> rfl
  obtain ⟨e, hrun, he⟩ := hrun
  have hp : Dev.Pends (· ≠ f) e ((e.flushPba f).bmeOff f) := (e.pends_flushPba (fun h => h rfl)).trans (Dev.pends_bmeOff (fun h => h rfl) _)
  rw [hrun]
  exact ⟨he f ▸ hp.own f, fun g hg => (hp.others g hg).trans ((he g).trans (Dev.fnS_setFn_ne d _ hg))⟩

theorem busMasterEnableChange_completes (s : State) (f : Fn) (ha : s.dev.awake = true) (c : HostCtl) (ho : s.dev.cfgOpen = true)
    (hf : s.dev.fnOn f = true) :
    s.completes (.busMasterEnableChange f c) (fun t => (t.fnS f).bme = c.bme ∧ (t.fnS f).ero = c.ero ∧ (t.fnS f).msixEn = c.msixEn ∧
      (t.fnS f).fmask = c.fmask ∧ (t.fnS f).cfg = c.cfg ∧ (t.fnS f).mse = (c.mse && f == 0) ∧ (t.fnS f).reads = (s.dev.fnS f).reads ∧
      ∀ g, g ≠ f.val → t.fnS g = s.dev.fnS g) := by
  obtain ⟨hown, hothers⟩ := Dev.busMaster_pends (c := c) ho hf
  rw [Dev.fnS_setFn_same] at hown
  have hpf : (f.val == 0) = (f == 0) := decide_eq_decide.2 (Fin.ext_iff (a := f) (b := 0)).symm
  refine State.completes_run (f := fun d => d.busMaster f.val c) rfl ha ?_
  simp only [Dev.fnS_settle]
  rw [hown, ← hpf]
  exact ⟨rfl, rfl, rfl, rfl, rfl, rfl, rfl, hothers⟩

theorem d3hotTransition_completes (s : State) (ha : s.dev.awake = true) (b : Bool) (ho : s.dev.cfgOpen = true) :
    s.completes (.d3hotTransition b) (fun t => t.hif.d3 = b ∧ (b = true → ∀ g, t.dmaOk g = false) ∧
      ∀ g, (t.fnS g).bme = (s.dev.fnS g).bme ∧ (t.fnS g).reads = (s.dev.fnS g).reads ∧ (t.fnS g).kept = (s.dev.fnS g).kept) := by
  have hrun : s.dev.d3hot b = forN 64 (fun f d => (d.flushPba f).bmeOff f) { s.dev with hif := { s.dev.hif with d3 := b } } := by
    rw [Dev.d3hot, ho]; rfl
  have hp : Dev.Pends (fun _ => False) { s.dev with hif := { s.dev.hif with d3 := b } } (s.dev.d3hot b) := by
    rw [hrun]
    exact forN_rel Dev.Pends.refl Dev.Pends.trans _ _ _ fun f e =>
      (e.pends_flushPba (f := f) not_false).trans (Dev.pends_bmeOff not_false _)
  have hd3 : (s.dev.d3hot b).settle.hif.d3 = b := by rw [Dev.settle_hif, hp.hif]
  refine State.completes_run (f := fun d => d.d3hot b) rfl ha ⟨hd3, fun hb g => by rw [Dev.dmaOk, hd3, hb]; exact Bool.and_false _, fun g => ?_⟩
  rw [Dev.fnS_settle, hp.own g]
  exact ⟨rfl, rfl, rfl⟩

/-! ### Moderated interrupts (R190, R191) -/

/-- A cause that counts nothing sends nothing. -/
theorem Dev.moderate1_idle {d : Dev} {f c : Nat} (h : (d.fnS f).modN.getD c 0 = 0) : d.moderate1 f c = d := by
  simp only [Dev.moderate1, h, if_true]

/-- Where only cause 5 may count, the moderation of the function is that of cause 5. -/
theorem Dev.moderate_last {d : Dev} {f m : Nat} (h : (d.fnS f).modN = [0, 0, 0, 0, 0, m]) : d.moderate f = d.moderate1 f 5 := by
  have hidle : forN 5 (fun c d => d.moderate1 f c) d = d := forN_eq_self fun i hi => Dev.moderate1_idle (by
    rw [h]
    match i, hi with
    | 0, _ | 1, _ | 2, _ | 3, _ | 4, _ => rfl)
  rw [Dev.moderate, forN_succ, hidle]

/-- No pending bit is due: each vector that waits is blocked. -/
theorem Dev.flushPba_idle {d : Dev} {f : Nat} (h : ∀ v, bit (d.fnS f).pba v = true → d.vecBlocked f v = true) : d.flushPba f = d :=
  forN_eq_self fun v _ => by
    refine if_neg fun hdue => ?_
    rw [Bool.and_eq_true, Bool.not_eq_true'] at hdue
    exact absurd (h v hdue.1) (by simp [hdue.2])

/-- Whether a vector is blocked does not depend on what is pending or counted. -/
theorem Dev.vecBlocked_setFn {d : Dev} {f : Nat} {x : FnS} (v : Nat) (h : (d.fnS f).Pends x) :
    (d.setFn f x).vecBlocked f v = d.vecBlocked f v := by
  rw [FnS.Pends] at h
  simp only [Dev.vecBlocked, Dev.dmaOk, Dev.fnS_setFn_same]
  rw [h]
  rfl

theorem Dev.msixOne_blocked {d : Dev} {f v : Nat} (hb : d.vecBlocked f v = true) :
    d.msixOne f v = d.setFn f { d.fnS f with pba := (d.fnS f).pba ||| 2 ^ v } := if_pos hb

/-- With nothing pending a vector that may be sent is sent, and nothing pends after it. -/
theorem Dev.msixOne_sent {d : Dev} {f v : Nat} (hb : d.vecBlocked f v = false) (hp : (d.fnS f).pba = 0) :
    let e := Tab.get {} (d.fnS f).msix v
    let t := d.msixOne f v
    t.out = .msix f v e.addr e.data :: d.out ∧ t.get (HIF_CNT_COUNT 3) = satw 48 (d.get (HIF_CNT_COUNT 3) + 1) ∧ (t.fnS f).pba = 0 := by
  have hrun : d.msixOne f v = ((d.setFn f { d.fnS f with pba := if bit (d.fnS f).pba v then (d.fnS f).pba - 2 ^ v else (d.fnS f).pba }).emit
      (.msix f v (Tab.get {} (d.fnS f).msix v).addr (Tab.get {} (d.fnS f).msix v).data)).inc (HIF_CNT_COUNT 3) := if_neg (Bool.eq_false_iff.1 hb)
  dsimp only
  rw [hrun]
  refine ⟨rfl, Dev.get_inc _ _, ?_⟩
  simp [Dev.inc, Dev.addCnt, hp, bit]

section
variable {d : Dev} {f m : Nat} (hn : (d.fnS f).modN = [0, 0, 0, 0, 0, m]) (hl : (d.fnS f).modLast = []) (hm : 0 < m)
  (hp : (d.fnS f).pba = 0)
include hn hl hm

/-- Cause 5 is due at once, and its vector has sent nothing yet (R191). -/
theorem Dev.moderate_cause5 : ∃ (n : List Nat) (l : Tab Nat), let e := d.msixOne f (d.get (HIF_FN_VEC_VEC5 f))
    d.moderate f = e.setFn f { e.fnS f with modN := n, modLast := l } := by
  rw [Dev.moderate_last hn]
  unfold Dev.moderate1
  have hm0 : m ≠ 0 := Nat.pos_iff_ne_zero.1 hm
  simp only [hn, hl, Tab.find, List.getD_cons_succ, List.getD_cons_zero, hm0, if_false, beq_self_eq_true, Bool.true_or, Bool.true_and, if_true]
  exact ⟨_, _, rfl⟩

include hp

/-- The vector is sent: its message, its count, and nothing pending. -/
theorem Dev.msixSend_sent (hb : d.vecBlocked f (d.get (HIF_FN_VEC_VEC5 f)) = false) :
    let v := d.get (HIF_FN_VEC_VEC5 f)
    let e := Tab.get {} (d.fnS f).msix v
    let t := (d.moderate f).flushPba f
    t.out = .msix f v e.addr e.data :: d.out ∧ t.get (HIF_CNT_COUNT 3) = satw 48 (d.get (HIF_CNT_COUNT 3) + 1) ∧ (t.fnS f).pba = 0 := by
  obtain ⟨n, l, hrun⟩ := Dev.moderate_cause5 hn hl hm
  obtain ⟨hout, hcnt, hpba⟩ := Dev.msixOne_sent hb hp
  dsimp only at hrun ⊢
  have hpba' : ((d.moderate f).fnS f).pba = 0 := by rw [hrun, Dev.fnS_setFn_same]; exact hpba
  rw [Dev.flushPba_idle fun v hv => by rw [hpba'] at hv; simp [bit] at hv]
  refine ⟨?_, ?_, hpba'⟩
  · rw [hrun]; exact hout
  · rw [hrun, Dev.get_setFn]; exact hcnt

/-- The vector is blocked: its pending bit is set, and no message is sent. -/
theorem Dev.msixSend_blocked (hb : d.vecBlocked f (d.get (HIF_FN_VEC_VEC5 f)) = true) :
    let t := (d.moderate f).flushPba f
    t.out = d.out ∧ (t.fnS f).pba = 2 ^ d.get (HIF_FN_VEC_VEC5 f) := by
  obtain ⟨n, l, hrun⟩ := Dev.moderate_cause5 hn hl hm
  dsimp only at hrun ⊢
  have hone : d.msixOne f (d.get (HIF_FN_VEC_VEC5 f)) = d.setFn f { d.fnS f with pba := 2 ^ d.get (HIF_FN_VEC_VEC5 f) } := by
    rw [Dev.msixOne_blocked hb, hp, Nat.zero_or]
  have hpba : ((d.moderate f).fnS f).pba = 2 ^ d.get (HIF_FN_VEC_VEC5 f) := by
    rw [hrun, Dev.fnS_setFn_same, hone, Dev.fnS_setFn_same]
  have hblocked : (d.moderate f).vecBlocked f (d.get (HIF_FN_VEC_VEC5 f)) = true := by
    rw [hrun]
    refine (Dev.vecBlocked_setFn _ (by exact rfl)).trans ?_
    rw [hone]
    exact (Dev.vecBlocked_setFn _ (by exact rfl)).trans hb
  rw [Dev.flushPba_idle fun v hv => ?_]
  · exact ⟨by rw [hrun, hone]; rfl, hpba⟩
  · rw [hpba, bit, Nat.testBit_two_pow, decide_eq_true_eq] at hv
    rw [← hv, hblocked]

end

theorem msixSend_completes (s : State) (f : Fn) (ha : s.dev.awake = true) (m : Nat) (hn : (s.dev.fnS f).modN = [0, 0, 0, 0, 0, m])
    (hp : (s.dev.fnS f).pba = 0) (hl : (s.dev.fnS f).modLast = []) (hm : 0 < m) :
    let v := s.dev.get (HIF_FN_VEC_VEC5 f)
    let e := Tab.get {} (s.dev.fnS f).msix v
    (s.dev.vecBlocked f v = false → s.completes (.msixSend f) (fun t => t.out = .msix f v e.addr e.data :: s.dev.out ∧
      t.get (HIF_CNT_COUNT 3) = satw 48 (s.dev.get (HIF_CNT_COUNT 3) + 1) ∧ (t.fnS f).pba = 0)) ∧
    (s.dev.vecBlocked f v = true → s.completes (.msixSend f) (fun t => t.out = s.dev.out ∧ (t.fnS f).pba = 2 ^ v)) := by
  refine ⟨fun hb => State.completes_run (f := fun d => (d.moderate f.val).flushPba f.val) rfl ha ?_,
    fun hb => State.completes_run (f := fun d => (d.moderate f.val).flushPba f.val) rfl ha ?_⟩
  · obtain ⟨hout, hcnt, hpba⟩ := Dev.msixSend_sent hn hl hm hp hb
    exact ⟨(Dev.settle_out _).trans hout, (Dev.get_settle _ _ (notFill_of_host (by decide) (.inl (by decide)))).trans hcnt,
      (congrArg FnS.pba (Dev.fnS_settle _ _)).trans hpba⟩
  · obtain ⟨hout, hpba⟩ := Dev.msixSend_blocked hn hl hm hp hb
    exact ⟨(Dev.settle_out _).trans hout, (congrArg FnS.pba (Dev.fnS_settle _ _)).trans hpba⟩

theorem msixSend_idle (s : State) (f : Fn) (ha : s.dev.awake = true) (hn : (s.dev.fnS f).modN = [0, 0, 0, 0, 0, 0])
    (hp : (s.dev.fnS f).pba = 0) : s.becomes (.msixSend f) s.dev := by
  refine State.becomes_run (f := fun d => (d.moderate f.val).flushPba f.val) rfl ha ?_
  rw [Dev.moderate_last hn, Dev.moderate1_idle (by rw [hn]; rfl), Dev.flushPba_idle fun v hv => by rw [hp] at hv; simp [bit] at hv]

/-! ### Errors that the link detects (R192) -/

section
variable (d : Dev) (e : AerErr) (adv : Bool) (hdr : Option Nat)

/-- The PF's AER after an error: its status bit, the advisory bit of an uncorrectable error that counts as correctable, and the header log, which keeps
the first header. -/
theorem Dev.aerNote_hif : (d.aerNote 0 e adv hdr).hif = { d.hif with
    fn := (d.aerNote 0 e adv hdr).hif.fn
    aerU := d.hif.aerU ||| (if (aerBit e).2 then 0 else 2 ^ (aerBit e).1)
    aerC := d.hif.aerC ||| (if (aerBit e).2 then 2 ^ (aerBit e).1 else if d.aerKind 0 e adv = 0 then 2 ^ 13 else 0)
    aerHdr := if d.hif.aerHdr.isNone then hdr else d.hif.aerHdr } := by
  have hinc : ∀ (x : Dev) r, (x.inc r).hif = x.hif := fun _ _ => rfl
  unfold Dev.aerNote
  dsimp only
  simp only [apply_ite Dev.hif, Dev.emit_hif, hinc, ite_self]
  rfl

/-- Of the counters only that of correctable errors may count. -/
theorem Dev.aerNote_count (h : (aerBit e).2 = true) : (d.aerNote 0 e adv hdr).get (HIF_CNT_COUNT 9) = satw 48 (d.get (HIF_CNT_COUNT 9) + 1) := by
  have hkind : d.aerKind 0 e adv = 0 := if_pos h
  unfold Dev.aerNote
  simp only [hkind, if_true, apply_ite (fun x : Dev => x.get (HIF_CNT_COUNT 9)), Dev.emit_get, ite_self]
  exact Dev.get_inc _ _

/-- What an error of the PF tells the host is at most its error message. -/
theorem Dev.aerNote_out : ∃ p : List Out, (d.aerNote 0 e adv hdr).out = p ++ d.out ∧ ∀ o ∈ p, ∃ k, o = .errMsg 0 k := by
  have hmsg : ∀ (c : Prop) [Decidable c] (x : Dev) (k : Nat), x.out = d.out →
      ∃ p : List Out, (if c then x.emit (.errMsg 0 k) else x).out = p ++ d.out ∧ ∀ o ∈ p, ∃ k, o = .errMsg 0 k := fun c _ x k hx => by
    split
    · exact ⟨[.errMsg 0 k], congrArg (_ :: ·) hx, by simp⟩
    · exact ⟨[], hx, by simp⟩
  have hinc : ∀ (x : Dev) r, (x.inc r).out = x.out := fun _ _ => rfl
  unfold Dev.aerNote
  dsimp only
  refine hmsg _ _ _ ?_
  simp only [apply_ite Dev.out, hinc, ite_self]
  rfl

theorem Dev.aerNote_mem : (d.aerNote 0 e adv hdr).mem = d.mem := by
  have hinc : ∀ (x : Dev) r, (x.inc r).mem = x.mem := fun _ _ => rfl
  unfold Dev.aerNote
  simp only [apply_ite Dev.mem, Dev.emit_mem, hinc, ite_self]
  rfl

end

theorem aerLinkError_completes (s : State) (ha : s.dev.awake = true) (e : AerErr) (h : HdrO) (hup : s.dev.get HIF_STATUS_LINK_UP = 1) :
    s.completes (.aerLinkError e h) (fun t => ((aerBit e).2 = true → t.hif.aerC = s.dev.hif.aerC ||| 2 ^ (aerBit e).1 ∧
        t.hif.aerU = s.dev.hif.aerU ∧ t.get (HIF_CNT_COUNT 9) = satw 48 (s.dev.get (HIF_CNT_COUNT 9) + 1)) ∧
      ((aerBit e).2 = false → t.hif.aerU = s.dev.hif.aerU ||| 2 ^ (aerBit e).1 ∧ t.hif.aerC = s.dev.hif.aerC) ∧
      (s.dev.hif.aerHdr.isSome → t.hif.aerHdr = s.dev.hif.aerHdr) ∧ (s.dev.hif.aerHdr = none → t.hif.aerHdr = h.map BitVec.toNat)) := by
  have hrun : s.dev.aerLink e (h.map BitVec.toNat) = s.dev.aerNote 0 e false (h.map BitVec.toNat) := by
    rw [Dev.aerLink, Dev.on_of_get hup]; rfl
  refine State.completes_run (f := fun d => d.aerLink e (h.map BitVec.toNat)) rfl ha ?_
  rw [Dev.settle_hif, Dev.get_settle _ _ (notFill_of_host (by decide) (.inl (by decide))), hrun, Dev.aerNote_hif]
  refine ⟨fun hc => ⟨by simp [hc], by simp [hc], Dev.aerNote_count _ _ _ _ hc⟩, fun hc => ⟨by simp [hc], ?_⟩, fun hs => ?_, fun hn => by simp [hn]⟩
  · have hkind : s.dev.aerKind 0 e false ≠ 0 := by
      rw [Dev.aerKind, hc]
      simp only [Bool.false_eq_true, if_false]
      split <;> decide
    simp [hc, hkind]
  · have hne : s.dev.hif.aerHdr.isNone = false := by rw [← Option.not_isSome, hs]; rfl
    simp [hne]

/-! ### The link (R182) -/

theorem hostLinkUp_becomes (s : State) (ha : s.dev.awake = true) (v : BitVec 3) (w : BitVec 4) (hv : v.toNat ≤ s.dev.topSpeed)
    (hdown : s.dev.get HIF_STATUS_LINK_UP = 0) (hst : 2 ≤ s.dev.get BOOT_STATUS_STAGE) (h1 : s.dev.get PWR_STATUS_STATE ≠ 1)
    (h2 : s.dev.get PWR_STATUS_STATE ≠ 2) :
    s.becomes (.hostLinkUp v w) (((s.dev.put HIF_STATUS_LINK_UP 1).put HIF_STATUS_SPEED v.toNat).put HIF_STATUS_WIDTH w.toNat).linkEvent := by
  refine State.becomes_run (f := fun d => d.linkUp v.toNat w.toNat) rfl ha (if_neg ?_)
  simp only [Dev.off_of_get hdown, Nat.not_lt.2 hst, Nat.not_lt.2 hv, h1, h2, decide_false, Bool.or_self, beq_eq_false_iff_ne.2, ne_eq, not_false_eq_true]
  decide

theorem linkSpeedChange_becomes (s : State) (ha : s.dev.awake = true) (v : BitVec 3) (w : BitVec 4) (hv : v.toNat ≤ s.dev.topSpeed)
    (hup : s.dev.get HIF_STATUS_LINK_UP = 1) (hne : s.dev.get HIF_STATUS_SPEED ≠ v.toNat) :
    s.becomes (.linkSpeedChange v w) (((s.dev.put HIF_STATUS_SPEED v.toNat).put HIF_STATUS_WIDTH w.toNat).pfEvent 0x0803
      [(1, s.dev.get HIF_STATUS_SPEED), (1, s.dev.get HIF_STATUS_WIDTH), (1, v.toNat), (1, w.toNat)]) := by
  refine State.becomes_run (f := fun d => d.linkSpeed v.toNat w.toNat) rfl ha (if_neg ?_)
  simp only [Dev.on_of_get hup, Nat.not_lt.2 hv, hne, decide_false, Bool.false_and, Bool.not_true, Bool.or_self]
  decide

/-- A link that is down does not go down again: only transport 1 loses its grant. -/
theorem hostInterfaceReset_down (s : State) (ha : s.dev.awake = true) (hdown : s.dev.get HIF_STATUS_LINK_UP = 0) :
    s.becomes (.hostInterfaceReset 0) (s.dev.dropGrant 1) := by
  refine State.becomes_run (f := fun d => d.hostResetD 0) rfl ha (congrArg (Dev.dropGrant · 1) (if_pos ?_))
  rw [Dev.off_of_get hdown]
  rfl

theorem hostLink : Claims.HostLink := fun s f ha =>
  ⟨fun v w hv => ⟨hostLinkUp_becomes s ha v w hv, linkSpeedChange_becomes s ha v w hv⟩, hostInterfaceReset_completes s ha,
    hostInterfaceReset_down s ha, busMasterEnableChange_completes s f ha, d3hotTransition_completes s ha, aerLinkError_completes s ha,
    msixSend_completes s f ha, msixSend_idle s f ha⟩

end Sys2Proof.Machine
end

section
/-!
SUPPORT. Coherent writes of bytes and reads of lines (R287, R288).
-/
namespace Sys2Proof.Machine

/-! ### Bytes -/

/-- A patched list: the patch's bytes where it lies within the list, the list's own elsewhere. -/
theorem getD_patch (l : List Byte) (o : Nat) (b : List Byte) (j : Nat) (h : o + b.length ≤ l.length) :
    (patch l o b).getD j 0 = if o ≤ j ∧ j < o + b.length then b.getD (j - o) 0 else l.getD j 0 := by
  induction b generalizing l o with
  | nil => rw [patch, if_neg (by simp only [List.length_nil]; omega)]
  | cons c b ih =>
    rw [List.length_cons] at h
    rw [patch, ih _ _ (by rw [List.length_set]; omega), List.length_cons]
    by_cases hj : j = o
    · subst hj
      rw [if_neg (by omega), if_pos (by omega), Nat.sub_self, List.getD_eq_getElem?_getD, List.getElem?_set_self (by omega)]
      rfl
    · have hset : (l.set o c).getD j 0 = l.getD j 0 := by
        rw [List.getD_eq_getElem?_getD, List.getElem?_set_ne (Ne.symm hj), List.getD_eq_getElem?_getD]
      by_cases hin : o ≤ j ∧ j < o + (b.length + 1)
      · rw [if_pos hin, if_pos (by omega), show j - o = (j - (o + 1)) + 1 by omega, List.getD_cons_succ]
      · rw [if_neg hin, if_neg (by omega), hset]

theorem length_patch (l : List Byte) (o : Nat) (b : List Byte) : (patch l o b).length = l.length := by
  induction b generalizing l o with
  | nil => rfl
  | cons c b ih => rw [patch, ih, List.length_set]

theorem get_dramPut (t : List Host.Cell) (a : Nat) (b : List Byte) (x : Nat) :
    Tab.get 0 (dramPut t a b) x = if a ≤ x ∧ x < a + b.length then b.getD (x - a) 0 else Tab.get 0 t x := by
  induction b generalizing t a with
  | nil => rw [dramPut, if_neg (by simp only [List.length_nil]; omega)]
  | cons c b ih =>
    rw [dramPut, ih, List.length_cons]
    by_cases hx : x = a
    · subst hx
      rw [if_neg (by omega), if_pos (by omega), Tab.get_set_same, Nat.sub_self]
      rfl
    · by_cases hin : a ≤ x ∧ x < a + (b.length + 1)
      · rw [if_pos hin, if_pos (by omega), show x - a = (x - (a + 1)) + 1 by omega, List.getD_cons_succ]
      · rw [if_neg hin, if_neg (by omega), Tab.get_set_ne _ _ _ _ hx]

/-! ### Writes -/

/-- Every line that an L2 holds has its 64 bytes. -/
def Dev.linesWhole (d : Dev) : Prop := ∀ ln l, Tab.find d.mem.l2 ln = some l → l.data.length = 64

theorem Tab.mem_of_find {α : Type} {t : Tab α} {k : Nat} {v : α} (h : Tab.find t k = some v) : (k, v) ∈ t := by
  induction t with
  | nil => cases h
  | cons e t ih =>
    obtain ⟨j, w⟩ := e
    rw [Tab.find] at h
    split at h
    · next hj => cases h; exact hj ▸ List.mem_cons_self
    · exact List.mem_cons_of_mem _ (ih h)

/-- From d to t exactly the bytes b from a on were written to memory, and no output was made. -/
structure Dev.Wrote (d t : Dev) (a : Nat) (b : List Byte) : Prop where
  byte : ∀ x, t.memByte x = if a ≤ x ∧ x < a + b.length then b.getD (x - a) 0 else d.memByte x
  whole : t.linesWhole
  out : t.out = d.out

theorem Dev.Wrote.nil {d : Dev} (h : d.linesWhole) (a : Nat) : d.Wrote d a [] :=
  ⟨fun x => (if_neg (by simp only [List.length_nil]; omega)).symm, h, rfl⟩

theorem Dev.Wrote.append {d e t : Dev} {a : Nat} {b c : List Byte} (h : d.Wrote e a b) (k : e.Wrote t (a + b.length) c) : d.Wrote t a (b ++ c) := by
  refine ⟨fun x => ?_, k.whole, k.out.trans h.out⟩
  rw [k.byte, h.byte, List.length_append]
  by_cases hb : x < a + b.length
  · rw [if_neg (by omega), List.getD_eq_getElem?_getD (l := b ++ c)]
    by_cases ha : a ≤ x
    · rw [if_pos ⟨ha, hb⟩, if_pos (by omega), List.getElem?_append_left (by omega), List.getD_eq_getElem?_getD]
    · rw [if_neg (by omega), if_neg (by omega)]
  · rw [if_neg (show ¬ (a ≤ x ∧ x < a + b.length) by omega)]
    by_cases hc : x < a + b.length + c.length
    · rw [if_pos (by omega), if_pos (by omega), List.getD_eq_getElem?_getD, List.getD_eq_getElem?_getD,
        List.getElem?_append_right (by omega), show x - a - b.length = x - (a + b.length) by omega]
    · rw [if_neg (by omega), if_neg (by omega)]

theorem Dev.memByte_of_find {d : Dev} {x : Nat} {l : L2Line} (h : Tab.find d.mem.l2 (x / 64) = some l) : d.memByte x = l.data.getD (x % 64) 0 := by
  rw [Dev.memByte, h]

theorem Dev.memByte_of_none {d : Dev} {x : Nat} (h : Tab.find d.mem.l2 (x / 64) = none) : d.memByte x = Tab.get 0 d.mem.dram x := by
  rw [Dev.memByte, h]

/-- A write within one line, which an L2 may hold. -/
theorem Dev.wrote_writeLine {d : Dev} {a : Nat} {b : List Byte} (own : Nat) (hw : d.linesWhole) (hb : a % 64 + b.length ≤ 64) :
    d.Wrote (d.writeLine a b own) a b := by
  cases hl : Tab.find d.mem.l2 (a / 64) with
  | some l =>
    obtain ⟨l', hdata, hmem⟩ : ∃ l' : L2Line, l'.data = patch l.data (a % 64) b ∧
        (d.writeLine a b own).mem = { d.mem with l2 := Tab.ins d.mem.l2 (a / 64) l' } := by
      simp only [Dev.writeLine, Dev.clearResv, hl]
      exact ⟨_, rfl, rfl⟩
    have hlen : l.data.length = 64 := hw _ _ hl
    refine ⟨fun x => ?_, fun ln k hk => ?_, by simp only [Dev.writeLine, Dev.clearResv, hl]⟩
    · by_cases hx : x / 64 = a / 64
      · rw [Dev.memByte_of_find (l := l') (by rw [hmem, hx, Tab.find_ins_same]), hdata, getD_patch _ _ _ _ (by omega),
          Dev.memByte_of_find (by rw [hx, hl])]
        by_cases hin : a ≤ x ∧ x < a + b.length
        · rw [if_pos (by omega), if_pos hin, show x % 64 - a % 64 = x - a by omega]
        · rw [if_neg (by omega), if_neg hin]
      · rw [if_neg (by omega), Dev.memByte, Dev.memByte, hmem, Tab.find_ins_ne _ _ hx]
    · rw [hmem] at hk
      by_cases hln : ln = a / 64
      · subst hln
        rw [Tab.find_ins_same] at hk
        cases hk
        rw [hdata, length_patch, hlen]
      · rw [Tab.find_ins_ne _ _ hln] at hk
        exact hw _ _ hk
  | none =>
    have hl2 : (d.writeLine a b own).mem.l2 = d.mem.l2 := by simp only [Dev.writeLine, Dev.clearResv, hl]
    have hdram : (d.writeLine a b own).mem.dram = dramPut d.mem.dram a b := by simp only [Dev.writeLine, Dev.clearResv, hl]
    refine ⟨fun x => ?_, fun ln k hk => hw ln k (hl2 ▸ hk), by simp only [Dev.writeLine, Dev.clearResv, hl]⟩
    cases hx : Tab.find d.mem.l2 (x / 64) with
    | some k =>
      have hne : x / 64 ≠ a / 64 := fun he => by rw [he, hl] at hx; cases hx
      rw [if_neg (by omega), Dev.memByte_of_find (by rw [hl2, hx]), Dev.memByte_of_find hx]
    | none => rw [Dev.memByte_of_none (by rw [hl2, hx]), hdram, get_dramPut, Dev.memByte_of_none hx]

/-- A write of bytes, line by line, with rounds enough for its last byte. -/
theorem Dev.wrote_writeBytes {d : Dev} {a : Nat} {b : List Byte} (k own : Nat) (hw : d.linesWhole) (hk : a % 64 + b.length ≤ 64 * k) :
    d.Wrote (Dev.writeBytes k d a b own) a b := by
  induction k generalizing d a b with
  | zero =>
    obtain rfl : b = [] := List.eq_nil_of_length_eq_zero (by omega)
    exact .nil hw a
  | succ k ih =>
    rw [Dev.writeBytes]
    split
    · next he =>
      obtain rfl := List.isEmpty_iff.1 he
      exact .nil hw a
    · next he =>
      dsimp only
      have hline : d.Wrote (d.writeLine a (b.take (64 - a % 64)) own) a (b.take (64 - a % 64)) :=
        Dev.wrote_writeLine own hw (by rw [List.length_take]; omega)
      by_cases hb : b.length ≤ 64 - a % 64
      · have hnil : ∀ e : Dev, Dev.writeBytes k e (a + (64 - a % 64)) [] own = e := fun e => by cases k <;> rfl
        rw [List.take_of_length_le hb] at hline
        rwa [List.take_of_length_le hb, List.drop_of_length_le hb, hnil]
      · have hlen : (b.take (64 - a % 64)).length = 64 - a % 64 := by rw [List.length_take]; omega
        have hrest := ih (a := a + (64 - a % 64)) (b := b.drop (64 - a % 64)) hline.whole (by rw [List.length_drop]; omega)
        have happ := hline.append (by rw [hlen]; exact hrest)
        rwa [List.take_append_drop] at happ

/-! ### Reads -/

theorem Dev.readCoherent_held {d : Dev} {ln : Nat} (e : DramEnv) (who : Nat) (h : (Tab.find d.mem.l2 ln).isSome) (hp : d.linePoison ln = false) :
    d.readCoherent ln e who = (d, false) := by
  obtain ⟨l, hl⟩ := Option.isSome_iff_exists.1 h
  rw [Dev.linePoison, hl] at hp
  rw [Dev.readCoherent, hl]
  exact congrArg (d, ·) hp

/-- Sound lines that an L2 holds are read without DRAM. -/
theorem Dev.readLines_held {d : Dev} {ln : Nat} (env : DramEnvs) (who n : Nat)
    (h : ∀ i, ln ≤ i → i < ln + n → (Tab.find d.mem.l2 i).isSome ∧ d.linePoison i = false) : Dev.readLines env who n d ln = (d, false) := by
  induction n generalizing ln with
  | zero => rfl
  | succ n ih =>
    obtain ⟨hl, hp⟩ := h ln (Nat.le_refl _) (by omega)
    rw [Dev.readLines, Dev.readCoherent_held _ _ hl hp]
    simp only [ih (ln := ln + 1) fun i hi hn => h i (by omega) (by omega), Bool.or_self]

theorem Dev.memByte_settle (d : Dev) (x : Nat) : d.settle.memByte x = d.memByte x := by
  rw [Dev.memByte, Dev.settle_mem]
  simp only [Tab.get_canon]
  rfl

theorem Dev.memByte_of_mem {d t : Dev} (h : t.mem = d.mem) (x : Nat) : t.memByte x = d.memByte x := by rw [Dev.memByte, h, Dev.memByte]

end Sys2Proof.Machine
end

section
/-!
SUPPORT. PF BAR2 outside recovery (R192, R194), and the statement on the host link and BAR2.
-/
namespace Sys2Proof.Machine

/-! ### A request that is refused -/

/-- A refused request changes no memory and tells the host nothing of itself: it is counted and recorded. -/
theorem Dev.memRefuse_mem_out (d : Dev) (a : Agent) (pa n : Nat) (w : Bool) :
    (d.memRefuse a pa n w).mem = d.mem ∧ (d.memRefuse a pa n w).out = d.out := by
  unfold Dev.memRefuse
  split
  · exact ⟨rfl, rfl⟩
  · split
    · next i _ =>
      have h : (d.inc (MEM_CNT_COUNT 3)).errOnly ((d.inc (MEM_CNT_COUNT 3)).raiseErr 0xE 0 0x0010 1 pa (a.id + i * 256)) :=
        Dev.errOnly_raiseErr _ _ _ _ _ _ _
      exact ⟨h.mem.trans rfl, h.out.trans rfl⟩
    · exact ⟨rfl, rfl⟩

/-- From d to t only the PF's error report was made: AER holds error e, and the host got at most its error message. -/
structure Dev.Reported (d t : Dev) (e : AerErr) : Prop where
  mem : t.mem = d.mem
  out : ∃ p : List Out, t.out = p ++ d.out ∧ ∀ o ∈ p, ∃ k, o = .errMsg 0 k
  aer : (aerBit e).2 = false → t.hif.aerU.testBit (aerBit e).1 = true

theorem Dev.reported_aerRefused (d : Dev) (e : AerErr) (read : Bool) : d.Reported (d.aerRefused 0 e read) e := by
  refine ⟨Dev.aerNote_mem d.drawn.drawn e read _, Dev.aerNote_out d.drawn.drawn e read _, fun he => ?_⟩
  rw [Dev.aerRefused, Dev.freeHdr, Dev.aerNote_hif]
  simp [he]

/-! ### An open BAR2 -/

section
variable {d : Dev} (ho : d.barOpen 0 = true) (hflr : d.inFlr 0 = false)

include ho in
theorem Dev.bar2Access_flr (hf : d.inFlr 0 = true) (a n : Nat) (wr : Option (List Byte)) (env : DramEnvs) :
    d.bar2Access a n wr env = if wr.isSome then d else d.emit (.readData a 0) := by
  simp only [Dev.bar2Access, ho, hf, Bool.not_true, Bool.false_eq_true, if_false, if_true]

variable (hemul : d.pwr.emul = false) (h14 : d.get BOOT_STATUS_STAGE ≠ 14) (h15 : d.get BOOT_STATUS_STAGE ≠ 15)
include ho hflr hemul h14 h15

/-- The window is off: a read returns 0, a write does nothing. -/
theorem Dev.bar2Access_off (hb : d.get HIF_CFG_B2EN = 0) (a n : Nat) (wr : Option (List Byte)) (env : DramEnvs) :
    d.bar2Access a n wr env = if wr.isSome then d else d.emit (.readData a 0) := by
  simp only [Dev.bar2Access, ho, hflr, hemul, h14, h15, Dev.off_of_get hb, Bool.not_true, Bool.not_false, Bool.false_and, Bool.or_true,
    Bool.or_self, decide_false, Bool.false_eq_true, if_false, if_true]

variable (hb : d.get HIF_CFG_B2EN = 1) {a n byte : Nat} (hbyte : 2 * d.get HIF_BAR2_BASE_ADDR + a = byte) (env : DramEnvs)
include hb hbyte

theorem Dev.bar2Access_read_refused (hm : d.memOk .bar2 (byte / 2) ((byte + n + 1) / 2 - byte / 2) false = false) :
    ∃ x : Dev, x.mem = d.mem ∧ x.out = .hostError 0 .ca :: d.out ∧ d.bar2Access a n none env = x.aerRefused 0 .compAbort true := by
  obtain ⟨hmem, hout⟩ := d.memRefuse_mem_out .bar2 (byte / 2) ((byte + n + 1) / 2 - byte / 2) false
  refine ⟨(d.memRefuse .bar2 _ _ false).emit (.hostError 0 .ca), hmem, congrArg (_ :: ·) hout, ?_⟩
  simp only [Dev.bar2Access, ho, hflr, hemul, h14, h15, Dev.on_of_get hb, Bool.not_true, Bool.not_false, Bool.false_and, Bool.or_self,
    decide_false, Bool.false_eq_true, if_false, if_true, Option.map_none, Option.getD_none, Option.isSome_none, Option.isNone_none, hbyte, hm]

theorem Dev.bar2Access_read_held
    (hm : d.memOk .bar2 (byte / 2) ((byte + n + 1) / 2 - byte / 2) false = true)
    (hl : ∀ ln, byte / 64 ≤ ln → 64 * ln < byte + n → (Tab.find d.mem.l2 ln).isSome ∧ d.linePoison ln = false) :
    d.bar2Access a n none env = d.emit (.readData a (leNat (d.bytesAt byte n))) := by
  have hlines : Dev.readLines env 0x65 ((byte + n + 63) / 64 - byte / 64) d (byte / 64) = (d, false) :=
    Dev.readLines_held _ _ _ fun ln hlo hhi => hl ln hlo (by omega)
  simp only [Dev.bar2Access, ho, hflr, hemul, h14, h15, Dev.on_of_get hb, Bool.not_true, Bool.false_and, Bool.or_self,
    decide_false, Bool.false_eq_true, if_false, Option.map_none, Option.getD_none, Option.isSome_none, hbyte, hm, hlines]

variable {w : List Byte}

theorem Dev.bar2Access_write_refused (hm : d.memOk .bar2 (byte / 2) ((byte + w.length + 1) / 2 - byte / 2) true = false) :
    ∃ x : Dev, x.mem = d.mem ∧ x.out = d.out ∧ d.bar2Access a n (some w) env = x.aerRefused 0 .compAbort false := by
  obtain ⟨hmem, hout⟩ := d.memRefuse_mem_out .bar2 (byte / 2) ((byte + w.length + 1) / 2 - byte / 2) true
  refine ⟨_, hmem, hout, ?_⟩
  simp only [Dev.bar2Access, ho, hflr, hemul, h14, h15, Dev.on_of_get hb, Bool.not_true, Bool.not_false, Bool.false_and, Bool.or_self,
    decide_false, Bool.false_eq_true, if_false, if_true, Option.map_some, Option.getD_some, Option.isSome_some, Option.isNone_some, hbyte, hm]

theorem Dev.bar2Access_write
    (hm : d.memOk .bar2 (byte / 2) ((byte + w.length + 1) / 2 - byte / 2) true = true) (hw : d.linesWhole) :
    d.Wrote (d.bar2Access a n (some w) env) byte w := by
  have hrun : d.bar2Access a n (some w) env = Dev.writeBytes (w.length / 64 + 2) d byte w 0 := by
    simp only [Dev.bar2Access, ho, hflr, hemul, h14, h15, Dev.on_of_get hb, Bool.not_true, Bool.false_and, Bool.or_self,
      decide_false, Bool.false_eq_true, if_false, Option.map_some, Option.getD_some, Option.isSome_some, hbyte, hm]
  rw [hrun]
  exact Dev.wrote_writeBytes _ _ hw (by omega)

end

/-- What an access to BAR2 that is refused leaves, at its end. -/
theorem Dev.Reported.settled {d x t : Dev} {l : List Out} (h : x.Reported t .compAbort) (hmem : x.mem = d.mem) (hout : x.out = l) :
    (∃ p : List Out, t.settle.out = p ++ l ∧ ∀ o ∈ p, ∃ k, o = .errMsg 0 k) ∧ t.settle.hif.aerU.testBit 15 = true ∧
      ∀ i, t.settle.memByte i = d.memByte i := by
  rw [Dev.settle_out, Dev.settle_hif, ← hout]
  exact ⟨h.out, h.aer rfl, fun i => (t.memByte_settle i).trans (Dev.memByte_of_mem (h.mem.trans hmem) i)⟩

theorem bar2Window : Claims.Bar2Window := by
  intro s a n w env ha hemul h14 h15
  have hb : ∀ {wr : Option (List Byte)} {t : Dev}, s.dev.bar2Access a.toNat n.toNat wr env = t → s.becomes (.bar2Access a n wr env) t :=
    fun {wr t} h => State.becomes_run (f := fun d => d.bar2Access a.toNat n.toNat wr env) rfl ha h
  have hc : ∀ {wr : Option (List Byte)} {P : Dev → Prop}, P (s.dev.bar2Access a.toNat n.toNat wr env).settle →
      s.completes (.bar2Access a n wr env) P :=
    fun {wr P} h => State.completes_run (f := fun d => d.bar2Access a.toNat n.toNat wr env) rfl ha h
  refine ⟨fun ho => ⟨hb ?_, hb ?_⟩, fun ho hf => ⟨hb (Dev.bar2Access_flr ho hf ..), hb (Dev.bar2Access_flr ho hf ..)⟩,
    fun ho hf h0 => ⟨hb (Dev.bar2Access_off ho hf hemul h14 h15 h0 ..), hb (Dev.bar2Access_off ho hf hemul h14 h15 h0 ..)⟩,
    fun ho hf h1 => ⟨fun hm => hc ?_, fun hm => hc ?_, fun hm hl => hc ?_,
      fun hm hl => hb (Dev.bar2Access_read_held ho hf hemul h14 h15 h1 rfl env hm hl)⟩⟩
  · simp only [Dev.bar2Access, ho, Bool.not_false, if_true, Option.isNone_none]
  · simp only [Dev.bar2Access, ho, Bool.not_false, if_true, Option.isNone_some]
  · obtain ⟨x, hmem, hout, hrun⟩ := Dev.bar2Access_read_refused ho hf hemul h14 h15 h1 rfl env hm
    rw [hrun]
    exact (x.reported_aerRefused .compAbort true).settled hmem hout
  · obtain ⟨x, hmem, hout, hrun⟩ := Dev.bar2Access_write_refused (n := n.toNat) ho hf hemul h14 h15 h1 rfl env hm
    rw [hrun]
    exact (x.reported_aerRefused .compAbort false).settled hmem hout
  · have hw := Dev.bar2Access_write (n := n.toNat) ho hf hemul h14 h15 h1 rfl env hm fun ln l h => hl _ (Tab.mem_of_find h)
    refine ⟨fun i hi => ?_, fun x hx => ?_, (Dev.settle_out _).trans hw.out⟩
    · rw [Dev.memByte_settle, hw.byte, if_pos (by omega), Nat.add_sub_cancel_left]
    · rw [Dev.memByte_settle, hw.byte, if_neg (by omega)]

/-- Settles O39: configuration space, the link and what it carries, and PF BAR2, clause by clause. -/
theorem hostLinkAndWindow : Obligations.HostLinkAndWindow := ⟨configSpace, hostLink, bar2Window⟩

end Sys2Proof.Machine
end

section
/-!
SUPPORT. The resets of the whole device (R23, R402): what they leave, and that the fields which report a fill then report it at their Reset values.
-/
namespace Sys2Proof.Machine

/-! ### The register file after a reset -/

theorem Tab.find_set_none {α : Type} [DecidableEq α] {v : α} {t : Tab α} {k : Nat} (d : α) (j : Nat) (h : Tab.find t k = none)
    (hv : k = j → v = d) : Tab.find (Tab.set d t j v) k = none := by
  unfold Tab.set
  split
  · rw [Tab.find_del, h, ite_self]
  · next hne => rw [Tab.find_ins_ne _ _ fun hk => hne (hv hk), h]

theorem Tab.find_tidy {α : Type} (t : Tab α) (k : Nat) : Tab.find (Tab.tidy t) k = Tab.find t k := by
  unfold Tab.tidy
  split
  · rfl
  · exact Tab.find_foldr_ins t k

/-- Every block that a device reset reaches is at its reset value, and the register file lists fields at the keys K alone. -/
structure Dev.Cleared (K : List Nat) (t : Dev) : Prop where
  mle : t.mle = {}
  fp : t.fp = {}
  bsk : t.bsk = {}
  hoop : t.hoop = {}
  rfx : t.rfx = {}
  ord : t.ord = {}
  ldg : t.ldg = {}
  rim : t.rim = {}
  hif : t.hif = {}
  thr : t.thr = {}
  mem : t.mem = {}
  tb : t.tb = {}
  trc : t.trc = {}
  regs : ∀ k, k ∉ K → Tab.find t.regs k = none

section
variable {K : List Nat} {t : Dev}

theorem Dev.Cleared.get (h : t.Cleared K) (f : Fld) (hf : f.key ∉ K) : t.get f = f.rst := by
  rw [Dev.get, Tab.get, h.regs _ hf]; rfl

/-- A field written with its Reset value is not listed. -/
theorem Dev.Cleared.put (h : t.Cleared K) (f : Fld) (v : Nat) (hv : f.key ∈ K ∨ v % 2 ^ f.w = f.rst) : (t.put f v).Cleared K :=
  { h with regs := fun k hk => Tab.find_set_none _ _ (h.regs k hk) fun he => hv.resolve_left (he ▸ hk) }

theorem Dev.Cleared.rounds {n : Nat} {f : Nat → Dev → Dev} (h : t.Cleared K) (hf : ∀ i e, Dev.Cleared K e → (f i e).Cleared K) :
    (forN n f t).Cleared K :=
  forN_rel (R := fun a b => a.Cleared K → b.Cleared K) (fun _ h => h) (fun h k x => k (h x)) n f t hf h

theorem Dev.Cleared.fpFill (h : t.Cleared K) (p : Nat) (hK : (FP_BUF_HIWAT p).key ∉ K) : (t.fpFill p).Cleared K := by
  have hocc : (t.fport p).occ = 0 := by rw [Dev.fport, h.fp]; rfl
  have hput := h.put (FP_STATUS_LEVEL p) 0 (.inr rfl)
  have hhiwat : t.get (FP_BUF_HIWAT p) = 12 := h.get _ hK
  rw [Dev.fpFill, hocc]
  exact hput.put _ _ (.inr (by rw [hhiwat]; rfl))

theorem Dev.Cleared.fnFill (h : t.Cleared K) (f : Nat) : (t.fnFill f).Cleared K := by
  have hfn : t.fnS f = {} := by rw [Dev.fnS, h.hif]; rfl
  rw [Dev.fnFill, hfn]
  exact (h.put _ _ (.inr rfl)).put _ _ (.inr rfl)

theorem Dev.Cleared.migPhase (h : t.Cleared K) : t.migPhase.Cleared K := by
  have hmig : t.hoop.mig = none := by rw [h.hoop]
  rwa [Dev.migPhase, hmig]

theorem Dev.Cleared.freeCells (h : t.Cleared K) : t.freeCells = 393216 := by
  rw [Dev.freeCells, Dev.cellsOf, h.bsk]; rfl

/-- With every buffer empty each field that reports a fill is at its Reset value, so that the end of the command lists none; USED reports the sticky
log, which a warm reset keeps. -/
theorem Dev.Cleared.settle (h : t.Cleared K) (hK : ∀ p, (FP_BUF_HIWAT p).key ∉ K) (hlog : ERR_STATUS_USED.key ∈ K ∨ t.err.log = []) :
    t.settle.Cleared K := by
  obtain ⟨e, he, -, -, herr, -⟩ := t.settle_over
  have hblocks : e.Cleared K := he ▸ ((h.rounds fun p e he => he.fpFill p (hK p)).rounds fun f e he => he.fnFill f).migPhase
  have hcells := (hblocks.put BSK_FREE_CELLS e.freeCells (.inr (by rw [hblocks.freeCells]; rfl))).put RIM_CTAB_USED e.ord.remote.length
    (.inr (by rw [hblocks.ord]; rfl))
  have hused := hcells.put ERR_STATUS_USED e.err.log.length (hlog.imp_right fun hl => by rw [herr, hl]; rfl)
  have hfills := hused.put TRC_STATUS_FILL (e.trc.fill / 4096) (.inr (by rw [hblocks.trc]; rfl))
  have hregs : t.settle.regs = Tab.tidy (((((e.put BSK_FREE_CELLS e.freeCells).put RIM_CTAB_USED e.ord.remote.length).put ERR_STATUS_USED
      e.err.log.length).put TRC_STATUS_FILL (e.trc.fill / 4096)).regs) := by rw [he]; rfl
  exact
    { mle := t.settle_mle.trans h.mle, fp := t.settle_fp.trans h.fp, bsk := t.settle_bsk.trans h.bsk, hoop := t.settle_hoop.trans h.hoop
      rfx := t.settle_rfx.trans h.rfx, ord := t.settle_ord.trans h.ord, ldg := t.settle_ldg.trans h.ldg, rim := t.settle_rim.trans h.rim
      hif := t.settle_hif.trans h.hif, thr := t.settle_thr.trans h.thr, tb := t.settle_tb.trans h.tb
      mem := by rw [t.settle_mem, h.mem]; rfl
      trc := by rw [t.settle_trc, h.trc]; rfl
      regs := fun k hk => by rw [hregs, Tab.find_tidy]; exact hfills.regs k hk }

end

/-! ### The flash write that a reset cuts off (Table 14-9) -/

/-- A reset that cuts off a flash write reaches the boot state alone, and holds the device no more than before. -/
theorem Dev.flashLost_eq (d : Dev) : ∃ b : BootS, d.flashLost = { d with boot := b } ∧ b.held = d.boot.held := by
  have hclear : ∀ kind slot, ∃ b : BootS, d.clearTrial kind slot = { d with boot := b } ∧ b.held = d.boot.held := fun kind slot => by
    unfold Dev.clearTrial
    split
    · exact ⟨_, rfl, rfl⟩
    · exact ⟨_, rfl, rfl⟩
  unfold Dev.flashLost
  split
  · next c _ =>
    obtain ⟨b, hb, hheld⟩ := hclear c.kind c.slot
    split
    · rw [hb]; exact ⟨_, rfl, hheld⟩
    · exact ⟨_, rfl, rfl⟩
  · exact ⟨_, rfl, rfl⟩

/-! ### Power-on and warm resets -/

/-- What every reset of device d leaves: the blocks and queues at reset, the fuses, and the flash but for a write that was cut off. -/
def Dev.Fresh (d t : Dev) : Prop :=
  (∀ q, t.queue q = Queue.reset q) ∧ t.thr = {} ∧ t.mem = {} ∧ t.mle = {} ∧ t.fp = {} ∧ t.hoop = {} ∧ t.rfx = {} ∧ t.ord = {} ∧ t.ldg = {} ∧
    t.rim = {} ∧ t.hif = {} ∧ t.tb = {} ∧ t.fuse = d.fuse ∧ ∀ a, Tab.get 0xFF t.boot.flash a = Tab.get 0xFF d.flashLost.boot.flash a

theorem Dev.Cleared.fresh {K : List Nat} {d t : Dev} (h : t.Cleared K) (hfuse : t.fuse = d.fuse)
    (hflash : ∀ a, Tab.get 0xFF t.boot.flash a = Tab.get 0xFF d.flashLost.boot.flash a) : d.Fresh t :=
  ⟨fun q => by rw [Dev.queue, h.bsk]; rfl, h.thr, h.mem, h.mle, h.fp, h.hoop, h.rfx, h.ord, h.ldg, h.rim, h.hif, h.tb, hfuse, hflash⟩

theorem Dev.powerOn_cleared (d : Dev) : d.powerOn.Cleared [] :=
  { mle := rfl, fp := rfl, bsk := rfl, hoop := rfl, rfx := rfl, ord := rfl, ldg := rfl, rim := rfl, hif := rfl, thr := rfl, mem := rfl
    tb := rfl, trc := rfl, regs := fun _ _ => rfl }

/-- A power-on reset also empties the sticky log and the power block's state, and holds the device. -/
theorem Dev.powerOn_settle (d : Dev) : d.Fresh d.powerOn.settle ∧ d.powerOn.settle.boot.held = true ∧ d.powerOn.settle.err = {} ∧
    d.powerOn.settle.pwr = {} ∧ ∀ f : Fld, d.powerOn.settle.get f = f.rst := by
  have hc := d.powerOn_cleared.settle (fun _ => List.not_mem_nil) (.inr rfl)
  obtain ⟨b, hb, -⟩ := d.flashLost_eq
  refine ⟨hc.fresh ?_ fun a => ?_, ?_, Dev.settle_err _, Dev.settle_pwr _, fun f => hc.get f List.not_mem_nil⟩
  · rw [Dev.settle_fuse, Dev.powerOn, hb]; rfl
  · rw [Dev.settle_boot]; exact Tab.get_canon _ _ a
  · rw [Dev.settle_boot]; rfl

/-- The fields that a warm reset sets or keeps. -/
abbrev warmKept : List Nat := [ERR_STATUS_LASTRST.key, ERR_STATUS_LOST.key, ERR_STATUS_USED.key]

theorem Dev.warmReset_cleared (d : Dev) (n : Nat) : (d.warmReset n).Cleared warmKept := by
  refine .put (.put (.put ?_ _ _ (.inl ?_)) _ _ (.inl ?_)) _ _ (.inl ?_)
  · exact { d.powerOn_cleared with regs := fun _ _ => rfl }
  all_goals simp [warmKept]

/-- No field of the stake cores' block or of a hoop's service, and none of ERR_STATUS but USED, reports a fill. -/
theorem notFill_of_service {k : Nat}
    (h : 64 * 0x2A000 ≤ k ∧ k < 64 * 0x2B000 ∨ 11800576 ≤ k ∧ k < 11812864 ∨ 12517504 < k ∧ k < 12517568) : notFill k := by
  refine ⟨fun p hp => ?_, fun f hf => ?_, ?_, ?_, ?_, ?_, ?_⟩ <;>
    simp only [FP_STATUS_LEVEL, FP_STATUS_HIWAT, HIF_FN_STATUS_READS, HIF_FN_STATUS_KEPT, HOOP_MIG_STATUS_PHASE, BSK_FREE_CELLS,
      RIM_CTAB_USED, ERR_STATUS_USED, TRC_STATUS_FILL] <;> omega

/-- A warm reset keeps the sticky log with LOST and the domains that a thermal trip turned off, and says its cause. -/
theorem Dev.warmReset_settle (d : Dev) (n : Nat) (hn : n < 8) :
    let t := (d.warmReset n).settle
    d.Fresh t ∧ t.boot.held = d.boot.held ∧ t.err.log = d.err.log ∧ t.get ERR_STATUS_LASTRST = n ∧
      t.get ERR_STATUS_LOST = d.get ERR_STATUS_LOST % 2 ^ 16 ∧ t.pwr = { tripped := d.pwr.tripped } ∧
      ∀ f : Fld, f.key ∉ warmKept → t.get f = f.rst := by
  have hc := (d.warmReset_cleared n).settle (fun p => by simp [warmKept, FP_BUF_HIWAT, ERR_STATUS_LASTRST, ERR_STATUS_LOST, ERR_STATUS_USED]; omega)
    (.inl (by simp [warmKept]))
  obtain ⟨b, hb, hheld⟩ := d.flashLost_eq
  refine ⟨hc.fresh ?_ fun a => ?_, ?_, ?_, ?_, ?_, ?_, fun f hf => hc.get f hf⟩
  · rw [Dev.settle_fuse, Dev.warmReset, hb]; rfl
  · rw [Dev.settle_boot]; exact Tab.get_canon _ _ a
  · rw [Dev.settle_boot, Dev.warmReset, hb]; exact hheld
  · rw [Dev.settle_err, Dev.warmReset, hb]; rfl
  · rw [Dev.get_settle _ _ (notFill_of_service (by decide)), Dev.warmReset, Dev.get_put_same]
    exact Nat.mod_eq_of_lt hn
  · rw [Dev.get_settle _ _ (notFill_of_service (by decide)), Dev.warmReset, hb, Dev.get_put_ne _ _ (by decide), Dev.get_put_same]
    rfl
  · rw [Dev.settle_pwr, Dev.warmReset, hb]; rfl

end Sys2Proof.Machine
end

section
/-!
SUPPORT. What the reset of a cluster or a hoop leaves (R396). A core's reset drains its store buffers into memory, which may count, record and report
errors; those registers all lie from the memory controllers' block on, above the cores' own.
-/
namespace Sys2Proof.Machine

/-! ### Registers below the memory controllers' -/

/-- From d to t the registers of control space below the memory controllers' block are as they were: those of the
host interface, of debug, of the field ports and of the stake cores. -/
def Dev.KeepsLow (d t : Dev) : Prop := ∀ g : Fld, g.key < 64 * 0x2B000 → t.get g = d.get g

theorem Dev.KeepsLow.refl (d : Dev) : d.KeepsLow d := fun _ _ => rfl

theorem Dev.KeepsLow.trans {a b c : Dev} (h : a.KeepsLow b) (k : b.KeepsLow c) : a.KeepsLow c := fun g hg => (k g hg).trans (h g hg)

/-- Whatever leaves the register file alone. -/
theorem Dev.KeepsLow.of_regs {d t : Dev} (h : t.regs = d.regs) : d.KeepsLow t := fun g _ => by rw [Dev.get, Dev.get, h]

theorem Dev.KeepsLow.ite {c : Prop} [Decidable c] {d x y : Dev} (hx : d.KeepsLow x) (hy : d.KeepsLow y) : d.KeepsLow (if c then x else y) := by
  split
  · exact hx
  · exact hy

theorem Dev.KeepsLow.foldl {α : Type} {f : Dev → α → Dev} (hf : ∀ e a, Dev.KeepsLow e (f e a)) (l : List α) (d : Dev) :
    d.KeepsLow (l.foldl f d) := by
  induction l generalizing d with
  | nil => exact .refl d
  | cons a l ih => exact (hf d a).trans (ih _)

theorem Dev.keepsLow_put (d : Dev) (f : Fld) (v : Nat) (h : 64 * 0x2B000 ≤ f.key) : d.KeepsLow (d.put f v) :=
  fun _ hg => Dev.get_put_ne _ _ (Nat.ne_of_lt (Nat.lt_of_lt_of_le hg h))

theorem Dev.bskOnly.keepsLow {d t : Dev} (h : d.bskOnly t) : d.KeepsLow t :=
  fun g hg => h.2.2 g fun i _ => by simp only [BSK_CNT_COUNT, BSK_DROP_CNT_COUNT]; omega

theorem Dev.errOnly.keepsLow {d t : Dev} (h : d.errOnly t) : d.KeepsLow t :=
  fun g hg => h.2.2 g (fun i _ => by simp only [BSK_CNT_COUNT, BSK_DROP_CNT_COUNT]; omega) (fun i _ => by simp only [ERR_CNT_COUNT]; omega)
    (by simp only [ERR_STATUS_LOST]; omega)

theorem Dev.keepsLow_pfEvent (d : Dev) (c : Nat) (p : List (Nat × Nat)) : d.KeepsLow (d.pfEvent c p) := (d.bskOnly_pfEvent c p).keepsLow

theorem Dev.keepsLow_raiseErr (d : Dev) (b i r a x y : Nat) : d.KeepsLow (d.raiseErr b i r a x y) := (d.errOnly_raiseErr b i r a x y).keepsLow

/-! ### Memory (R286–R299) -/

theorem Dev.keepsLow_memCnt (d : Dev) (i n : Nat) : d.KeepsLow (d.addCnt (MEM_CNT_COUNT i) n) :=
  d.keepsLow_put _ _ (by simp only [MEM_CNT_COUNT]; omega)

theorem Dev.keepsLow_memRefuse (d : Dev) (a : Agent) (pa n : Nat) (w : Bool) : d.KeepsLow (d.memRefuse a pa n w) := by
  unfold Dev.memRefuse
  refine .ite (d.keepsLow_memCnt 4 1) ?_
  split
  · exact (d.keepsLow_memCnt 3 1).trans (Dev.keepsLow_raiseErr _ _ _ _ _ _ _)
  · exact .refl d

theorem Dev.keepsLow_lostAccess (d : Dev) (c pa : Nat) (b : Bool) : d.KeepsLow (d.lostAccess c pa b) :=
  (d.keepsLow_raiseErr 0xD c 0x0011 1 pa (c + b2n b * 256)).trans (.of_regs rfl)

theorem Dev.keepsLow_dramWrite (d : Dev) (ln : Nat) (b : List Byte) (p : Bool) : d.KeepsLow (d.dramWrite ln b p) := .of_regs rfl

theorem Dev.writeLine_regs (d : Dev) (a : Nat) (b : List Byte) (own : Nat) : (d.writeLine a b own).regs = d.regs := by
  unfold Dev.writeLine
  dsimp only
  split <;> rfl

theorem Dev.setPoison_regs (d : Dev) (ln : Nat) (b : Bool) : (d.setPoison ln b).regs = d.regs := by
  unfold Dev.setPoison
  split <;> rfl

theorem Dev.pmc_regs (d : Dev) (c ev : Nat) : (d.pmc c ev).regs = d.regs := by
  unfold Dev.pmc Dev.pmcAdd
  dsimp only
  split <;> rfl

theorem Dev.usedL2_regs (d : Dev) (k ln : Nat) : (d.usedL2 k ln).regs = d.regs := by
  unfold Dev.usedL2
  split
  · split <;> rfl
  · rfl

theorem Dev.dropL1d_regs (d : Dev) (c ln : Nat) : (d.dropL1d c ln).regs = d.regs := by
  unfold Dev.dropL1d
  dsimp only
  split
  · split <;> rfl
  · rfl

theorem Dev.pickWay_regs (d : Dev) (on : List Nat) (used : List (Nat × Nat)) (first : Nat → Bool) : (d.pickWay on used first).1.regs = d.regs := by
  unfold Dev.pickWay
  split
  · rfl
  · split <;> rfl

theorem Dev.keepsLow_writeBackL2 (d : Dev) (k ln : Nat) (l : L2Line) : d.KeepsLow (d.writeBackL2 k ln l) := by
  unfold Dev.writeBackL2
  dsimp only
  refine .ite (d.keepsLow_dramWrite _ _ _) (.trans (d.keepsLow_memRefuse (.stake (l.own.getD (4 * k))) (32 * ln) 32 true) ?_)
  split
  · exact Dev.keepsLow_lostAccess _ _ _ _
  · exact .refl _

theorem Dev.keepsLow_dropL2 (d : Dev) (k ln : Nat) : d.KeepsLow (d.dropL2 k ln) := by
  unfold Dev.dropL2
  split
  · exact .refl d
  · next l _ =>
    have hl1 : d.KeepsLow ((List.range 4).foldl (fun d j => (d.dropL1d (4 * k + j) ln).dropL1i (4 * k + j) ln) d) :=
      .foldl (fun e j => .of_regs (t := (e.dropL1d (4 * k + j) ln).dropL1i (4 * k + j) ln) (e.dropL1d_regs _ _)) _ _
    refine .ite (.refl d) (hl1.trans (.ite (.of_regs rfl) (.ite ?_ (.of_regs rfl))))
    refine .trans (.of_regs ?_) (Dev.keepsLow_writeBackL2 _ _ _ _)
    rfl

theorem Dev.keepsLow_fillL2 (d : Dev) (k ln : Nat) (lru : Bool) : d.KeepsLow (d.fillL2 k ln lru) := by
  have hpick := d.pickWay_regs (d.waysOn (cL2 k) 16) (d.l2InSet k (l2Set (32 * ln))) (d.atLru k)
  unfold Dev.fillL2
  dsimp only
  refine .ite (.refl d) (.trans (.of_regs hpick) (.trans ?_ (.of_regs rfl)))
  split
  · exact Dev.keepsLow_dropL2 _ _ _
  · exact .refl _

theorem Dev.keepsLow_symCount (d : Dev) (pa pos : Nat) : d.KeepsLow (d.symCount pa pos) := by
  unfold Dev.symCount
  dsimp only
  have hcount : ∀ e : Dev, d.KeepsLow e →
      d.KeepsLow ((e.inc (MEM_CNT_COUNT 0)).inc (MEM_SYM_CNT_COUNT (2 * chanOf pa + subOf pa) pos)) := fun e he =>
    he.trans ((e.keepsLow_memCnt 0 1).trans (Dev.keepsLow_put _ _ _ (by simp only [MEM_SYM_CNT_COUNT]; omega)))
  exact .ite ((hcount _ (.of_regs rfl)).trans (Dev.keepsLow_pfEvent _ _ _)) (hcount _ (.of_regs rfl))

theorem Dev.keepsLow_dramCorrected (d : Dev) (ch inst addr detail : Nat) : d.KeepsLow (d.dramCorrected ch inst addr detail) := by
  unfold Dev.dramCorrected
  exact .ite (.trans (.of_regs rfl) (Dev.keepsLow_put _ _ _ (by decide))) (.of_regs rfl)

theorem Dev.keepsLow_dramBurst (d : Dev) (ln : Nat) (e : DramEnv) (who : Nat) : d.KeepsLow (d.dramBurst ln e who).1 := by
  have hfixed : ∀ l : List (Nat × Nat), d.KeepsLow (l.foldl (fun d s => (d.symCount (32 * ln) s.2).dramCorrected (chanOf (32 * ln))
      (2 * chanOf (32 * ln) + subOf (32 * ln)) (32 * ln + 4 * s.1) (s.1 + s.2 * 16 + who * 256)) d) := fun l =>
    .foldl (fun x s => (x.keepsLow_symCount _ _).trans (Dev.keepsLow_dramCorrected _ _ _ _ _)) l d
  have hcnt : ∀ (x : Dev) (b : Bool), x.KeepsLow (if b then x else x.inc (MEM_CNT_COUNT 2)) := fun x b => .ite (.refl x) (x.keepsLow_memCnt 2 1)
  unfold Dev.dramBurst
  dsimp only
  generalize hx : List.foldl _ d _ = x
  have hd : d.KeepsLow x := hx ▸ hfixed _
  split
  · exact hd.trans (.ite (hcnt x _) ((x.keepsLow_dramWrite _ _ _).trans (hcnt _ _)))
  · dsimp only
    refine .trans ?_ (Dev.keepsLow_pfEvent _ _ _)
    exact (hd.trans (x.keepsLow_memCnt 1 _)).trans (Dev.keepsLow_raiseErr _ _ _ _ _ _ _)

theorem Dev.keepsLow_readCoherent (d : Dev) (ln : Nat) (e : DramEnv) (who : Nat) : d.KeepsLow (d.readCoherent ln e who).1 := by
  unfold Dev.readCoherent
  split
  · exact .refl d
  · exact d.keepsLow_dramBurst ln e who

theorem Dev.keepsLow_prefetchL2 (d : Dev) (c : Nat) (env : MemEnv) (ln : Nat) : d.KeepsLow (d.prefetchL2 c env ln) := by
  unfold Dev.prefetchL2
  split
  · exact .ite (.refl d) (d.keepsLow_fillL2 _ _ _)
  · exact .ite (.refl d) (.ite (d.keepsLow_dramBurst _ _ _) ((d.keepsLow_dramBurst _ _ _).trans (Dev.keepsLow_fillL2 _ _ _ _)))

theorem Dev.keepsLow_missL2 (d : Dev) (c : Nat) (env : MemEnv) (ln : Nat) (lru next : Bool) : d.KeepsLow (d.missL2 c env ln lru next).1 := by
  have hmore : ∀ e : Dev, e.KeepsLow (if next then e.nextL2 c env ln else e) := fun e => .ite (.ite (.refl e) (e.keepsLow_prefetchL2 _ _ _)) (.refl e)
  unfold Dev.missL2
  dsimp only
  split
  · split
    · exact .refl d
    · exact (d.keepsLow_fillL2 _ _ _).trans (hmore _)
  · split
    · exact .refl d
    · split
      · exact d.keepsLow_memRefuse _ _ _ _
      · split
        · exact d.keepsLow_dramBurst _ _ _
        · exact (d.keepsLow_dramBurst _ _ _).trans ((Dev.keepsLow_fillL2 _ _ _ _).trans (hmore _))

/-- A core's access to a line in whose way no error lies. -/
theorem Dev.keepsLow_takeL2 (d : Dev) (c ln : Nat) (lru next : Bool) : d.KeepsLow (d.takeL2 c {} ln lru next).1 := by
  unfold Dev.takeL2
  dsimp only
  split
  · exact d.keepsLow_missL2 _ _ _ _ _
  · split
    · exact d.keepsLow_missL2 _ _ _ _ _
    · exact .ite (.refl d) (.of_regs (d.usedL2_regs _ _))

theorem Dev.keepsLow_allocL2 (d : Dev) (c ln : Nat) (whole : Bool) : d.KeepsLow (d.allocL2 c {} ln whole) := by
  have hbad : ∀ e : Dev, e.KeepsLow ((e.fillL2 (c / 4) ln).setPoison ln true) := fun e =>
    (e.keepsLow_fillL2 _ _ _).trans (.of_regs (Dev.setPoison_regs _ _ _))
  have htake := d.keepsLow_takeL2 c ln false (d.pfd2 c)
  unfold Dev.allocL2
  refine .ite (d.keepsLow_fillL2 _ _ _) ?_
  generalize d.takeL2 c {} ln false (d.pfd2 c) = x at htake ⊢
  obtain ⟨e, got⟩ := x
  cases got with
  | sound => exact htake
  | absent => exact htake.trans (hbad e)
  | bad => exact htake.trans (hbad e)

/-! ### The store buffers of a core (R288) -/

theorem Dev.keepsLow_drainEnt (d : Dev) (c : Nat) (merging : Bool) (e : BufEnt) : d.KeepsLow (d.drainEnt c merging e) := by
  have hpmc : d.KeepsLow (if merging then d.pmc c 13 else d) := .ite (.of_regs (d.pmc_regs c 13)) (.refl d)
  have hwords : ∀ x : Dev, x.KeepsLow (e.words.foldl (fun d w => d.writeLine (64 * e.line + 2 * w.1) (leBytes 2 w.2.1) (4096 + c)) x) :=
    .foldl (fun y w => .of_regs (y.writeLine_regs _ _ _)) _
  unfold Dev.drainEnt
  dsimp only
  generalize (if merging then d.pmc c 13 else d) = x at hpmc ⊢
  refine hpmc.trans (.ite ((Dev.keepsLow_memRefuse _ _ _ _ _).trans (Dev.keepsLow_lostAccess _ _ _ _)) ?_)
  refine .trans ?_ (.ite (.trans (hwords _) (.of_regs (Dev.setPoison_regs _ _ _))) (hwords _))
  refine .ite (x.keepsLow_allocL2 _ _ _) (.ite (.refl x) ?_)
  have hread := x.keepsLow_readCoherent e.line (burstOf [] e.line) c
  split
  · next h => rw [h] at hread; exact hread
  · next h => rw [h] at hread; exact hread.trans (.of_regs (Dev.setPoison_regs _ _ _))

theorem Dev.keepsLow_drainBuf (d : Dev) (c k : Nat) (t : BufEnt → Bool) : d.KeepsLow (d.drainBuf c k t) :=
  .trans (.of_regs (t := d.setBuf c k ((d.bufOf c k).filter (fun e => !t e))) rfl) (.foldl (fun e b => e.keepsLow_drainEnt c (k == 0) b) _ _)

theorem Dev.keepsLow_drainAll (d : Dev) (c : Nat) : d.KeepsLow (d.drainAll c) :=
  (d.keepsLow_drainBuf c 0 _).trans (Dev.keepsLow_drainBuf _ c 1 _)

/-! ### A core and its cluster (R265, R271) -/

/-- A key in the stake cores' block that is none of core c's own. -/
def besideCore (c k : Nat) : Prop := 64 * 0x2A000 ≤ k ∧ k < 64 * 0x2B000 ∧ (k < 11026432 + 2048 * c ∨ 11026432 + 2048 * (c + 1) ≤ k)

/-- A write of one of core c's own registers, or of one of a debug register. -/
theorem Dev.get_put_core {c : Nat} {g f : Fld} (hg : besideCore c g.key) (d : Dev) (v : Nat)
    (hf : 11026432 + 2048 * c ≤ f.key ∧ f.key < 11026432 + 2048 * (c + 1) ∨ f.key < 64 * 0x2A000) : (d.put f v).get g = d.get g :=
  Dev.get_put_ne _ _ (by unfold besideCore at hg; omega)

theorem Dev.get_resetBegin (d : Dev) {c : Nat} (reason code : Nat) {g : Fld} (hg : besideCore c g.key) :
    (d.resetBegin c reason code).get g = d.get g := by
  have ⟨_, hlow, _⟩ := hg
  unfold Dev.resetBegin
  dsimp only
  split
  · rfl
  · rw [Dev.keepsLow_pfEvent _ _ _ g hlow]
    simp (disch := (simp only [STK_RST_INFO_REASON, STK_RST_INFO_CODE, STK_RST_INFO_CODE1, STK_RST_INFO_CODE2, STK_RST_INFO_COUNT, STK_RST_PC_PC,
      STK_RST_TIME_TIME, STK_CORE_CTL_BUSY]; omega)) only [Dev.putB, Dev.inc, Dev.addCnt, Dev.get_put_core hg]

theorem Dev.get_updThr (d : Dev) (k : Nat) (f : Thr → Thr) (g : Fld) : (d.updThr k f).get g = d.get g := rfl

theorem Dev.get_resetEnd (d : Dev) {c : Nat} (hc : c < 48) {g : Fld} (hg : besideCore c g.key) : (d.resetEnd c).get g = d.get g := by
  have ⟨_, hlow, _⟩ := hg
  unfold Dev.resetEnd
  dsimp only
  split
  · rfl
  · simp (disch := (simp only [DBG_CORE_STAT_HALTED, DBG_CORE_STAT_HALTPEND, DBG_CORE_STAT_TXFULL, DBG_CORE_STAT_RXFULL, STK_CORE_CTL_STATE,
      STK_CORE_CTL_BUSY]; omega)) only [Dev.putB, Dev.get_updThr, Dev.get_put_core hg]
    exact Dev.keepsLow_drainAll _ c g hlow

/-- One core of a cluster that goes down: reset, with REASON 4, and not in service. -/
def Dev.coreDown (d : Dev) (c : Nat) : Dev := (((d.resetBegin c 4 0).put (STK_RST_INFO_REASON c) 4).resetEnd c).put (STK_CORE_CTL_STATE c) 3

theorem Dev.cluDown_eq (d : Dev) (k : Nat) : d.cluDown k = forN 4 (fun j d => d.coreDown (4 * k + j)) (d.putB (STK_CLU_SVC_BUSY k) true) := rfl

theorem Dev.get_coreDown_state (d : Dev) (c : Nat) : (d.coreDown c).get (STK_CORE_CTL_STATE c) = 3 := Dev.get_put_same _ _ _

theorem Dev.get_coreDown (d : Dev) {c : Nat} (hc : c < 48) {g : Fld} (hg : besideCore c g.key) : (d.coreDown c).get g = d.get g := by
  rw [Dev.coreDown, Dev.get_put_core hg _ _ (.inl (by simp only [STK_CORE_CTL_STATE]; omega)), Dev.get_resetEnd _ hc hg,
    Dev.get_put_core hg _ _ (.inl (by simp only [STK_RST_INFO_REASON]; omega)), Dev.get_resetBegin _ _ _ hg]

/-- A cluster that goes down is busy until its lines are written back, each of its cores out of service. -/
theorem Dev.cluDown_fields (d : Dev) {k : Nat} (hk : k < 12) :
    (d.cluDown k).get (STK_CLU_SVC_BUSY k) = 1 ∧ ∀ j, j < 4 → (d.cluDown k).get (STK_CORE_CTL_STATE (4 * k + j)) = 3 := by
  rw [d.cluDown_eq]
  refine ⟨?_, fun j hj => ?_⟩
  · rw [forN_keeps (fun e => e.get (STK_CLU_SVC_BUSY k)) 4 _ _ fun j e hj =>
      e.get_coreDown (by omega) (by simp only [besideCore, STK_CLU_SVC_BUSY]; omega)]
    exact Dev.get_put_same _ _ _
  · rw [forN_at (fun e => e.get (STK_CORE_CTL_STATE (4 * k + j))) 4 j _ _ hj fun i e hi hne =>
      e.get_coreDown (by omega) (by simp only [besideCore, STK_CORE_CTL_STATE]; omega)]
    exact Dev.get_coreDown_state _ _

/-- A cluster in service or returning goes down at its reset (R396). -/
theorem Dev.cluReset_fields (d : Dev) {k : Nat} (hk : k < 12) (h : d.get (STK_CLU_SVC_STATE k) = 1 ∨ d.get (STK_CLU_SVC_STATE k) = 2) :
    (d.cluReset k).get (STK_CLU_SVC_BUSY k) = 1 ∧ ∀ j, j < 4 → (d.cluReset k).get (STK_CORE_CTL_STATE (4 * k + j)) = 3 := by
  have hrun : d.cluReset k = (d.put (STK_CLU_SVC_STATE k) 2).cluDown k := if_neg (by rcases h with h | h <;> simp [h])
  rw [hrun]
  exact Dev.cluDown_fields _ hk

/-! ### A hoop (R134) -/

/-- The end of a move by the reset of one of its hoops leaves the contexts alone. -/
theorem Dev.migReset_ctxs (d : Dev) (h : Nat) : (d.migReset h).hoop.ctxs = d.hoop.ctxs := by
  unfold Dev.migReset
  split
  · rfl
  · split
    · rfl
    · dsimp only
      split <;> rfl

theorem Dev.hoopState_get (d : Dev) (h st : Nat) (g : Fld)
    (hg : ∀ i, i < 16 → g.key ≠ (BSK_CNT_COUNT i).key ∧ g.key ≠ (BSK_DROP_CNT_COUNT i).key) :
    (d.hoopState h st).get g = (d.put (HOOP_SVC_STATE h) st).get g := (Dev.bskOnly_pfEvent _ _ _).2.2 g hg

/-- A hoop in service or returning is out of service after its reset, with its cause, and holds no context (R134, R396). -/
theorem Dev.hoopReset_fields (d : Dev) {k cause : Nat} (hcause : cause < 4) (h : d.get (HOOP_SVC_STATE k) = 1 ∨ d.get (HOOP_SVC_STATE k) = 2) :
    (d.hoopReset k cause).get (HOOP_SVC_STATE k) = 0 ∧ (d.hoopReset k cause).get (HOOP_SVC_CAUSE k) = cause ∧
      ∀ c ∈ (d.hoopReset k cause).hoop.ctxs, c.hoop ≠ k := by
  have hrun : ∃ e : Dev, d.hoopReset k cause = (((e.migReset k).hoopLeft k cause).put (HOOP_SVC_BUSY k) 0).hoopState k 0 ∧
      e.hoop.ctxs = d.hoop.ctxs.filter (fun c => c.hoop != k) := by
    unfold Dev.hoopReset
    exact ⟨_, if_neg (by rcases h with h | h <;> simp [h]), rfl⟩
  obtain ⟨e, hrun, hctxs⟩ := hrun
  rw [hrun]
  refine ⟨?_, ?_, fun c hc => ?_⟩
  · rw [Dev.hoopState_get _ _ _ _ fun i hi => by simp only [HOOP_SVC_STATE, BSK_CNT_COUNT, BSK_DROP_CNT_COUNT]; omega]
    exact Dev.get_put_same _ _ _
  · rw [Dev.hoopState_get _ _ _ _ fun i hi => by simp only [HOOP_SVC_CAUSE, BSK_CNT_COUNT, BSK_DROP_CNT_COUNT]; omega,
      Dev.get_put_ne _ _ (by simp only [HOOP_SVC_CAUSE, HOOP_SVC_STATE]; omega),
      Dev.get_put_ne _ _ (by simp only [HOOP_SVC_CAUSE, HOOP_SVC_BUSY]; omega)]
    exact (Dev.get_put_same _ _ _).trans (Nat.mod_eq_of_lt hcause)
  · rw [Dev.hoopState, (Dev.bskOnly_pfEvent _ _ _).hoop] at hc
    have hmem : c ∈ (e.migReset k).hoop.ctxs := hc
    rw [Dev.migReset_ctxs, hctxs] at hmem
    simpa using (List.mem_filter.1 hmem).2

end Sys2Proof.Machine
end

section
/-!
SUPPORT. ERR_RST and CLEAR of the sticky log (R394, R396), and the statement on resets.
-/
namespace Sys2Proof.Machine

/-! ### ERR_RST -/

theorem rstAllowed_iff (r : Requester) (key : BitVec 16) : rstAllowed r key.toNat = true ↔ (r = .pf ∨ r = .handle) ∧ key = 0x7A3C := by
  simp [rstAllowed, ← BitVec.toNat_inj]

theorem Dev.rstDevice_refused {d : Dev} {r : Requester} {key : Nat} (h : rstAllowed r key = false) :
    d.rstDevice r key = d.raiseErr 0x16 0 0x0003 3 0x2FC08 (srcOf r) := if_neg (Bool.eq_false_iff.1 h)

theorem Dev.rstBlk_refused {d : Dev} {r : Requester} {key : Nat} (b i : Nat) (h : rstAllowed r key = false) :
    d.rstBlk r b i key = d.raiseErr 0x16 0 0x0003 3 0x2FC08 (srcOf r) := if_pos (by rw [h]; rfl)

section
variable {r : Requester} {key : Nat} (ha : rstAllowed r key = true)
include ha

theorem Dev.rstDevice_allowed (d : Dev) : d.rstDevice r key = d.warmReset 1 := if_pos ha

theorem Dev.rstBlk_unknown (d : Dev) {b i : Nat} (h : rstBlock b i = none) : d.rstBlk r b i key = d.raiseErr 0x16 0 0x0001 3 0x2FC08 0 := by
  simp only [Dev.rstBlk, ha, h, Bool.not_true, Bool.false_eq_true, if_false]
  rfl

/-- A block that ERR_RST names is reset; beside it only its trace sources are resynchronised. -/
theorem Dev.rstBlk_known (d : Dev) {b i : Nat} (h : (rstBlock b i).isSome) : ∃ x : TrcS, let e : Dev := { d with trc := x }
    (b = 3 → d.rstBlk r b i key = e.fpBlockReset i) ∧ (b = 7 → d.rstBlk r b i key = e.hoopReset i 1) ∧
    (b = 0xC → d.rstBlk r b i key = e.rimBlockReset i) ∧ (b = 0xD → d.rstBlk r b i key = e.cluReset i) := by
  obtain ⟨ids, hids⟩ := Option.isSome_iff_exists.1 h
  have htrc : ∀ (l : List Nat) (d : Dev), ∃ x : TrcS, l.foldl (fun d s => d.resync s) d = { d with trc := x } := fun l => by
    induction l with
    | nil => exact fun d => ⟨_, rfl⟩
    | cons s l ih => exact fun d => ih (d.resync s)
  obtain ⟨x, hx⟩ := htrc ids d
  refine ⟨x, ?_, ?_, ?_, ?_⟩ <;>
  · rintro rfl
    simp only [Dev.rstBlk, ha, hids, hx, Bool.not_true, Bool.false_eq_true, if_false]

end

/-! ### A port or rim link -/

theorem Dev.fport_setFport_same (d : Dev) (p : Nat) (x : FpS) : (d.setFport p x).fport p = x := Tab.get_set_same _ _ _ _
theorem Dev.fport_setFport_ne (d : Dev) {p q : Nat} (x : FpS) (h : q ≠ p) : (d.setFport p x).fport q = d.fport q := Tab.get_set_ne _ _ _ _ h
theorem Dev.rlink_setRlink_same (d : Dev) (i : Nat) (x : RimLink) : (d.setRlink i x).rlink i = x := Tab.get_set_same _ _ _ _
theorem Dev.rlink_setRlink_ne (d : Dev) {i j : Nat} (x : RimLink) (h : j ≠ i) : (d.setRlink i x).rlink j = d.rlink j := Tab.get_set_ne _ _ _ _ h
theorem Dev.fport_settle (d : Dev) (p : Nat) : d.settle.fport p = d.fport p := by rw [Dev.fport, Dev.settle_fp, Dev.fport]
theorem Dev.rlink_settle (d : Dev) (i : Nat) : d.settle.rlink i = d.rlink i := by rw [Dev.rlink, Dev.settle_rim, Dev.rlink]

/-- The block reset of a field port returns its registers and its state to reset (Table 3-8), of which no other port sees anything. -/
theorem Dev.fpBlockReset_settle (d : Dev) (k : Nat) :
    let t := (d.fpBlockReset k).settle
    t.fport k = {} ∧ (∀ p, p ≠ k → t.fport p = d.fport p) ∧
      ∀ f : Fld, notFill f.key → t.get f = if 64 * fpOff k 0 ≤ f.key ∧ f.key < 64 * fpOff k 0x400 then f.rst else d.get f := by
  refine ⟨?_, fun p hp => ?_, fun f hf => ?_⟩
  · rw [Dev.fport_settle, Dev.fpBlockReset, Dev.fport_setFport_same]
  · rw [Dev.fport_settle, Dev.fpBlockReset, Dev.fport_setFport_ne _ _ hp]; rfl
  · rw [Dev.get_settle _ _ hf]; exact d.get_resetWords _ _ f

theorem Dev.rimBlockReset_settle (d : Dev) (k : Nat) :
    let t := (d.rimBlockReset k).settle
    t.rlink k = {} ∧ (∀ p, p ≠ k → t.rlink p = d.rlink p) ∧
      ∀ f : Fld, notFill f.key → t.get f = if 64 * rimOff k 0 ≤ f.key ∧ f.key < 64 * rimOff k 0x80 then f.rst else d.get f := by
  refine ⟨?_, fun p hp => ?_, fun f hf => ?_⟩
  · rw [Dev.rlink_settle, Dev.rimBlockReset, Dev.rlink_setRlink_same]
  · rw [Dev.rlink_settle, Dev.rimBlockReset, Dev.rlink_setRlink_ne _ _ hp]; rfl
  · rw [Dev.get_settle _ _ hf]; exact d.get_resetWords _ _ f

/-! ### CLEAR -/

/-- What CLEAR leaves of the error block and of the registers (R394). -/
theorem Dev.logClear_settle {d : Dev} {r : Requester} (h : r = .pf ∨ r = .handle) :
    let t := (d.logClear r).settle
    t.err = { d.err with log := [] } ∧ t.get ERR_STATUS_USED = 0 ∧ t.get ERR_STATUS_LOST = 0 ∧ d.onlyRegs t [ERR_STATUS_LOST, ERR_STATUS_USED] := by
  have hrun : d.logClear r = { d.put ERR_STATUS_LOST 0 with err := { (d.put ERR_STATUS_LOST 0).err with log := [] } }.put ERR_STATUS_USED 0 :=
    if_pos (by simpa using h)
  have herr : (d.logClear r).settle.err = { d.err with log := [] } := by rw [Dev.settle_err, hrun]; rfl
  obtain ⟨-, -, -, -, -, hused, -⟩ := (d.logClear r).settle_reports
  refine ⟨herr, by rw [hused, herr]; rfl, ?_, fun f hf hfill => ?_⟩
  · rw [Dev.get_settle _ _ (notFill_of_service (by decide)), hrun, Dev.get_put_ne _ _ (by decide)]
    exact Dev.get_put_same d ERR_STATUS_LOST 0
  · have hne : f.key ≠ ERR_STATUS_LOST.key ∧ f.key ≠ ERR_STATUS_USED.key := by simpa using hf
    rw [Dev.get_settle _ _ hfill, hrun, Dev.get_put_ne _ _ hne.2]
    exact Dev.get_put_ne d 0 hne.1

theorem Dev.logClear_refused {d : Dev} {r : Requester} (hpf : r ≠ .pf) (hh : r ≠ .handle) :
    d.logClear r = d.raiseErr 0x16 0 0x0003 3 0x2FC06 (srcOf r) := if_neg (by simp [hpf, hh])

/-! ### The statement -/

/-- ERR_RST OP 2 with its KEY, block by block (R396). -/
theorem errRstBlock_completes (s : State) (ha : s.dev.awake = true) (r : Requester) (key : BitVec 16) (hr : rstAllowed r key.toNat = true)
    (b i : BitVec 5) :
    let d := s.dev
    let k := i.toNat
    let blk := Instr.errRstBlock r b i key
    (rstBlock b.toNat k = none → s.becomes blk (d.raiseErr 0x16 0 0x0001 3 0x2FC08 0)) ∧
    (b = 3 → k < 4 → s.completes blk (fun t => t.fport k = {} ∧ (∀ p, p ≠ k → t.fport p = d.fport p) ∧
      ∀ f : Fld, notFill f.key → t.get f = (if 64 * fpOff k 0 ≤ f.key ∧ f.key < 64 * fpOff k 0x400 then f.rst else d.get f))) ∧
    (b = 0xC → k < 2 → s.completes blk (fun t => t.rlink k = {} ∧ (∀ p, p ≠ k → t.rlink p = d.rlink p) ∧
      ∀ f : Fld, notFill f.key → t.get f = (if 64 * rimOff k 0 ≤ f.key ∧ f.key < 64 * rimOff k 0x80 then f.rst else d.get f))) ∧
    (b = 7 → (d.get (HOOP_SVC_STATE k) = 1 ∨ d.get (HOOP_SVC_STATE k) = 2) → s.completes blk (fun t =>
      t.get (HOOP_SVC_STATE k) = 0 ∧ t.get (HOOP_SVC_CAUSE k) = 1 ∧ ∀ c ∈ t.hoop.ctxs, c.hoop ≠ k)) ∧
    (b = 0xD → k < 12 → (d.get (STK_CLU_SVC_STATE k) = 1 ∨ d.get (STK_CLU_SVC_STATE k) = 2) → s.completes blk (fun t =>
      t.get (STK_CLU_SVC_BUSY k) = 1 ∧ ∀ j, j < 4 → t.get (STK_CORE_CTL_STATE (4 * k + j)) = 3)) := by
  have hi : i.toNat < 32 := i.isLt
  have hc : ∀ {P : Dev → Prop}, P (s.dev.rstBlk r b.toNat i.toNat key.toNat).settle → s.completes (.errRstBlock r b i key) P := fun hP =>
    State.completes_run (f := fun d => d.rstBlk r b.toNat i.toNat key.toNat) rfl ha hP
  refine ⟨fun h => State.becomes_run (f := fun d => d.rstBlk r b.toNat i.toNat key.toNat) rfl ha (Dev.rstBlk_unknown hr _ h), ?_, ?_, ?_, ?_⟩
  · rintro rfl hk
    obtain ⟨x, hport, -⟩ := s.dev.rstBlk_known hr (b := 3) (i := i.toNat) (by simp [rstBlock, hk])
    refine hc ?_
    rw [show (3 : BitVec 5).toNat = 3 from rfl, hport rfl]
    exact Dev.fpBlockReset_settle _ _
  · rintro rfl hk
    obtain ⟨x, -, -, hrim, -⟩ := s.dev.rstBlk_known hr (b := 0xC) (i := i.toNat) (by simp [rstBlock, hk])
    refine hc ?_
    rw [show (0xC : BitVec 5).toNat = 0xC from rfl, hrim rfl]
    exact Dev.rimBlockReset_settle _ _
  · rintro rfl hst
    obtain ⟨x, -, hhoop, -⟩ := s.dev.rstBlk_known hr (b := 7) (i := i.toNat) (by simp [rstBlock, hi])
    refine hc ?_
    rw [show (7 : BitVec 5).toNat = 7 from rfl, hhoop rfl, Dev.get_settle _ _ (notFill_of_service (by simp only [HOOP_SVC_STATE]; omega)),
      Dev.get_settle _ _ (notFill_of_service (by simp only [HOOP_SVC_CAUSE]; omega)), Dev.settle_hoop]
    exact Dev.hoopReset_fields _ (by decide) hst
  · rintro rfl hk hst
    obtain ⟨x, -, -, -, hclu⟩ := s.dev.rstBlk_known hr (b := 0xD) (i := i.toNat) (by simp [rstBlock, hk])
    refine hc ?_
    rw [show (0xD : BitVec 5).toNat = 0xD from rfl, hclu rfl]
    obtain ⟨hbusy, hcores⟩ := Dev.cluReset_fields { s.dev with trc := x } hk hst
    refine ⟨?_, fun j hj => ?_⟩
    · rw [Dev.get_settle _ _ (notFill_of_service (by simp only [STK_CLU_SVC_BUSY]; omega)), hbusy]
    · rw [Dev.get_settle _ _ (notFill_of_service (by simp only [STK_CORE_CTL_STATE]; omega)), hcores j hj]

/-- Settles O58: what each reset leaves, and that ending the command only brings up to date what reports a fill. -/
theorem resets : Obligations.Resets := by
  intro s
  refine ⟨State.completes_runAll (f := fun d => d.powerOn) rfl s.dev.powerOn_settle,
    State.completes_runAll (f := fun d => d.supplyReset) rfl s.dev.powerOn_settle, State.becomes_runAll (f := fun d => d.resetRelease) rfl rfl,
    fun ho => ⟨State.completes_runAon (f := fun d => d.warmReset 7) rfl ho (s.dev.warmReset_settle 7 (by decide)), fun hf hp => ?_, fun h => ?_⟩,
    fun ha r key b i => ⟨fun hno => ?_, fun hmay => ?_⟩, fun ha r => ⟨fun h => ?_, fun hpf hh => ?_⟩⟩
  · have hrun : s.dev.fatalReset = s.dev.warmReset 3 := if_pos (by rw [hf, hp]; rfl)
    exact State.completes_runAon (f := fun d => d.fatalReset) rfl ho (hrun ▸ s.dev.warmReset_settle 3 (by decide))
  · exact State.becomes_runAon (f := fun d => d.fatalReset) rfl ho (if_neg (by rcases h with h | h <;> simp [h]))
  · have hr : rstAllowed r key.toNat = false := Bool.eq_false_iff.2 fun h => hno ((rstAllowed_iff r key).1 h)
    exact ⟨State.becomes_run (f := fun d => d.rstDevice r key.toNat) rfl ha (Dev.rstDevice_refused hr),
      State.becomes_run (f := fun d => d.rstBlk r b.toNat i.toNat key.toNat) rfl ha (Dev.rstBlk_refused _ _ hr)⟩
  · have hr := (rstAllowed_iff r key).2 hmay
    refine ⟨State.completes_run (f := fun d => d.rstDevice r key.toNat) rfl ha ?_, errRstBlock_completes s ha r key hr b i⟩
    rw [Dev.rstDevice_allowed hr]
    exact s.dev.warmReset_settle 1 (by decide)
  · exact State.completes_run (f := fun d => d.logClear r) rfl ha (Dev.logClear_settle h)
  · exact State.becomes_run (f := fun d => d.logClear r) rfl ha (Dev.logClear_refused hpf hh)

end Sys2Proof.Machine
end

section
/-!
SUPPORT. A counterexample to the statements about Plait's instructions: a stake core that performs a load ahead of its place (R292) and by that loses a
store (R295), whose machine check goes before the instruction that was about to execute (R261).
-/
namespace Sys2Proof.Machine

/-! ### A machine check goes before the instruction (R261) -/

/-- A running stake core that has a machine check to take, once the loads that come ahead have been performed, takes it in place of the instruction. -/
theorem Dev.issue_takeMc {d : Dev} {c : Core} {i : PIns} (hrun : d.runnable (.stake c) = true)
    (hlink : ((d.entering (.stake c) i.env).1.th (4096 + c)).link = none)
    (hmc : ((d.entering (.stake c) i.env).1.th (4096 + c)).mcLevel.isSome = true) :
    d.issue io (.stake c) i = (d.entering (.stake c) i.env).1.takeMc (d.entering (.stake c) i.env).2 none := by
  have hk : (d.entering (.stake c) i.env).2.k = 4096 + c := rfl
  unfold Dev.issue
  rw [if_neg (by simp [hrun])]
  unfold Dev.entering at *
  simp only [hk, hlink, hmc, if_true]

/-! ### The counterexample -/

/-- Line 4097 w, at way w of the L2 of cluster 0: all sixteen lie in set 0. Core 0 has stored to line 0, which is the next to go. -/
def setZeroLine (w : Nat) : Nat × L2Line :=
  (4097 * w, { data := List.replicate 64 0, dirty := w == 0, poison := false, holders := [(0, w)],
               own := if w = 0 then some 0 else none, lru := if w = 0 then [0] else [] })

/-- Core 0 is to execute the instruction at word 32, whose line lies in its fetch buffer. Set 0 of its L2 is full, and the line there that the core has
stored to lies in region 3, which no stake core may write (Table 12-5). g1 holds an address beyond the core's space. -/
def fullSetDev : Dev :=
  { regs := [((STK_CORE_CTL_STATE 0).key, 1), (MEM_STATUS_READY.key, 1), (MEM_STATUS_SIZE.key, 1)]
    boot := { held := false }
    thr := { t := [(4096, { pc := 32, g := [(1, 2 ^ 42)] })] }
    mem := { l2 := (List.range 16).map setZeroLine, fbuf := [(0, [(1, List.replicate 64 0)])], prot := [(3, (0, 2 ^ 17))] } }

def fullSetState : State := { dev := fullSetDev }

/-- A load from line 16 × 4097, which lies in set 0 too, is performed ahead. -/
def loadAhead : MemEnv := { ahead := [⟨0, 0, 0x200200, 0⟩] }

/-- The device once that load has been performed, and what the instruction runs under. -/
def aheadDev : Dev := (fullSetDev.entering (.stake 0) loadAhead).1
def aheadCx : Cx := (fullSetDev.entering (.stake 0) loadAhead).2

theorem aheadDev_link : (aheadDev.th 4096).link = none := by decide +kernel

/-- The line that made room could not be written back: the thread has a machine check that it can take. -/
theorem aheadDev_mcLevel : (aheadDev.th 4096).mcLevel.isSome = true := by decide +kernel

/-- The machine check (0x1C) is entered at its vector. -/
theorem aheadDev_takeMc : ((aheadDev.takeMc aheadCx none).th 4096).pc = 0x240 ∧ ((aheadDev.takeMc aheadCx none).th 4096).cr 0x213 = 0x1C := by
  decide +kernel

theorem fullSetDev_quiet : fullSetDev.quiet (.stake 0) :=
  ⟨by decide +kernel, rfl, rfl, rfl, rfl, rfl, rfl, .inr rfl, fun _ _ h => (nomatch h)⟩

theorem aheadDev_fetchIns :
    (aheadDev.units aheadCx [1] aheadCx.pc 1 false).bind (fun d _ => d.fetchIns aheadCx 2) = .ok aheadDev () := by rfl

section
variable {c : Instr} {i : PIns} (henv : i.env = loadAhead)
include henv

/-- The fetch of an instruction of two words, which its fetch buffer holds, changes nothing. -/
theorem fullSetDev_fetched (hl : i.l = false) : fullSetDev.fetched (.stake 0) i aheadDev := by
  have hlen : i.len = 2 := by simp [PIns.len, hl]
  show _ = Res.ok aheadDev ()
  rw [henv, hlen]
  exact aheadDev_fetchIns

theorem fullSetDev_poised (hl : i.l = false) (hlegal : i.legal .stake = true) (hguard : i.guard (fullSetDev.th 4096) = true) :
    fullSetDev.poised (.stake 0) i aheadDev :=
  ⟨fullSetDev_quiet, fullSetDev_fetched henv hl, hlegal, fun _ => ⟨rfl, .inl rfl⟩, rfl, hguard⟩

/-- What completes on the counterexample has entered the machine check. -/
theorem fullSetState_completes {P : Dev → Prop} (hc : exec c fullSetState = fullSetState.run (fun d => d.issue io (.stake 0) i))
    (h : fullSetState.completes c P) : ∃ d, P d ∧ (d.th 4096).pc = 0x240 ∧ (d.th 4096).cr 0x213 = 0x1C := by
  obtain ⟨t, ht, -, hP⟩ := h
  have hissue : fullSetDev.issue io (.stake 0) i = aheadDev.takeMc aheadCx none := by
    rw [Dev.issue_takeMc fullSetDev_quiet.1 (by rw [henv]; exact aheadDev_link) (by rw [henv]; exact aheadDev_mcLevel), henv]
    rfl
  rw [hc, State.run, if_pos (by rfl)] at ht
  injection ht with ht
  have hth : t.dev.th 4096 = (aheadDev.takeMc aheadCx none).th 4096 := by
    rw [← ht, ← hissue]
    simp only [Dev.th, Dev.settle_thr]
    rfl
  exact ⟨t.dev, hP, hth ▸ aheadDev_takeMc⟩

/-- No thread goes on there as record y with its PC elsewhere than at the vector. -/
theorem fullSetState_not_goesTo (hc : exec c fullSetState = fullSetState.run (fun d => d.issue io (.stake 0) i)) {y : Thr} {Q : Dev → Prop}
    (hy : y.pc ≠ 0x240) : ¬ fullSetState.completes c (fun d => y.goesTo (d.th 4096) ∧ Q d) := by
  intro h
  obtain ⟨d, ⟨hgoes, -⟩, hpc, -⟩ := fullSetState_completes henv hc h
  rw [hgoes.1] at hpc
  exact hy hpc

/-- No instruction retires there. -/
theorem fullSetState_not_retiresFrom (hc : exec c fullSetState = fullSetState.run (fun d => d.issue io (.stake 0) i)) {f : Thr → Thr}
    (hf : ((f (aheadDev.th 4096)).advance (aheadDev.th 4096).pc i.len .next).pc ≠ 0x240) :
    ¬ fullSetState.retiresFrom c (.stake 0) i aheadDev f := fullSetState_not_goesTo henv hc hf

end

/-- Operands of two words under which the load is performed ahead, with RA as given. -/
def aheadReg (ra : BitVec 5) : PReg :=
  { gp := 0, gs := false, l := false, rd := 0, x := false, ra := ra, rb := 0, sub := 0, imm := 0, env := loadAhead }
def aheadArg : PArg := { gp := 0, gs := false, l := false, rd := 0, x := false, arg := 0, imm := 0, env := loadAhead }

/-! ### The statements -/

/-- A prefetch beyond a core's addresses does nothing. -/
theorem Dev.spref_beyond (d : Dev) (cx : Cx) {va : Nat} (h : 2 ^ 42 ≤ va) : d.spref cx va = d := by
  have hleaf : d.leafOf cx .load 1 va = .bad d (.exc 0x05 va 1 false) := if_pos h
  simp only [Dev.spref, Dev.trPart, hleaf, Res.bind]

/-- Refutes O42: `quiet` speaks of the device before the loads that come ahead. Here one of them costs the core a store, and it takes the machine
check where the statement has ADD retire. -/
theorem not_plaitIntegers : ¬ Obligations.PlaitIntegers := by
  rintro ⟨hclass, -⟩
  obtain ⟨hadd, -⟩ := hclass fullSetState (.add (.stake 0) (aheadReg 0)) (.stake 0) _ rfl rfl
  exact fullSetState_not_retiresFrom rfl rfl (by decide +kernel)
    (hadd rfl (by decide) aheadDev (fullSetDev_poised rfl rfl (by decide) (by decide)))

/-- Refutes O43: FMOV does not retire where the load that comes ahead of it has lost the core a store. -/
theorem not_plaitFloat : ¬ Obligations.PlaitFloat := by
  rintro ⟨hclass, -⟩
  obtain ⟨-, -, -, hmov, -⟩ := hclass fullSetState (.fmov (.stake 0) (aheadReg 0)) (.stake 0) _ rfl rfl rfl
  exact fullSetState_not_retiresFrom rfl rfl (by decide +kernel)
    (hmov rfl aheadDev (fullSetDev_poised rfl rfl (by decide) (by decide)))

/-- Refutes O44: PREF, of an address beyond the core's, does not retire where the load that comes ahead of it has lost the core a store. -/
theorem not_plaitMemory : ¬ Obligations.PlaitMemory := by
  rintro ⟨hclass, -⟩
  obtain ⟨-, -, -, hpref, -⟩ := hclass fullSetState (.pref (.stake 0) (aheadReg 1)) (.stake 0) _ aheadDev aheadDev rfl rfl
    (fullSetDev_poised rfl rfl (by decide) (by decide))
  have hp := hpref rfl rfl
  rw [if_pos (by rfl), Dev.spref_beyond _ _ (by decide +kernel)] at hp
  exact fullSetState_not_retiresFrom rfl rfl (by decide +kernel) hp

/-- Refutes O45: BMOVE of no word does not end where the load that comes ahead of it has lost the core a store. -/
theorem not_plaitLong : ¬ Obligations.PlaitLong := by
  rintro ⟨hclass, -⟩
  obtain ⟨hnone, -⟩ := hclass fullSetState (.bmove (.stake 0) (aheadReg 0)) (.stake 0) _ aheadDev rfl rfl rfl
    (fullSetDev_poised rfl rfl (by decide) (by decide))
  exact fullSetState_not_retiresFrom rfl rfl (by decide +kernel) (hnone rfl)

/-- Refutes O46: BR does not go on to its slot where the load that comes ahead of it has lost the core a store. -/
theorem not_plaitBranches : ¬ Obligations.PlaitBranches := by
  rintro ⟨hclass, -⟩
  obtain ⟨-, -, -, hbr, -⟩ := hclass fullSetState (.br (.stake 0) aheadArg) (.stake 0) _ aheadDev rfl rfl
    fullSetDev_quiet (fullSetDev_fetched rfl rfl) (by decide) (fun _ => ⟨rfl, .inl rfl⟩)
  exact fullSetState_not_goesTo rfl rfl (by decide +kernel) (hbr (by decide +kernel) (by decide +kernel) rfl)

/-- Refutes O47: NOP does not retire where the load that comes ahead of it has lost the core a store. -/
theorem not_plaitSystem : ¬ Obligations.PlaitSystem := by
  rintro ⟨hclass, -⟩
  obtain ⟨hnop, -⟩ := hclass fullSetState (.nop (.stake 0) aheadArg) (.stake 0) _ aheadDev rfl rfl rfl
    (fullSetDev_poised rfl rfl (by decide) (by decide))
  exact fullSetState_not_retiresFrom rfl rfl (by decide +kernel) (hnop (.inl rfl))

/-- Refutes O41: an illegal ADD is not entered as cause 0x01 where the load that comes ahead of it has lost the core a store: the cause is the machine
check's, 0x1C. -/
theorem not_plaitFaults : ¬ Obligations.PlaitFaults := by
  intro h
  obtain ⟨hillegal, -⟩ := h fullSetState (.add (.stake 0) { aheadReg 0 with gs := true }) (.stake 0) _ aheadDev rfl rfl (by decide)
    fullSetDev_quiet (fullSetDev_fetched rfl rfl) (by decide +kernel)
  obtain ⟨henter, -⟩ := hillegal (by decide)
  obtain ⟨d, ⟨⟨-, -, -, hcode, -⟩, -⟩, -, hcause⟩ := fullSetState_completes rfl rfl (henter (by decide +kernel))
  exact absurd (hcode.symm.trans hcause) (by decide)

end Sys2Proof.Machine
end

section
/-!
SUPPORT. A thread's record and the fields of the debug block after the operations of run control.
-/
namespace Sys2Proof.Machine

/-! ### Threads -/

@[simp] theorem Dev.th_updThr_same (d : Dev) (k : Nat) (f : Thr → Thr) : (d.updThr k f).th k = f (d.th k) := Tab.get_set_same _ _ _ _

theorem Dev.th_updThr_ne (d : Dev) {j k : Nat} (f : Thr → Thr) (h : j ≠ k) : (d.updThr k f).th j = d.th j := Tab.get_set_ne _ _ _ _ h

@[simp] theorem Dev.th_put (d : Dev) (f : Fld) (v k : Nat) : (d.put f v).th k = d.th k := rfl
@[simp] theorem Dev.th_putB (d : Dev) (f : Fld) (b : Bool) (k : Nat) : (d.putB f b).th k = d.th k := rfl
@[simp] theorem Dev.th_settle (d : Dev) (k : Nat) : d.settle.th k = d.th k := by rw [Dev.th, Dev.settle_thr, Dev.th]

@[simp] theorem ctlGet_ctlPut_same (c : Tab Nat) (n v : Nat) : ctlGet (ctlPut c n v) n = v := Tab.get_set_same _ _ _ _

theorem ctlGet_ctlPut_ne (c : Tab Nat) {m n : Nat} (v : Nat) (h : m ≠ n) : ctlGet (ctlPut c n v) m = ctlGet c m := Tab.get_set_ne _ _ _ _ h

/-- Writes of g28 and up leave the registers below as they were. -/
theorem Thr.foldl_setG_eq (v : Nat → Nat) (l : List Nat) (t : Thr) : ∃ g, l.foldl (fun a j => a.setG (28 + j) (v j)) t = { t with g := g } ∧
    ∀ j, j < 28 → Tab.get 0 g j = Tab.get 0 t.g j := by
  induction l generalizing t with
  | nil => exact ⟨t.g, rfl, fun _ _ => rfl⟩
  | cons x l ih =>
    obtain ⟨g, hg, hj⟩ := ih (t.setG (28 + x) (v x))
    have hset : t.setG (28 + x) (v x) = { t with g := Tab.set 0 t.g (28 + x) (v x % 2 ^ 64) } := if_neg (by omega)
    rw [hset] at hg hj
    refine ⟨g, by rw [List.foldl_cons, hset, hg], fun j h => ?_⟩
    rw [hj j h]
    exact Tab.get_set_ne _ _ _ _ (by omega)

/-- A write of STATUS changes STATUS and which bank's g28–g31 are live, nothing else (R258). -/
theorem Thr.toStatus_eq (t : Thr) (v : Nat) : ∃ g b, t.toStatus v = { t.setCr 0 (v % 64) with g := g, bg := b } ∧
    ∀ j, j < 28 → Tab.get 0 g j = Tab.get 0 t.g j := by
  unfold Thr.toStatus
  simp only
  split
  · exact ⟨t.g, t.bg, rfl, fun _ _ => rfl⟩
  · obtain ⟨g, hg, hj⟩ := Thr.foldl_setG_eq _ _ _
    exact ⟨g, _, hg, hj⟩

/-- Completing the multiplier's pending writes changes mh and ml, and none is pending after it (R239). -/
theorem Thr.drainMul_eq (t : Thr) : ∃ m l, t.drainMul = { t with mh := m, ml := l, mulq := [], acc := none } := by
  have hfold : ∀ (q : List (Nat × Nat × Nat)) (t : Thr), ∃ m l, q.foldl (fun t m => { t with mh := m.2.1, ml := m.2.2 }) t = { t with mh := m, ml := l } := by
    intro q
    induction q with
    | nil => exact fun t => ⟨t.mh, t.ml, rfl⟩
    | cons x q ih => exact fun t => (ih _).imp fun m h => h.imp fun l h => h
  obtain ⟨m, l, h⟩ := hfold t.mulq t
  unfold Thr.drainMul
  simp only [h]
  cases hacc : t.acc with
  | none => exact ⟨m, l, rfl⟩
  | some x => exact ⟨x.1, x.2, rfl⟩

/-- Outside a HOLD window leaving the place in the program changes no control register. -/
theorem Thr.ctl_leave (t : Thr) (h : t.held = false) : t.leave.ctl = t.ctl := by
  obtain ⟨m, l, hm⟩ := t.drainMul_eq
  have hheld : t.drainMul.held = false := by rw [hm]; exact h
  have hunhold : t.drainMul.unhold = { t.drainMul with hold := 0 } := by rw [Thr.unhold, hheld]; rfl
  rw [Thr.leave, hunhold, hm]

/-! ### Halt and resumption of a core (R365, R366) -/

theorem dbgCore_dbgThread (c : Fin 49) : dbgCore (dbgThread c) = c := by
  unfold dbgThread
  split
  · rfl
  · simp only [dbgCore]; omega

/-- A thread's record once it has halted with a cause at a boundary of this pair, its U and IE being `ui` there. -/
def Thr.haltedAt (h : Thr) (cause ui : Nat) (pair : Nat × Nat) : Thr :=
  let w := h.waiting
  let h := { h.leave with haltReq := none, stepping := 0, waiting := w, pend := h.pend.filter (fun w => w.1 != 0) }
  let h := ((h.setCr 0x300 pair.1).setCr 0x301 pair.2).setCr 0x302 (h.cr 0 / 4 * 4 + ui % 4)
  ({ h with pc := pair.1, npc := some pair.2 }.setCr 0x303 cause).toStatus (h.cr 0 / 16 * 16 + 12)

/-- A thread's record once it has been resumed. -/
def Thr.resumed (h : Thr) : Thr :=
  let h := h.sync
  let s := h.cr 0x302
  let h := h.toStatus (s - (if bit s 5 then 32 else 0))
  { h with pc := h.cr 0x300, npc := some (h.cr 0x301) }

/-- STATUS as a halt leaves it selects level 3. -/
theorem bits_haltStatus (v : Nat) : bits ((v / 16 * 16 + 12) % 64) 3 2 = 3 := by
  simp only [bits]
  omega

/-- What a halted thread's record holds: the pair, DSTAT and the cause saved, level 3, no request and no reservation left (R365). -/
theorem Thr.haltedAt_spec (h : Thr) (cause : Nat) (pair : Nat × Nat) (hheld : h.held = false) :
    let y := h.haltedAt cause (h.cr 0) pair
    y.pc = pair.1 ∧ y.npc = some pair.2 ∧ y.cr 0x300 = pair.1 ∧ y.cr 0x301 = pair.2 ∧ y.cr 0x302 = h.cr 0 ∧ y.cr 0x303 = cause ∧ y.lvl = 3 ∧
      y.haltReq = none ∧ y.resv = none := by
  have hstatus : h.cr 0 / 4 * 4 + h.cr 0 % 4 = h.cr 0 := by omega
  unfold Thr.haltedAt
  simp only
  obtain ⟨g, b, hy, -⟩ := Thr.toStatus_eq _ _
  rw [hy]
  refine ⟨rfl, rfl, ?_, ?_, ?_, ?_, ?_, rfl, rfl⟩
  · simp (disch := decide) only [Thr.cr, Thr.setCr, ctlGet_ctlPut_same, ctlGet_ctlPut_ne]
  · simp (disch := decide) only [Thr.cr, Thr.setCr, ctlGet_ctlPut_same, ctlGet_ctlPut_ne]
  · simp (disch := decide) only [Thr.cr, Thr.setCr, ctlGet_ctlPut_same, ctlGet_ctlPut_ne, Thr.ctl_leave h hheld]
    exact hstatus
  · simp (disch := decide) only [Thr.cr, Thr.setCr, ctlGet_ctlPut_same, ctlGet_ctlPut_ne]
  · simp only [Thr.lvl, Thr.cr, Thr.setCr, ctlGet_ctlPut_same, bits_haltStatus]

/-- A resumption with no marked write waiting goes on from the saved pair and DSTAT (R366). -/
theorem Thr.resumed_spec (h : Thr) (hpend : h.pend = []) :
    h.resumed.pc = h.cr 0x300 ∧ h.resumed.npc = some (h.cr 0x301) ∧ h.resumed.cr 0 = (h.cr 0x302 - (if bit (h.cr 0x302) 5 then 32 else 0)) % 64 ∧
      (∀ j, j < 28 → h.resumed.gr j = h.gr j) ∧ h.resumed.f = h.f := by
  have hsync : h.sync = h := by rw [Thr.sync, hpend, List.foldl_nil, ← hpend]
  unfold Thr.resumed
  simp only [hsync]
  obtain ⟨g, b, hy, hg⟩ := Thr.toStatus_eq h (h.cr 0x302 - (if bit (h.cr 0x302) 5 then 32 else 0))
  rw [hy]
  refine ⟨?_, ?_, ?_, fun j hj => ?_, rfl⟩
  · simp (disch := decide) [Thr.cr, Thr.setCr, ctlGet_ctlPut_ne]
  · simp (disch := decide) [Thr.cr, Thr.setCr, ctlGet_ctlPut_ne]
  · simp [Thr.cr, Thr.setCr]
  · simp only [Thr.gr, hg j hj]

/-! ### The fields of the debug block -/

/-- No field of the debug block reports a fill. -/
theorem notFill_of_debug {k : Nat} (h : 64 * 0x20000 ≤ k ∧ k < 64 * 0x28000) : notFill k := by
  refine ⟨fun p hp => ?_, fun f hf => ?_, ?_, ?_, ?_, ?_, ?_⟩ <;>
    simp only [FP_STATUS_LEVEL, FP_STATUS_HIWAT, HIF_FN_STATUS_READS, HIF_FN_STATUS_KEPT, HOOP_MIG_STATUS_PHASE, BSK_FREE_CELLS,
      RIM_CTAB_USED, ERR_STATUS_USED, TRC_STATUS_FILL] <;> omega

/-- RESUME settles the thread's record, HALTED and a stake core's STATE. -/
theorem Dev.resumeThr_eq (d : Dev) (c : Fin 49) : d.resumeThr (dbgThread c) =
    let e := (d.updThr (tid (dbgThread c)) Thr.resumed).putB (DBG_CORE_STAT_HALTED c) false
    if c.val < 48 then e.put (STK_CORE_CTL_STATE c) 1 else e := by
  have hc := dbgCore_dbgThread c
  by_cases h : c.val < 48
  · rw [show dbgThread c = .stake ⟨c, h⟩ from dif_pos h] at *
    simp only [Dev.resumeThr, if_pos h]
    rfl
  · rw [show dbgThread c = .handle from dif_neg h] at *
    simp only [Dev.resumeThr, hc, if_neg h]
    rfl

/-- A halt settles the thread's record, what DBG_CORE_STAT says of it and a stake core's STATE. -/
theorem Dev.haltWith_eq (d : Dev) (c : Fin 49) (cause unit ui : Nat) (pair : Nat × Nat) : d.haltWith (dbgThread c) cause unit ui pair =
    let e := ((((d.updThr (tid (dbgThread c)) (fun h => h.haltedAt cause ui pair)).putB (DBG_CORE_STAT_HALTED c) true).putB
      (DBG_CORE_STAT_HALTPEND c) false).put (DBG_CORE_STAT_CAUSE c) cause).put (DBG_CORE_STAT_UNIT c) unit
    if c.val < 48 then e.put (STK_CORE_CTL_STATE c) 2 else e := by
  have hc := dbgCore_dbgThread c
  by_cases h : c.val < 48
  · rw [show dbgThread c = .stake ⟨c, h⟩ from dif_pos h] at *
    simp only [Dev.haltWith, if_pos h]
    rfl
  · rw [show dbgThread c = .handle from dif_neg h] at *
    simp only [Dev.haltWith, hc, if_neg h]
    rfl

section
variable (d : Dev) (c : Fin 49)

theorem Dev.th_resumeThr : (d.resumeThr (dbgThread c)).th (tid (dbgThread c)) = (d.th (tid (dbgThread c))).resumed := by
  rw [Dev.resumeThr_eq]
  simp only
  split <;> simp only [Dev.th_put, Dev.th_putB, Dev.th_updThr_same]

theorem Dev.th_resumeThr_ne {j : Nat} (h : j ≠ tid (dbgThread c)) : (d.resumeThr (dbgThread c)).th j = d.th j := by
  rw [Dev.resumeThr_eq]
  simp only
  split <;> simp only [Dev.th_put, Dev.th_putB, Dev.th_updThr_ne _ _ h]

/-- A core that resumes is halted no more; a stake core runs. -/
theorem Dev.get_resumeThr : (d.resumeThr (dbgThread c)).get (DBG_CORE_STAT_HALTED c) = 0 ∧
    (c.val < 48 → (d.resumeThr (dbgThread c)).get (STK_CORE_CTL_STATE c) = 1) := by
  rw [Dev.resumeThr_eq]
  simp only
  split
  next h =>
    refine ⟨?_, fun _ => Dev.get_put_same _ _ _⟩
    rw [Dev.get_put_ne _ _ (by simp only [DBG_CORE_STAT_HALTED, STK_CORE_CTL_STATE]; omega)]
    exact Dev.get_put_same _ _ _
  next h => exact ⟨Dev.get_put_same _ _ _, fun hlt => absurd hlt h⟩

variable (cause unit ui : Nat) (pair : Nat × Nat)

theorem Dev.th_haltWith : (d.haltWith (dbgThread c) cause unit ui pair).th (tid (dbgThread c)) =
    (d.th (tid (dbgThread c))).haltedAt cause ui pair := by
  rw [Dev.haltWith_eq]
  simp only
  split <;> simp only [Dev.th_put, Dev.th_putB, Dev.th_updThr_same]

theorem Dev.th_haltWith_ne {j : Nat} (h : j ≠ tid (dbgThread c)) : (d.haltWith (dbgThread c) cause unit ui pair).th j = d.th j := by
  rw [Dev.haltWith_eq]
  simp only
  split <;> simp only [Dev.th_put, Dev.th_putB, Dev.th_updThr_ne _ _ h]

/-- What a halt reports of its core. -/
theorem Dev.get_haltWith : let t := d.haltWith (dbgThread c) cause unit ui pair
    t.get (DBG_CORE_STAT_HALTED c) = 1 ∧ t.get (DBG_CORE_STAT_HALTPEND c) = 0 ∧
      t.get (DBG_CORE_STAT_CAUSE c) = cause % 2 ^ (DBG_CORE_STAT_CAUSE c).w ∧ (c.val < 48 → t.get (STK_CORE_CTL_STATE c) = 2) := by
  rw [Dev.haltWith_eq]
  simp only
  split
  all_goals
    simp (disch := (simp only [DBG_CORE_STAT_HALTED, DBG_CORE_STAT_HALTPEND, DBG_CORE_STAT_CAUSE, DBG_CORE_STAT_UNIT, STK_CORE_CTL_STATE]; omega)) only
      [Dev.putB, Dev.get_put_ne, Dev.get_put_same]
  · exact ⟨rfl, rfl, trivial, fun _ => rfl⟩
  · next h => exact ⟨rfl, rfl, trivial, fun hlt => absurd hlt h⟩

end

end Sys2Proof.Machine
end

section
/-!
SUPPORT. Run control of cores and strand engines (R365–R368, R372), command by command.
-/
namespace Sys2Proof.Machine

/-! ### Permission, and a command in the wrong state -/

theorem Dev.on_iff (d : Dev) (f : Fld) : d.on f = true ↔ d.get f = 1 := beq_iff_eq

theorem Dev.on_false_iff (d : Dev) (f : Fld) : d.on f = false ↔ d.get f ≠ 1 := beq_eq_false_iff_ne

section
variable {s : State} {r : Requester} {c : Fin 49} (ha : s.dev.awake = true)
include ha

theorem runControl_denied (h : s.dev.mayRun r c = false) :
    (∀ i ∈ ([.halt r c, .debugResume r c, .debugStep r c] : List Instr), s.becomes i (s.dev.notAuth r (coreDbgOff c))) ∧
      ∀ e, s.becomes (.debugExec r c e) (s.dev.notAuth r (coreDbgOff c)) := by
  have hno : (!s.dev.mayRun r c) = true := by rw [h]; rfl
  refine ⟨fun i hi => ?_, fun e => State.becomes_run (f := fun d => d.execCmd io r c e) rfl ha (if_pos hno)⟩
  simp only [List.mem_cons, List.not_mem_nil, or_false] at hi
  rcases hi with rfl | rfl | rfl
  · exact State.becomes_run (f := fun d => d.haltCmd r c) rfl ha (if_pos hno)
  · exact State.becomes_run (f := fun d => d.resumeCmd r c) rfl ha (if_pos hno)
  · exact State.becomes_run (f := fun d => d.stepCmd r c) rfl ha (if_pos hno)

variable (hmay : s.dev.mayRun r c = true)
include hmay

theorem halt_halted (h : s.dev.get (DBG_CORE_STAT_HALTED c) = 1) :
    s.becomes (.halt r c) (s.dev.raiseErr 0x13 c 0x0003 3 (coreDbgOff c) (srcOf r)) := by
  refine State.becomes_run (f := fun d => d.haltCmd r c) rfl ha ?_
  simp only [Dev.haltCmd, hmay, (Dev.on_iff _ _).2 h, Bool.not_true, Bool.false_eq_true, if_false, if_true, Dev.errState]

theorem halt_running (h : s.dev.get (DBG_CORE_STAT_HALTED c) ≠ 1) :
    (s.dev.coreInReset c = true → s.becomes (.halt r c) (s.dev.put (DBG_CORE_STAT_HALTPEND c) 1)) ∧
    (s.dev.coreInReset c = false → s.becomes (.halt r c) (s.dev.updThr (tid (dbgThread c)) (fun t => { t with haltReq := some (1, 0) }))) := by
  have hoff := (Dev.on_false_iff _ _).2 h
  refine ⟨fun hr => State.becomes_run (f := fun d => d.haltCmd r c) rfl ha ?_, fun hr => State.becomes_run (f := fun d => d.haltCmd r c) rfl ha ?_⟩
  · simp only [Dev.haltCmd, hmay, hoff, hr, Bool.not_true, Bool.false_eq_true, if_false, if_true]
  · simp only [Dev.haltCmd, hmay, hoff, hr, Bool.not_true, Bool.false_eq_true, if_false]

theorem runControl_running (h : s.dev.get (DBG_CORE_STAT_HALTED c) ≠ 1) : let refused := s.dev.raiseErr 0x13 c 0x0003 3 (coreDbgOff c) (srcOf r)
    s.becomes (.debugResume r c) refused ∧ s.becomes (.debugStep r c) refused ∧ ∀ e, s.becomes (.debugExec r c e) refused := by
  have hoff := (Dev.on_false_iff _ _).2 h
  refine ⟨State.becomes_run (f := fun d => d.resumeCmd r c) rfl ha ?_, State.becomes_run (f := fun d => d.stepCmd r c) rfl ha ?_,
    fun e => State.becomes_run (f := fun d => d.execCmd io r c e) rfl ha ?_⟩
  · simp only [Dev.resumeCmd, hmay, hoff, Bool.not_true, Bool.not_false, Bool.false_eq_true, if_false, if_true, Dev.errState]
  · simp only [Dev.stepCmd, hmay, hoff, Bool.not_true, Bool.not_false, Bool.false_eq_true, if_false, if_true, Dev.errState]
  · simp only [Dev.execCmd, hmay, hoff, Bool.not_true, Bool.not_false, Bool.false_eq_true, if_false, if_true, Dev.errState]

end

/-! ### RESUME and STEP (R366) -/

/-- From d to t core c resumes as its halt saved it, with a STEP n in progress where n is not 0. -/
def Dev.Resumes (d t : Dev) (c : Fin 49) (n : Nat) : Prop :=
  let k := tid (dbgThread c)
  let h := d.th k
  t.get (DBG_CORE_STAT_HALTED c) = 0 ∧ (c.val < 48 → t.get (STK_CORE_CTL_STATE c) = 1) ∧
  (h.pend = [] → (t.th k).pc = h.cr 0x300 ∧ (t.th k).npc = some (h.cr 0x301) ∧ (t.th k).cr 0 = (h.cr 0x302 - (if bit (h.cr 0x302) 5 then 32 else 0)) % 64 ∧
    (n ≠ 0 → (t.th k).stepping = n) ∧ (∀ j, j < 28 → (t.th k).gr j = h.gr j) ∧ (t.th k).f = h.f) ∧
  ∀ j, j ≠ k → t.th j = d.th j

theorem notFill_halted (c : Fin 49) : notFill (DBG_CORE_STAT_HALTED c).key := notFill_of_debug (by simp only [DBG_CORE_STAT_HALTED]; omega)

theorem notFill_coreState {c : Nat} (h : c < 48) : notFill (STK_CORE_CTL_STATE c).key :=
  notFill_of_service (by simp only [STK_CORE_CTL_STATE]; omega)

/-- What differs from a resumption in the thread's STEP alone is one. -/
theorem Dev.resumes_of_thr {d t : Dev} {c : Fin 49} {m n : Nat} (hreg : ∀ g, t.get g = (d.resumeThr (dbgThread c)).get g)
    (hk : t.th (tid (dbgThread c)) = { (d.th (tid (dbgThread c))).resumed with stepping := m }) (hm : n ≠ 0 → m = n)
    (hne : ∀ j, j ≠ tid (dbgThread c) → t.th j = (d.resumeThr (dbgThread c)).th j) : d.Resumes t.settle c n := by
  obtain ⟨hhalted, hstate⟩ := d.get_resumeThr c
  refine ⟨?_, fun hc => ?_, fun hp => ?_, fun j hj => ?_⟩
  · rw [Dev.get_settle _ _ (notFill_halted c), hreg, hhalted]
  · rw [Dev.get_settle _ _ (notFill_coreState hc), hreg, hstate hc]
  · obtain ⟨hpc, hnpc, hcr, hgr, hf⟩ := Thr.resumed_spec _ hp
    rw [Dev.th_settle, hk]
    exact ⟨hpc, hnpc, hcr, hm, hgr, hf⟩
  · rw [Dev.th_settle, hne j hj, Dev.th_resumeThr_ne _ _ hj]

section
variable {s : State} {r : Requester} {c : Fin 49} (ha : s.dev.awake = true) (hmay : s.dev.mayRun r c = true)
  (hh : s.dev.get (DBG_CORE_STAT_HALTED c) = 1)
include ha hmay hh

theorem debugResume_completes : s.completes (.debugResume r c) (fun t => s.dev.Resumes t c 0) := by
  have hrun : s.dev.resumeCmd r c = s.dev.resumeThr (dbgThread c) := by
    simp only [Dev.resumeCmd, hmay, (Dev.on_iff _ _).2 hh, Bool.not_true, Bool.false_eq_true, if_false]
  refine State.completes_run (f := fun d => d.resumeCmd r c) rfl ha ?_
  simp only [hrun]
  exact Dev.resumes_of_thr (fun _ => rfl) (s.dev.th_resumeThr c) (fun h => absurd rfl h) (fun _ _ => rfl)

theorem debugStep_completes : s.completes (.debugStep r c) (fun t =>
    s.dev.Resumes t c (if s.dev.get (DBG_CORE_CTL_STEPINT c) = 1 then 1 else 2)) := by
  have hrun : s.dev.stepCmd r c = (s.dev.resumeThr (dbgThread c)).updThr (tid (dbgThread c)) (fun t =>
      { t with stepping := if s.dev.get (DBG_CORE_CTL_STEPINT c) = 1 then 1 else 2 }) := by
    simp only [Dev.stepCmd, hmay, (Dev.on_iff _ _).2 hh, Dev.on_iff, Bool.not_true, Bool.false_eq_true, if_false]
  refine State.completes_run (f := fun d => d.stepCmd r c) rfl ha ?_
  simp only [hrun]
  refine Dev.resumes_of_thr (fun _ => rfl) ?_ (fun _ => rfl) (fun j hj => Dev.th_updThr_ne _ _ hj)
  rw [Dev.th_updThr_same, Dev.th_resumeThr]

end

/-! ### EXEC (R367) -/

@[simp] theorem Dev.ctxFor_t (d : Dev) (x : Io) (t : ThreadId) (e : Bool) (env : MemEnv) : (d.ctxFor x t e env).2.t = t := by
  cases t <;> rfl

theorem Dev.execLoop_exc {d d2 : Dev} {cx : Cx} {i : PIns} {code a b : Nat} {l : Bool} {n : Nat} (hn : n ≠ 0)
    (h : d.attempt cx i = .bad d2 (.exc code a b l)) :
    Dev.execLoop n d cx i = (d2.put (DBG_CORE_STAT_EXCFAULT (dbgCore cx.t)) 1).put (DBG_CORE_STAT_ECODE (dbgCore cx.t)) code := by
  obtain ⟨n, rfl⟩ := Nat.exists_eq_succ_of_ne_zero hn
  simp only [Dev.execLoop, h]

theorem Dev.execLoop_next {d d2 : Dev} {cx : Cx} {i : PIns} {n : Nat} (hn : n ≠ 0) (h : d.attempt cx i = .ok d2 .next) :
    Dev.execLoop n d cx i = d2 := by
  obtain ⟨n, rfl⟩ := Nat.exists_eq_succ_of_ne_zero hn
  simp only [Dev.execLoop, h]

theorem Dev.execCmd_halted {d : Dev} {r : Requester} {c : Fin 49} (hmay : d.mayRun r c = true) (hh : d.get (DBG_CORE_STAT_HALTED c) = 1)
    (env : MemEnv) : d.execCmd io r c env =
      let x := d.ctxFor io (dbgThread c) true env
      (Dev.execLoop (2 ^ 31) x.1 x.2 { rawIns (d.get (DBG_INSN_INSN c)) with env := env }).updThr (tid (dbgThread c))
        (fun h => { h.drainMul with inLong := false, link := none }) := by
  simp only [Dev.execCmd, hmay, (Dev.on_iff _ _).2 hh, Bool.not_true, Bool.false_eq_true, if_false]

theorem debugExec_completes {s : State} {r : Requester} {c : Fin 49} (ha : s.dev.awake = true) (hmay : s.dev.mayRun r c = true)
    (hh : s.dev.get (DBG_CORE_STAT_HALTED c) = 1) (env : MemEnv) :
    let i := { rawIns (s.dev.get (DBG_INSN_INSN c)) with env := env }
    let x := s.dev.ctxFor io (dbgThread c) true env
    (∀ d2 code a b l, x.1.attempt x.2 i = .bad d2 (.exc code a b l) → s.completes (.debugExec r c env) (fun t =>
      t.get (DBG_CORE_STAT_EXCFAULT c) = 1 ∧ t.get (DBG_CORE_STAT_ECODE c) = code % 256)) ∧
    (∀ d2, x.1.attempt x.2 i = .ok d2 .next → s.becomes (.debugExec r c env)
      (d2.updThr (tid (dbgThread c)) (fun h => { h.drainMul with inLong := false, link := none }))) := by
  have hrun := Dev.execCmd_halted hmay hh env
  refine ⟨fun d2 code a b l h => ?_, fun d2 h => ?_⟩
  · refine State.completes_run (f := fun d => d.execCmd io r c env) rfl ha ?_
    simp only [hrun, Dev.execLoop_exc (n := 2 ^ 31) (by decide) h, Dev.ctxFor_t, dbgCore_dbgThread]
    refine ⟨?_, ?_⟩
    · rw [Dev.get_settle _ _ (notFill_of_debug (by simp only [DBG_CORE_STAT_EXCFAULT]; omega)), Dev.get_updThr,
        Dev.get_put_ne _ _ (by simp only [DBG_CORE_STAT_EXCFAULT, DBG_CORE_STAT_ECODE]; omega)]
      exact Dev.get_put_same _ _ _
    · rw [Dev.get_settle _ _ (notFill_of_debug (by simp only [DBG_CORE_STAT_ECODE]; omega)), Dev.get_updThr]
      exact Dev.get_put_same _ _ _
  · refine State.becomes_run (f := fun d => d.execCmd io r c env) rfl ha ?_
    simp only [hrun, Dev.execLoop_next (n := 2 ^ 31) (by decide) h]

/-! ### Strand engines (R372) -/

/-- What is done to each of the four contexts of engine e is done to those alone. -/
theorem Dev.th_contexts {f : Nat → Dev → Dev} {g : Thr → Thr} (e : Nat) (d : Dev) (hat : ∀ x d, (f x d).th (4 * e + x) = g (d.th (4 * e + x)))
    (hne : ∀ x d j, j ≠ 4 * e + x → (f x d).th j = d.th j) :
    (∀ x, x < 4 → (forN 4 f d).th (4 * e + x) = g (d.th (4 * e + x))) ∧ ∀ j, j / 4 ≠ e → (forN 4 f d).th j = d.th j := by
  refine ⟨fun x hx => ?_, fun j hj => forN_keeps (fun d => d.th j) 4 f d (fun x d hx => hne x d j (by omega))⟩
  rw [forN_at (fun d => d.th (4 * e + x)) 4 x f d hx (fun y d _ hy => hne y d _ (by omega)), hat,
    forN_keeps (fun d => d.th (4 * e + x)) x f d (fun y d hy => hne y d _ (by omega))]

/-- A resumption leaves no STEP in progress in the engine's contexts. -/
theorem Dev.th_engGo (d : Dev) (e : Nat) : (∀ x, x < 4 → (d.engGo e).th (4 * e + x) = { d.th (4 * e + x) with stepping := 0 }) ∧
    ∀ j, j / 4 ≠ e → (d.engGo e).th j = d.th j := by
  refine Dev.th_contexts (g := fun t => { t with stepping := 0 }) e (d.put (DBG_ENG_STAT_HALTED e) 0) (fun x d => ?_) (fun x d j hj => ?_)
  · split
    next h => rw [← h]
    next h => exact Dev.th_updThr_same _ _ _
  · split
    · rfl
    · exact Dev.th_updThr_ne _ _ hj

theorem Dev.get_engGo (d : Dev) (e : Nat) (g : Fld) : (d.engGo e).get g = (d.put (DBG_ENG_STAT_HALTED e) 0).get g := by
  refine forN_keeps (fun d => d.get g) 4 _ _ (fun x d _ => ?_)
  split <;> rfl

/-- A halt ends the reservations of the engine's contexts (R243). -/
theorem Dev.th_engStopped (d : Dev) (e cause : Nat) :
    (∀ x, x < 4 → (d.engStopped e cause).th (4 * e + x) = { d.th (4 * e + x) with resv := none }) ∧
      ∀ j, j / 4 ≠ e → (d.engStopped e cause).th j = d.th j :=
  Dev.th_contexts (g := fun t => { t with resv := none }) e ((d.putB (DBG_ENG_STAT_HALTED e) true).put (DBG_ENG_STAT_CAUSE e) cause)
    (fun _ _ => Dev.th_updThr_same _ _ _) (fun _ _ _ hj => Dev.th_updThr_ne _ _ hj)

theorem Dev.get_engStopped (d : Dev) (e cause : Nat) (g : Fld) :
    (d.engStopped e cause).get g = ((d.putB (DBG_ENG_STAT_HALTED e) true).put (DBG_ENG_STAT_CAUSE e) cause).get g :=
  forN_keeps (fun d => d.get g) 4 _ _ (fun _ _ _ => rfl)

theorem notFill_engHalted (e : Fin 512) : notFill (DBG_ENG_STAT_HALTED e).key := notFill_of_debug (by simp only [DBG_ENG_STAT_HALTED]; omega)

theorem notFill_engCause (e : Fin 512) : notFill (DBG_ENG_STAT_CAUSE e).key := notFill_of_debug (by simp only [DBG_ENG_STAT_CAUSE]; omega)

section
variable {s : State} {r : Requester} {e : Fin 512} (ha : s.dev.awake = true)
include ha

theorem engineControl_denied (h : s.dev.mayDebug r 2 = false) :
    ∀ i ∈ ([.engineHalt r e, .engineResume r e] ++ (List.finRange 4).map (.engineStep r e) : List Instr), s.becomes i (s.dev.notAuth r (engDbgOff e)) := by
  have hno : (!s.dev.mayDebug r 2) = true := by rw [h]; rfl
  intro i hi
  simp only [List.mem_append, List.mem_cons, List.not_mem_nil, or_false, List.mem_map] at hi
  rcases hi with (rfl | rfl) | ⟨x, -, rfl⟩
  · exact State.becomes_run (f := fun d => d.engHalt r e) rfl ha (if_pos hno)
  · exact State.becomes_run (f := fun d => d.engResume r e) rfl ha (if_pos hno)
  · exact State.becomes_run (f := fun d => d.engStep r e x) rfl ha (if_pos hno)

variable (hmay : s.dev.mayDebug r 2 = true)
include hmay

section
variable (hh : s.dev.get (DBG_ENG_STAT_HALTED e) = 1)
include hh

theorem engineHalt_halted : s.becomes (.engineHalt r e) (s.dev.raiseErr 0x13 e 0x0003 3 (engDbgOff e) (srcOf r)) := by
  refine State.becomes_run (f := fun d => d.engHalt r e) rfl ha ?_
  simp only [Dev.engHalt, hmay, (Dev.on_iff _ _).2 hh, Bool.not_true, Bool.false_eq_true, if_false, if_true, Dev.errState]

theorem engineResume_completes : s.completes (.engineResume r e) (fun t => t.get (DBG_ENG_STAT_HALTED e) = 0 ∧
    (∀ x : Fin 4, t.th (4 * e + x) = { s.dev.th (4 * e + x) with stepping := 0 }) ∧ (∀ j, j / 4 ≠ e → t.th j = s.dev.th j) ∧
    s.dev.onlyRegs t [DBG_ENG_STAT_HALTED e]) := by
  have hrun : s.dev.engResume r e = s.dev.engGo e := by
    simp only [Dev.engResume, hmay, (Dev.on_iff _ _).2 hh, Bool.not_true, Bool.false_eq_true, if_false]
  refine State.completes_run (f := fun d => d.engResume r e) rfl ha ?_
  simp only [hrun, Dev.th_settle]
  obtain ⟨hat, hne⟩ := s.dev.th_engGo e
  refine ⟨?_, fun x => hat x x.isLt, fun j hj => hne j fun h => hj (Fin.ext h), fun g hg hn => ?_⟩
  · rw [Dev.get_settle _ _ (notFill_engHalted e), Dev.get_engGo]
    exact Dev.get_put_same _ _ _
  · rw [Dev.get_settle _ _ hn, Dev.get_engGo, Dev.get_put_ne _ _ (by simpa using hg)]

theorem engineStep_becomes (x : Fin 4) : s.becomes (.engineStep r e x)
    ((s.dev.put (DBG_ENG_CTL_CTX e) x).updThr (4 * e + x) (fun t => { t with stepping := 1 })) := by
  refine State.becomes_run (f := fun d => d.engStep r e x) rfl ha ?_
  simp only [Dev.engStep, hmay, (Dev.on_iff _ _).2 hh, Bool.not_true, Bool.false_eq_true, if_false]

end

variable (hh : s.dev.get (DBG_ENG_STAT_HALTED e) ≠ 1)
include hh

theorem engineHalt_completes : s.completes (.engineHalt r e) (fun t => t.get (DBG_ENG_STAT_HALTED e) = 1 ∧ t.get (DBG_ENG_STAT_CAUSE e) = 1 ∧
    (∀ x : Fin 4, t.th (4 * e + x) = { s.dev.th (4 * e + x) with resv := none }) ∧
    s.dev.onlyRegs t [DBG_ENG_STAT_HALTED e, DBG_ENG_STAT_CAUSE e]) := by
  have hrun : s.dev.engHalt r e = s.dev.engStopped e 1 := by
    simp only [Dev.engHalt, hmay, (Dev.on_false_iff _ _).2 hh, Bool.not_true, Bool.false_eq_true, if_false]
  refine State.completes_run (f := fun d => d.engHalt r e) rfl ha ?_
  simp only [hrun, Dev.th_settle]
  obtain ⟨hat, -⟩ := s.dev.th_engStopped e 1
  refine ⟨?_, ?_, fun x => hat x x.isLt, fun g hg hn => ?_⟩
  · rw [Dev.get_settle _ _ (notFill_engHalted e), Dev.get_engStopped,
      Dev.get_put_ne _ _ (by simp only [DBG_ENG_STAT_HALTED, DBG_ENG_STAT_CAUSE]; omega)]
    exact Dev.get_put_same _ _ _
  · rw [Dev.get_settle _ _ (notFill_engCause e), Dev.get_engStopped]
    exact Dev.get_put_same _ _ _
  · simp only [List.map_cons, List.map_nil, List.mem_cons, List.not_mem_nil, or_false, not_or] at hg
    rw [Dev.get_settle _ _ hn, Dev.get_engStopped, Dev.get_put_ne _ _ hg.2]
    exact Dev.get_put_ne _ _ hg.1

theorem engineControl_running : let no := s.dev.raiseErr 0x13 e 0x0003 3 (engDbgOff e) (srcOf r)
    s.becomes (.engineResume r e) no ∧ ∀ x : Fin 4, s.becomes (.engineStep r e x) no := by
  have hoff := (Dev.on_false_iff _ _).2 hh
  refine ⟨State.becomes_run (f := fun d => d.engResume r e) rfl ha ?_, fun x => State.becomes_run (f := fun d => d.engStep r e x) rfl ha ?_⟩
  · simp only [Dev.engResume, hmay, hoff, Bool.not_true, Bool.not_false, Bool.false_eq_true, if_false, if_true, Dev.errState]
  · simp only [Dev.engStep, hmay, hoff, Bool.not_true, Bool.not_false, Bool.false_eq_true, if_false, if_true, Dev.errState]

end

/-! ### A halt request at a boundary (R365) -/

/-- With no marked write waiting, and no load to perform ahead, an instruction runs under the control registers as they are. -/
theorem Dev.ctxFor_of_pend (d : Dev) (x : Io) (t : ThreadId) (exec : Bool) (h : (d.th (tid t)).pend = []) :
    (d.ctxFor x t exec {}).1 = d ∧ (d.ctxFor x t exec {}).2.t = t ∧ (d.ctxFor x t exec {}).2.ctl = (d.th (tid t)).ctl := by
  have heff : d.effCtl (tid t) = (d, (d.th (tid t)).ctl) := by simp only [Dev.effCtl, h, List.foldl_nil]
  cases t <;> simp only [Dev.ctxFor, heff, List.foldl_nil, ite_self, and_self]

/-- Finding the boundary's pair writes at most a link register. -/
theorem Dev.boundary_dev (d : Dev) (cx : Cx) : (d.boundary cx).1 = d ∨
    ∃ rd, ∃ v : Thr → Nat, (d.boundary cx).1 = d.updThr cx.k (fun t => { t.setG rd (v t) with link := none }) := by
  unfold Dev.boundary
  simp only
  cases (d.th cx.k).link with
  | none => split <;> exact .inl rfl
  | some rd => split <;> exact .inr ⟨rd, fun t => wadd 64 t.pc (d.peekLen cx t.pc), rfl⟩

theorem Dev.th_boundary (d : Dev) (cx : Cx) : ∃ g l, (d.boundary cx).1.th cx.k = { d.th cx.k with g := g, link := l } := by
  rcases d.boundary_dev cx with h | ⟨rd, v, h⟩ <;> rw [h]
  · exact ⟨_, _, rfl⟩
  · rw [Dev.th_updThr_same, Thr.setG]
    split <;> exact ⟨_, _, rfl⟩

theorem Dev.th_boundary_ne (d : Dev) (cx : Cx) {j : Nat} (hj : j ≠ cx.k) : (d.boundary cx).1.th j = d.th j := by
  rcases d.boundary_dev cx with h | ⟨rd, v, h⟩ <;> rw [h]
  exact Dev.th_updThr_ne _ _ hj

/-- A request is taken only where there is one, outside a HOLD window. -/
theorem Dev.takeHalt_none {d : Dev} {cx : Cx} (h : (d.th cx.k).haltReq = none ∨ (d.th cx.k).held = true) : d.takeHalt cx = d := by
  unfold Dev.takeHalt
  simp only
  split
  next a u hreq =>
    refine if_neg ?_
    rcases h with h | h
    · rw [h] at hreq; cases hreq
    · simp [Thr.haltNow, h]
  next => rfl

theorem Dev.takeHalt_some {d : Dev} {cx : Cx} {a u : Nat} (hreq : (d.th cx.k).haltReq = some (a, u)) (hheld : (d.th cx.k).held = false)
    (hlvl : (d.th cx.k).lvl ≠ 3) : d.takeHalt cx = (d.boundary cx).1.haltWith cx.t a u (ctlGet cx.ctl 0) (d.boundary cx).2 := by
  have hnow : (d.th cx.k).haltNow = true := by simp [Thr.haltNow, hreq, hheld, hlvl]
  simp only [Dev.takeHalt, hreq, hnow, if_true]

/-- A core that runs and has nothing to take before it takes its halt request. -/
theorem Dev.debugHaltTake_eq {d : Dev} {c : Fin 49} (hp : (d.th (tid (dbgThread c))).pend = [])
    (hup : if c.val < 48 then d.coreUp c = true ∧ (d.th (tid (dbgThread c))).mcLevel = none ∧ (d.th (tid (dbgThread c))).fptNow = false
      else ¬ d.get (DBG_CORE_STAT_HALTED c) = 1) :
    d.debugHaltTake io (dbgThread c) = d.takeHalt (d.ctxFor io (dbgThread c) false {}).2 := by
  obtain ⟨hd, ht, -⟩ := d.ctxFor_of_pend io (dbgThread c) false hp
  have hk : (d.ctxFor io (dbgThread c) false {}).2.k = tid (dbgThread c) := by rw [Cx.k, ht]
  by_cases hc : c.val < 48
  · rw [if_pos hc] at hup
    obtain ⟨hcore, hmc, hfpt⟩ := hup
    have hthr : dbgThread c = .stake ⟨c, hc⟩ := dif_pos hc
    rw [hthr] at hd hk hmc hfpt ⊢
    simp only [Dev.debugHaltTake, Dev.atBoundary, hcore, if_true, hd, hk, hmc, hfpt, Option.isSome_none, Bool.or_self, Bool.false_eq_true, if_false]
  · rw [if_neg hc] at hup
    have hthr : dbgThread c = .handle := dif_neg hc
    have hnum : c.val = 48 := by omega
    rw [hnum] at hup
    rw [hthr] at hd ⊢
    simp only [Dev.debugHaltTake, (Dev.on_false_iff _ _).2 hup, Bool.false_eq_true, if_false, hd]

/-- What a halt that is taken leaves: the boundary's pair and STATUS saved, the thread at level 3, the other threads as they were. -/
theorem Dev.takeHalt_settle {d : Dev} {c : Fin 49} {a u : Nat} (hp : (d.th (tid (dbgThread c))).pend = [])
    (hlvl : (d.th (tid (dbgThread c))).lvl ≠ 3) (hreq : (d.th (tid (dbgThread c))).haltReq = some (a, u)) (hheld : (d.th (tid (dbgThread c))).held = false) :
    let k := tid (dbgThread c)
    let h := d.th k
    let x := d.ctxFor io (dbgThread c) false {}
    let b := x.1.boundary x.2
    let t := (d.takeHalt x.2).settle
    t.get (DBG_CORE_STAT_HALTED c) = 1 ∧ t.get (DBG_CORE_STAT_HALTPEND c) = 0 ∧ t.get (DBG_CORE_STAT_CAUSE c) = a % 2 ^ (DBG_CORE_STAT_CAUSE c).w ∧
      (c.val < 48 → t.get (STK_CORE_CTL_STATE c) = 2) ∧ (t.th k).pc = b.2.1 ∧ (t.th k).npc = some b.2.2 ∧ (t.th k).cr 0x300 = b.2.1 ∧
      (t.th k).cr 0x301 = b.2.2 ∧ (t.th k).cr 0x302 = h.cr 0 ∧ (t.th k).cr 0x303 = a ∧ (t.th k).lvl = 3 ∧ (t.th k).haltReq = none ∧
      (t.th k).resv = none ∧ ∀ j, j ≠ k → t.th j = d.th j := by
  intro k h x b t
  obtain ⟨hd, ht, hctl⟩ := d.ctxFor_of_pend io (dbgThread c) false hp
  have hk : x.2.k = k := by rw [Cx.k, ht]
  have hb : d.boundary x.2 = b := by simp only [b, x, hd]
  have htake : t = (b.1.haltWith (dbgThread c) a u (h.cr 0) b.2).settle := by
    simp only [t]
    rw [Dev.takeHalt_some (by rw [hk]; exact hreq) (by rw [hk]; exact hheld) (by rw [hk]; exact hlvl), ht, hctl, hb]
    rfl
  obtain ⟨hhalted, hpend, hcause, hstate⟩ := b.1.get_haltWith c a u (h.cr 0) b.2
  obtain ⟨g, l, hth⟩ := d.th_boundary x.2
  rw [hk, hb] at hth
  have hget : ∀ f : Fld, 64 * 0x20000 ≤ f.key ∧ f.key < 64 * 0x28000 → t.get f = (b.1.haltWith (dbgThread c) a u (h.cr 0) b.2).get f := fun f hf => by
    rw [htake, Dev.get_settle _ _ (notFill_of_debug hf)]
  have hrec : t.th k = ({ h with g := g, link := l } : Thr).haltedAt a (h.cr 0) b.2 := by rw [htake, Dev.th_settle, Dev.th_haltWith, hth]
  refine ⟨?_, ?_, ?_, fun hc => ?_, ?_⟩
  · rw [hget _ (by simp only [DBG_CORE_STAT_HALTED]; omega), hhalted]
  · rw [hget _ (by simp only [DBG_CORE_STAT_HALTPEND]; omega), hpend]
  · rw [hget _ (by simp only [DBG_CORE_STAT_CAUSE]; omega), hcause]
  · rw [htake, Dev.get_settle _ _ (notFill_coreState hc), hstate hc]
  · rw [hrec]
    obtain ⟨hpc, hnpc, h300, h301, h302, h303, hl3, hnone, hresv⟩ := Thr.haltedAt_spec ({ h with g := g, link := l } : Thr) a b.2 hheld
    refine ⟨hpc, hnpc, h300, h301, h302, h303, hl3, hnone, hresv, fun j hj => ?_⟩
    rw [htake, Dev.th_settle, Dev.th_haltWith_ne _ _ _ _ _ _ hj, ← hb, Dev.th_boundary_ne _ _ (hk ▸ hj)]

/-! ### The claim -/

theorem runControl : Claims.RunControl := by
  intro s r c ha d k h denied refused halted resumes
  refine ⟨runControl_denied ha, fun hmay => ⟨halt_halted ha hmay, fun hh => ?_, fun hh => ⟨debugResume_completes ha hmay hh,
    debugStep_completes ha hmay hh, debugExec_completes ha hmay hh⟩⟩, fun e => ⟨engineControl_denied ha, fun hmay => ⟨fun hh =>
    ⟨engineHalt_halted ha hmay hh, engineResume_completes ha hmay hh, engineStep_becomes ha hmay hh⟩, fun hh =>
    ⟨engineHalt_completes ha hmay hh, engineControl_running ha hmay hh⟩⟩⟩,
    fun e x => State.becomes_run (f := fun d => d.debugHaltTake io (.engine e x)) rfl ha rfl, fun hp hlvl hup => ?_⟩
  · obtain ⟨hres, hstep, hexec⟩ := runControl_running ha hmay hh
    exact ⟨hres, hstep, hexec, halt_running ha hmay hh⟩
  · have hrun := Dev.debugHaltTake_eq hp hup
    have hk : (d.ctxFor io (dbgThread c) false {}).2.k = k := by rw [Cx.k, Dev.ctxFor_t]
    refine ⟨fun hno => State.becomes_run (f := fun d => d.debugHaltTake io (dbgThread c)) rfl ha ?_, fun a u hreq hheld =>
      State.completes_run (f := fun d => d.debugHaltTake io (dbgThread c)) rfl ha ?_⟩
    · exact hrun.trans (Dev.takeHalt_none (by rw [hk]; exact hno))
    · rw [hrun]
      exact Dev.takeHalt_settle hp hlvl hreq hheld

end Sys2Proof.Machine
end

section
/-!
SUPPORT. The registers of a halted thread by number (R370, R372).
-/
namespace Sys2Proof.Machine

/-! ### Numbered registers -/

section
variable {d : Dev} {cx : Cx} {n : Nat}

theorem Dev.dbgReg_general (hn : n < 0x1C) : d.dbgReg cx n = some (d, (d.th cx.k).gr n) := by simp only [Dev.dbgReg, if_pos hn]

theorem Dev.dbgReg_float (h1 : 0x20 ≤ n) (h2 : n < 0x40) : d.dbgReg cx n = some (d, (d.th cx.k).fr (n - 0x20)) := by
  simp (disch := omega) only [Dev.dbgReg, if_neg, if_pos]

theorem Dev.dbgReg_mh : d.dbgReg cx 0x41 = some (d, (d.th cx.k).mh) := rfl
theorem Dev.dbgReg_ml : d.dbgReg cx 0x42 = some (d, (d.th cx.k).ml) := rfl

/-- Numbers that no register of a thread has. -/
theorem Dev.dbgReg_unassigned (h1 : 0x64 ≤ n) (h2 : n < 0x400) : d.dbgReg cx n = none ∧ ∀ v, d.setDbgReg cx n v = (d, 1) := by
  have h50 : (decide (0x48 ≤ n) && decide (n < 0x50)) = false := by simp; omega
  have h64 : ∀ b : Bool, (decide (0x60 ≤ n) && decide (n < 0x64) && b) = false := fun b => by simp; omega
  constructor
  · simp (disch := omega) only [Dev.dbgReg, if_neg, h50, h64, Bool.false_eq_true, if_false]
  · intro v
    simp (disch := omega) only [Dev.setDbgReg, if_neg, h50, h64, Bool.false_eq_true, if_false]

/-- Numbers of control registers that the thread's configuration does not have. -/
theorem Dev.dbgReg_noCtl (h1 : 0x400 ≤ n) (h2 : ctlReg (kindOf cx.t) 3 false (n - 0x400) = none) : d.dbgReg cx n = none := by
  have h50 : (decide (0x48 ≤ n) && decide (n < 0x50)) = false := by simp; omega
  have h64 : ∀ b : Bool, (decide (0x60 ≤ n) && decide (n < 0x64) && b) = false := fun b => by simp; omega
  simp (disch := omega) only [Dev.dbgReg, if_neg, if_pos, h50, h64, h2, Bool.false_eq_true, if_false]

theorem Dev.setDbgReg_general (v : Nat) (hn : n < 0x1C) : d.setDbgReg cx n v = (d.updThr cx.k (fun t => t.setG n v), 0) := by
  simp only [Dev.setDbgReg, if_pos hn]

theorem Dev.setDbgReg_float (v : Nat) (h1 : 0x20 ≤ n) (h2 : n < 0x40) :
    d.setDbgReg cx n v = (d.updThr cx.k (fun t => t.setF (n - 0x20) v), 0) := by
  simp (disch := omega) only [Dev.setDbgReg, if_neg, if_pos]

end

/-! ### READ and WRITE of a selection -/

section
variable {d : Dev} {x : RegSel} {n : Nat}

theorem Dev.sel_running (h : x.halted = false) :
    d.selRead io x n = (d.put x.num n).put x.result 2 ∧ d.selWrite io x n = (d.put x.num n).put x.result 2 := by
  constructor <;> simp only [Dev.selRead, Dev.selWrite, h, Bool.not_false, if_true]

variable (h : x.halted = true) (hp : (d.th (tid x.t)).pend = [])
include h hp

/-- A READ answers what the number names, whatever the rest of the context it reads under. -/
theorem Dev.selRead_some {v : Nat} (hv : ∀ cx : Cx, cx.t = x.t → (d.put x.num n).dbgReg cx n = some (d.put x.num n, v)) :
    d.selRead io x n = ((d.put x.num n).put x.data v).put x.result 0 := by
  obtain ⟨hd, ht, -⟩ := (d.put x.num n).ctxFor_of_pend io x.t true hp
  simp only [Dev.selRead, h, Bool.not_true, Bool.false_eq_true, if_false, hd]
  rw [hv]
  exact ht

theorem Dev.selRead_none (hv : ∀ cx : Cx, cx.t = x.t → (d.put x.num n).dbgReg cx n = none) :
    d.selRead io x n = (d.put x.num n).put x.result 1 := by
  obtain ⟨hd, ht, -⟩ := (d.put x.num n).ctxFor_of_pend io x.t true hp
  simp only [Dev.selRead, h, Bool.not_true, Bool.false_eq_true, if_false, hd]
  rw [hv]
  exact ht

theorem Dev.selWrite_eq {e : Dev} {res : Nat}
    (hv : ∀ cx : Cx, cx.t = x.t → (d.put x.num n).setDbgReg cx n ((d.put x.num n).get x.data) = (e, res)) :
    d.selWrite io x n = e.put x.result res := by
  obtain ⟨hd, ht, -⟩ := (d.put x.num n).ctxFor_of_pend io x.t true hp
  simp only [Dev.selWrite, h, Bool.not_true, Bool.false_eq_true, if_false, hd]
  rw [hv]
  exact ht

end

/-- The context that a selection names is no part of what says that its engine is halted. -/
theorem Dev.engSel_ctx (d : Dev) (e : Fin 512) (y : Fin 4) : (d.put (DBG_ENG_REGSEL_CTX e) y).engSel e y = d.engSel e y := by
  have hkey : (DBG_ENG_STAT_HALTED e).key ≠ (DBG_ENG_REGSEL_CTX e).key := by simp only [DBG_ENG_STAT_HALTED, DBG_ENG_REGSEL_CTX]; omega
  simp only [Dev.engSel, Dev.on, Dev.get_put_ne _ _ hkey]

theorem Dev.regsel_core {d : Dev} {r : Requester} {c : Fin 49} (hmay : d.mayRun r c = true) (n : Nat) :
    d.regsel io r (.core c) n false = d.selRead io (d.coreSel c) n ∧ d.regsel io r (.core c) n true = d.selWrite io (d.coreSel c) n := by
  simp only [Dev.regsel, hmay, Bool.not_true, Bool.false_eq_true, if_false, if_true, and_self]

theorem Dev.regsel_engine {d : Dev} {r : Requester} (hmay : d.mayDebug r 2 = true) (e : Fin 512) (y : Fin 4) (n : Nat) :
    let d0 := d.put (DBG_ENG_REGSEL_CTX e) y
    d.regsel io r (.engine e y) n false = d0.selRead io (d.engSel e y) n ∧ d.regsel io r (.engine e y) n true = d0.selWrite io (d.engSel e y) n := by
  simp only [Dev.regsel, hmay, Dev.engSel_ctx, Bool.not_true, Bool.false_eq_true, if_false, if_true, and_self]

/-! ### The claim -/

theorem debugRegisters : Claims.DebugRegisters := by
  intro s r tg n ha d rd wr may off x d0 h
  have hread : ∀ {t}, d.regsel io r tg n.toNat false = t → s.becomes rd t := fun ht =>
    State.becomes_run (f := fun d => d.regsel io r tg n.toNat false) rfl ha ht
  have hwrite : ∀ {t}, d.regsel io r tg n.toNat true = t → s.becomes wr t := fun ht =>
    State.becomes_run (f := fun d => d.regsel io r tg n.toNat true) rfl ha ht
  have hno : may = false → ∀ w, d.regsel io r tg n.toNat w = d.notAuth r off := by
    intro hmay w
    cases tg with
    | core c => exact if_pos (by rw [show d.mayRun r c = false from hmay]; rfl)
    | engine e y => exact if_pos (by rw [show d.mayDebug r 2 = false from hmay]; rfl)
  have hsel : may = true → d.regsel io r tg n.toNat false = d0.selRead io x n.toNat ∧ d.regsel io r tg n.toNat true = d0.selWrite io x n.toNat := by
    intro hmay
    cases tg with
    | core c => exact Dev.regsel_core hmay n.toNat
    | engine e y => exact Dev.regsel_engine hmay e y n.toNat
  have hth : d0.th (tid x.t) = h := by cases tg <;> rfl
  have hdata : (d0.put x.num n.toNat).get x.data = d.get x.data := by
    cases tg with
    | core c =>
      have hnum : (DBG_REGDATA_DATA c).key ≠ (DBG_REGSEL_NUM c).key := by simp only [DBG_REGDATA_DATA, DBG_REGSEL_NUM]; omega
      exact Dev.get_put_ne _ _ hnum
    | engine e y =>
      have hnum : (DBG_ENG_REGDATA_DATA e).key ≠ (DBG_ENG_REGSEL_NUM e).key := by simp only [DBG_ENG_REGDATA_DATA, DBG_ENG_REGSEL_NUM]; omega
      have hctx : (DBG_ENG_REGDATA_DATA e).key ≠ (DBG_ENG_REGSEL_CTX e).key := by simp only [DBG_ENG_REGDATA_DATA, DBG_ENG_REGSEL_CTX]; omega
      exact (Dev.get_put_ne _ _ hnum).trans (Dev.get_put_ne _ _ hctx)
  refine ⟨fun hmay => ⟨hread (hno hmay false), hwrite (hno hmay true)⟩, fun hmay => ?_⟩
  obtain ⟨hr, hw⟩ := hsel hmay
  rw [← hth]
  refine ⟨fun hx => ?_, fun hx hp => ⟨fun hn => ?_, fun h1 h2 => ?_, fun hn => ?_, fun hn => ?_, fun h1 h2 => ?_, fun h1 h2 => ?_⟩⟩
  · obtain ⟨h1, h2⟩ := Dev.sel_running (d := d0) (n := n.toNat) hx
    exact ⟨hread (hr.trans h1), hwrite (hw.trans h2)⟩
  · refine ⟨hread (hr.trans (Dev.selRead_some hx hp fun cx ht => ?_)), hwrite (hw.trans (Dev.selWrite_eq hx hp fun cx ht => ?_))⟩
    · rw [Dev.dbgReg_general hn, Cx.k, ht, Dev.th_put]
    · rw [Dev.setDbgReg_general _ hn, Cx.k, ht, hdata]
  · refine ⟨hread (hr.trans (Dev.selRead_some hx hp fun cx ht => ?_)), hwrite (hw.trans (Dev.selWrite_eq hx hp fun cx ht => ?_))⟩
    · rw [Dev.dbgReg_float h1 h2, Cx.k, ht, Dev.th_put]
    · rw [Dev.setDbgReg_float _ h1 h2, Cx.k, ht, hdata]
  · refine hread (hr.trans (Dev.selRead_some hx hp fun cx ht => ?_))
    rw [hn, Dev.dbgReg_mh, Cx.k, ht, Dev.th_put]
  · refine hread (hr.trans (Dev.selRead_some hx hp fun cx ht => ?_))
    rw [hn, Dev.dbgReg_ml, Cx.k, ht, Dev.th_put]
  · exact ⟨hread (hr.trans (Dev.selRead_none hx hp fun cx ht => (Dev.dbgReg_unassigned h1 h2).1)),
      hwrite (hw.trans (Dev.selWrite_eq hx hp fun cx ht => (Dev.dbgReg_unassigned h1 h2).2 _))⟩
  · exact hread (hr.trans (Dev.selRead_none hx hp fun cx ht => Dev.dbgReg_noCtl h1 (by rw [ht]; exact h2)))

/-- Settles O57: run control command by command, and the numbered registers by what each number names. -/
theorem haltedThreads : Obligations.HaltedThreads := ⟨runControl, debugRegisters⟩

end Sys2Proof.Machine
end
